-- ==== Sys2Proof/Word.lean ====
section
/-! DEFINITION. The word types of the block. -/
namespace Sys2Proof

/-- A byte of a frame, a record or a buffer. -/
abbrev Byte := BitVec 8

/-- A 32-bit register word. -/
abbrev Word := BitVec 32

/-- A table by key: pairs in strictly rising key order; an unlisted key has the table's default. -/
abbrev Tbl (α : Type) := List (Nat × α)

end Sys2Proof
end

