-- ==== Sys2Proof/Syntax.lean ====
section
/-! DEFINITION. The commands of the block: one constructor per row of the opcode table. -/
namespace Sys2Proof

/-- A mailbox request header as the module takes it (R268). -/
structure Rq where
  /-- tenant (8; 10 R268; -) -/
  tenant : Nat
  /-- TAG (8; 10 R268; -) -/
  tag : Nat
  /-- EPOCH (8; 10 R268; -) -/
  epoch : Nat
  /-- FLAGS [7:0] (8; 10 R269; -) -/
  flags : Nat
  /-- the request came over Ethernet (1; 10 R267; -) -/
  eth : Bool
  /-- the key slot it was authenticated with (1; 10 R288; -) -/
  slot : Nat
deriving DecidableEq, Repr

/-- The bulk block and selector of a bulk command (R295, R324). -/
structure Bulk where
  /-- BUF_ADDR (64; 10 R295; -) -/
  addr : Nat
  /-- BUF_LEN (32; 10 R295; -) -/
  len : Nat
  /-- CURSOR (32; 10 R295; -) -/
  cursor : Nat
  /-- PORT (8; 11 R324; -) -/
  port : Nat
  /-- STRING (16; 11 R324; -) -/
  string : Nat
  /-- ARG (32; 11 R324; -) -/
  arg : Nat
deriving DecidableEq, Repr

/-- A command of the block. -/
inductive Instr where
  /-- HEARTBEAT (R20): The Reckoner sends its heartbeat to the guard at a sweep mark, or at least every 100 ms when no sweep runs, and the guard restarts its heartbeat timeout. -/
  | heartbeat
  /-- HEARTBEAT_TIMEOUT (R20): The guard's heartbeat timeout (10 s, 1 s or 5 s) expires, so the guard disconnects and latches TRIPPED with cause Reckoner silent. -/
  | heartbeatTimeout
  /-- BEAM_TIME_EXTEND (R35): The Reckoner extends the 16-bit cycle field into the 48-bit extended cycle count, at a beam mark or at least every 100 ms. -/
  | beamTimeExtend
  /-- TRACKER_CYCLE (R36): The tracker's angle passes 0, and the cycle just ended is judged valid or not valid. -/
  | trackerCycle (mag freq errMax errMin : Nat) (reversed : Bool)
  /-- LOCK_SET (R36): The count of consecutive valid cycles reaches QUALIFY, so LOCK sets. -/
  | lockSet
  /-- BZX_EDGE (R39): A filtered BZX transition arrives and is accepted, or counted as an edge fault; an accepted edge in range sets the frequency and zeroes the tracked angle. -/
  | bzxEdge (rising : Bool) (held : Nat)
  /-- BZX_CYCLE_TIMEOUT (R40): 1/15 s passes after the last accepted BZX edge with no new edge, so the cycle is judged not valid. -/
  | bzxCycleTimeout
  /-- MAINS_LOST (R42): STANDSTILL expected cycles pass without a valid cycle, so MAINS_LOST sets, BEAM_FREQ goes to 0 and the synthetic cycle becomes the reference. -/
  | mainsLost
  /-- EXPOSED_ANGLE_ZERO (R55): The exposed angle passes 0, the cycle count increments, and the wall time and cycle tag are latched. -/
  | exposedAngleZero
  /-- SLEW_COMPLETE (R45): The difference between exposed and tracked angle falls below 1 bu, so the slew ends and SLEWING clears. -/
  | slewComplete
  /-- INPUT_OVER_RANGE (R41): A BV or AIN sample goes beyond its over-range level, and the input enters over-range. -/
  | inputOverRange (input : Nat) (value : Int)
  /-- OVER_RANGE_RETURN (R41): An over-range input stays within its level for 20 ms, so it returns from over-range and a synchronising reset is issued. -/
  | overRangeReturn (input heldMs : Nat)
  /-- SETTLING_DONE (R41): The three flagged samples after a synchronising reset have passed, so SETTLING clears and SYNCDONE sets. -/
  | settlingDone
  /-- SYNC_RESET (R58): A write of 1 to SYNC_RESET in BEAM_CTL issues a synchronising reset. -/
  | syncReset
  /-- SOURCE_CHANGE (R44): SRC is written with a new value, so LOCK clears, qualification restarts, the sequence and window flags clear and a synchronising reset is issued. -/
  | sourceChange (src : Nat)
  /-- MARK_ENABLE (R48): EN is set on a mark unit, or refused when STEP is 0; the unit fires at once with LATE when its compare value has passed. -/
  | markEnable (unit : Nat)
  /-- CYC_WALL_LO_READ (R55): A read of BEAM_CYC_WALL_LO freezes BEAM_CYC_WALL_HI and BEAM_CYC_TAG until both have been read. -/
  | cycWallLoRead
  /-- REGISTER_WRITE (R8): A register with no row of its own is written, including W1C clears, after its range checks. -/
  | registerWrite (tenant offset : Nat) (value : Option Nat)
  /-- SWEEP_MARK (R50): M0 reaches its compare value: it fires, counts in FIRES, advances by STEP and starts a heartbeat and rate control. -/
  | sweepMark
  /-- SWEEP_LAUNCH (R73): The projected angle reaches the M0 compare value minus LEAD, so SYNC is launched at both ends of every ACTIVE ring, unless the sweep is skipped. -/
  | sweepLaunch
  /-- SWEEP_RATE_RESTORE (R121): The energy has stayed at or below 0.6 of the shorter step's budget for 60 s, so STEP is halved and FLOOR_OVER clears. -/
  | sweepRateRestore
  /-- RIPPLE_BURST_SAMPLE (R47): M1 fires, and a ripple burst sample is taken on the burst string. -/
  | rippleBurstSample (cells : List (Nat × Nat)) (fpi : List (Nat × Int))
  /-- DISPATCH_TICK (R251): M2 fires at a tick, and the ramp states, delivered powers, curtailment, ledgers and bank set-point are computed. -/
  | dispatchTick
  /-- EXCHANGE_MARK (R456): M3 fires with M0, and the guard tables, thermal tables, kernel image and allocations named for exchange go into service. -/
  | exchangeMark
  /-- NOTIFICATION_MARK (R52): A tenant-0 mark unit M4…M14 fires and posts a MARK notification carrying the beam time. -/
  | notificationMark (unit : Nat)
  /-- ACTIVATION_MARK (R467): M15 fires at the first angle 0 at or after the wall-time gate: the guard sends ZERO, the host links answer RESTARTING, the boot selector switches and the Reckoner is held in reset. -/
  | activationMark
  /-- RX_LOCK (R62): An RX gains lock after 32 valid symbols that include four commas. -/
  | rxLock (port place : Nat) (fwd : Bool) (symbols commas : Nat)
  /-- RX_LOCK_LOST (R62): An RX loses lock through invalid symbols or no transitions for 1 µs. -/
  | rxLockLost (port place : Nat) (fwd : Bool) (invalid quietNs : Nat)
  /-- FAULT (R95): A node or port end receives the FAULT ordered set, so a node wraps and a port end declares the ring split. -/
  | faultSet (port place : Nat) (fwd : Bool)
  /-- RING_REJOIN (R97): Every wrapped node reports both RX locked and no FAULT, so UNWRAP is broadcast after the next collection frame and the ring-rejoined event is raised. -/
  | ringRejoin (port : Nat)
  /-- ENUM (R69): A node forwards ENUM, takes a position if it has none, rewrites NEXT, and the B end reads the last position. -/
  | enum (port count : Nat)
  /-- CLEAR (R66): A node receives CLEAR and forgets its position. -/
  | clear (port place : Nat)
  /-- RING_ECHO (R71): A node receives an ECHO addressed to itself and sends ECHO_REPLY 4,000 ns later on the opposite path. -/
  | ringEcho (port place pos : Nat) (fwd : Bool)
  /-- ECHO_REPLY (R71): A port end receives ECHO_REPLY and timestamps its SOF for calibration. -/
  | echoReply (port pos : Nat) (endB : Bool) (rtt : Nat)
  /-- CENSUS (R519): A node forwards CENSUS and rewrites HIGH; the port end reads HIGH at the far or same end. -/
  | census (port count : Nat)
  /-- COLLECT_LAUNCH (R77): 0.15 ms after the sample instant, the A end (and B end on a split ring) launches the COLLECT frame with its collection block. -/
  | collectLaunch (port : Nat)
  /-- COLLECT (R78): A node forwards the COLLECT frame, appends its 100-byte record in place of EOF, and moves its lease counter. -/
  | collect (port place : Nat) (raw : Option (List Byte))
  /-- LEASE_EXPIRED (R87): A node's lease counter reaches 0, so every duty is set to 0 and LEASE_EXPIRED is set in its next record. -/
  | leaseExpired (port place : Nat)
  /-- LEASE_TIMEOUT (R87): No COLLECT reaches a node for LEASE × SWEEP_IVL × 1.5, so its lease counter is set to 0. -/
  | leaseTimeout (port place : Nat)
  /-- NODE_SYNC (R74): A node receives the first valid SYNC of a tag and starts its COMP_A or COMP_B sample delay. -/
  | nodeSync (port place tag : Nat) (fwd : Bool)
  /-- NODE_SAMPLE (R74): A node's sample delay expires, and it samples and converts all enabled inputs. -/
  | nodeSample (port place : Nat) (cells temps : List Nat) (stack nodeT busI aux : Nat) (busFault inTime : Bool)
  /-- NODE_PROJECTED_SAMPLE (R81): A node receives no SYNC of the current tag, so it samples at the projected instant and sets NOSYNC. -/
  | nodeProjectedSample (port place tag : Nat) (cells temps : List Nat) (stack nodeT busI aux : Nat) (busFault inTime : Bool)
  /-- RECORD_RECEIVED (R82): A sweep record arrives at the receiving port end, is checked, passed to the limit screen and staged in DDR5. -/
  | recordReceived (port place : Nat) (rec : List Byte)
  /-- COLLECT_FRAME_CLOSED (R82): The collection frame's EOF leaves the ring: missing records are counted and the skew figure is updated. -/
  | collectFrameClosed (port fNow : Nat) (endB returned : Bool)
  /-- SKEW_LIMIT (R75): The skew figure exceeds 250 ns on ten consecutive sweeps, so the ring is marked SKEW_LIMIT and its strings fall back in current source. -/
  | skewLimit (port : Nat)
  /-- KEEPALIVE_LAUNCH (R89): Every 20 ms, the guard launches KEEPALIVE at both ends of every ring that is not ISOLATED. -/
  | keepaliveLaunch
  /-- KEEPALIVE (R89): A string-switch node receives a valid KEEPALIVE with GUARD_OK and restarts its watchdog. -/
  | keepalive (port place : Nat) (raw : Option (List Byte))
  /-- SWITCH_WATCHDOG_EXPIRY (R89): A string-switch node receives no valid KEEPALIVE for SWITCH_WD, so it opens its outputs and sets LATCH_WD. -/
  | switchWatchdogExpiry (port place : Nat)
  /-- NODE_START (R89): A node powers up or restarts with its outputs open, LATCH_WD set and both sequence states unsynchronised. -/
  | nodeStart (port place : Nat) (nvFault : Bool)
  /-- COMMAND_LAUNCH (R91): A queued command reaches a gap between frames and is launched on the ring. -/
  | commandLaunch (port : Nat)
  /-- READ (R68): A node handles a READ under the sequence rule and returns the register bytes. -/
  | readNode (port place seq : Nat) (resync : Bool) (addr count : Nat) (raw : Option (List Byte))
  /-- WRITE (R68): A node handles a WRITE under the sequence rule, applies it whole or refuses it, and answers after any non-volatile commit. -/
  | writeNode (port place seq : Nat) (resync bcast : Bool) (addr : Nat) (data : List Byte) (nvBusy : Bool) (raw : Option (List Byte))
  /-- BALANCE (R86): A node accepts a BALANCE, sets its lease counter and applies the new duties at the next sample instant. -/
  | balance (port place seq : Nat) (resync : Bool) (lease dir : Nat) (duty : List Nat) (raw : Option (List Byte))
  /-- SWITCH (R90): A node receives SWITCH; a string-switch node with GUARD set closes or opens its outputs and clears latches on CLEAR. -/
  | switch (port place seq : Nat) (resync guardSet : Bool) (out : Nat) (raw : Option (List Byte))
  /-- UNWRAP (R95): A wrapped node with both RX locked and no FAULT accepts UNWRAP and leaves its wrap. -/
  | unwrap (port place seq : Nat) (resync bcast : Bool) (raw : Option (List Byte))
  /-- RESPONSE (R84): The module receives a node RESPONSE and completes, retries or resends the outstanding command. -/
  | response (port pos seq status : Nat) (data : List Byte) (raw : Option (List Byte))
  /-- COMMAND_TIMEOUT (R84): No response arrives within the timeout, so the command is retransmitted with RETRY or abandoned after three retransmissions. -/
  | commandTimeout (port pos : Nat)
  /-- BUSY_RETRY (R85): 10 ms after a BUSY answer, the command is resent with the same SEQ, or abandoned once 1 s has passed. -/
  | busyRetry (port pos : Nat)
  /-- FW_BLOCK (R475): A node stores FW_BLOCK data in its inactive image area. -/
  | fwBlock (port place seq : Nat) (resync bcast : Bool) (offset : Nat) (data : List Byte) (raw : Option (List Byte))
  /-- FW_ACTIVATE (R475): A node checks the stored image against IMAGE_CRC and answers OK or OUT_OF_RANGE. -/
  | fwActivate (port place seq : Nat) (resync bcast : Bool) (crc : Nat) (raw : Option (List Byte))
  /-- NODE_FW_RESTART (R475): A node restarts into its new image within 1 s of an OK, or falls back to its previous image. -/
  | nodeFwRestart (port place ver : Nat) (started : Bool)
  /-- TRIP (R93): A node acts on the first good copy of a trip sequence according to SCOPE, and discards its elastic buffer. -/
  | trip (port place : Nat) (raw : Option (List Byte))
  /-- TRIP_BODY_TIMEOUT (R93): A node sees the TRIP ordered set but no good body within 10 µs, so it acts as for BALANCE. -/
  | tripBodyTimeout (port place : Nat)
  /-- INVOCATION_END (R116): A rod finishes both passes of an invocation, its cost is charged and it takes the next item from the class queues. -/
  | invocationEnd (rod : Nat) (next : Option (Nat × Nat × Nat × Nat))
  /-- WINDOW_CLOSE (R107): A signature window closes after 256 invocations or 0.40 ms, and SIG_A and SIG_B are compared. -/
  | windowClose (rod : Nat)
  /-- PUBLICATION (R22): The Reckoner publishes the compared results of a window under the sweep generation. -/
  | publication
  /-- TABLE_WALK (R110): A background or forced walk recomputes a rod's table CRCs, and a failure causes a reload and possibly a quarantine. -/
  | tableWalk (rod table : Nat) (good reloaded : Bool)
  /-- DIE_TEMP_SAMPLE (R114): Every 1 ms, the die temperature is formed from the diodes, and WARN, THROTTLE and SHUTDOWN are set or cleared. -/
  | dieTempSample (temps : List Int)
  /-- BEAM_SLOT (R115): A new beam slot begins and the scheduler's energy budget is recomputed. -/
  | beamSlot
  /-- CLASS_STARVED (R119): A work class receives no energy for 10 s, so the class-starved event is raised. -/
  | classStarved (cls : Nat)
  /-- BURST_ABANDONED (R117): A burst is not started within 10 s of its last sample, so it is abandoned and requeued for capture. -/
  | burstAbandoned (port sid : Nat)
  /-- ROD_TEST_DONE (R111): The built-in rod test ends, and the rod becomes HEALTHY or returns to QUARANTINED. -/
  | rodTestDone (rod sig : Nat)
  /-- ROD_RELOAD (R142): A rod drained of old items closes its window, loads the new code and tables and checks them. -/
  | rodReload (rod loads : Nat) (good : Bool)
  /-- KERNEL_REVERT (R146): 16 kernel faults occur within 10 s, so the image is exchanged for the inactive one at the next M3. -/
  | kernelRevert
  /-- NOP (R132): No operation. -/
  | nop (rod stall : Nat)
  /-- VADD (R132): Saturating lane-wise addition. -/
  | vadd (rod stall d a b : Nat)
  /-- VSUB (R132): Saturating lane-wise subtraction. -/
  | vsub (rod stall d a b : Nat)
  /-- VNEG (R132): Lane-wise negation. -/
  | vneg (rod stall d a : Nat)
  /-- VABS (R132): Lane-wise absolute value, negated in pass B. -/
  | vabs (rod stall d a : Nat)
  /-- VMAX (R132): Lane-wise maximum, minimum in pass B. -/
  | vmax (rod stall d a b : Nat)
  /-- VMIN (R132): Lane-wise minimum, maximum in pass B. -/
  | vmin (rod stall d a b : Nat)
  /-- VMOV (R132): Lane-wise copy. -/
  | vmov (rod stall d a : Nat)
  /-- VMUL (R132): Q15 multiply with rounding half away from zero and saturation. -/
  | vmul (rod stall d a b : Nat)
  /-- VSHR (R132): Rounded right shift by N. -/
  | vshr (rod stall d a n : Nat)
  /-- VSHL (R132): Saturating left shift by N. -/
  | vshl (rod stall d a n : Nat)
  /-- VSEL (R132): Selects Va or Vb per cell by the lane mask. -/
  | vsel (rod stall d a b : Nat)
  /-- VCGT (R132): Sets the lane mask where Va is greater than Vb, reversed in pass B. -/
  | vcgt (rod stall a b : Nat)
  /-- VCEQ (R132): Sets the lane mask where Va equals Vb. -/
  | vceq (rod stall a b : Nat)
  /-- QDIV (R132): Rounded saturating Q15 division, faulting on a zero divisor in an occupied cell. -/
  | qdiv (rod stall d a b : Nat)
  /-- VBCL (R132): Broadcasts one cell's value of Va to every cell. -/
  | vbcl (rod stall d a b : Nat)
  /-- AMAC (R132): Multiply-accumulate into a 40-bit accumulator with saturation. -/
  | amac (rod stall k a b : Nat)
  /-- AMSU (R132): Multiply-subtract from a 40-bit accumulator with saturation. -/
  | amsu (rod stall k a b : Nat)
  /-- ALDV (R132): Loads an accumulator with Va shifted left by N. -/
  | aldv (rod stall k a n : Nat)
  /-- AADV (R132): Adds Va shifted left by N to an accumulator with saturation. -/
  | aadv (rod stall k a n : Nat)
  /-- AEXT (R132): Extracts a rounded, saturated Q15 value from an accumulator. -/
  | aext (rod stall d k n : Nat)
  /-- ACLR (R132): Clears an accumulator. -/
  | aclr (rod stall k : Nat)
  /-- ARSUM (R132): Sums an accumulator over the cells in ascending order into a data scalar. -/
  | arsum (rod stall d k : Nat)
  /-- VRSUM (R132): Sums Va exactly over the cells into a data scalar. -/
  | vrsum (rod stall d a : Nat)
  /-- VBC (R132): Broadcasts a rounded data scalar to every cell. -/
  | vbc (rod stall d a n : Nat)
  /-- SADD (R132): Scalar addition, saturating for data and modular for index. -/
  | sadd (rod stall d a b : Nat)
  /-- SSUB (R132): Scalar subtraction, saturating for data and modular for index. -/
  | ssub (rod stall d a b : Nat)
  /-- SMUL (R132): Modular multiplication of index scalars. -/
  | smul (rod stall d a b : Nat)
  /-- SLI (R132): Loads a sign-extended immediate into a scalar. -/
  | sli (rod stall d : Nat) (imm : Int)
  /-- VLI (R132): Loads an immediate into every cell of a vector. -/
  | vli (rod stall d imm : Nat)
  /-- SCMP (R132): Compares two scalars and sets SF. -/
  | scmp (rod stall a b : Nat)
  /-- VLD (R132): Loads a row of the work area into a vector register. -/
  | vld (rod stall d x off : Nat)
  /-- VST (R132): Stores a vector to the work area and folds it into the signature. -/
  | vst (rod stall d x off : Nat)
  /-- TLU (R134): Interpolated one-dimensional table lookup through the table port. -/
  | tlu (rod stall d a tab : Nat)
  /-- TLU2 (R134): Interpolated two-dimensional table lookup through the table port. -/
  | tlu2 (rod stall d a b tab : Nat)
  /-- LMSET (R132): Sets the lane mask from an immediate. -/
  | lmset (rod stall imm : Nat)
  /-- LMGET (R132): Copies the lane mask into an index scalar. -/
  | lmget (rod stall d : Nat)
  /-- LMLD (R132): Loads the lane mask from an index scalar. -/
  | lmld (rod stall a : Nat)
  /-- LMAND (R132): ANDs the lane mask with an index scalar. -/
  | lmand (rod stall a : Nat)
  /-- BR (R133): Conditional branch on SF or the lane mask. -/
  | br (rod stall cc : Nat) (off : Int)
  /-- LOOP (R132): Decrements an index scalar and branches while it is non-zero. -/
  | loop (rod stall x : Nat) (off : Int)
  /-- CALL (R132): Pushes the return address and branches, faulting on a full stack. -/
  | call (rod stall : Nat) (off : Int)
  /-- RET (R132): Pops the return address, faulting on an empty stack. -/
  | ret (rod stall : Nat)
  /-- END (R132): Ends the pass. -/
  | endPass (rod stall : Nat)
  /-- KFENCE (R147): Empties the prefetch window so that later words are fetched afresh. -/
  | kfence (rod stall : Nat)
  /-- CST (R148): Stores a code word into the pass's code overlay. -/
  | cst (rod stall d x off : Nat)
  /-- OBSERVER_RUN (R161): After a string's last invocation of the sweep is published, the current observer updates Î and P or holds. -/
  | observerRun (port sid : Nat)
  /-- OBSERVER_BLEND (R161): Once every string of a group has finished its voltage step, the group's measured value is blended into the observers. -/
  | observerBlend (group : Nat)
  /-- OBSERVER_UNAVAILABLE (R162): The observer has been held longer than HOLD_MAX, so the fallback source applies and the event is raised. -/
  | observerUnavailable (port sid : Nat)
  /-- RIPPLE_BURST_START (R261): At a tick that meets the planning conditions, a due ripple burst on a string starts and M1 is set. -/
  | rippleBurstStart (port sid : Nat)
  /-- REST_POINT (R170): A rest has lasted REST_HOLD, so a rest point is recorded for each cell. -/
  | restPoint (port sid : Nat)
  /-- ESTIMATOR_HEALTH (R167): A cell's health condition holds continuously for its time, so the cell becomes unhealthy or healthy again. -/
  | estimatorHealth (point : Nat)
  /-- SOC_CHECKPOINT (R177): Every 60 s, word 0 of every cell is written to an SOC checkpoint slot. -/
  | socCheckpoint
  /-- LEARNED_CHECKPOINT (R177): Every LRN_CKPT, or at a capacity update or STANDBY entry, every learned record is written to a checkpoint slot. -/
  | learnedCheckpoint
  /-- SENSOR_RESTORED (R186): A substituted input stays within limits for 60 s, so it is restored. -/
  | sensorRestored (port pos input : Nat)
  /-- BALANCING_REPLAN (R196): Every BAL_REPLAN, or at once on a trigger, string plans, the heat allowance and the dispatch reservation are recomputed. -/
  | balancingReplan
  /-- BALANCING_QUIET (R202): A string's rest reaches REST_HOLD − BAL_QUIET, so its nodes are sent zero duties. -/
  | balancingQuiet (port sid : Nat)
  /-- BALANCING_MISMATCH (R203): A node's bus current mismatches its lease on 3 sweeps, or it reports BUS_FAULT, so it is excluded for 1 h. -/
  | balancingMismatch (port pos : Nat)
  /-- BALANCING_EXCLUSION_END (R203): A node's 1 h exclusion ends, and it is replanned normally. -/
  | balancingExclusionEnd (port pos : Nat)
  /-- TIN_CONVERSION (R206): Every 100 ms, an enabled TIN input is converted and checked against its alarms. -/
  | tinConversion (input a b : Nat)
  /-- TIN_FAULT (R208): A TIN reading is out of its electrical limits on 3 conversions, so TEMP reads 0x8000. -/
  | tinFault (input : Nat)
  /-- TIN_RECOVERED (R208): A faulty TIN gives 10 consecutive good conversions and recovers. -/
  | tinRecovered (input : Nat)
  /-- COMPENSATION_UPDATE (R210): Every 10 ms, the reference gain and oscillator corrections are recomputed from the REF and OSC diodes. -/
  | compensationUpdate (tRef tOsc : Int)
  /-- STOP_DEENERGISED (R213): STOP is de-energised for 50 µs, so hardware releases every TRIP output, opens contactor channels and launches a BANK ring trip. -/
  | stopDeenergised (heldUs : Nat)
  /-- STOP_ENERGISED (R213): STOP is energised again for 50 µs, so STOP_OK sets. -/
  | stopEnergised (heldUs : Nat)
  /-- STOP_LANE_TENANT0 (R214): Tenant 0's stop-lane doorbell is written, so hardware releases the TRIP outputs, opens contactors, launches a BANK ring trip and sets HW_TRIP. -/
  | stopLaneTenant0
  /-- STOP_LANE_TENANT (R259): A stop-lane doorbell of a tenant 1…255 sets its stop bit and interrupts the guard and the Reckoner. -/
  | stopLaneTenant (tenant : Nat)
  /-- STOP_RECOMPUTE (R259): The Reckoner recomputes the tick outside the beam schedule and sends the new set-point within 1 ms of the doorbell. -/
  | stopRecompute
  /-- STOP_DATAGRAM (R285): A stop datagram is checked by the port hardware and passed to the stop-lane logic, which answers once it has acted. -/
  | stopDatagram (port : Nat) (bytes : List Byte)
  /-- COMPARATOR_CROSSING (R217): An FPI input stays beyond HI or LO for FILT × 20 ns, so hardware releases outputs, launches its ring trip and sets HW_TRIP. -/
  | comparatorCrossing (fpi : Nat) (hi : Bool) (heldNs : Nat)
  /-- GUARD_CYCLE (R222): Every 100 µs, the guard runs its checks and sequence step twice, compares the signatures and carries out its actions. -/
  | guardCycle (convs : List Int) (firstMismatch rerunMismatch : Bool) (xor : Nat)
  /-- GUARD_WATCHDOG (R222): No matching guard cycle completes for 1 ms, so the hardware watchdog takes the guard-fault action. -/
  | guardWatchdog
  /-- LIMIT_LEVEL_CROSSED (R227): A limit level's condition has held for its time, so the level crosses and its action is requested. -/
  | limitLevelCrossed (port sid level : Nat)
  /-- NODE_LOSS (R229): Four consecutive records from one node are missing, so its string is disconnected. -/
  | nodeLoss (port pos : Nat)
  /-- STEP_TIMEOUT (R231): A sequence step's TIMEOUT expires before its condition holds, and ON_FAIL applies. -/
  | stepTimeout (port : Option Nat)
  /-- PRECHARGE_HALF_CHECK (R232): Half of the PRECHARGE step's TIMEOUT passes before V_link has reached half its value, so a link short is assumed and the guard trips. -/
  | prechargeHalfCheck
  /-- CONTACTOR_OPEN_DEADLINE (R232): 200 ms after ZERO, the guard opens BANK_POS and BANK_NEG, cutting any wait short. -/
  | contactorOpenDeadline
  /-- WELD_CHECK (R233): The weld window after contactors open expires without the voltage or current falling, so a weld is detected. -/
  | weldCheck (port sid : Nat)
  /-- PCS_MESSAGE_REPEAT (R225): The guard's ZERO or STOP frame is repeated every 50 ms, and RELEASE every 10 ms for three sends. -/
  | pcsMessageRepeat
  /-- CURTAILMENT_STARTED (R254): A side has needed sharing for 10 consecutive ticks, so the curtailment-started event is raised. -/
  | curtailmentStarted
  /-- CURTAILMENT_ENDED (R254): A curtailed side has needed no sharing for 10 consecutive ticks, so the curtailment-ended event is raised. -/
  | curtailmentEnded
  /-- EXTERNAL_SETPOINT_FAULT (R258): The bound input becomes faulty, for example no pulse edge for 1 s, so FAILSAFE applies. -/
  | externalSetpointFault
  /-- FAILSAFE_HOLD_EXPIRY (R258): The 1 s hold of the last external term ends, and the term goes to 0. -/
  | failsafeHoldExpiry
  /-- RQ_TAIL (R280): The host writes RQ_TAIL, ringing the doorbell for new request slots. -/
  | rqTail (tenant value : Nat)
  /-- REQUEST_FETCH (R307): The Reckoner fetches a tenant's request in its service round, checks it and starts it. -/
  | requestFetch (tenant : Nat) (slot : List Byte) (accessOk : Bool)
  /-- RESPONSE_POST (R280): A completed response is posted into the response ring in two writes, or dropped under the epoch rule. -/
  | responsePost (tenant : Nat) (eth accessOk : Bool)
  /-- RS_TAIL (R280): The host advances RS_TAIL, freeing response slots and resuming fetching. -/
  | rsTail (tenant value : Nat)
  /-- EPOCH (R273): The host writes EPOCH, making it the tenant's current epoch. -/
  | epoch (tenant value : Nat)
  /-- RQ_EN (R278): RQ_EN is set, resetting RQ_HEAD and RQ_TAIL and clearing RQ_FAULT. -/
  | rqEn (tenant : Nat)
  /-- RS_EN (R278): RS_EN is set, resetting RS_HEAD, RS_TAIL and the response SEQ. -/
  | rsEn (tenant : Nat)
  /-- IRQ_TIMEOUT (R282): TIMEOUT µs pass after the first pending response, so the MSI-X message is sent. -/
  | irqTimeout (tenant : Nat)
  /-- PCIE_RESET (R283): PERST#, hot reset, FLR or link loss resets the endpoint and mailbox transport. -/
  | pcieReset (linkStays : Bool)
  /-- D3HOT_ENTRY (R303): The function enters D3hot, and fetching and host writes stop. -/
  | d3hotEntry
  /-- D0_RESUME (R304): The host returns the function to D0, so PME is withdrawn, PME_COUNT rises and the WAKE notification is posted. -/
  | d0Resume
  /-- WAKE_CAUSE (R303): An enabled wake cause sets its WAKE_CAUSE bit and asserts PME. -/
  | wakeCause (cause : Nat)
  /-- MAILBOX_DATAGRAM (R287): A mailbox datagram arrives on Ethernet and passes or fails its MAC, replay and epoch checks. -/
  | mailboxDatagram (port : Nat) (bytes : List Byte) (sameNet : Bool)
  /-- CURSOR_EXPIRY (R299): A cursor reaches 10 s, so it is released and its next call gets CURSOR_EXPIRED. -/
  | cursorExpiry (cursor : Nat)
  /-- PTP_MESSAGE (R306): A PTP message is timestamped and the servo steps or slews wall time. -/
  | ptpMessage (port domain : Nat) (master : BitVec 64)
  /-- ANNOUNCE_TIMEOUT (R305): Announce receipt times out on the selected port, so PTP moves to the other port. -/
  | announceTimeout (otherAnnounces : Bool)
  /-- ETHERNET_LINK (R316): An Ethernet port changes link state. -/
  | ethernetLink (port : Nat) (up : Bool)
  /-- IDENTITY (R333): Returns the identity record. -/
  | identity (rq : Rq)
  /-- STATUS (R333): Returns the status record. -/
  | status (rq : Rq)
  /-- SET_MODE (R444): Changes the mode between COMMISSION and STANDBY under the conditions of R446. -/
  | setMode (rq : Rq) (target : Nat)
  /-- CONNECT (R444): Starts the connect sequence from STANDBY. -/
  | connect (rq : Rq)
  /-- DISCONNECT (R332): Starts an ordinary bank disconnection ending in STANDBY. -/
  | disconnect (rq : Rq)
  /-- SHUTDOWN (R447): Writes final checkpoints and enters OFF while powered. -/
  | shutdown (rq : Rq)
  /-- SET_PARAM (R327): Sets a system-table setting. -/
  | setParam (rq : Rq) (param port string : Nat) (value : Int)
  /-- GET_PARAM (R327): Returns a system-table setting with its default and range. -/
  | getParam (rq : Rq) (param port string : Nat)
  /-- WHOAMI (R332): Returns the tenant, flags, epoch and key state. -/
  | whoami (rq : Rq)
  /-- SET_ALLOC (R242): Creates, changes or removes a virtual battery's allocation. -/
  | setAlloc (rq : Rq) (tenant : Nat) (enabled : Bool) (dis chg e init : Nat)
  /-- GET_ALLOC (R332): Returns an allocation record with the present ledger. -/
  | getAlloc (rq : Rq) (tenant : Nat)
  /-- INSTALL_KEY (R288): Installs a tenant key in a slot and resets its replay counter. -/
  | installKey (rq : Rq) (tenant slot key : Nat)
  /-- READ_CELL (R150): Returns a cell record. -/
  | readCell (rq : Rq) (point : Nat)
  /-- READ_TEMP (R334): Returns a temperature point's raw and used values and state. -/
  | readTemp (rq : Rq) (point : Nat)
  /-- READ_STRING (R152): Returns a string record. -/
  | readString (rq : Rq) (port string : Nat)
  /-- READ_STRING_THERMAL (R183): Returns a string thermal record. -/
  | readStringThermal (rq : Rq) (port string : Nat)
  /-- READ_BANK_THERMAL (R184): Returns the bank thermal record. -/
  | readBankThermal (rq : Rq)
  /-- READ_LEARNED (R173): Returns a learned record. -/
  | readLearned (rq : Rq) (point : Nat)
  /-- READ_IMPEDANCE (R335): Returns an impedance record. -/
  | readImpedance (rq : Rq) (point : Nat)
  /-- CELL_SET_PARAM (R327): Sets a cell-data setting. -/
  | cellSetParam (rq : Rq) (param port string : Nat) (value : Int)
  /-- CELL_GET_PARAM (R327): Returns a cell-data setting. -/
  | cellGetParam (rq : Rq) (param port string : Nat)
  /-- BULK_CELLS (R298): Bulk-reads cell records of a pinned generation. -/
  | bulkCells (rq : Rq) (b : Bulk) (dma : Option Nat)
  /-- BULK_STRINGS (R298): Bulk-reads string records. -/
  | bulkStrings (rq : Rq) (b : Bulk) (dma : Option Nat)
  /-- BULK_STRING_THERMAL (R298): Bulk-reads string thermal records. -/
  | bulkStringThermal (rq : Rq) (b : Bulk) (dma : Option Nat)
  /-- BULK_LEARNED (R298): Bulk-reads learned records. -/
  | bulkLearned (rq : Rq) (b : Bulk) (dma : Option Nat)
  /-- BULK_IMPEDANCE (R298): Bulk-reads impedance records. -/
  | bulkImpedance (rq : Rq) (b : Bulk) (dma : Option Nat)
  /-- SET_TEMP_MAP (R185): Sets a node's temperature map. -/
  | setTempMap (rq : Rq) (port pos : Nat) (map : List Nat)
  /-- GET_TEMP_MAP (R334): Returns a node's temperature map. -/
  | getTempMap (rq : Rq) (port pos : Nat)
  /-- WRITE_THERMAL (R189): Stages a string's thermal table. -/
  | writeThermal (rq : Rq) (port string : Nat) (levels : List Int)
  /-- READ_THERMAL (R334): Returns a thermal table in service or staged. -/
  | readThermal (rq : Rq) (port string buf : Nat)
  /-- TIN_READ (R207): Reads thermal-input registers. -/
  | tinRead (rq : Rq) (off count : Nat)
  /-- TIN_WRITE (R209): Writes thermal-input registers, refusing a second compensation of one target. -/
  | tinWrite (rq : Rq) (off : Nat) (data : List Nat)
  /-- SET_GROUP (R335): Creates, changes or deletes a measurement group. -/
  | setGroup (rq : Rq) (group source ch unit : Nat) (strings : List (Nat × Nat))
  /-- GET_GROUP (R335): Returns a measurement group. -/
  | getGroup (rq : Rq) (group : Nat)
  /-- RESET_LEARNED (R175): Resets learned data for a scope and makes the states cold. -/
  | resetLearned (rq : Rq) (scope port id input : Nat)
  /-- CLEAR_SHORT (R176): Clears the internal-short suspicion on a string's cells. -/
  | clearShort (rq : Rq) (port string : Nat)
  /-- KERNEL_INFO (R336): Returns the kernel images in service and inactive and the staged mask. -/
  | kernelInfo (rq : Rq)
  /-- LOAD_IMAGE (R141): Loads a kernel image by bulk transfer and checks it into the inactive buffer. -/
  | loadImage (rq : Rq) (b : Bulk) (data : List Byte) (dma : Option Nat)
  /-- EXCHANGE (R337): Checks the staged buffers and arms M3 to put them into service together. -/
  | exchange (rq : Rq) (mask : Nat)
  /-- DISCARD (R336): Discards staged buffers. -/
  | discard (rq : Rq) (mask : Nat)
  /-- READ_IMAGE (R336): Bulk-reads a kernel image byte for byte. -/
  | readImage (rq : Rq) (b : Bulk) (dma : Option Nat)
  /-- SUBMIT (R247): Submits schedule entries, accepted whole or refused. -/
  | submit (rq : Rq) (entries : List (Nat × Int × Nat × Bool))
  /-- READ_SCHEDULE (R338): Returns pending schedule entries. -/
  | readSchedule (rq : Rq) (tenant fromSlot : Nat)
  /-- TENANT_RECORD (R263): Returns a tenant dispatch record. -/
  | tenantRecord (rq : Rq) (tenant : Nat)
  /-- BANK_RECORD (R264): Returns the bank dispatch record. -/
  | bankRecord (rq : Rq)
  /-- RESUME (R259): Clears a tenant's stop bit. -/
  | resume (rq : Rq) (tenant : Nat)
  /-- LEDGER_ADJUST (R257): Sets a tenant's ledger while it delivers no power. -/
  | ledgerAdjust (rq : Rq) (tenant e : Nat)
  /-- SET_BINDING (R258): Sets tenant 0's external set-point binding. -/
  | setBinding (rq : Rq) (src ch mode failsafe : Nat) (x0 : Int) (db : Nat) (gain : Int) (pmax : Nat)
  /-- GET_BINDING (R258): Returns the binding record. -/
  | getBinding (rq : Rq)
  /-- DISPATCH_SET_PARAM (R327): Sets a dispatch setting. -/
  | dispatchSetParam (rq : Rq) (param port string : Nat) (value : Int)
  /-- DISPATCH_GET_PARAM (R327): Returns a dispatch setting. -/
  | dispatchGetParam (rq : Rq) (param port string : Nat)
  /-- PROT_READ (R339): Reads protection registers. -/
  | protRead (rq : Rq) (off count : Nat)
  /-- PROT_WRITE (R216): Writes protection registers within their ranges. -/
  | protWrite (rq : Rq) (off : Nat) (data : List Nat)
  /-- STRING_PROT (R238): Returns a string protection record. -/
  | stringProt (rq : Rq) (port string : Nat)
  /-- CLEAR_TRIP (R237): Clears TRIPPED and returns to STANDBY when every condition holds. -/
  | clearTrip (rq : Rq) (tripId : Nat)
  /-- CLEAR_STRING (R236): Clears a LOCKED string whose causes are gone. -/
  | clearString (rq : Rq) (port string : Nat)
  /-- WELD_ACK (R233): Acknowledges a detected weld. -/
  | weldAck (rq : Rq) (tripId : Nat)
  /-- MAP_ALARM (R339): Maps a CAN alarm source to a protective kind and scope. -/
  | mapAlarm (rq : Rq) (ch source kind port string : Nat)
  /-- PROT_SET_PARAM (R327): Sets a sequence setting. -/
  | protSetParam (rq : Rq) (param port string : Nat) (value : Int)
  /-- PROT_GET_PARAM (R327): Returns a sequence setting. -/
  | protGetParam (rq : Rq) (param port string : Nat)
  /-- WRITE_LIMITS (R226): Stages a string's guard limit table. -/
  | writeLimits (rq : Rq) (port string : Nat) (fields : List Nat)
  /-- READ_LIMITS (R340): Returns a limit table in service or staged. -/
  | readLimits (rq : Rq) (port string buf : Nat)
  /-- WRITE_SEQ (R231): Stages sequence table steps or the role map. -/
  | writeSeq (rq : Rq) (sect first : Nat) (roles : List Nat) (words : List (List Nat))
  /-- READ_SEQ (R339): Returns sequence table steps. -/
  | readSeq (rq : Rq) (sect first count buf : Nat)
  /-- BEAM_READ (R57): Reads beam registers. -/
  | beamRead (rq : Rq) (off count : Nat)
  /-- BEAM_WRITE (R48): Writes beam registers, refusing locked mark fields. -/
  | beamWrite (rq : Rq) (off : Nat) (data : List Nat)
  /-- SET_SWEEP (R50): Sets the sweep interval within range and ring fit. -/
  | setSweep (rq : Rq) (step : Nat)
  /-- BEAM_TIME (R341): Returns beam time, frequency and status. -/
  | beamTime (rq : Rq)
  /-- RING_STATUS (R342): Returns a ring status record. -/
  | ringStatus (rq : Rq) (port : Nat)
  /-- SET_RING_STATE (R449): Changes a ring's state, after disconnection or the activation checks. -/
  | setRingState (rq : Rq) (port state count : Nat) (mute : List Nat)
  /-- ENUMERATE (R69): Launches ENUM on a ring in SERVICE and reports the nodes found. -/
  | enumerate (rq : Rq) (port count : Nat)
  /-- CALIBRATE (R72): Measures the ring delays, writes COMP values and stores the calibration. -/
  | calibrate (rq : Rq) (port f r : Nat)
  /-- NODE_READ (R341): Reads a node's registers. -/
  | nodeRead (rq : Rq) (port pos addr count : Nat)
  /-- NODE_WRITE (R341): Writes a node's registers, or broadcasts a write. -/
  | nodeWrite (rq : Rq) (port pos addr : Nat) (data : List Byte)
  /-- STORE_CONFIG (R341): Stores the ring's identity. -/
  | storeConfig (rq : Rq) (port : Nat) (mute : List Nat)
  /-- READ_CONFIG (R342): Bulk-reads ring configuration items. -/
  | readConfig (rq : Rq) (b : Bulk) (dma : Option Nat)
  /-- LOOP_READ (R374): Reads loop block registers. -/
  | loopRead (rq : Rq) (off count : Nat)
  /-- LOOP_WRITE (R374): Writes loop block registers, all taking effect at one tick. -/
  | loopWrite (rq : Rq) (off : Nat) (data : List Nat)
  /-- AXIS_TARGET (R372): Sets an axis profile target within its soft limits. -/
  | axisTarget (rq : Rq) (ax : Nat) (target : Int)
  /-- CAPTURE (R370): Bulk-reads a loop's capture buffer. -/
  | capture (rq : Rq) (b : Bulk) (dma : Option Nat)
  /-- LOAD_READ (R395): Reads load block registers. -/
  | loadRead (rq : Rq) (off count : Nat) (meas : List (Nat × Int)) (vload : Int) (mean : Nat)
  /-- LOAD_WRITE (R395): Writes load block registers, refusing guard-owned channels. -/
  | loadWrite (rq : Rq) (off : Nat) (data : List Nat)
  /-- SET_OUTPUTS (R379): Sets channel command bits by mask. -/
  | setOutputs (rq : Rq) (mask value : Nat)
  /-- CH_STATUS (R344): Returns the 24 channel records. -/
  | chStatus (rq : Rq) (meas : List (Nat × Int)) (vload : Int) (mean : Nat)
  /-- RESTART (R384): Commands latched channels off, to be commanded on again 1 ms later. -/
  | restart (rq : Rq) (mask : Nat)
  /-- RESTART_RECOMMAND (R384): 1 ms after RESTART, CMD is written to 1, clearing the latch. -/
  | restartRecommand (n : Nat)
  /-- CAN_READ (R417): Reads CAN block registers. -/
  | canRead (rq : Rq) (off count : Nat)
  /-- CAN_WRITE (R417): Writes CAN block registers under the timing and identifier rules. -/
  | canWrite (rq : Rq) (off : Nat) (data : List Nat)
  /-- CAN_SEND (R401): Queues a message for transmission on a controller. -/
  | canSend (rq : Rq) (ch cflags id : Nat) (data : List Byte)
  /-- CAN_STATUS (R344): Returns the 8 controller records. -/
  | canStatus (rq : Rq)
  /-- LOG_STATE (R432): Returns the oldest and newest log sequence numbers. -/
  | logState (rq : Rq)
  /-- READ_LOG (R432): Bulk-reads closed event records from a position. -/
  | readLog (rq : Rq) (b : Bulk) (bad : List (Nat × List Byte)) (dma : Option Nat)
  /-- READ_RECENT (R345): Returns up to COUNT records from the tail or the log. -/
  | readRecent (rq : Rq) (from_ count : Nat) (bad : List (Nat × List Byte))
  /-- SET_SEVERITY (R345): Sets the wake and notification severity thresholds. -/
  | setSeverity (rq : Rq) (wake notify : Nat)
  /-- READ_COUNTERS (R433): Returns carry counter digit words. -/
  | readCounters (rq : Rq) (port string : Nat)
  /-- UPDATE_STATE (R345): Returns the update record. -/
  | updateState (rq : Rq)
  /-- BEGIN (R463): Starts an image reception and erases the target area. -/
  | begin (rq : Rq) (target id length : Nat)
  /-- WRITE_BLOCK (R464): Stores one checked image block. -/
  | writeBlock (rq : Rq) (b : Bulk) (data : List Byte) (dma : Option Nat)
  /-- VERIFY (R465): Decrypts the whole image and checks its digest. -/
  | verify (rq : Rq)
  /-- SCHEDULE (R466): Sets the activation gate and enables M15. -/
  | schedule (rq : Rq) (actWall : Nat)
  /-- CANCEL (R466): Cancels a scheduled activation. -/
  | cancel (rq : Rq)
  /-- COMMIT (R469): Commits the running slot and erases the snapshot. -/
  | commit (rq : Rq)
  /-- ROLLBACK (R470): Schedules a return to the previous slot. -/
  | rollback (rq : Rq) (actWall : Nat)
  /-- NODE_UPDATE (R474): Starts a node firmware update on a ring in SERVICE. -/
  | nodeUpdate (rq : Rq) (port : Nat)
  /-- NODE_RETURN_TIMEOUT (R474): A node does not report the new version within 10 s after FW_ACTIVATE, so the update stops. -/
  | nodeReturnTimeout
  /-- ROD_STATUS (R123): Returns rod status records. -/
  | rodStatus (rq : Rq) (first count : Nat)
  /-- SCHED_STATUS (R124): Returns the scheduler status record. -/
  | schedStatus (rq : Rq)
  /-- ROD_RELEASE (R111): Puts a quarantined rod into TESTING. -/
  | rodRelease (rq : Rq) (rod : Nat)
  /-- LINK_STATUS (R315): Returns the host link status record. -/
  | linkStatus (rq : Rq)
  /-- ECHO (R345): Returns the request payload unchanged. -/
  | echo (rq : Rq) (payload : List Byte)
  /-- LOOP_TICK (R348): Every 50 µs, axes are latched, due loops run in order and outputs are written. -/
  | loopTick (ains : List Int)
  /-- LOOP_ENABLE (R365): EN is set on a loop, whose state is initialised for a bumpless takeover. -/
  | loopEnable (n : Nat)
  /-- LOOP_RESTART (R368): RESTART clears a loop's latched faults, applied at its next period. -/
  | loopRestart (n : Nat)
  /-- SUPERVISION_FAULT (R367): The model residual exceeds RES_WIN for RES_TIME, so SUP_FAULT latches. -/
  | supervisionFault (n : Nat)
  /-- CAPTURE_ARM (R370): ARM starts a capture and any injection. -/
  | captureArm (n : Nat)
  /-- CAPTURE_COMPLETE (R370): A capture ends after its sample count, so CAP_DONE sets. -/
  | captureComplete (n : Nat)
  /-- LOOP_CONFIG_SAVE (R350): An accepted loop write is copied into the configuration store within 1 s. -/
  | loopConfigSave
  /-- AXIS_EDGE (R352): An axis transition passes the edge filter and moves the count, or is counted as an edge fault. -/
  | axisEdge (ax : Nat) (a b : Bool) (sin cos : Int)
  /-- AXIS_INDEX (R352): A rising Z edge with ZLATCH copies the count into AX_INDEX. -/
  | axisIndex (ax : Nat)
  /-- AXIS_WIRE_FAULT (R353): Both wires of a pair read the same level for 1 µs, so a wire fault sets FAULT. -/
  | axisWireFault (ax pair heldNs : Nat)
  /-- AXIS_AMPLITUDE_FAULT (R354): Sine and cosine amplitude is outside its window for 100 µs, so FAULT sets. -/
  | axisAmplitudeFault (ax : Nat) (high : Bool)
  /-- AXIS_STILL (R358): No count is accepted for STILL_T, so the speed is forced to 0 and STILL sets. -/
  | axisStill (ax : Nat)
  /-- FAULTEV (R359): Writing 1 to FAULTEV clears an axis's FAULT. -/
  | faultev (ax : Nat)
  /-- OUTPUT_OPEN (R509): A current-mode LOUT exceeds its compliance for 1 ms, so OPEN sets. -/
  | outputOpen (n heldUs : Nat)
  /-- IN_EDGE (R383): An IN pin edge switches its channel within 10 µs, subject to minimum times. -/
  | inEdge (n : Nat) (high : Bool)
  /-- INRUSH_WINDOW_END (R381): A channel's inrush window ends and the steady threshold applies. -/
  | inrushWindowEnd (n : Nat)
  /-- SLEW_RAMP_COMPLETE (R382): A soft channel's output reaches within 2 V of VLOAD, completing its ramp. -/
  | slewRampComplete (n : Nat) (vout vload : Int)
  /-- SLEW_RAMP_TIMEOUT (R382): A soft channel's ramp is not complete within 200 ms, an overcurrent in stage 1. -/
  | slewRampTimeout (n ma : Nat)
  /-- OVERCURRENT_LATCH (R384): A channel's current exceeds its threshold for 20 µs, so it switches off and sets OC_LATCH. -/
  | overcurrentLatch (n ma heldUs : Nat)
  /-- THERMAL_SWITCH_OFF (R386): A channel's ΔT reaches 60 K, so it switches off, and latches on the eighth time in 10 s. -/
  | thermalSwitchOff (n : Nat) (dt : Int)
  /-- THERMAL_RESTART (R386): ΔT falls below 45 K, so a commanded channel switches on again. -/
  | thermalRestart (n : Nat) (dt : Int)
  /-- OPEN_LOAD_JUDGEMENT (R387): Over 100 ms of on-time, open load is set or cleared. -/
  | openLoadJudgement (n : Nat) (samples : List Nat)
  /-- STAGGERED_TURN_ON (R394): Several channels due on together are turned on 1 ms apart in channel order. -/
  | staggeredTurnOn
  /-- VLOAD_UNDER_VOLTAGE (R389): VLOAD is below 30 V for 100 µs, so every channel switches off. -/
  | vloadUnderVoltage (vload : Int) (heldUs : Nat)
  /-- VLOAD_RESTORED (R389): VLOAD has stayed above 33 V for 10 ms, so commanded channels switch on again. -/
  | vloadRestored (vload : Int) (heldMs : Nat)
  /-- LOAD_DUMP (R389): VLOAD rises above 80 V, raising V_CLAMP, until it falls below 76 V. -/
  | loadDump (vload : Int)
  /-- REVERSE_SUPPLY (R389): VLOAD is below −5 V for 100 µs, so channels go fully on or off by VMAIN. -/
  | reverseSupply (vload : Int) (heldUs : Nat)
  /-- LOAD_GROUND_LOST (R389): LGND is more than 3 V from ground for 1 ms, so every channel switches off. -/
  | loadGroundLost (offset : Int) (heldUs : Nat)
  /-- LOAD_GROUND_RESTORED (R389): LGND has been within 1 V for 10 ms, so commanded channels switch on again. -/
  | loadGroundRestored (offset : Int) (heldMs : Nat)
  /-- TOTAL_OVERLOAD (R390): The 1 s mean of VLOAD current exceeds 40 A, or returns within it for 5 s, setting or clearing OVERLOAD. -/
  | totalOverload (mean : Nat)
  /-- LOAD_SHED (R390): After 5 s of overload, every 100 ms one channel is switched off and latched with OC_STAGE 3. -/
  | loadShed (mean : Nat)
  /-- LOAD_CONFIG_SAVE (R393): An accepted load write is copied into the configuration store within 1 s. -/
  | loadConfigSave
  /-- CAN_FRAME_RECEIVED (R415): A CAN frame is received and matched against the filter list into the receive FIFO. -/
  | canFrameReceived (ch : Nat) (xtd fdf brs remote : Bool) (id : Nat) (data : List Byte)
  /-- PCS_STATUS_FRAME (R412): A PCS unit's status frame is decoded for readiness, current, staleness and faults. -/
  | pcsStatusFrame (unit : Nat) (iDc : Int) (vDc state count : Nat)
  /-- PCS_UNIT_STALE (R412): A PCS unit's last frame becomes older than CAN_STALE, so it is stale. -/
  | pcsUnitStale (unit : Nat)
  /-- ALARM_FRAME (R413): A mapped alarm source's frame is decoded, and an alarm requests the mapped kind of the guard. -/
  | alarmFrame (ch source state count : Nat)
  /-- ALARM_SOURCE_LOST (R413): A mapped source sends no new COUNT for ALM_LOST, so the mapped kind is requested. -/
  | alarmSourceLost (ch source : Nat)
  /-- CAN_TX_COMPLETE (R401): A controller's transmission ends, successfully or with an error counted. -/
  | canTxComplete (ch : Nat) (guard : Bool) (result : Nat)
  /-- BUS_OFF_RECOVERY (R403): After 1 s with AUTO_BO, the controller runs the standard recovery and rejoins. -/
  | busOffRecovery (ch sequences : Nat)
  /-- ALONE_PROBE (R404): Every 100 ms in ALONE, the head message is sent as a one-attempt probe. -/
  | aloneProbe (ch result : Nat)
  /-- ALONE_LEFT (R405): A probe is acknowledged or a frame is received, so ALONE ends and the queue resumes. -/
  | aloneLeft (ch : Nat) (acknowledged : Bool)
  /-- DRIVE_FRAME_PERIOD (R414): Every PERIOD, the loop engine places the drive frames in the drive channel's buffers. -/
  | driveFramePeriod
  /-- POP (R416): Writing POP removes the head frame from a receive FIFO. -/
  | pop (ch : Nat)
  /-- CAN_TIMING_WRITE (R400): A timing write takes effect after the frame in progress, and the controller reintegrates with reset counters. -/
  | canTimingWrite (ch : Nat)
  /-- CAN_DISABLE (R418): EN is cleared on a controller, emptying its queue, buffers and receive FIFO. -/
  | canDisable (ch : Nat)
  /-- EVENT_TAIL_WRITE (R429): A queued event record is written to the MRAM tail and takes its SEQ, or merges into the open record. -/
  | eventTailWrite
  /-- LOG_PAGE_PROGRAM (R429): 128 closed records in the tail are programmed as one flash page, erasing a block first when needed. -/
  | logPageProgram
  /-- FLASH_BLOCK_RETIRED (R424): A flash page fails to program or a block fails to erase, so it is replaced from the spares. -/
  | flashBlockRetired (region block : Nat)
  /-- OPERATING_TIME_COUNT (R434): Once per second, module counter 0 adds one second. -/
  | operatingTimeCount
  /-- HOLDUP (R437): VMAIN stays below 30 V for 200 µs, so HOLDUP sets, the guard acts and the flush runs. -/
  | holdup (vmain heldUs : Nat)
  /-- FLUSH_COMPLETE (R437): The flush ends with the log state written, and the module waits and resets. -/
  | flushComplete (inProgress : List (Nat × Nat))
  /-- POWER_UP (R453): VMAIN rises through 36 V with VANA present, the rails come up and PWRGD asserts. -/
  | powerUp (vmain vana : Nat) (recov latchOk : Bool)
  /-- ROM_HANDOVER (R453): The ROM verifies and decrypts the selected slot and hands over, or enters RECOVERY. -/
  | romHandover (good : Bool)
  /-- RECKONER_START (R439): The Reckoner trains DDR5, resolves counters, restores the log and loads configuration and checkpoints. -/
  | reckonerStart (bad : List Nat) (cfgOk : Bool) (socBad learnedBad : List Nat)
  /-- MAILBOX_OPEN (R454): Rings with stored configurations have been taken towards ACTIVE, and the mailbox opens in the starting mode. -/
  | mailboxOpen (facts : List (Nat × Nat × List Nat))
  /-- RING_REJOIN_CONNECT (R452): Three unflagged sweeps after a ring becomes ACTIVE on a connected bank, its strings are connected one at a time. -/
  | ringRejoinConnect (port : Nat)
  /-- VMAIN_LOW (R480): VMAIN is below 34 V for 10 ms, raising the VMAIN-low event. -/
  | vmainLow (vmain heldMs : Nat)
  /-- SUPPLY_OVER_VOLTAGE (R480): VMAIN or VANA over-voltage makes the input disconnect itself. -/
  | supplyOverVoltage (vanaSide : Bool) (highest heldMs : Nat)
  /-- VANA_LOST (R482): VANA is below 30 V for 200 µs with VMAIN present, so the guard performs an emergency bank action. -/
  | vanaLost (vana heldUs : Nat)
  /-- VANA_RESTORED (R482): VANA has been above 36 V for 100 ms, so a synchronising reset is issued and rings are rechecked. -/
  | vanaRestored (vana heldMs : Nat) (facts : List (Nat × Nat × List Nat))
  /-- VIO_MISMATCH (R480): VIO is outside its selected range for 10 ms, so PWRGD is held low and the logic pins stay high-impedance. -/
  | vioMismatch (vio heldMs : Nat)
  /-- VIO_RETURN (R500): VIO returns, and the logic pins resume their functions within 1 ms. -/
  | vioReturn (vio : Nat)
  /-- HOLDUP_ARMED (R481): The hold-up bank reaches 65 V and the flush is armed, or the hold-up-fault event is raised at 2 s. -/
  | holdupArmed (bank : Nat)
  /-- ACTIVATION_EXPIRY (R466): M15 has not fired 24 h after ACT_WALL, so the activation cancels itself. -/
  | activationExpiry
  /-- NEW_FIRMWARE_START (R468): New firmware starts from an uncommitted slot, snapshots and migrates the configuration and resumes. -/
  | newFirmwareStart (oldFormat newFormat : Nat) (dflts : List Nat)
  /-- BOOT_FAIL (R471): The slot check fails or no heartbeat arrives within 5 s of handover, so BOOT_FAILS rises and the ROM rolls back or retries. -/
  | bootFail (kind : Nat)
  /-- RECOVERY_ENTRY (R472): The ROM enters RECOVERY and serves only WRITE_BLOCK and VERIFY. -/
  | recoveryEntry (cause : Nat)
  /-- RECOV_RELEASE (R472): RECOV is released after a successful VERIFY in RECOVERY, so the selected slot boots. -/
  | recovRelease
  /-- NODE_HOT (R87): A node's board temperature passes 105 °C, so it stops balancing, sets its lease counter to 0 and reports NODE_HOT. -/
  | nodeHot (port place : Nat) (hot : Bool)
  /-- PCIE_LINK_UP (R316): The PCI Express link trains after PERST# is released and comes up, raising the PCIe-link event with width and rate. -/
  | pcieLinkUp (width rate : Nat)
  /-- COMPARATOR_REARM (R217): An event-only FPI comparator's input returns inside its threshold by the hysteresis, and the comparator re-arms. -/
  | comparatorRearm (fpi : Nat)
  /-- AIN_BROKEN (R360): A current-mode AIN falls below 3.6 mA or returns above it, setting or clearing BROKEN. -/
  | ainBroken (n : Nat) (value : Int)
  /-- CAN_RECEIVE_ERROR (R403): A controller detects an error on a frame it is receiving and raises REC, which may make it error-passive. -/
  | canReceiveError (ch lec : Nat) (primary : Bool)
  /-- IN_MINIMUM_TIME_END (R383): The stretched minimum on or off time of a channel ends, and the output then follows its IN pin. -/
  | inMinimumTimeEnd (n : Nat)
deriving DecidableEq, Repr

end Sys2Proof
end

