-- ==== Sys2Proof/Config.lean ====
section
/-! DEFINITION. What the spec leaves open: free values without a body, and the checks whose keys only the factory knows. -/
namespace Sys2Proof.Config

/-- A free value: the n-th one taken, for which the spec states nothing (log entry 1). -/
opaque free : Nat → Int

/-- A free value: the mailbox load at a clock, of which the spec states that it is at most 990 (R311, log entry 67). -/
opaque mailboxLoad : Nat → Nat

/-- The 32-byte AES-256 image key of a key generation, in one-time-programmable memory (R462, log entry 2). -/
opaque imageKey : Nat → List Byte

/-- The P-384 public key of a key generation, in one-time-programmable memory (R462, log entry 2). -/
opaque publicKey : Nat → Nat × Nat

/-- The revocation bit of a key generation, in one-time-programmable memory (R462, log entry 2). -/
opaque keyRevoked : Nat → Bool

/-- The expected test signature of R111 (log entry 2). -/
opaque rodTestGood : Nat

/-- The bytes of a factory kernel's image, by KERNEL_ID 1 (LFP) or 2 (NMC): content of the firmware that the manual does not
repeat (R144, log entry 8). -/
opaque factoryBytes : Nat → List Byte
/-- The number of a curve table in a factory kernel's image, by KERNEL_ID and curve: 0 OCV, 1 hysteresis magnitude, 2 R1, 3 tau1,
4 R2, 5 tau2, 6 discharge and 7 charge current limit, 8 temperature factor of the ohmic resistance (R144, log entry 8). -/
opaque factoryTab : Nat → Nat → Nat
/-- The scale exponents of a curve table's keys and values: SOC key, temperature key, value (R144, log entry 8). -/
opaque factoryScale : Nat → Nat → Int × Int × Int
/-- kappa, the hysteresis rate of a factory kernel (R144, log entry 8). -/
opaque factoryKappa : Nat → Rat
/-- c_d, the diffusion gain of a factory kernel (R144, log entry 8). -/
opaque factoryCd : Nat → Rat

/-- The REF diode's coefficients a1 and a2, measured at manufacture (R210, log entry 8). -/
opaque refA : Rat × Rat
/-- The OSC diode's coefficients b1, b3 and its t0, measured at manufacture (R210, log entry 8). -/
opaque oscB : Rat × Rat × Rat

/-- The image capacity of a node in bytes (R475), fixed by the node's maker. -/
opaque nodeCapacity : Nat

/-- The module's serial number (R333), set at manufacture. -/
opaque serial : Nat
/-- The module is of grade X, the KZ-9128-XC; else of grade E, the KZ-9128-EA (R2). -/
opaque gradeX : Bool
/-- ROM_VER (R333), fixed in the ROM. -/
opaque romVer : Nat

end Sys2Proof.Config
end

