-- ==== Sys2Proof/Machine/State.lean ====
section
/-! DEFINITION. The state of the block: every register, buffer, counter, mode and pin the spec gives it, as plain data,
and the queue of waiting commands. A field's docstring gives its name, its width, the chapter and rule that name it and
its value at reset. -/
namespace Sys2Proof.Machine
open Sys2Proof

/-- Why a command stops the block. No rule of the spec stops it, so no meaning raises a fault; the constructor stands
for an inconsistency that no command of this model produces. Safe: a stop proves nothing false. -/
inductive Fault where
  /-- Raised by nobody; safe. -/
  | inconsistent
deriving DecidableEq, Repr

/-- Why a command has no meaning. -/
inductive Refusal where
  /-- The command of that mnemonic has no meaning in the model yet; raised by the dispatcher only; safe. -/
  | notModelled (mnemonic : String)
deriving DecidableEq, Repr

/-! ### Codes with names -/

/-- The modes of R442 (codes of R279). -/
inductive Mode where
  | off | recovery | commission | standby | connect | online | service | tripped
deriving DecidableEq, Repr

/-- RUNSTATE of SYS_STATUS (R279). -/
inductive RunState where
  | rom | recovery | restarting | running
deriving DecidableEq, Repr

/-- The ring states of R98. -/
inductive RingState where
  | active | service | isolated
deriving DecidableEq, Repr

/-- The states of a rod (R123). -/
inductive RodState where
  | healthy | retrying | quarantined | testing | halted
deriving DecidableEq, Repr

/-- The firmware update states USTATE of R345. -/
inductive UState where
  | empty | receiving | complete | verified | scheduled | uncommitted
deriving DecidableEq, Repr

/-! ### Records and counters (chapter 15) -/

/-- An event on its way to the log: its code and parameters (R425). -/
structure Ev where
  /-- CODE (16; 15 R425; -) -/
  code : Nat
  /-- PARAM[0…4] (5 × 16; 15 R425; unused 0) -/
  params : List Nat
deriving DecidableEq, Repr

/-- An event record (R425); the CRC is computed when the record is read out. -/
structure Rec where
  /-- SEQ (32; 15 R428; -) -/
  seq : Nat
  /-- CODE and PARAM (96; 15 R425; -) -/
  ev : Ev
  /-- OPTIME (32; 15 R425; -) -/
  optime : Nat
  /-- PCYCLE (32; 15 R425; -) -/
  pcycle : Nat
  /-- REPEAT (16; 15 R425; 0) -/
  rep : Nat
  /-- the record is closed (1; 15 R430; false) -/
  closed : Bool
deriving DecidableEq, Repr

/-- The learned record of a cell (R173). -/
structure Learned where
  /-- CAP, 0.02 Ah (16; 06 R173; DESIGN CHOICE 0) -/
  cap : Nat
  /-- R0, uOhm (16; 06 R173; DESIGN CHOICE 0) -/
  r0 : Nat
  /-- DIFF, 1e-6/s (16; 06 R173; DESIGN CHOICE 0) -/
  diff : Nat
  /-- SDR, 1e-11/s (16; 06 R173; DESIGN CHOICE 0) -/
  sdr : Nat
  /-- ID_CHANGED (1; 06 R173; false) -/
  idChanged : Bool
  /-- NEVER_LEARNED (1; 06 R173; DESIGN CHOICE true) -/
  neverLearned : Bool
  /-- LEARN_CNT (16; 06 R173; 0) -/
  cnt : Nat
  /-- SERIAL_TAG (32; 06 R173; 0) -/
  tag : Nat
deriving DecidableEq, Repr

/-- A slot of the SOC checkpoint pool (R423). -/
structure SocSlot where
  /-- CKSEQ, whose remainder by 2,048 is the slot's number (32; 15 R423; -) -/
  seq : Nat
  /-- WALL (64; 15 R423; -) -/
  wall : BitVec 64
  /-- GEN (32; 15 R423; -) -/
  gen : Nat
  /-- CFG_GEN (32; 15 R423; -) -/
  cfgGen : Nat
  /-- point addresses of the cells under that configuration, ascending; POINTS is their number (32; 15 R423; -) -/
  points : List Nat
  /-- SOC codes in that order (16 each; 15 R423; -) -/
  codes : List Nat
deriving DecidableEq, Repr

/-- A slot of the learned checkpoint pool (R423). -/
structure LearnedSlot where
  /-- CKSEQ, whose remainder by 256 is the slot's number (32; 15 R423; -) -/
  seq : Nat
  /-- WALL (64; 15 R423; -) -/
  wall : BitVec 64
  /-- GEN (32; 15 R423; -) -/
  gen : Nat
  /-- CFG_GEN (32; 15 R423; -) -/
  cfgGen : Nat
  /-- point addresses of the cells under that configuration, ascending; POINTS is their number (32; 15 R423; -) -/
  points : List Nat
  /-- learned records in that order (32 B each; 15 R423; -) -/
  recs : List Learned
deriving DecidableEq, Repr

/-- The event log, the MRAM tail and the carry counters. -/
structure Records where
  /-- SRAM event queue, at most 1,024 (list; 15 R429; empty) -/
  queue : List Ev
  /-- OPTIME and PCYCLE of the entries of the queue, taken as each entered (list of 32 + 32; 15 R425; empty) -/
  queueAt : List (Nat × Nat)
  /-- records dropped since the queue was full (count; 15 R429; 0) -/
  dropped : Nat
  /-- MRAM event tail, oldest first, at most 256 records (256 slots; 15 R429; empty) -/
  tail : List Rec
  /-- records in flash, oldest first (1,056,768 slots; 15 R420 R431; empty) -/
  flash : List Rec
  /-- SEQ of the next record (32; 15 R428; 1) -/
  nextSeq : Nat
  /-- flush-complete marker of the log state (1; 15 R421 R437; false) -/
  flushed : Bool
  /-- WAKE severity (3; 11 R345; 6) -/
  wakeSev : Nat
  /-- NOTIFY severity (3; 11 R345; 4) -/
  notifySev : Nat
  /-- carry counters, five digit words each, by counter key (5 × 16; 15 R433; 0) -/
  counters : Tbl (List (BitVec 16))
  /-- uncommitted counter increments with 32 fractional bits, by counter key (-; 15 R434; 0) -/
  fractions : Tbl Nat
  /-- journal markers set, as (region, slot) (4 KiB; 15 R422; none) -/
  markers : List (Nat × Nat)
  /-- CKSEQ of the newest checkpoint of a pool, 1 SOC, 2 learned (32; 15 R423; 0) -/
  ckSeq : Tbl Nat
  /-- slots of the SOC checkpoint pool, newest first (2,048 × 8 MiB; 15 R420 R423; none) -/
  socPool : List SocSlot
  /-- slots of the learned checkpoint pool, newest first (256 × 128 MiB; 15 R420 R423; none) -/
  learnedPool : List LearnedSlot
  /-- spare flash blocks left (16; 15 R420 R424; DESIGN CHOICE 61,000) -/
  spare : Nat
  /-- regions whose NV write has failed with no spare left (-; 15 R424; none) -/
  nvFailed : List Nat
  /-- CFG_GEN, commits to the configuration store (32; 11 R333; 0) -/
  cfgGen : Nat
  /-- the configuration store holds a valid copy (1; 15 R439, 16 R454; false) -/
  cfgValid : Bool
  /-- block registers awaiting their copy into the store: 9 the loop block, 10 the load block (-; 12 R350, 13 R393; none) -/
  cfgPending : List Nat
  /-- loop-block registers of the configuration store (32 each; 12 R350, 16 R453; the Reset columns) -/
  cfgLoop : Tbl (BitVec 32)
  /-- LCH_CFG by channel of the configuration store (24 × 32; 13 R393, 16 R453; the Reset column) -/
  cfgLoad : Tbl (BitVec 32)
  /-- SENSE_SEL of the configuration store (32; 13 R393; 0) -/
  cfgSense : BitVec 32
  /-- SEQ of the records of flash reported corrupt (32 each; 15 R432; none) -/
  corrupt : List Nat
  /-- ledger copy sequence number LSEQ (32; 15 R436; 0) -/
  lseq : Nat
  /-- entries of the newest ledger copy by tenant: E_MJ, DIS_MWH, CHG_MWH, CURT_MWH (256 × 32 B; 15 R436; 0) -/
  ledgerCopy : Tbl (List Int)
  /-- slot and tick stamped on the newest ledger copy (32 + 16; 15 R436; 0) -/
  ledgerStamp : Nat × Nat
deriving DecidableEq, Repr

/-! ### Beam (chapter 2) -/

/-- One mark compare unit M0…M15 (R46-R48, R58). -/
structure Mark where
  /-- MARKn_CMP (32; 02 R58; 0) -/
  cmp : BitVec 32
  /-- MARKn_STEP as written (32; 02 R58; 0) -/
  step : BitVec 32
  /-- STEP of the step in progress (32; 02 R48; 0) -/
  stepNow : BitVec 32
  /-- the last write of STEP: its clock and the STEP it replaced, which an advance of the same tick still adds (-; 02 R48; none) -/
  stepWas : Option (Nat × BitVec 32)
  /-- COUNT (16; 02 R58; 0) -/
  count : BitVec 16
  /-- SUBDIV (6; 02 R58; 1) -/
  subdiv : BitVec 6
  /-- EN (1; 02 R58; 0) -/
  en : Bool
  /-- clock of a write that cleared EN while a firing was due, which still takes place in that tick (-; 02 R48; none) -/
  owed : Option Nat
  /-- k, firings made within the step (6; 02 R47; 0) -/
  k : Nat
  /-- firings since EN was set (16; 02 R47; 0) -/
  fired : Nat
  /-- STAT.FIRES (16; 02 R58; 0) -/
  fires : BitVec 16
  /-- STAT.DONE (1; 02 R58; 0) -/
  done : Bool
  /-- STAT.LATE (1; 02 R58; 0) -/
  late : Bool
  /-- STAT.SKIPPED (1; 02 R58; 0) -/
  skipped : Bool
  /-- STAT bits that the last setting of one set, with its clock (18:17; 00 R9; none) -/
  newStat : Nat × Nat
deriving DecidableEq, Repr

/-- The mains-angle time base. -/
structure Beam where
  /-- BEAM_CTL but SYNC_RESET (32; 02 R58; 0x0000A530) -/
  ctl : BitVec 32
  /-- BEAM_NOMINAL (32; 02 R58; 0) -/
  nominal : BitVec 32
  /-- BEAM_WINDOW (32; 02 R58; 0xA0147055) -/
  window : BitVec 32
  /-- BEAM_PULSE (32; 02 R58; 0x00020000) -/
  pulse : BitVec 32
  /-- BEAM_TRIM (32; 02 R58; 0) -/
  trim : BitVec 32
  /-- BEAM_STATUS (32; 02 R58; 0x2, MAINS_LOST) -/
  status : BitVec 32
  /-- BEAM_EVENT (32; 02 R58; 0) -/
  event : BitVec 32
  /-- BEAM_EVENT bits set at the last clock that set one, with that clock (12:0; 00 R9; none) -/
  newEvent : Nat × Nat
  /-- exposed cycle count, BEAM_ANGLE [31:16] (16; 02 R34; 0) -/
  cycle : BitVec 16
  /-- 48-bit fraction of the exposed angle, top 16 bits BEAM_ANGLE [15:0] (48; 02 R33; 0) -/
  frac : BitVec 48
  /-- BEAM_FREQ (23; 02 R58; 0) -/
  freq : BitVec 32
  /-- BEAM_AMPL (16; 02 R58; 0) -/
  ampl : BitVec 32
  /-- BEAM_FAULTS: LOCK_LOSSES [31:16], EDGE_FAULTS [15:0] (32; 02 R58; 0) -/
  faults : BitVec 32
  /-- BEAM_FAULTS before the first count at the last clock that counted, with that clock (32; 00 R9; 0) -/
  oldFaults : Nat × Nat
  /-- BEAM_CYC_WALL (64; 02 R58; all ones) -/
  cycWall : BitVec 64
  /-- BEAM_CYC_TAG (16; 02 R58; 0) -/
  cycTag : BitVec 16
  /-- CYC_WALL_HI frozen by a read of CYC_WALL_LO (32; 02 R55; none) -/
  frozenHi : Option (BitVec 32)
  /-- CYC_TAG frozen by a read of CYC_WALL_LO (16; 02 R55; none) -/
  frozenTag : Option (BitVec 16)
  /-- the frozen CYC_WALL_HI has been read, CYC_TAG not yet (1; 02 R55; false) -/
  readHi : Bool
  /-- the frozen CYC_TAG has been read, CYC_WALL_HI not yet (1; 02 R55; false) -/
  readTag : Bool
  /-- BOUT_CTL (32; 02 R58; 0) -/
  boutCtl : BitVec 32
  /-- BOUT_RATIO (32; 02 R58; 0x00010001) -/
  boutRatio : BitVec 32
  /-- BOUT_WIDTH (32; 02 R58; 100) -/
  boutWidth : BitVec 32
  /-- extended cycle count in which BOUT's first group starts (48; 02 R54; 0) -/
  boutCycle : BitVec 48
  /-- ACT_GATE (64; 02 R58; 0) -/
  actGate : BitVec 64
  /-- mark units by number (16 units; 02 R48; per Mark) -/
  marks : Tbl Mark
  /-- extended cycle count (48; 02 R35; 0) -/
  ext : BitVec 48
  /-- tracked frequency of the selected source, 2^-16 Hz (23; 02 R36 R40; DESIGN CHOICE 50 Hz) -/
  trackFreq : Nat
  /-- tracked angle fraction (48; 02 R36 R40; DESIGN CHOICE 0) -/
  trackFrac : BitVec 48
  /-- consecutive valid cycles towards QUALIFY (4; 02 R36 R40; 0) -/
  validRun : Nat
  /-- exposed cycles since the last valid cycle (4; 02 R42; 0) -/
  standstill : Nat
  /-- clock of the last valid cycle (-; 02 R42; none) -/
  validAt : Option Nat
  /-- clock at which EXPOSED_ANGLE_ZERO took the advance of its tick (-; 02 R33; none) -/
  zeroAt : Option Nat
  /-- consecutive reversed counted cycles (2; 02 R37; 0) -/
  revRun : Nat
  /-- consecutive normal counted cycles (2; 02 R37; 0) -/
  normRun : Nat
  /-- level of the BZX pin after the filter, none until the level present at a change of SRC has held (1; 02 R39; none) -/
  bzxLevel : Option Bool
  /-- level at the BZX pin (1; 02 R39; DESIGN CHOICE low) -/
  bzxPin : Bool
  /-- clock of the BZX pin's last transition (-; 02 R39; 0) -/
  bzxSince : Nat
  /-- slew direction, +1 fast, -1 slow, 0 none (2; 02 R45; 0) -/
  slew : Int
  /-- rate kept since a change of source, 2^-16 Hz, until the new source qualifies or R42 applies (23; 02 R44; none) -/
  hold : Option Nat
  /-- clock of the last accepted BZX edge (-; 02 R39; none) -/
  bzxLast : Option Nat
  /-- clock of the last synchronising reset while its three samples are flagged (-; 02 R41; none) -/
  settleAt : Option Nat
  /-- over-range inputs: 0…2 BV_A…BV_C, 3…10 AIN0…AIN7 (11; 02 R41; none) -/
  overRange : List Nat
  /-- an interval set by SET_SWEEP, as STEP, 0 unset (32; 02 R51; 0) -/
  sweepConf : BitVec 32
  /-- sample instant of the last accepted sweep, LEAD after its launch, clock (-; 02 R50, 03 R73; none) -/
  lastSweep : Option Nat
  /-- sample instant of the newest sweep sampled, clock (-; 03 R73; none) -/
  sampledAt : Option Nat
  /-- clock at which the sweep that M0's next firing samples was launched or skipped, none before (-; 03 R73; none) -/
  launched : Option Nat
  /-- M0 has fired and its sweep's SYNC is still to be launched (1; 03 R73; false) -/
  launchOwed : Bool
  /-- clock at which the newest sweep was counted, with M0's firing or its late launch (-; 02 R46, 03 R73; none) -/
  sweptAt : Option Nat
  /-- sweep generation of the newest sweep sampled (32; 00 terms, 03 R77; 0) -/
  sweepGen : Nat
  /-- the next firing of M0 is that of a skipped sweep (1; 02 R50; false) -/
  skip : Bool
  /-- the newest sweep's sample instant fell into SETTLING (1; 01 R27; false) -/
  sweepSettle : Bool
  /-- sample angle of the newest sweep (32; 03 R73; 0) -/
  sampleAngle : BitVec 32
  /-- OSC correction of the frequency (-; 07 R210; 0) -/
  oscCorr : Rat
  /-- REF gain (-; 07 R210; 1) -/
  refGain : Rat
deriving DecidableEq, Repr

/-! ### Bead link (chapter 3) -/

/-- A stored node identity (R342). -/
structure NodeId where
  /-- POS (16; 11 R342; -) -/
  pos : Nat
  /-- NODE_TYPE (8; 11 R342; -) -/
  type : Nat
  /-- HW_REV (8; 11 R342; -) -/
  hw : Nat
  /-- STRING_ID (16; 11 R342; -) -/
  string : Nat
  /-- SERIAL (64; 11 R342; -) -/
  serial : Nat
deriving DecidableEq, Repr

/-- The node commands that carry sequence numbers (R66, R83). -/
inductive LinkOp where
  | read (addr count : Nat)
  | write (addr : Nat) (data : List (BitVec 8))
  | balance (lease : Nat) (dir : BitVec 32) (duty : List Nat)
  | switch (guard : Bool) (out : BitVec 8)
  | unwrap
  | fwBlock (offset : Nat) (data : List (BitVec 8))
  | fwActivate (crc : BitVec 32)
deriving DecidableEq, Repr

/-- A command queued or outstanding on a ring (R84). -/
structure LinkCmd where
  /-- DST position, 0xFFFF broadcast (16; 03 R65; -) -/
  dst : Nat
  /-- the command (-; 03 R66; -) -/
  op : LinkOp
  /-- SEQ (16; 03 R83; -) -/
  seq : Nat
  /-- FLAGS.RESYNC (1; 03 R65; -) -/
  resync : Bool
  /-- FLAGS.RETRY (1; 03 R65; -) -/
  retry : Bool
  /-- retransmissions made (2; 03 R84; 0) -/
  tries : Nat
  /-- clock of the launch (-; 03 R84; -) -/
  at_ : Nat
  /-- clock of the first BUSY answer (-; 03 R84; none) -/
  busySince : Option Nat
  /-- a BUSY answer has come and the command waits to be resent (1; 03 R85; false) -/
  waits : Bool := false
  /-- the mailbox request that caused it and its opcode (-; 03 R84; none) -/
  origin : Option (Rq × Nat)
deriving DecidableEq, Repr

/-- A symbol of the line (R61). -/
structure Sym where
  /-- a control symbol, else data (1; 03 R61; -) -/
  ctrl : Bool
  /-- its octet (8; 03 R61; -) -/
  octet : BitVec 8
deriving DecidableEq, Repr

/-- The collection block of a sweep (R77). -/
structure Block where
  /-- GEN (32; 03 R77; -) -/
  gen : Nat
  /-- SFLAGS.RENEW (1; 03 R77; -) -/
  renew : Bool
  /-- SFLAGS.SETTLING (1; 03 R77; -) -/
  settling : Bool
  /-- SFLAGS.DISPLACED (1; 03 R77; -) -/
  displaced : Bool
  /-- SAMPLE_ANGLE (32; 03 R77; -) -/
  angle : Nat
  /-- SWEEP_IVL, us (32; 03 R77; -) -/
  ivl : Nat
deriving DecidableEq, Repr

/-- A ring port (both ends) and what the module keeps of its ring. -/
structure Ring where
  /-- symbols the A end last put on its TX (-; 03 R61 R63; none) -/
  txA : List Sym
  /-- symbols the B end last put on its TX (-; 03 R61 R63; none) -/
  txB : List Sym
  /-- clock at which the frame in flight on the port ends' TX ends (-; 03 R63 R91; 0) -/
  txUntil : Nat
  /-- clock at which a trip sequence leaves the port ends' TX (-; 03 R76; 0) -/
  tripUntil : Nat
  /-- collection block of the newest collection (14 B; 03 R77; none) -/
  block : Option Block
  /-- ends whose collection frame is in flight, false A, true B (2; 03 R77 R96; none) -/
  ends : List Bool
  /-- loop propagation of the A half of a split ring, ns (32; 03 R96; none) -/
  loopA : Option Nat
  /-- loop propagation of the B half of a split ring, ns (32; 03 R96; none) -/
  loopB : Option Nat
  /-- a collection frame has closed while every wrapped node was sound (1; 03 R97; false) -/
  healed : Bool
  /-- body of the last trip sequence launched: TRIP_ID, SCOPE (1 BANK, 2 STRING, 3 BALANCE), TARGET, CAUSE (1 + 16 + 8 + 16 + 16; 03 R92; none) -/
  tripBody : Option (Nat × Nat × Nat × Nat)
  /-- ring state (2; 03 R98, 16 R453; ISOLATED) -/
  state : RingState
  /-- A end RX locked, B end RX locked (2; 03 R62; false) -/
  lockA : Bool
  /-- B end RX locked (1; 03 R62; false) -/
  lockB : Bool
  /-- SPLIT (1; 03 R96; false) -/
  split : Bool
  /-- SKEW_LIMIT (1; 03 R75; false) -/
  skewLimit : Bool
  /-- consecutive sweeps with a skew figure above 250 ns (4; 03 R75; 0) -/
  skewRun : Nat
  /-- skew figure, ns (16; 03 R75; 0) -/
  skew : Nat
  /-- F at calibration, ns (32; 03 R72; 0) -/
  fCal : Nat
  /-- R at calibration, ns (32; 03 R72; 0) -/
  rCal : Nat
  /-- F measured on the latest collection frame, ns (32; 03 R75; 0) -/
  fNow : Nat
  /-- nodes found at the last enumeration (16; 11 R342; 0) -/
  nodes : Nat
  /-- records missing since power-up (32; 11 R342; 0) -/
  missing : Nat
  /-- identity stored by STORE_CONFIG (list; 11 R341; none) -/
  config : List NodeId
  /-- calibration stored by CALIBRATE: position, COMP_A, COMP_B (list; 03 R72; none) -/
  calib : List (Nat × Nat × Nat)
  /-- echo round trips measured: position, end (0 A, 1 B), ns (list; 03 R71 R72; none) -/
  echoes : List (Nat × Nat × Nat)
  /-- the next sweep is flagged SETTLING, a ring resync (1; 03 R82; false) -/
  resync : Bool
  /-- the next COLLECT carries DISPLACED (1; 03 R76; false) -/
  displaced : Bool
  /-- sweeps displaced by a trip (-; 03 R76; 0) -/
  displacedCnt : Nat
  /-- last broadcast SEQ (16; 03 R83; 0) -/
  bseq : Nat
  /-- the next broadcast command carries RESYNC (1; 03 R84; true) -/
  bresync : Bool
  /-- commands queued for a gap (list; 03 R91; empty) -/
  queue : List LinkCmd
  /-- unicast commands outstanding, at most one per position (list; 03 R84; empty) -/
  out : List LinkCmd
  /-- last unicast SEQ to a position (16; 03 R83; 0) -/
  useq : Tbl Nat
  /-- positions already synchronised for unicast commands (list; 03 R84; none) -/
  synced : List Nat
  /-- sweep generation of the newest collection (32; 03 R77; 0) -/
  gen : Nat
  /-- COLLECT in flight on the ring (1; 03 R77; false) -/
  collecting : Bool
  /-- positions whose record of the present sweep has arrived (list; 03 R82; none) -/
  arrived : List Nat
  /-- clock at which the record of a position of the present sweep arrived (-; 04 R117; none) -/
  arrivedAt : Tbl Nat
  /-- clock at which the newest collection was over (-; 04 R117; none) -/
  closedAt : Option Nat
  /-- trip pre-empted the present collection (1; 01 R27, 03 R82; false) -/
  tripped : Bool
  /-- consecutive missing records of a position (3; 08 R229; 0) -/
  missRun : Tbl Nat
  /-- sweeps published since ACTIVE not flagged SETTLING (2; 16 R452; 0) -/
  unflagged : Nat
  /-- strings are to be connected after the ring has become ACTIVE (1; 16 R452; false) -/
  rejoinPending : Bool
  /-- the Reckoner confirms the ring's plan: RENEW (1; 03 R88; false) -/
  renew : Bool
  /-- opcode of a ring command in progress, 0 none (16; 11 R346; 0) -/
  busy : Nat
  /-- state a SET_RING_STATE is waiting to reach (2; 16 R450; none) -/
  goal : Option RingState
  /-- ECHO_REPLYs on their way: position, B end (list; 03 R71; none) -/
  echoOut : List (Nat × Bool)
  /-- HIGH of the last census (16; 03 R519; none) -/
  census : Option Nat
  /-- records of the sweep in progress carry SETTLING (1; 03 R82; false) -/
  settling : Bool
  /-- clock of the last KEEPALIVE launch (-; 03 R89; none) -/
  kaAt : Option Nat
  /-- SERIAL accepted at a position at the ring's last activation (64; 06 R175, 16 R451; none) -/
  serials : Tbl Nat
  /-- latest good record of a position with its generation (100 B; 03 R82; none) -/
  staged : Tbl (Nat × List (BitVec 8))
deriving DecidableEq, Repr

/-- A bead-link node (companion product), as chapter 3 fixes it. -/
structure Node where
  /-- SERIAL (64; 03 R68; factory, DESIGN CHOICE 0) -/
  serial : Nat
  /-- NODE_TYPE (8; 03 R68; factory, DESIGN CHOICE 0x01) -/
  type : Nat
  /-- HW_REV (8; 03 R68; factory, DESIGN CHOICE 0) -/
  hwRev : Nat
  /-- FW_VER (32; 03 R68; image, DESIGN CHOICE 0) -/
  fwVer : Nat
  /-- POSITION (16; 03 R68; 0) -/
  pos : Nat
  /-- STRING_ID (16; 03 R68; 0xFFFF) -/
  string : Nat
  /-- COMP_A, ns (32; 03 R68; 0) -/
  compA : Nat
  /-- COMP_B, ns (32; 03 R68; 0) -/
  compB : Nat
  /-- CELL_EN (32; 03 R68; 0) -/
  cellEn : BitVec 32
  /-- TEMP_EN (8; 03 R68; 0) -/
  tempEn : BitVec 8
  /-- SWITCH_WD, ms (16; 03 R68; 200) -/
  switchWd : Nat
  /-- LAST_SEQ (16; 03 R68; 0) -/
  lastSeq : Nat
  /-- LAST_BSEQ (16; 03 R68; 0) -/
  lastBseq : Nat
  /-- CRC_ERR (16; 03 R68; 0) -/
  crcErr : Nat
  /-- STALE_CNT (16; 03 R68; 0) -/
  staleCnt : Nat
  /-- LINK: FWD_LOCK, REV_LOCK, WRAP_A, WRAP_B, FAULT_SEEN (16; 03 R68; 0) -/
  link : BitVec 16
  /-- unicast synchronised state (1; 03 R83; clear) -/
  usync : Bool
  /-- broadcast synchronised state (1; 03 R83; clear) -/
  bsync : Bool
  /-- the stored response: STATUS and DATA (-; 03 R83; none) -/
  stored : Option (Nat × List (BitVec 8))
  /-- lease counter (8; 03 R87; 0) -/
  lease : Nat
  /-- LEASE of the last BALANCE (8; 03 R86; 0) -/
  leaseLen : Nat
  /-- duties in force, DUTY[0…31] (32 × 8; 03 R86; 0) -/
  duty : List Nat
  /-- DIR in force (32; 03 R86; 0) -/
  dir : BitVec 32
  /-- duties and DIR waiting for the next sample instant (-; 03 R87; none) -/
  nextDuty : Option (List Nat × BitVec 32)
  /-- LEASE_EXPIRED for the next record (1; 03 R80; false) -/
  leaseExpired : Bool
  /-- commanded outputs positive, negative, pre-charge (3; 03 R80; open) -/
  out : BitVec 3
  /-- auxiliary contacts (3; 03 R80; open) -/
  aux : BitVec 3
  /-- LATCH_TRIP (1; 03 R89; clear) -/
  latchTrip : Bool
  /-- LATCH_WD (1; 03 R89; set) -/
  latchWd : Bool
  /-- clock of the last good KEEPALIVE or of the start (-; 03 R89; 0) -/
  wdSince : Nat
  /-- NODE_RESET for the next record (1; 03 R80; true) -/
  nodeReset : Bool
  /-- the sweep tag last taken (8; 03 R74; none) -/
  tag : Option Nat
  /-- a sample is due: SYNC came on FWD RX (true) or REV RX, at a clock (-; 03 R74; none) -/
  sampleDue : Option (Bool × Nat)
  /-- clock of the last sample instant (-; 03 R81; none) -/
  lastSample : Option Nat
  /-- NOSYNC of the present sample (1; 03 R81; false) -/
  nosync : Bool
  /-- ADC_FAULT for the next record (1; 03 R80; false) -/
  adcFault : Bool
  /-- a converted record is ready to be appended (1; 03 R78; false) -/
  ready : Bool
  /-- GEN of the last COLLECT appended to (32; 03 R78; none) -/
  lastGen : Option Nat
  /-- clock of the last COLLECT (-; 03 R87; 0) -/
  lastCollect : Nat
  /-- SWEEP_IVL of the last COLLECT, us (32; 03 R77; 0) -/
  sweepIvl : Nat
  /-- cell voltage codes of the sample (32 × 16; 03 R79; 0xFFFF) -/
  cells : List Nat
  /-- temperature codes of the sample (8 × 16; 03 R79; 0x8000) -/
  temps : List Nat
  /-- STACK (16; 03 R79; 0xFFFF) -/
  stack : Nat
  /-- NODE_T code (16; 03 R79; 0x8000) -/
  nodeT : Nat
  /-- BUS_I (16; 03 R79; 0x8000) -/
  busI : Nat
  /-- NSTAT low bits NV_FAULT, NODE_HOT, BUS_FAULT, OPEN_WIRE (4; 03 R80; 0) -/
  nstat : BitVec 4
  /-- TRIP_ID acted on last and the clock of the action (16; 03 R93; none) -/
  lastTrip : Option (Nat × Nat)
  /-- clock of a TRIP ordered set with no good body yet (-; 03 R93; none) -/
  tripSeen : Option Nat
  /-- the answer sent last: SEQ, STATUS, DATA (-; 03 R84; none) -/
  answer : Option (Nat × Nat × List (BitVec 8))
  /-- the record appended last (100 B; 03 R79; none) -/
  sent : List (BitVec 8)
  /-- inactive image area: stored bytes by offset (list; 17 R475; empty) -/
  fwArea : Tbl (BitVec 8)
  /-- version of the image in the inactive area, accepted for the next restart (32; 17 R475; none) -/
  fwNext : Option Nat
deriving DecidableEq, Repr

/-! ### Rods (chapters 4 and 5) -/

/-- The execution context of one pass of an invocation on a rod (R127, R128). -/
structure RodCtx where
  /-- pass B is running (1; 04 R105; pass A) -/
  passB : Bool
  /-- V0…V15, 16 cells of 16 bits each (16 × 16 × 16; 05 R128; 0) -/
  v : Tbl (List Int)
  /-- A0…A3, 16 cells of 40 bits each (4 × 16 × 40; 05 R128; 0) -/
  a : Tbl (List Int)
  /-- S0…S7, data scalars (8 × 40; 05 R128; 0) -/
  sd : Tbl Int
  /-- S8…S15, index scalars (8 × 32; 05 R128; DESIGN CHOICE 0 before an invocation) -/
  si : Tbl (BitVec 32)
  /-- LM (16; 05 R128; DESIGN CHOICE 0 before an invocation) -/
  lm : BitVec 16
  /-- SF.LT, SF.EQ, SF.GT (3; 05 R128; clear) -/
  lt : Bool
  /-- SF.EQ (1; 05 R128; clear) -/
  eq : Bool
  /-- SF.GT (1; 05 R128; clear) -/
  gt : Bool
  /-- PC, word address (14; 05 R128; DESIGN CHOICE 0 before an invocation) -/
  pc : Nat
  /-- return stack, top first, at most 8 (8 × 14; 05 R128; empty) -/
  stack : List Nat
  /-- code overlay, word address to word, at most 64 (64 × 32; 05 R148; empty) -/
  overlay : Tbl (BitVec 32)
  /-- prefetch window: copies of words fetched ahead, by word address, at most 4 (4 × 32; 05 R147; empty) -/
  window : Tbl (BitVec 32)
  /-- bank A work area: row number to 16 cells (4096 × 256; 04 R102; 0) -/
  bankA : Tbl (List Int)
  /-- bank B work area, held by cell (4096 × 256; 04 R102; 0) -/
  bankB : Tbl (List Int)
  /-- measured cycles of the invocation (32; 04 R116; 0) -/
  cycles : Nat
  /-- cycles of the pass in progress (32; 05 R145; 0) -/
  passCycles : Nat
  /-- MAX_CYCLES of the entry in service (32; 05 R137; DESIGN CHOICE 1,000,000 before an invocation) -/
  maxCycles : Nat
  /-- kernel fault of the pass, code and PC (-; 05 R145; none) -/
  fault : Option (Nat × Nat)
  /-- pass A ended with a fault (-; 05 R146; none) -/
  faultA : Option (Nat × Nat)
  /-- the pass has ended (1; 05 R132; false) -/
  ended : Bool
  /-- ENTRY of the invocation, 1 UPDATE, 2 LEARN, 3 RIPPLE, 4 DIAG (8; 05 R137; 0) -/
  entry : Nat
  /-- string key of the invocation (23; 04 R103; 0) -/
  string : Nat
  /-- index of the invocation's first cell in string order (9; 04 R103; 0) -/
  base : Nat
  /-- number of cells in the invocation (5; 05 R128; 0) -/
  n : Nat
  /-- sweep generation of the invocation (32; 04 R104; 0) -/
  gen : Nat
  /-- work class of the invocation (3; 04 R117; 0) -/
  cls : Nat
  /-- S8…S11 at the start of each pass (4 × 32; 05 R128; 0) -/
  masks : List Nat
  /-- voltage code, temperature and current in A of each cell as loaded (-; 04 R104; none) -/
  ins : List (Nat × Int × Option Rat)
  /-- clock of the sweep's sample instant (-; 05 R140; 0) -/
  at_ : Nat
  /-- the sweep's records carry no SETTLING (1; 05 R128; true) -/
  settled : Bool
deriving DecidableEq, Repr

/-- An invocation that has ended: what it applied to and the values it delivers (R104, R138, R165). -/
structure Item where
  /-- string key (23; 04 R103; -) -/
  string : Nat
  /-- index of its first cell (9; 04 R103; -) -/
  base : Nat
  /-- number of its cells (5; 04 R103; -) -/
  n : Nat
  /-- ENTRY (8; 05 R137; -) -/
  entry : Nat
  /-- sweep generation (32; 04 R104; -) -/
  gen : Nat
  /-- work class (3; 04 R117; -) -/
  cls : Nat
  /-- results 0…7 with the scale of their columns applied, none where the image has no such column (8; 05 R138, 06 R159; -) -/
  results : List (Option Rat)
  /-- voltage code, temperature and current in A of each cell as loaded (-; 04 R104; -) -/
  ins : List (Nat × Int × Option Rat)
  /-- clock of the sweep's sample instant (-; 05 R140; -) -/
  at_ : Nat
  /-- the sweep's records carried no SETTLING (1; 01 R27; -) -/
  settled : Bool
  /-- side buffer of a RIPPLE or LEARN invocation: words 13…16 by cell, with their scales applied, none where the image does not declare the word with its KIND (4 each; 06 R154 R165; -) -/
  side : List (List (Option Rat))
  /-- kernel exchanges made before the image it ran (-; 05 R142; -) -/
  img : Nat
deriving DecidableEq, Repr

/-- Energy charged: clock, rod, class, cycles and eu (R116, R123, R124). -/
structure Spend where
  /-- clock (-; 04 R124; -) -/
  at_ : Nat
  /-- rod (7; 04 R123; -) -/
  rod : Nat
  /-- class (3; 04 R124; -) -/
  cls : Nat
  /-- cycles (32; 04 R116; -) -/
  cycles : Nat
  /-- energy, eu (-; 04 R116; -) -/
  eu : Nat
deriving DecidableEq, Repr

/-- One of the 128 rods. -/
structure Rod where
  /-- STATE (8; 04 R123; HEALTHY) -/
  state : RodState
  /-- RETRIES (16; 04 R123; 0) -/
  retries : Nat
  /-- WINDOWS (32; 04 R123; 0) -/
  windows : Nat
  /-- TABLE_FAULTS (16; 04 R123; 0) -/
  tableFaults : Nat
  /-- window sequence number wseq (32; 04 R106; 0) -/
  wseq : BitVec 32
  /-- SIG_A (32; 04 R107; 0xFFFFFFFF) -/
  sigA : BitVec 32
  /-- SIG_B (32; 04 R107; 0xFFFFFFFF) -/
  sigB : BitVec 32
  /-- invocations in the open window (9; 04 R107, 01 R21; 0) -/
  invs : Nat
  /-- clock of the window's first invocation (-; 01 R21; none) -/
  opened : Option Nat
  /-- the window holds a kernel fault and is discarded (1; 04 R109; false) -/
  tainted : Bool
  /-- a pass B fault that pass A did not have: a signature mismatch (1; 05 R146; false) -/
  forced : Bool
  /-- code and tables are waiting to be loaded: at the start, and when the old items are drained (1; 04 R110, 05 R142; false) -/
  reload : Bool
  /-- kernel exchanges made before the image it has loaded (-; 05 R142; 0) -/
  img : Nat
  /-- the rod was TESTING when SHUTDOWN halted it (1; 04 R114; false) -/
  testing : Bool
  /-- wall time of the last good table walk (64; 04 R110; all ones) -/
  walked : BitVec 64
  /-- invocations of the open window that have ended, oldest first (256; 04 R107; none) -/
  items : List Item
  /-- invocations of a mismatched window still to be rerun (256; 04 R107; none) -/
  redo : List Item
  /-- the pass in progress (-; 05 R127 R128; per RodCtx) -/
  ctx : RodCtx
deriving DecidableEq, Repr

/-- A kernel image as far as the module uses it (R136-R139). -/
structure Image where
  /-- KERNEL_ID (32; 05 R136; -) -/
  id : Nat
  /-- KVERSION (32; 05 R136; -) -/
  ver : Nat
  /-- SELF_WRITE (1; 05 R136; -) -/
  selfWrite : Bool
  /-- code section words (16,384 × 32; 05 R136; -) -/
  code : List (BitVec 32)
  /-- WEIGHT (16; 05 R137; -) -/
  weight : Nat
  /-- entry records ENTRY, CODE_WORD, MAX_CYCLES (4; 05 R137; -) -/
  entries : List (Nat × Nat × Nat)
  /-- column records ROW, ROLE, KIND, SCALE, SRC, IDX (255; 05 R138; -) -/
  columns : List (List Int)
  /-- tables: TAB, DIMS, K1, S1, K2, S2, X0, Z0 and VALUES (64; 05 R135; -) -/
  tables : List (List Int × List Int)
  /-- the image's bytes, for READ_IMAGE (list; 05 R144; -) -/
  bytes : List (BitVec 8)
deriving DecidableEq, Repr

/-- The rod array's scheduler and heat budget, and the kernel images. -/
structure Sched where
  /-- rods by number (128; 04 R123; per Rod) -/
  rods : Tbl Rod
  /-- set of quarantined rods recorded in flash (128; 04 R111; none) -/
  recorded : List Nat
  /-- DIE_T, 0.01 degC (16; 04 R124; DESIGN CHOICE 2,500) -/
  dieT : Int
  /-- WARN (1; 04 R114; clear) -/
  warn : Bool
  /-- THROTTLE (1; 04 R114; clear) -/
  throttle : Bool
  /-- SHUTDOWN (1; 04 R114; clear) -/
  shutdown : Bool
  /-- FLOOR_OVER (1; 04 R121; clear) -/
  floorOver : Bool
  /-- RATE_LOWERED (1; 04 R124; clear) -/
  lowered : Bool
  /-- readings of the eight rod-array diodes, 0.01 degC (8 × 16; 04 R114, 07 R210; DESIGN CHOICE 2,500) -/
  diodeT : List Int
  /-- valid die diodes (4; 04 R124; 8) -/
  diodes : Nat
  /-- diodes excluded at the last sample (8; 04 R114; none) -/
  excluded : List Nat
  /-- budget factor, 1/1000 (10; 04 R115; 1000) -/
  factor : Nat
  /-- energy budget of the present beam slot, eu (-; 04 R115; 0) -/
  budget : Nat
  /-- energy spent in the present slot, eu (-; 04 R115; 0) -/
  spent : Nat
  /-- energy charged over the last second, newest first, for CLASS_E and BUSY (-; 04 R123 R124; none) -/
  spends : List Spend
  /-- clock at which a class last received energy (5; 04 R119; 0) -/
  classAt : Tbl Nat
  /-- classes whose starvation has been reported (5; 04 R119; none) -/
  starved : List Nat
  /-- rod whose table walk comes next (7; 04 R117; 0) -/
  walkTurn : Nat
  /-- class 1 and 2 energy by sweep generation, from the last completed one on, eu (-; 04 R121; none) -/
  eSweep : Tbl Nat
  /-- class 1 and 2 energy E_sw of the last completed sweep, eu (-; 04 R121; 0) -/
  eLast : Nat
  /-- consecutive sweeps with E_sw above 0.9 B_sw (2; 04 R121; 0) -/
  overRun : Nat
  /-- clock since which E_sw has stayed at or below 0.6 of the shorter step's budget (-; 04 R121; none) -/
  calmSince : Option Nat
  /-- the suspension of the update floor during a swap (1; 04 R113; false) -/
  suspended : Bool
  /-- bursts waiting, oldest first: string key, clock of the last sample, first cell of the next invocation (-; 04 R117; none) -/
  bursts : List (Nat × Nat × Nat)
  /-- invocations compared and released, not yet published (-; 04 R107, 01 R22; none) -/
  released : List Item
  /-- image in service, none for the factory image of the firmware (-; 05 R144; none) -/
  service : Option Image
  /-- image in the inactive buffer (-; 05 R141; none) -/
  inactive : Option Image
  /-- INACTIVE of KERNEL_INFO: 0 empty, 1 loaded, 2 previous (2; 11 R336; 0) -/
  inactiveKind : Nat
  /-- images that went out of service, newest first: run by rods not yet reloaded, and the columns of words not yet rewritten (-; 05 R130 R142 R143; none) -/
  past : List Image
  /-- clock of the last kernel exchange (-; 05 R142; none) -/
  xAt : Option Nat
  /-- kernel exchanges made (-; 05 R143; 0) -/
  xgen : Nat
  /-- clocks of the kernel faults of the image in service within 10 s (16; 05 R146; none) -/
  faults : List Nat
  /-- a revert waits for M3 (1; 05 R146; false) -/
  revert : Bool
  /-- state words set to 0 at the present exchange (32; 05 R143; 0) -/
  wordsReset : Nat
deriving DecidableEq, Repr

/-! ### Cells and strings (chapters 6 and 7) -/

/-- The published cell record (R150) but CAP and R0, which come from the learned record. -/
structure CellRec where
  /-- V (16; 06 R150; 0xFFFF) -/
  v : Nat
  /-- T (16; 06 R150; DESIGN CHOICE 0x8000) -/
  t : Int
  /-- SOC_INT (16; 06 R150; 0) -/
  socInt : Nat
  /-- SOC_USE (16; 06 R150; 0) -/
  socUse : Nat
  /-- SOC_SIGMA (16; 06 R150; 0) -/
  sigma : Nat
  /-- CONF (8; 06 R168; 0) -/
  conf : Nat
  /-- CFLAGS (8; 06 R151; 0) -/
  flags : BitVec 8
  /-- ZREL2 (16; 06 R150; 0xFFFF) -/
  zrel2 : Nat
  /-- ZREL6 (16; 06 R150; 0xFFFF) -/
  zrel6 : Nat
  /-- IDIS (16; 06 R150; 0x8000) -/
  idis : Int
  /-- ICHG (16; 06 R150; 0x8000) -/
  ichg : Int
  /-- RESID (16; 06 R150; 0x8000) -/
  resid : Int
  /-- EREM (16; 06 R150; 0xFFFF) -/
  erem : Nat
  /-- GEN (32; 06 R150; 0) -/
  gen : Nat
deriving DecidableEq, Repr

/-- What a rest point records of a cell (R170). -/
structure RestPt where
  /-- voltage code (16; 06 R170; -) -/
  v : Nat
  /-- temperature (16; 06 R170; -) -/
  t : Int
  /-- internal SOC code (16; 06 R170; -) -/
  soc : Nat
  /-- cumulative net charge, mA × tick (-; 06 R170; -) -/
  net : Int
  /-- cumulative gross charge, mA × tick (-; 06 R170; -) -/
  gross : Nat
  /-- wall time (64; 06 R170; -) -/
  wall : BitVec 64
deriving DecidableEq, Repr

/-- What the module keeps of one cell. -/
structure Cell where
  /-- the published record (256; 06 R150; per CellRec) -/
  pub : CellRec
  /-- the half of the state that is current (1; 01 R29; 0) -/
  half : Bool
  /-- state half 0, words by IDX (32 × 16; 01 R29; 0) -/
  half0 : Tbl Int
  /-- state half 1, words by IDX (32 × 16; 01 R29; 0) -/
  half1 : Tbl Int
  /-- learned record (256; 06 R173; per Learned) -/
  learned : Learned
  /-- the record published before the present one (256; 10 R298; none) -/
  prevRec : List (BitVec 8)
  /-- usable SOC u kept between updates (-; 06 R166; none) -/
  use : Option Rat
  /-- clock since which word 7 has exceeded HLTH_NIS (-; 06 R167; none) -/
  nisSince : Option Nat
  /-- clock since which the voltage has been invalid (-; 06 R167; none) -/
  invalidSince : Option Nat
  /-- clock since which the recovery condition holds (-; 06 R167; none) -/
  goodSince : Option Nat
  /-- consecutive updates discarded by a kernel fault (2; 06 R167; 0) -/
  discards : Nat
  /-- cumulative net charge counter, mA × tick (-; 06 R170; 0) -/
  net : Int
  /-- cumulative gross charge counter, mA × tick (-; 06 R170; 0) -/
  gross : Nat
  /-- first point of the learning interval (-; 06 R171; none) -/
  first : Option RestPt
  /-- newest rest point (-; 06 R170; none) -/
  rest : Option RestPt
  /-- the two points of an interval queued for LEARN (-; 06 R172; none) -/
  learn : Option (RestPt × RestPt)
  /-- clock of the sample instant of the last update, none before the first (-; 05 R140; none) -/
  at_ : Option Nat
  /-- generation whose update has been taken up by a rod (32; 04 R117; none) -/
  taken : Option Nat
  /-- current supplied at the last update, A (-; 06 R158; none) -/
  lastAmps : Option Rat
  /-- kernel exchanges made when the state was last written (-; 05 R143; 0) -/
  xgen : Nat
  /-- samples of the burst in progress or waiting, in order (384 × 16; 06 R163; none) -/
  burst : List Nat
  /-- ZABS2 (16; 11 R335; 0xFFFF) -/
  zabs2 : Nat
  /-- ZABS6 (16; 11 R335; 0xFFFF) -/
  zabs6 : Nat
  /-- BURST_WALL (64; 11 R335; all ones) -/
  burstWall : BitVec 64
  /-- ZREL2 of the previous four valid bursts (4 × 16; 06 R176; none) -/
  zHist : List Nat
deriving DecidableEq, Repr

/-- One temperature input of a node (R186). -/
structure TempIn where
  /-- raw code of the sweep (16; 07 R186; 0x8000) -/
  raw : Int
  /-- value after substitution (16; 07 R186; 0x8000) -/
  used : Int
  /-- substituted (1; 07 R186; false) -/
  subst : Bool
  /-- not judged (1; 07 R186; false) -/
  unjudged : Bool
  /-- consecutive sweeps beyond both limits (2; 07 R186; 0) -/
  run : Nat
  /-- clock since which a substituted input has been within limits (-; 07 R186; none) -/
  goodSince : Option Nat
  /-- readings kept with their clocks, newest first, 60 s (-; 07 R186; none) -/
  hist : List (Nat × Int)
  /-- GEN of the last reading (32; 11 R334; 0) -/
  gen : Nat
deriving DecidableEq, Repr

/-- A string's thermal limit table (R189, R335), 0.01 degC. -/
structure Thermal where
  /-- T_WARN (16; 07 R189; 4500) -/
  warn : Int
  /-- T_THR (16; 07 R189; 5000) -/
  thr : Int
  /-- T_SD (16; 07 R189; 6000) -/
  sd : Int
  /-- TL_WARN (16; 07 R189; 500) -/
  lwarn : Int
  /-- TL_THR (16; 07 R189; 200) -/
  lthr : Int
  /-- TL_SD (16; 07 R189; 0) -/
  lsd : Int
  /-- T_HYST (16; 07 R189; 200) -/
  hyst : Int
deriving DecidableEq, Repr

/-- A string's guard limit table (R226, R340). -/
structure Limits where
  /-- OV1, OV2, OV3, UV1, UV2, UV3 codes (6 × 16; 08 R226; 36500 37500 39000 25000 23000 20000) -/
  volts : List Nat
  /-- OC1, OC2 in 1/1000 of I_RATED (2 × 16; 08 R226; 1100 1500) -/
  oc : List Nat
  /-- OT2 above T_SD, 0.01 K (16; 08 R226; 1000) -/
  ot2 : Nat
  /-- V_HYST, 100 uV (16; 08 R226; 200) -/
  vHyst : Nat
  /-- I_HYST, 0.001 % (16; 08 R226; 2000) -/
  iHyst : Nat
  /-- times OV1…OC2, ms (8 × 16; 08 R226; 10000 1000 0 10000 1000 0 30000 1000) -/
  times : List Nat
  /-- T_OT2, ms (16; 08 R226; 0) -/
  tOt2 : Nat
deriving DecidableEq, Repr

/-- The published string record (R152) and what the estimator keeps of a string. -/
structure Str where
  /-- cells of the string as point addresses in string order (512; 04 R103; none) -/
  cells : List Nat
  /-- SFLAGS (8; 06 R152; 0) -/
  sflags : BitVec 8
  /-- I, 50 mA (16; 06 R152; 0) -/
  i : Int
  /-- I_SIGMA (16; 06 R152; 0) -/
  iSigma : Nat
  /-- NOBS (16; 06 R152; 0) -/
  nobs : Nat
  /-- SRC_USED (8; 06 R152; 0) -/
  src : Nat
  /-- PDIS, W (32; 06 R152; 0) -/
  pdis : Nat
  /-- PCHG, W (32; 06 R152; 0) -/
  pchg : Nat
  /-- EUSE, Wh (32; 06 R152; 0) -/
  euse : Nat
  /-- EHEAD, Wh (32; 06 R152; 0) -/
  ehead : Nat
  /-- SOC_USE median (16; 06 R152; 0) -/
  socUse : Nat
  /-- observer current estimate, A (-; 06 R161; 0) -/
  iHat : Rat
  /-- observer variance P, A^2 (-; 06 R161; 0) -/
  pVar : Rat
  /-- clock since which the observer has been held (-; 06 R162; none) -/
  heldSince : Option Nat
  /-- the observer is reported unavailable (1; 06 R162; false) -/
  unavailable : Bool
  /-- voltage step of the observer done for the sweep (1; 06 R161; false) -/
  stepped : Bool
  /-- the interval of the observer run that waits for the blend, ticks (-; 06 R161; 0) -/
  stepTicks : Nat
  /-- results 0…7 over the invocations of the last complete sweep (8; 06 R159; 0) -/
  results : List Rat
  /-- results 0…7 over the invocations published so far of the sweep in progress (8; 06 R159; 0) -/
  acc : List Rat
  /-- cells published or discarded of the sweep in progress (9; 06 R161; 0) -/
  accN : Nat
  /-- sweep generation in progress (32; 06 R161; none) -/
  accGen : Option Nat
  /-- generation of the last complete sweep (32; 06 R161; none) -/
  doneGen : Option Nat
  /-- generation of the last observer run (32; 06 R161; none) -/
  runGen : Option Nat
  /-- clock of the sample instant of the last observer run (-; 06 R161; none) -/
  obsAt : Option Nat
  /-- I of the sweeps of the last 60 s with their clocks, newest first (-; 07 R198; none) -/
  iHist : List (Nat × Int)
  /-- words 13, 14 of a burst's published cells, by point address (-; 06 R165; none) -/
  ripAcc : Tbl (List (Option Rat))
  /-- words 15, 16 of a LEARN's published cells, by point address (-; 06 R165; none) -/
  learnAcc : Tbl (List (Option Rat))
  /-- clock since which the string has rested (-; 06 R170; none) -/
  restSince : Option Nat
  /-- rest points established in the present rest (-; 06 R170; 0) -/
  restPoints : Nat
  /-- clock since which the string current has stayed within the rest band (-; 06 R158; none) -/
  bandSince : Option Nat
  /-- first point of the learning interval: clock and wall time (-; 06 R171; none) -/
  first : Option (Nat × BitVec 64)
  /-- the first point is kept through the present rest (1; 06 R171; false) -/
  keepFirst : Bool
  /-- interval queued for LEARN: time between its points in ticks, idle (-; 06 R172; none) -/
  learn : Option (Nat × Bool)
  /-- time without a usable current within the interval, ticks (-; 06 R171; 0) -/
  noCurrent : Nat
  /-- the interval has seen a swap or kernel exchange (1; 06 R171; false) -/
  spoiled : Bool
  /-- unhealthy share, % (7; 06 R167; 0) -/
  unhealthy : Nat
  /-- clock of the last ripple burst (-; 06 R163; none) -/
  lastBurst : Option Nat
  /-- a burst is in progress: samples taken (9; 06 R163; none) -/
  burst : Option Nat
  /-- FPI samples of the burst, mA, in order (384 × 32; 06 R165; none) -/
  fpiBurst : List Int
  /-- a burst sample taken with a sweep: its generation and place in the burst, until the records give its codes (-; 02 R49; none) -/
  merge : Option (Nat × Nat)
  /-- thermal table in service (7 × 16; 07 R189; LFP) -/
  thermal : Thermal
  /-- TFLAGS (8; 07 R183; 0) -/
  tflags : BitVec 8
  /-- T_HOT (16; 07 R183; DESIGN CHOICE 0) -/
  tHot : Int
  /-- T_COLD (16; 07 R183; DESIGN CHOICE 0) -/
  tCold : Int
  /-- HOT_CELL (16; 07 R183; 0) -/
  hotCell : Nat
  /-- F_DIS, none before the first evaluation (16; 07 R191; none) -/
  fDis : Option Nat
  /-- F_CHG (16; 07 R191; none) -/
  fChg : Option Nat
  /-- clock of the last thermal evaluation (-; 07 R191; 0) -/
  evalAt : Nat
  /-- substituted inputs (8; 07 R183; 0) -/
  substN : Nat
  /-- SPREAD (16; 07 R183; 0xFFFF) -/
  spread : Nat
  /-- plan in service: point, duty, discharge flag (list; 07 R197; none) -/
  plan : List (Nat × Nat × Bool)
  /-- the plan's duties are scaled by heat (1; 07 R200; false) -/
  heatLimited : Bool
  /-- string conditions of balancing fail (1; 07 R200; false) -/
  excluded : Bool
  /-- balancing quiet before a rest point (1; 07 R202; false) -/
  quiet : Bool
  /-- PLAN_GEN (32; 07 R183; 0) -/
  planGen : Nat
  /-- clock of the last replan (-; 07 R199; none) -/
  planned : Option Nat
  /-- BAL_TARGET of the plan in service (-; 07 R196; 0) -/
  planTarget : Int
  /-- positions whose nodes could balance at the last replan (-; 07 R196; none) -/
  planNodes : List Nat
  /-- sweep generation at which flags and factors were last evaluated (32; 07 R190 R191; none) -/
  evalGen : Option Nat
  /-- guard limit table in service (48 B; 08 R226; LFP) -/
  limits : Limits
  /-- level timers running: level 0…9 and clock (10; 08 R227; none) -/
  timers : List (Nat × Nat)
  /-- charge protection factor (1; 08 R228; 1) -/
  fpChg : Nat
  /-- discharge protection factor (1; 08 R228; 1) -/
  fpDis : Nat
  /-- LOCKED: CAUSE and TRIP_ID (32; 08 R238; none) -/
  locked : Option (Nat × Nat)
  /-- causes that locked the string, comparators as 65,536 + n (list; 08 R236; none) -/
  causes : List Nat
  /-- WELDED (1; 08 R238; false) -/
  welded : Bool
  /-- EXCLUDED at the last connect (1; 08 R238; false) -/
  notJoined : Bool
  /-- the string contactors are closed (1; 06 R152; false) -/
  closed : Bool
  /-- GEN of the ring when they closed (32; 06 R152; 0) -/
  closedGen : Nat
  /-- a STRING trip has reached the string and its contactors have not been closed since (1; 07 R204; false) -/
  tripHold : Bool
  /-- levels that have crossed and not come back inside, 0…9 (10; 08 R227; none) -/
  crossed : List Nat
  /-- directions the guard has derated, 1 charge, 2 discharge, 3 both (2; 08 R223; 0) -/
  derated : Nat
  /-- string-switch outputs as the guard last commanded them (3; 08 R231; 0) -/
  sw : Nat
deriving DecidableEq, Repr

/-- Balancing state of a node (chapter 7). -/
structure BalNode where
  /-- temperature map, 32 entries, none for the default map (128; 07 R185; default map) -/
  map : Option (List Nat)
  /-- deferral for cell temperature (1; 07 R201; false) -/
  hot : Bool
  /-- deferral for NODE_T (1; 07 R193; false) -/
  board : Bool
  /-- clock at which the 1 h exclusion began (-; 07 R203; none) -/
  excl : Option Nat
  /-- consecutive sweeps with a bus mismatch (2; 07 R203; 0) -/
  mism : Nat
  /-- the check is suspended: 0 no, 1 on the sweep of a new BALANCE, 2 until the next replan (2; 07 R203; 0) -/
  suspend : Nat
  /-- cross-check-unavailable reported (1; 07 R186; false) -/
  noCross : Bool
  /-- duties and directions last sent (32 × 8 + 32; 07 R199; 0) -/
  sent : List Nat × Nat
  /-- a plan frame waits for its sweep (1; 07 R199; false) -/
  owed : Bool
  /-- duties and directions in force for the present sweep (32 × 8 + 32; 07 R203, 06 R155; 0) -/
  force : List Nat × Nat
  /-- duties and directions in force up to the last sample instant (32 × 8 + 32; 06 R155; 0) -/
  was : List Nat × Nat
  /-- duties and directions accepted by the node for the next sample instant (-; 03 R87; none) -/
  next : Option (List Nat × Nat)
deriving DecidableEq, Repr

/-- One thermal input of the module (R207). -/
structure Tin where
  /-- TIN_CFG (32; 07 R207; 0) -/
  cfg : BitVec 32
  /-- TIN_PAR (32; 07 R207; 0x0D6B03E8) -/
  par : BitVec 32
  /-- TIN_LIM (32; 07 R207; 0x2EE0F060) -/
  lim : BitVec 32
  /-- TIN_VAL (32; 07 R207; 0x8000) -/
  val : BitVec 32
  /-- consecutive bad conversions (2; 07 R208; 0) -/
  bad : Nat
  /-- kind of the last bad conversion, 1 open or high, 2 short or low (2; 07 R211; 0) -/
  badKind : Nat
  /-- consecutive good conversions of a faulty input (4; 07 R208; 0) -/
  good : Nat
  /-- the input is faulty (1; 07 R208; false) -/
  faulty : Bool
  /-- alarm set: 0 none, 1 high, 2 low (2; 07 R208; 0) -/
  alarm : Nat
  /-- last valid reading (16; 07 R209; DESIGN CHOICE 2,500) -/
  last : Int
  /-- reading of the latest good conversion while faulty (16; 07 R208; DESIGN CHOICE 2,500) -/
  next : Int
deriving DecidableEq, Repr

/-- The estimator's bank-wide state. -/
structure Est where
  /-- newest sweep generation whose publication is complete (32; 11 R333, 10 R298; none) -/
  pubGen : Option Nat
  /-- newest sweep generation of which something has been published (32; 10 R298; none) -/
  partGen : Option Nat
  /-- each string as it stood when its latest sweep was finished, for generations still pinned or newest complete (-; 10 R298; none) -/
  before : Tbl Str
  /-- every published estimate carries STALE (1; 04 R112; false) -/
  stale : Bool
  /-- cells by point address (4,194,304; 06 R150; per Cell) -/
  cells : Tbl Cell
  /-- temperature inputs by point address without KIND (1,048,576; 07 R186; per TempIn) -/
  temps : Tbl TempIn
  /-- configured strings by port × 65,536 + STRING_ID (16,384; 06 R152; none configured) -/
  strs : Tbl Str
  /-- keys of the configured strings (16,384; 15 R433; none) -/
  configured : List Nat
  /-- nodes' balancing state by port × 65,536 + position (-; 07 R185; per BalNode) -/
  bal : Tbl BalNode
  /-- measurement groups: SOURCE, CH, UNIT and string keys (64; 06 R160; none) -/
  groups : Tbl (List Nat)
  /-- committed settings by PARAM and scope (-; 11 R327; defaults) -/
  params : Tbl Int
  /-- settings in force since the last sweep sampled (-; 11 R321; defaults) -/
  live : Tbl Int
  /-- staged thermal tables by string (-; 16 R455; none) -/
  thermalStaged : Option (Tbl Thermal)
  /-- PTH_DIS, W (32; 07 R184; 0) -/
  pthDis : Nat
  /-- PTH_CHG, W (32; 07 R184; 0) -/
  pthChg : Nat
  /-- BAL_ALLOW, W (32; 07 R184; 0) -/
  balAllow : Nat
  /-- BAL_REQ, W (32; 07 R184; 0) -/
  balReq : Nat
  /-- balancing-heat-limited reported (1; 07 R198; false) -/
  heatReported : Bool
  /-- clock of the last replan (-; 07 R196; none) -/
  replanAt : Option Nat
  /-- thermal inputs TIN0…TIN15 (16; 07 R207; per Tin) -/
  tins : Tbl Tin
  /-- compensation fallback reported, 1 REF, 2 OSC (2; 07 R210; none) -/
  fallback : List Nat
  /-- LEARN work queued, oldest first: string key, clock, first cell of the next invocation (-; 04 R117, 06 R172; none) -/
  learnQueue : List (Nat × Nat × Nat)
  /-- conversions of the FPI inputs at the last sample instant, mA (16 × 32; 06 R160; none) -/
  fpiAt : Tbl Int
  /-- clock of the last learned checkpoint (-; 06 R177; 0) -/
  ckAt : Nat
  /-- clock of the last SOC checkpoint (-; 06 R177; 0) -/
  socAt : Nat
deriving DecidableEq, Repr

/-! ### Protection (chapter 8) -/

/-- One fast protection input (R216). -/
structure Fpi where
  /-- FPI_CFG (32; 08 R216; 0xA0000000) -/
  cfg : BitVec 32
  /-- FPI_ACT (32; 08 R216; 0) -/
  act : BitVec 32
  /-- FPI_TGT (32; 08 R216; 0xFFFF0000) -/
  tgt : BitVec 32
  /-- FPI_THR (32; 08 R216; 0x7FFF8001) -/
  thr : BitVec 32
  /-- FPI_SCALE (32; 08 R216; 0) -/
  scale : BitVec 32
  /-- FPI_VAL (32; 08 R216; 0) -/
  val : BitVec 32
  /-- a crossing is latched: 1 HI, 2 LO (2; 08 R217; none) -/
  latched : Nat
  /-- an event-only comparator has fired and not re-armed (1; 08 R217; false) -/
  fired : Bool
  /-- the input is beyond its threshold now (1; 08 R236; false) -/
  beyond : Bool
deriving DecidableEq, Repr

/-- A protective action requested of the guard for its next cycle (R223). -/
structure Req where
  /-- kind, row of R223: 1 emergency bank, 2 ordinary bank, 3 emergency string, 4 ordinary string, 5 derate; 6 a hardware
  action that needs nothing more than its record (3; 08 R217 R223; -) -/
  kind : Nat
  /-- string key, or none for the bank (23; 08 R223; -) -/
  string : Option Nat
  /-- CAUSE event code (16; 08 R239; -) -/
  cause : Nat
  /-- event parameters after the TRIP_ID (-; 08 R239; -) -/
  params : List Nat
  /-- the cause's record carries the TRIP_ID first (1; 08 R239, 15 R427; -) -/
  withId : Bool
  /-- the guard logs a record for the cause (1; 13 R392, 15 R427; -) -/
  logs : Bool
  /-- derate direction, 1 charge, 2 discharge, 3 both (2; 08 R223; -) -/
  dir : Nat
  /-- an ordinary bank disconnection that ends in STANDBY (1; 16 R445; false) -/
  standby : Bool := false
deriving DecidableEq, Repr

/-- A step of the sequence table (R231). -/
structure SeqStep where
  /-- OP (8; 08 R231; -) -/
  op : Nat
  /-- ROLE (8; 08 R231; -) -/
  role : Nat
  /-- ARG (16; 08 R231; -) -/
  arg : Nat
  /-- COND (8; 08 R231; -) -/
  cond : Nat
  /-- VAL (16; 08 R231; -) -/
  val : Nat
  /-- TIMEOUT, ms (32; 08 R231; -) -/
  timeout : Nat
  /-- ON_FAIL (8; 08 R231; -) -/
  onFail : Nat
deriving DecidableEq, Repr

/-- A sequence table: role map and three sections (R231). -/
structure SeqTable where
  /-- channels of BANK_POS, BANK_NEG, PRECHARGE, DISCHARGE, 0xFF none (4 × 8; 08 R231; DESIGN CHOICE none assigned) -/
  roles : List Nat
  /-- BANK_CONNECT (32 × 128; 08 R234; table of R234) -/
  connect : List SeqStep
  /-- STRING_CONNECT (16 × 128; 08 R234; table of R234) -/
  string : List SeqStep
  /-- DISCONNECT (16 × 128; 08 R234; table of R234) -/
  disconnect : List SeqStep
deriving DecidableEq, Repr

/-- The double-buffered tables of a copy of the configuration store (R453, R455). -/
structure Tables where
  /-- limit tables by string (48 B each; 08 R226; LFP) -/
  limits : Tbl Limits
  /-- thermal tables by string (7 × 16; 07 R189; LFP) -/
  thermal : Tbl Thermal
  /-- sequence table (-; 08 R231; -) -/
  seq : SeqTable
deriving DecidableEq, Repr

/-- STRING_CONNECT running on one string of a ring. -/
structure StrRun where
  /-- string key (23; 08 R234; -) -/
  string : Nat
  /-- strings of the ring still to come (list; 08 R234; -) -/
  rest : List Nat
  /-- step index (4; 08 R231; -) -/
  step : Nat
  /-- the step has acted (1; 08 R231; -) -/
  acted : Bool
  /-- clock at which the step began (-; 08 R231; -) -/
  since : Nat
  /-- GEN of the records at the step's begin (32; 08 R231; -) -/
  gen : Nat
deriving DecidableEq, Repr

/-- The sequence the guard is running (R231). -/
structure SeqRun where
  /-- section, 1 BANK_CONNECT, 3 DISCONNECT, 2 STRING_CONNECT on a rejoining ring (2; 08 R231; -) -/
  section_ : Nat
  /-- step index (5; 08 R231; -) -/
  step : Nat
  /-- the step has acted (1; 08 R231; -) -/
  acted : Bool
  /-- clock at which the step began (-; 08 R231; -) -/
  since : Nat
  /-- clock at which the sequence began (-; 08 R239; -) -/
  start : Nat
  /-- the table it began with (-; 16 R457; -) -/
  table : SeqTable
  /-- string runs in progress (one per ring; 08 R234; -) -/
  runs : List StrRun
  /-- strings closed and excluded so far (-; 08 R239; -) -/
  joined : Nat
  /-- strings excluded so far (-; 16 R459; -) -/
  left : Nat
  /-- V_ref, mV (-; 08 R232; -) -/
  vref : Nat
  /-- an ordinary disconnection's CAUSE, 0 for DISCONNECT; port + 1 of a rejoining ring in section 2 (16; 08 R223; -) -/
  cause : Nat
  /-- it ends in TRIPPED (1; 16 R445; -) -/
  trips : Bool
  /-- clock at which ZERO was sent (-; 08 R232; none) -/
  zeroAt : Option Nat
  /-- V_link has reached half of the pre-charge condition within half of its TIMEOUT (1; 08 R232; -) -/
  half : Bool
deriving DecidableEq, Repr

/-- The guard, the trip outputs and the fast inputs. -/
structure Guard where
  /-- FPI0…FPI15 (16; 08 R216; per Fpi) -/
  fpi : Tbl Fpi
  /-- TRIP_MODE (16; 08 R219; 0) -/
  tripMode : BitVec 16
  /-- TRIP_ID (16; 08 R219; 0) -/
  tripId : Nat
  /-- TRIPPED with its cause (1 + 16; 08 R219; false) -/
  tripped : Bool
  /-- TRIP_CAUSE (16; 11 R333; 0) -/
  tripCause : Nat
  /-- HW_TRIP (1; 08 R219; 0) -/
  hwTrip : Bool
  /-- GUARD_OK (1; 08 R219; 0) -/
  guardOk : Bool
  /-- STOP_OK (1; 08 R219; 0) -/
  stopOk : Bool
  /-- outputs released by hardware until the latch is reset (8; 08 R213 R214 R217; 0) -/
  hwMask : BitVec 8
  /-- a bank-wide hardware trip holds every contactor channel off until the latch is reset (1; 08 R213 R214 R217; false) -/
  hwBank : Bool
  /-- the connect sequence has passed its PCS RELEASE step (1; 08 R221; false) -/
  released : Bool
  /-- the guard has failed and only a power cycle restarts it (1; 08 R222; false) -/
  failed : Bool
  /-- consecutive compared cycles (-; 08 R237; 0) -/
  cycles : Nat
  /-- clock of the last compared cycle, none before the first (-; 08 R222; none) -/
  lastCycle : Option Nat
  /-- clock of the last heartbeat, none before the first compared cycle (-; 01 R20; none) -/
  beatAt : Option Nat
  /-- heartbeat timeout in force, ms (-; 01 R20; 10,000) -/
  beatMs : Nat
  /-- the heartbeat has timed out and not returned (1; 01 R20; false) -/
  silent : Bool
  /-- actions requested for the next cycle (list; 08 R223; none) -/
  reqs : List Req
  /-- a hardware action took this TRIP_ID, the next cycle completes it (1; 08 R220; false) -/
  hwPending : Bool
  /-- CAUSE of the pending hardware action (16; 08 R235; 0) -/
  hwCause : Nat
  /-- clock of the guard cycle that last took a TRIP_ID (-; 08 R220; none) -/
  idAt : Option Nat
  /-- bank-level causes still present, by event code (list; 08 R237; none) -/
  present : List Nat
  /-- clear commands awaiting the next cycle: request, opcode, TRIP_ID or string key (-; 11 R346; none) -/
  clears : List (Rq × Nat × Nat)
  /-- PCS message held: 0 none, 1 ZERO, 2 STOP, 3 RELEASE (2; 08 R225; 0) -/
  pcsCmd : Nat
  /-- TRIP_ID and CAUSE of the PCS message (16 + 16; 08 R225; 0) -/
  pcsId : Nat × Nat
  /-- COUNT of the PCS message (8; 08 R225; 0) -/
  pcsCount : Nat
  /-- RELEASE sends left (2; 08 R225; 0) -/
  releases : Nat
  /-- clock of the last PCS message sent (-; 08 R225; none) -/
  pcsAt : Option Nat
  /-- sequence in progress (-; 08 R231; none) -/
  seq : Option SeqRun
  /-- an ordinary string disconnection in progress: its strings, its clock, LOCKED afterwards (-; 08 R223, 16 R450; none) -/
  strDisc : Option (List Nat × Nat × Bool)
  /-- a release is owed after a firmware swap (1; 09 R265; false) -/
  swapZero : Bool
  /-- sequence table in service (-; 08 R234; tables of R234) -/
  table : SeqTable
  /-- staged sequence table (-; 16 R455; none) -/
  tableStaged : Option SeqTable
  /-- tables of the configuration store that the guard takes at the next firing of M3 (-; 16 R453; none) -/
  owed : Option Tables
  /-- staged limit tables by string (-; 16 R455; none) -/
  limitsStaged : Option (Tbl Limits)
  /-- guard-owned channels commanded on (24; 08 R231; 0) -/
  cmd : BitVec 24
  /-- BANK_POS and BANK_NEG closed under a completed connect sequence (1; 16 R442; false) -/
  connected : Bool
  /-- unacknowledged weld: TRIP_ID (16; 08 R233; none) -/
  weld : Option Nat
  /-- clock at which both bank contactors were opened, V_bank then, mV (-; 08 R233; none) -/
  openedAt : Option (Nat × Nat)
  /-- opened strings under weld watch: the clock of the opening, AUX read open in time, current fallen in time (-; 08 R233; none) -/
  strOpened : Tbl (Nat × Bool × Bool)
  /-- clocks of pre-charge attempts within 10 min (-; 08 R232; none) -/
  preTries : List Nat
  /-- clock at which PRECHARGE closed (-; 08 R232; none) -/
  preSince : Option Nat
  /-- V_link, mV, the ROLE 3 conversion (32; 08 R231; 0) -/
  vlink : Int
  /-- I_bank, mA, the ROLE 2 conversion or the sum of I (32; 08 R231; 0) -/
  ibank : Int
  /-- V_bank, mV, median of the closed strings (32; 08 R231; 0) -/
  vbank : Nat
  /-- alarm map: (CH, SOURCE) to KIND, PORT, STRING (-; 11 R339; none) -/
  alarms : Tbl (List Nat)
  /-- stop bits of tenants 1…255 (256; 08 R214, 09 R259; none) -/
  stops : List Nat
  /-- stop lanes rung so far (-; 10 R314; 0) -/
  stopRings : Nat
  /-- number of the last ringing of a tenant's stop lane (256; 10 R314; 0) -/
  stopAt : Tbl Nat
  /-- clock of a substituted input's crossing at OT1 (-; 08 R229; none) -/
  substSince : Tbl Nat
deriving DecidableEq, Repr

/-! ### Tenants and dispatch (chapter 9) -/

/-- A schedule entry (R246). -/
structure Entry where
  /-- SLOT (32; 09 R246; -) -/
  slot : Nat
  /-- P_TARGET, W (32; 09 R246; -) -/
  target : Int
  /-- RAMP, W/s (32; 09 R246; -) -/
  ramp : Nat
deriving DecidableEq, Repr

/-- A tenant: allocation, schedule, ledger. -/
structure Tenant where
  /-- an allocation record exists (1; 09 R240; false) -/
  exists_ : Bool
  /-- ENABLED (1; 09 R240; 0) -/
  enabled : Bool
  /-- PALLOC_DIS, W (32; 09 R240; 0) -/
  pDis : Nat
  /-- PALLOC_CHG, W (32; 09 R240; 0) -/
  pChg : Nat
  /-- EALLOC, Wh (64; 09 R240; 0) -/
  eAlloc : Nat
  /-- accepted allocation waiting for M3: ENABLED, PALLOC_DIS, PALLOC_CHG, EALLOC (-; 09 R243; none) -/
  nextAlloc : Option (Bool × Nat × Nat × Nat)
  /-- pending entries, ascending, at most 1,024 (list; 09 R247; none) -/
  pending : List Entry
  /-- entry in force (-; 09 R246; none) -/
  cur : Option Entry
  /-- the clip of the entry in force has been reported (1; 09 R243; false) -/
  clipped : Bool
  /-- ramp state r_t, W, exact (-; 09 R248; 0) -/
  ramp : Rat
  /-- r_t after any external binding, P_SCHED (32; 09 R263; 0) -/
  sched : Int
  /-- request q_t of the last tick, W (32; 09 R251; 0) -/
  req : Int
  /-- delivered power d_t, W (32; 09 R251; 0) -/
  deliv : Int
  /-- CURTAILED this tick (1; 09 R263; false) -/
  curt : Bool
  /-- E_EMPTY (1; 09 R263; false) -/
  empty : Bool
  /-- E_FULL (1; 09 R263; false) -/
  full : Bool
  /-- lowest ledger since ledger-empty was raised, none when it may be raised (-; 09 R265; none) -/
  emptyRef : Option Int
  /-- highest ledger since ledger-full was raised (-; 09 R265; none) -/
  fullRef : Option Int
  /-- ledger, mJ (64; 09 R255; 0) -/
  mj : Int
  /-- discharge energy delivered, mJ (64; 09 R255; 0) -/
  disSum : Int
  /-- charge energy delivered, mJ (64; 09 R255; 0) -/
  chgSum : Int
  /-- energy curtailed, mJ (64; 09 R255; 0) -/
  curtSum : Int
deriving DecidableEq, Repr

/-- External set-point binding (R258). -/
structure Binding where
  /-- SRC (8; 09 R258; 0) -/
  src : Nat
  /-- CH (8; 09 R258; 0) -/
  ch : Nat
  /-- MODE (8; 09 R258; 0) -/
  mode : Nat
  /-- FAILSAFE (8; 09 R258; 0) -/
  failsafe : Nat
  /-- X0 (32; 09 R258; 0) -/
  x0 : Int
  /-- DB (32; 09 R258; 0) -/
  db : Nat
  /-- GAIN (32; 09 R258; 0) -/
  gain : Int
  /-- PMAX (32; 09 R258; 0) -/
  pmax : Nat
deriving DecidableEq, Repr

/-- The dispatch engine. -/
structure Dispatch where
  /-- tenants 0…255 (256; 09 R240; per Tenant) -/
  tenants : Tbl Tenant
  /-- SLOT_CYC in force (6; 09 R241; 50) -/
  slotCyc : Nat
  /-- a new SLOT_CYC and its changeover cycle (6 + 48; 09 R245; none) -/
  slotNext : Option (Nat × Nat)
  /-- binding of tenant 0's set-point (24 B; 09 R258; none) -/
  binding : Binding
  /-- last term of the binding, W (32; 09 R258; 0) -/
  term : Int
  /-- the binding's input is faulty (1; 09 R258; false) -/
  extFault : Bool
  /-- FAILSAFE = 1 holds the last term until this clock (-; 09 R258; none) -/
  holdUntil : Option Nat
  /-- latest value of the bound input, input units (32; 09 R258; 0) -/
  input : Int
  /-- the terms of the last ten ticks and the one before them, newest first (-; 09 R261; none) -/
  terms : List Int
  /-- ringings of the stop lanes that the powers in force take into account (-; 09 R259; 0) -/
  stopSeen : Nat
  /-- P_BANK, W (32; 09 R264; 0) -/
  pBank : Int
  /-- P_REQ, W (32; 09 R264; 0) -/
  pReq : Int
  /-- L_DIS, W (32; 09 R264; 0) -/
  lDis : Nat
  /-- L_CHG, W (32; 09 R264; 0) -/
  lChg : Nat
  /-- P_SOP_DIS, P_SOP_CHG (2 × 32; 09 R264; 0) -/
  sop : Nat × Nat
  /-- P_PROT_DIS, P_PROT_CHG (2 × 32; 09 R264; 0) -/
  prot : Nat × Nat
  /-- P_DISP, W (32; 09 R264; 0) -/
  pDisp : Nat
  /-- BFLAGS (8; 09 R264; 0) -/
  bflags : BitVec 8
  /-- SLOT (32; 09 R264; 0) -/
  slot : Nat
  /-- TICK (16; 09 R264; 0) -/
  tick : Nat
  /-- SLOT_WALL (64; 09 R264; all ones) -/
  slotWall : BitVec 64
  /-- clock of the last tick (-; 09 R248; none) -/
  tickAt : Option Nat
  /-- consecutive ticks a side needed share(), discharge and charge (2 × 4; 09 R254; 0) -/
  needRun : Nat × Nat
  /-- consecutive ticks a side needed none (2 × 4; 09 R254; 0) -/
  freeRun : Nat × Nat
  /-- curtailment reported on a side, with its clock (2; 09 R254; none) -/
  curtDis : Option Nat
  /-- curtailment reported on the charge side (1; 09 R254; none) -/
  curtChg : Option Nat
  /-- e_0 at the last ledger-deficit event, mJ (-; 09 R256; none) -/
  deficit : Option Int
  /-- clock up to which the ledgers have moved (-; 09 R255; 0) -/
  settleAt : Nat
  /-- duration of the tick just ended, ticks of 5 ns (-; 09 R248; DESIGN CHOICE 4,000,000, 20 ms) -/
  dt : Nat
  /-- HELD, with the ticks held so far (1; 09 R264 R265; none) -/
  held : Option Nat
  /-- SEQ of the set-point frame (8; 14 R411; 0) -/
  frameSeq : Nat
  /-- analogue set-point output AOUT, Q15 of 10 V (16; 09 R253; 0) -/
  aout : Int
deriving DecidableEq, Repr

/-! ### Mailbox and host links (chapters 10 and 11) -/

/-- A response or notification built and not yet posted, or posted (R268). -/
structure Resp where
  /-- OPCODE (16; 10 R268; -) -/
  opcode : Nat
  /-- the request it answers (-; 10 R268; -) -/
  rq : Rq
  /-- STATUS (16; 10 R271; -) -/
  status : Nat
  /-- DETAIL (16; 10 R270; -) -/
  detail : Nat
  /-- PARAM (32; 10 R270; -) -/
  param : Nat
  /-- payload of an OK response (240 B; 10 R268; -) -/
  payload : List (BitVec 8)
  /-- data a bulk read delivers with it: to the host buffer, or as chunks (-; 10 R296 R301; none) -/
  bulk : List (BitVec 8)
  /-- MORE (1; 10 R269; -) -/
  more : Bool
  /-- NOTIFY (1; 10 R269; -) -/
  notify : Bool
  /-- it answers an NV-class write (1; 11 R321; -) -/
  nv : Bool
deriving DecidableEq, Repr

/-- A tenant's page registers and mailbox state (R277, R278). -/
structure Page where
  /-- TEN_CTL.RQ_EN (1; 10 R278; 0) -/
  rqEn : Bool
  /-- TEN_CTL.RS_EN (1; 10 R278; 0) -/
  rsEn : Bool
  /-- RQ_BASE (64; 10 R278; 0) -/
  rqBase : BitVec 64
  /-- RS_BASE (64; 10 R278; 0) -/
  rsBase : BitVec 64
  /-- RQ_TAIL (16; 10 R278; 0) -/
  rqTail : Nat
  /-- RQ_HEAD (16; 10 R278; 0) -/
  rqHead : Nat
  /-- RS_HEAD (16; 10 R278; 0) -/
  rsHead : Nat
  /-- RS_TAIL (16; 10 R278; 0) -/
  rsTail : Nat
  /-- EPOCH (8; 10 R278; 0) -/
  epoch : Nat
  /-- IRQ_MOD (32; 10 R278; 0x80010000) -/
  irqMod : BitVec 32
  /-- RQ_FAULT (1; 10 R278; 0) -/
  rqFault : Bool
  /-- CNT_STALE (16; 10 R278; 0) -/
  cntStale : Nat
  /-- CNT_LATE (16; 10 R278; 0) -/
  cntLate : Nat
  /-- CNT_STRAY (16; 10 R278; 0) -/
  cntStray : Nat
  /-- CNT_FAULT (16; 10 R278; 0) -/
  cntFault : Nat
  /-- clock of the last counts in CNT_A and its value before them (-; 00 R9; none) -/
  cntAOld : Nat × Nat
  /-- clock of the last counts in CNT_B and its value before them (-; 00 R9; none) -/
  cntBOld : Nat × Nat
  /-- datagrams that have passed their checks and wait for the tenant's turn, oldest first (list; 10 R307; empty) -/
  arrived : List (List (BitVec 8))
  /-- response SEQ of the last posting over PCI Express (32; 10 R268; 0) -/
  seq : Nat
  /-- response SEQ of the last sending over Ethernet (32; 10 R268; 0) -/
  ethSeq : Nat
  /-- tags outstanding in the present epoch, in order of arrival, with their transport and the stop-lane ringings before
  their fetch (256; 10 R273 R314; none) -/
  outstanding : List (Nat × Bool × Nat)
  /-- responses pending since the last MSI-X message (7; 10 R282; 0) -/
  irqPend : Nat
  /-- clock of the first of them (-; 10 R282; none) -/
  irqSince : Option Nat
  /-- MSI-X messages sent on the tenant's vector (-; 10 R282; 0) -/
  irqs : Nat
  /-- responses waiting to be posted, oldest first (list; 10 R280 R303; empty) -/
  waiting : List Resp
  /-- notifications waiting for a free slot, at most 256 (256; 10 R294; empty) -/
  notes : List Resp
  /-- notifications waiting to be sent over Ethernet, at most 256 (256; 10 R293; empty) -/
  ethNotes : List Resp
  /-- what the last posting put out: the slot it wrote, or its datagrams, chunks first (-; 10 R268 R280 R287 R301; empty) -/
  wire : List (List (BitVec 8))
  /-- responses posted or sent with their SEQ, newest first (host memory; 10 R280; empty) -/
  posted : List (Nat × Resp)
  /-- stored responses of the epoch's tags (256; 10 R291; none) -/
  stored : Tbl Resp
  /-- key slots 0 and 1, none where not installed (2 × 256; 10 R288; none) -/
  keys : Tbl Nat
  /-- replay counters H of the slots: requests 0, 1; stop datagrams 2, 3 (32; 10 R290 R285; 0) -/
  replay : Tbl Nat
  /-- accepted values of the replay windows (64 each; 10 R290; none) -/
  windows : Tbl (List Nat)
  /-- SEQ of the last EPOCH_SET accepted, by slot (2 × 32; 10 R273; 0) -/
  epochSeq : Tbl Nat
  /-- slot of the most recent authenticated request (1; 10 R288; 0) -/
  lastSlot : Nat
  /-- an address from which an authenticated request came is known (1; 10 R293; false) -/
  ethPeer : Bool
deriving DecidableEq, Repr

/-- A bulk cursor (R298). -/
structure Cursor where
  /-- CURSOR (32; 10 R295; -) -/
  id : Nat
  /-- tenant (8; 10 R300; -) -/
  tenant : Nat
  /-- opcode that opened it (16; 11 R324; -) -/
  opcode : Nat
  /-- selector PORT, STRING, ARG (8 B; 11 R324; -) -/
  sel : Nat × Nat × Nat
  /-- pinned generation, none for items of no generation (32; 10 R298; -) -/
  gen : Option Nat
  /-- items or bytes still to come (-; 10 R297; -) -/
  items : List (List (BitVec 8))
  /-- position of a READ_LOG cursor (32; 15 R432; -) -/
  pos : Nat
  /-- bytes received by a bulk write (-; 11 R324; -) -/
  data : List (BitVec 8)
  /-- clock of its creation (-; 10 R299; -) -/
  since : Nat
deriving DecidableEq, Repr

/-- What NV-class writes have committed and the next sweep takes into force (R321): measurement groups, the binding,
temperature maps, thermal-input and fast-input registers, TRIP_MODE, the alarm map, the severities. -/
structure Conf where
  /-- measurement groups by number: SOURCE, CH, UNIT, string keys (64; 06 R160; none) -/
  groups : Tbl (List Nat)
  /-- binding (24 B; 09 R258; none) -/
  binding : Binding
  /-- temperature maps by node key, 32 entries (128 each; 07 R185; default map) -/
  maps : Tbl (List Nat)
  /-- TIN_CFG, TIN_PAR, TIN_LIM by input (3 × 32; 07 R207; the Reset column) -/
  tins : Tbl (List Nat)
  /-- FPI_CFG, ACT, TGT, THR, SCALE by input (5 × 32; 08 R216; the Reset column) -/
  fpi : Tbl (List Nat)
  /-- TRIP_MODE (16; 08 R219; 0) -/
  tripMode : Nat
  /-- alarm map: CH × 64 + SOURCE to KIND, PORT, STRING (-; 11 R339; none) -/
  alarms : Tbl (List Nat)
  /-- WAKE and NOTIFY severities (2 × 3; 11 R345; 6, 4) -/
  sev : Nat × Nat
deriving DecidableEq, Repr

/-- The system registers, links and wall time. -/
structure Sys where
  /-- MODE (4; 10 R279, 16 R442; 0) -/
  mode : Mode
  /-- RUNSTATE (2; 10 R279; ROM) -/
  run : RunState
  /-- HOLDUP (1; 10 R279; 0) -/
  holdup : Bool
  /-- OFF after SHUTDOWN (1; 16 R447; false) -/
  shut : Bool
  /-- stored mode of the configuration store is COMMISSION (1; 16 R448; DESIGN CHOICE false) -/
  storedCommission : Bool
  /-- a learned checkpoint is due on entry to STANDBY (1; 06 R177; false) -/
  ckDue : Bool
  /-- WAKE_CAUSE (7; 10 R279; 0) -/
  wakeCause : BitVec 7
  /-- clock of the last causes set and their bits (-; 00 R9; none) -/
  wakeNew : Nat × Nat
  /-- WAKE_EN (7; 10 R279; 0x07) -/
  wakeEn : BitVec 7
  /-- PME_COUNT (16; 10 R279; 0) -/
  pmeCount : Nat
  /-- clock of the last wakes counted and PME_COUNT before them (-; 00 R9; none) -/
  pmeOld : Nat × Nat
  /-- PME asserted (1; 10 R303; false) -/
  pme : Bool
  /-- a WAKE notification is owed, with the wall time of its earliest cause (-; 10 R304; none) -/
  wakeDue : Option (BitVec 64)
  /-- the host has not yet cleared the causes of its last wake (-; 10 R304; false) -/
  wakeOpen : Bool
  /-- MB_LOAD (10; 10 R279; 0) -/
  mbLoad : Nat
  /-- RECOV_PIN (1; 10 R279; DESIGN CHOICE 0) -/
  recovPin : Bool
  /-- BOOT_FAILS (2; 10 R279; 0) -/
  bootFails : Nat
  /-- D3hot (1; 10 R303; false) -/
  d3 : Bool
  /-- PCI Express link up (1; 10 R315; false) -/
  pcieUp : Bool
  /-- PCI Express width code and rate code (2 + 3; 10 R315; 0) -/
  pcieMode : Nat × Nat
  /-- ETH0, ETH1 link (2; 10 R315; down) -/
  eth0 : Bool
  /-- ETH1 link (1; 10 R315; down) -/
  eth1 : Bool
  /-- AUTH_DROP (32; 10 R315; 0) -/
  authDrop : Nat
  /-- REPLAY_DROP (32; 10 R315; 0) -/
  replayDrop : Nat
  /-- clocks of the last AUTH and REPLAY events (-; 10 R316; none) -/
  authAt : Option (Nat × Nat)
  /-- clock and count of the last REPLAY event (-; 10 R316; none) -/
  replayAt : Option (Nat × Nat)
  /-- LATE_DROP (32; 10 R315; 0) -/
  lateDrop : Nat
  /-- STALE_REQ (32; 10 R315; 0) -/
  staleReq : Nat
  /-- NOTIF_DROP (16; 10 R315; 0) -/
  notifDrop : Nat
  /-- tenant page registers (256; 10 R277; per Page) -/
  pages : Tbl Page
  /-- requests started in the present service round, by tenant (2 and 1; 10 R307; 0) -/
  round : Tbl Nat
  /-- open cursors, at most 16 (16; 10 R300; none) -/
  cursors : List Cursor
  /-- cursors expired and not yet called again, with their tenants (-; 10 R299; none) -/
  expired : Tbl Nat
  /-- number of the next cursor (32; 10 R295; 1) -/
  nextCursor : Nat
  /-- snapshots of pinned generations: generation, point, saved record (8 × 32 B a cell; 10 R298; none) -/
  snaps : List (Nat × Nat × List (BitVec 8))
  /-- bulk apertures of the tenants (256 × 256 KiB; 10 R302; DESIGN CHOICE zero) -/
  apertures : Tbl (List (BitVec 8))
  /-- time of the PTP servo, ns TAI at the present clock; wall time shows it while PTP_LOCK is set and all ones before
  (64; 10 R306, 00 R11; all ones) -/
  wall : BitVec 64
  /-- PTP_LOCK, wall time is valid (1; 10 R279; 0) -/
  ptpLock : Bool
  /-- HOLDOVER (1; 10 R315; 0) -/
  holdover : Bool
  /-- port PTP runs on, 0 or 1 (1; 10 R305; 0) -/
  ptpPort : Nat
  /-- sync intervals within 1 us (5; 10 R306; 0) -/
  ptpGood : Nat
  /-- PTP_OFFSET, ns (32; 10 R315; 0) -/
  ptpOffset : Int
  /-- slew still to be applied to wall time, ns (-; 10 R306; 0) -/
  ptpSlew : Int
  /-- EXCHANGE awaiting M3: its request and mask (-; 16 R456; none) -/
  exchange : Option (Rq × Nat)
  /-- responses held until their condition comes (list; 11 R332 R341 R345; none) -/
  held : List (Nat × Resp)
  /-- committed registers and maps awaiting the next sweep (-; 11 R321; per Conf) -/
  conf : Conf
deriving DecidableEq, Repr

/-! ### Loop engine and axes (chapter 12) -/

/-- What the loop engine keeps of one loop beside its registers. -/
structure Loop where
  /-- sp_prev (16; 12 R364; 0) -/
  spPrev : Int
  /-- pv_prev (16; 12 R364; 0) -/
  pvPrev : Int
  /-- df, filtered change of pv (16; 12 R364; 0) -/
  df : Int
  /-- i, the integrator, scale 2^30 (40; 12 R364; 0) -/
  i : Int
  /-- u, the output, LSTAT.OUT (16; 12 R364; 0) -/
  u : Int
  /-- ym, the model's value (16; 12 R367; 0) -/
  ym : Int
  /-- ticks until the loop is due again (16; 12 R348 R364; 0) -/
  left : Nat
  /-- the next period takes over under R365 (1; 12 R365; false) -/
  takeOver : Bool
  /-- tick count since which the residual has exceeded RES_WIN (-; 12 R367; none) -/
  resSince : Option Nat
  /-- SUP_FAULT latch (1; 12 R368; 0) -/
  supFault : Bool
  /-- SRC_FAULT latch (1; 12 R368; 0) -/
  srcFault : Bool
  /-- the set-point source is faulty and the last good set-point is held (1; 12 R368; false) -/
  spHeld : Bool
  /-- a RESTART is due at the next period (1; 12 R368; false) -/
  restart : Bool
  /-- the takeover to come follows a fault: u0 is SAFE_OUT (1; 12 R365; false) -/
  afterFault : Bool
  /-- CAP_BUSY (1; 12 R370; 0) -/
  capBusy : Bool
  /-- CAP_DONE (1; 12 R370; 0) -/
  capDone : Bool
  /-- mode of the capture in progress or done (2; 12 R370; 0) -/
  capMode : Nat
  /-- loop periods since the last sample taken (16; 12 R370; 0) -/
  capSkip : Nat
  /-- samples still to take after the fault of a mode 3 capture (12; 12 R370; none) -/
  capAfter : Option Nat
  /-- capture items SP, PV, OUT, INJ, oldest first (4,096 × 64; 12 R370; empty) -/
  capBuf : List (Int × Int × Int × Int)
  /-- INJ_ACTIVE (1; 12 R369; 0) -/
  injOn : Bool
  /-- period k of the injection (-; 12 R369; 0) -/
  injK : Nat
  /-- PRBS register (11; 12 R369; 0x7FF) -/
  lfsr : BitVec 11
  /-- PV, the process value of the last period (16; 12 R375; 0) -/
  pv : Int
  /-- RES, the residual of the last period (16; 12 R367; 0) -/
  res : Int
  /-- the last good set-point, none before the first since the loop was enabled (16; 12 R368; none) -/
  spGood : Option Int
deriving DecidableEq, Repr

/-- What the module keeps of one axis beside its registers. -/
structure Axis where
  /-- AX_POS, the count (32; 12 R356; 0) -/
  pos : BitVec 32
  /-- AX_POS latched at the last tick (32; 12 R348; 0) -/
  latched : BitVec 32
  /-- position extended to 64 bits by the Reckoner (64; 12 R356; 0) -/
  ext : Int
  /-- AX_INDEX (32; 12 R352; 0) -/
  index : BitVec 32
  /-- AX_SPEED (32; 12 R358; 0) -/
  speed : Int
  /-- clocks of the last accepted edge of each signal, 0 A, 1 B (-; 12 R352; none) -/
  edgeAt : Tbl Nat
  /-- clocks of accepted edges within SPD_WIN and of the one before, newest first, with their counts (-; 12 R358; none) -/
  edges : List (Nat × Int)
  /-- DIR (1; 12 R357; 0) -/
  dir : Bool
  /-- STILL (1; 12 R358; 0) -/
  still : Bool
  /-- AMP_LOW (1; 12 R354; 0) -/
  ampLow : Bool
  /-- AMP_HIGH (1; 12 R354; 0) -/
  ampHigh : Bool
  /-- WIRE_PAIRS A, B, Z (3; 12 R353; 0) -/
  wire : BitVec 3
  /-- FAULT (1; 12 R359; 0) -/
  fault : Bool
  /-- kind of the latched fault (3; 12 R378; 0) -/
  kind : Nat
  /-- CLAMPED (1; 12 R373; 0) -/
  clamped : Bool
  /-- ARRIVED (1; 12 R372; 0) -/
  arrived : Bool
  /-- AX_EVENT (4; 12 R376; 0) -/
  event : BitVec 4
  /-- clock of the last events set and their bits (-; 00 R9; none) -/
  evNew : Nat × Nat
  /-- DIR_CHANGES (16; 12 R357; 0) -/
  dirChanges : Nat
  /-- EDGE_FAULTS (16; 12 R352; 0) -/
  edgeFaults : Nat
  /-- clock of the last counts in AX_COUNT and its value before them (-; 00 R9; none) -/
  cntOld : Nat × Nat
  /-- edge faults not yet reported and the clock of the last report (-; 12 R359; 0) -/
  edgeRep : Nat × Nat
  /-- AX_TARGET (32; 12 R376; 0) -/
  target : Int
  /-- p, 16 fractional bits (48; 12 R372; 0) -/
  p : Int
  /-- v, 16 fractional bits, counts/s (48; 12 R372; 0) -/
  v : Int
  /-- signal periods counted in mode 2 (32; 12 R354; 0) -/
  periods : Int
  /-- clocks since which the amplitude has stood below and above its window (-; 12 R354; none) -/
  lowSince : Option Nat
  /-- clock since which the amplitude has stood above its window (-; 12 R354; none) -/
  highSince : Option Nat
  /-- levels of A (bit 1) and B (bit 0) in modes 1 and 3, signal quadrant of the last sample in mode 2, 4 before the first
  sample of a mode (3; 12 R352 R354; 4) -/
  quad : Nat
deriving DecidableEq, Repr

/-- The loop engine. -/
structure Loops where
  /-- register words by offset: LCTL…LCAP, tables, AX_CFG…, AIN_CFG, LOUT_CFG, PWM_CFG, PWM_SET (32 each; 12 R374 R375 R376; the Reset columns) -/
  regs : Tbl (BitVec 32)
  /-- LEVENT of loop n (4; 12 R375; 0) -/
  levent : Tbl (BitVec 4)
  /-- clock of the last events set in LEVENT of loop n and their bits (-; 00 R9; none) -/
  leNew : Tbl (Nat × Nat)
  /-- loops 0…31 (32; 12 R364; per Loop) -/
  loops : Tbl Loop
  /-- axes 0…15 (16; 12 R351; per Axis) -/
  axes : Tbl Axis
  /-- AIN_VAL of AINn (32; 12 R360; 0) -/
  ain : Tbl Int
  /-- AIN_STAT OVER and BROKEN, SETTLING of AINn (3; 12 R360; 0) -/
  ainStat : Tbl (BitVec 3)
  /-- LOUT_STAT.OPEN of LOUTn (1; 12 R361; 0) -/
  open_ : List Nat
  /-- outputs written at the last tick, by destination code: LOUT in Q15 of 10 V or in uA, PWM duty and drive slots in Q15 (16; 12 R348 R361; 0) -/
  out : Tbl Int
  /-- ticks since the start (-; 12 R348; 0) -/
  ticks : Nat
  /-- ENG_LOAD (10; 12 R374; 0) -/
  load : Nat
  /-- clock at which the drive frames were placed last (-; 14 R414; none) -/
  drvAt : Option Nat
  /-- clock of the engine's last tick (-; 12 R348; none) -/
  tickAt : Option Nat
  /-- a loop has been enabled since reset, outputs leave their reset state (1; 12 R349; false) -/
  started : Bool
deriving DecidableEq, Repr

/-! ### Load switches (chapter 13) -/

/-- What the module keeps of one channel beside LCH_CFG. -/
structure Chan where
  /-- ON (1; 13 R395; 0) -/
  on : Bool
  /-- OC_LATCH (1; 13 R384; 0) -/
  oc : Bool
  /-- OC_STAGE (2; 13 R384; 0) -/
  stage : Nat
  /-- DT_OFF (1; 13 R386; 0) -/
  dtOff : Bool
  /-- DT_LATCH (1; 13 R386; 0) -/
  dtLatch : Bool
  /-- OPEN_LOAD (1; 13 R387; 0) -/
  openLoad : Bool
  /-- INRUSH, window or ramp open (1; 13 R381; 0) -/
  inrush : Bool
  /-- CLAMP (1; 13 R385; 0) -/
  clamp : Bool
  /-- I, mA (16; 13 R388; 0) -/
  i : Nat
  /-- DT, 0.01 K (16; 13 R386; 0) -/
  dt : Int
  /-- OC_TRIPS (16; 13 R395; 0) -/
  ocTrips : Nat
  /-- DT_OFFS (16; 13 R395; 0) -/
  dtOffs : Nat
  /-- clock of the last counts in LCH_COUNT and its value before them (-; 00 R9; none) -/
  cntOld : Nat × Nat
  /-- clocks of thermal switch-offs within 10 s, newest first (8; 13 R386; none) -/
  dtAt : List Nat
  /-- clock of the last off-to-on transition (-; 13 R381; none) -/
  onAt : Option Nat
  /-- clock of the last on-to-off transition (-; 13 R383; none) -/
  offAt : Option Nat
  /-- on-time before the present one since open load was judged last (-; 13 R387; 0) -/
  onAcc : Nat
  /-- clock from which the present on-time counts (-; 13 R387; 0) -/
  onFrom : Nat
  /-- clock at which its last latch set (-; 13 R394; none) -/
  latchAt : Option Nat
  /-- clock at which RESTART wrote CMD := 0, CMD := 1 still to come (-; 13 R384; none) -/
  recmd : Option Nat
deriving DecidableEq, Repr

/-- The load-switch block. -/
structure Load where
  /-- CMD as written by SET_OUTPUTS and LOAD_WRITE (24; 13 R395; 0) -/
  cmd : BitVec 24
  /-- level of the IN pins (24; 13 R395; DESIGN CHOICE 0) -/
  pins : BitVec 24
  /-- LCH_CFG by channel (24 × 32; 13 R395; SLEW 2 on CH22, CH23, ILIM 100) -/
  cfg : Tbl (BitVec 32)
  /-- SENSE_SEL (32; 13 R395; 0) -/
  sense : BitVec 32
  /-- VLOAD, 10 mV (16; 13 R395; 0) -/
  vload : Int
  /-- LOAD_SUP flags UV, DUMP, REVERSE, GND_LOST, OVERLOAD (5; 13 R395; 0b00001) -/
  sup : BitVec 5
  /-- ITOT_1S, 10 mA (16; 13 R395; 0) -/
  itot1s : Nat
  /-- LOAD_EVENT (7; 13 R395; 0) -/
  event : BitVec 7
  /-- clock of the last events set and their bits (-; 00 R9; none) -/
  evNew : Nat × Nat
  /-- channels 0…23 (24; 13 R379; per Chan) -/
  chans : Tbl Chan
  /-- channels waiting for their staggered turn-on, ascending (24; 13 R394; none) -/
  stagger : List Nat
  /-- clock of the last staggered turn-on (-; 13 R394; none) -/
  staggerAt : Option Nat
  /-- clock at which UV set (-; 13 R389; 0) -/
  uvAt : Nat
  /-- clock at which DUMP set and the highest VLOAD since (-; 13 R389; 0) -/
  dump : Nat × Int
  /-- clock at which GND_LOST set (-; 13 R389; 0) -/
  gndAt : Nat
  /-- clock since which the mean has been above 40 A with shedding possible (-; 13 R390; none) -/
  overSince : Option Nat
  /-- clock since which the mean has been at or below 40 A (-; 13 R390; none) -/
  calmSince : Option Nat
  /-- clock of the last shedding (-; 13 R390; none) -/
  shedAt : Option Nat
  /-- channels shed in the present overload (5; 13 R396; 0) -/
  shed : Nat
  /-- all channels forced fully on under reverse supply (1; 13 R389; false) -/
  reverseOn : Bool
deriving DecidableEq, Repr

/-! ### CAN FD controllers (chapter 14) -/

/-- A CAN frame to send or received. -/
structure Frame where
  /-- XTD (1; 14 R416; -) -/
  xtd : Bool
  /-- FDF (1; 14 R416; -) -/
  fdf : Bool
  /-- BRS (1; 14 R416; -) -/
  brs : Bool
  /-- ID (29; 14 R416; -) -/
  id : Nat
  /-- data, DLEN bytes (64 B; 14 R416; -) -/
  data : List (BitVec 8)
deriving DecidableEq, Repr

/-- A message in a transmit queue. -/
structure TxMsg where
  /-- the frame (-; 14 R401; -) -/
  frame : Frame
  /-- retry limit in force when queued (8; 14 R402; -) -/
  limit : Nat
  /-- attempts that have failed (8; 14 R402; 0) -/
  tries : Nat
deriving DecidableEq, Repr

/-- A frame in a receive FIFO. -/
structure RxMsg where
  /-- the frame (-; 14 R416; -) -/
  frame : Frame
  /-- FILTER (16; 14 R416; -) -/
  filter : Nat
  /-- BEAM_ANGLE at its end of frame (32; 14 R416; -) -/
  angle : BitVec 32
deriving DecidableEq, Repr

/-- What a controller has on its bus: a dedicated buffer's frame, by its identifier, and whether a newer one has replaced it meanwhile;
or the message at a place of its queue. -/
inductive Sent where
  | buffer (id : Nat) (renewed : Bool)
  | message (place : Nat)
deriving DecidableEq, Repr

/-- One CAN controller. -/
structure Ctrl where
  /-- TEC (9; 14 R403; 0) -/
  tec : Nat
  /-- REC (8; 14 R403; 0) -/
  rec_ : Nat
  /-- ESTATE (2; 14 R403; 0) -/
  estate : Nat
  /-- LEC (3; 14 R417; 0) -/
  lec : Nat
  /-- PXE (1; 14 R417; 0) -/
  pxe : Bool
  /-- OVR (1; 14 R417; 0) -/
  ovr : Bool
  /-- NO_ACK (16; 14 R417; 0) -/
  noAck : Nat
  /-- BUS_OFFS (16; 14 R417; 0) -/
  busOffs : Nat
  /-- clock of the last counts in COUNT and its value before them (-; 00 R9; none) -/
  cntOld : Nat × Nat
  /-- messages that failed for another reason (-; 14 R402; 0) -/
  failed : Nat
  /-- CAN EVENT (6; 14 R417; 0) -/
  event : BitVec 6
  /-- clock of the last events set and their bits (-; 00 R9; none) -/
  evNew : Nat × Nat
  /-- RX_LOST (16; 14 R417; 0) -/
  rxLost : Nat
  /-- clock of the last frames lost and RX_LOST before them (-; 00 R9; none) -/
  lostOld : Nat × Nat
  /-- transmit queue, in order of arrival (64; 14 R401; empty) -/
  queue : List TxMsg
  /-- dedicated buffers by identifier (-; 14 R401 R411 R414; none) -/
  ded : Tbl (List (BitVec 8))
  /-- the frame in progress (-; 14 R400 R401 R418; none) -/
  onBus : Option Sent
  /-- clock at which it began (-; 14 R401; 0) -/
  busAt : Nat
  /-- receive FIFO, head first (128; 14 R416; empty) -/
  fifo : List RxMsg
  /-- clock of entering bus-off (-; 14 R403; none) -/
  offAt : Option Nat
  /-- clock of entering ALONE or of the last probe (-; 14 R404; none) -/
  probeAt : Option Nat
  /-- probes sent since ALONE was entered (-; 14 R405; 0) -/
  probes : Nat
  /-- clock of the last receive-overflow event (-; 14 R416; none) -/
  ovfAt : Option Nat
  /-- the controller integrates on 11 recessive bits before it takes part (1; 14 R400; false) -/
  integrating : Bool
  /-- clock at which timing was written that has not taken effect yet (-; 14 R400; none) -/
  retime : Option Nat
deriving DecidableEq, Repr

/-- A PCS unit as its status frames show it. -/
structure Unit_ where
  /-- I_DC, mA (32; 14 R412; 0) -/
  iDc : Int
  /-- V_DC, 0.1 V (16; 14 R412; 0) -/
  vDc : Nat
  /-- STATE (8; 14 R412; 0) -/
  state : BitVec 8
  /-- COUNT of the last frame (8; 14 R412; none) -/
  count : Option Nat
  /-- consecutive frames with that COUNT (2; 14 R412; 0) -/
  same : Nat
  /-- clock of the last frame, or of the start (-; 14 R412; none) -/
  at_ : Option Nat
  /-- stale (1; 14 R412; true) -/
  stale : Bool
  /-- the stale event has been raised for a unit never heard from (1; 14 R412; false) -/
  told : Bool
deriving DecidableEq, Repr

/-- A mapped alarm source. -/
structure Alarm where
  /-- STATE, 0 normal, 1 pre-alarm, 2 alarm, 3 device fault (2; 14 R413; 0) -/
  state : Nat
  /-- COUNT of the last frame (8; 14 R413; none) -/
  count : Option Nat
  /-- clock of the last frame with a new COUNT (-; 14 R413; none) -/
  at_ : Option Nat
  /-- lost to silence (1; 14 R413; false) -/
  silent : Bool
deriving DecidableEq, Repr

/-- The CAN block. -/
structure Can where
  /-- register and filter words by offset: CAN_PCS, CAN_ALM, CAN_DRV, CFG, NBT, DBT, TDC, filters (32 each; 14 R415 R417; the Reset columns) -/
  regs : Tbl (BitVec 32)
  /-- controllers 0…7 (8; 14 R397; per Ctrl) -/
  ctrls : Tbl Ctrl
  /-- PCS units 0…15 (16; 14 R412; per Unit_) -/
  units : Tbl Unit_
  /-- clock at which CAN_PCS.EN was set or of the start (-; 14 R412; 0) -/
  pcsAt : Nat
  /-- mapped alarm sources by CH × 64 + SOURCE (512; 14 R413; per Alarm) -/
  alarms : Tbl Alarm
  /-- the guard's engine: the frame being attempted (8 B; 14 R409; none) -/
  guardTx : Option (List (BitVec 8))
  /-- a frame that was on the PCS bus when the guard's frame came up may still end; any other loses arbitration (1; 01 R27; false) -/
  guardPass : Bool
  /-- transmit error counter of the guard's engine (9; 14 R408; 0) -/
  guardTec : Nat
  /-- receive error counter of the guard's engine (8; 14 R408; 0) -/
  guardRec : Nat
deriving DecidableEq, Repr

/-! ### Supplies and power (chapter 18) -/

/-- Supplies, straps and start-up. -/
structure Power where
  /-- VMAIN above its start threshold (1; 18 R480; false) -/
  vmain : Bool
  /-- VANA present (1; 18 R480; false) -/
  vana : Bool
  /-- VANA has been lost and not restored (1; 18 R482; false) -/
  vanaLost : Bool
  /-- clock at which VANA was lost (-; 18 R482; 0) -/
  vanaAt : Nat
  /-- VMAIN-low reported (1; 18 R480; false) -/
  vmainLow : Bool
  /-- VIO valid, no mismatch (1; 18 R480; DESIGN CHOICE true) -/
  vioOk : Bool
  /-- VIO_SEL strap (1; 18 R494; DESIGN CHOICE true, 3.3 V) -/
  vioSel : Bool
  /-- TEST strap (1; 18 R494; DESIGN CHOICE false, tied to GND) -/
  test : Bool
  /-- the internal rails are in regulation and the module runs; the pin PWRGD shows it while VIO is valid (1; 18 R480 R481;
  low) -/
  pwrgd : Bool
  /-- clock of PWRGD (-; 16 R453; 0) -/
  goodAt : Nat
  /-- the flush is armed (1; 18 R481; false) -/
  armed : Bool
  /-- start-up stage of R453 reached, 0…6 (3; 16 R453; 0) -/
  stage : Nat
  /-- rings that were ACTIVE when VANA was lost and await the checks (list; 18 R482; none) -/
  recheck : List Nat
  /-- the hold-up fault has been reported (1; 18 R481; false) -/
  holdupFault : Bool
deriving DecidableEq, Repr

/-! ### Configuration store (chapters 15 and 17) -/

/-- What the configuration store keeps of a ring port. -/
structure RingConf where
  /-- identity stored by STORE_CONFIG (list; 11 R341; none) -/
  config : List NodeId
  /-- calibration: position, COMP_A, COMP_B (list; 03 R72; none) -/
  calib : List (Nat × Nat × Nat)
  /-- F at calibration, ns (32; 03 R72; 0) -/
  fCal : Nat
  /-- R at calibration, ns (32; 03 R72; 0) -/
  rCal : Nat
  /-- SERIAL accepted at a position (64 each; 06 R175; none) -/
  serials : Tbl Nat
deriving DecidableEq, Repr

/-- A copy of the configuration store: what R420 places there. -/
structure Store where
  /-- settings by PARAM and scope (-; 11 R327; unset) -/
  params : Tbl Int
  /-- groups, binding, maps, thermal and fast inputs, alarm map, severities (-; 11 R321; per Conf) -/
  conf : Conf
  /-- ring configurations and calibrations by port (128; 15 R420; none) -/
  rings : Tbl RingConf
  /-- limit tables by string (48 B each; 08 R226; LFP) -/
  limits : Tbl Limits
  /-- thermal tables by string (7 × 16; 07 R189; LFP) -/
  thermal : Tbl Thermal
  /-- sequence table (-; 08 R231; tables of R234) -/
  seq : SeqTable
  /-- kernel image in service, none for the factory image (-; 15 R420; none) -/
  service : Option Image
  /-- kernel image in the inactive buffer (-; 15 R420; none) -/
  inactive : Option Image
  /-- INACTIVE of KERNEL_INFO (2; 11 R336; 0) -/
  inactiveKind : Nat
  /-- set of quarantined rods (128; 04 R111; none) -/
  recorded : List Nat
  /-- keys of the tenants' slots (256 × 2 × 256; 10 R288; none) -/
  keys : Tbl (Tbl Nat)
  /-- accepted allocations: PALLOC_DIS, PALLOC_CHG, EALLOC by tenant (255; 09 R240; none) -/
  allocs : Tbl (Nat × Nat × Nat)
  /-- loop-block registers (32 each; 12 R350; the Reset columns) -/
  loop : Tbl (BitVec 32)
  /-- LCH_CFG by channel (24 × 32; 13 R393; the Reset column) -/
  load : Tbl (BitVec 32)
  /-- SENSE_SEL (32; 13 R393; 0) -/
  sense : BitVec 32
  /-- CAN registers (32 each; 16 R453; the Reset columns) -/
  can : Tbl (BitVec 32)
  /-- beam registers by offset (32 each; 16 R453; the Reset column) -/
  beam : Tbl (BitVec 32)
  /-- an interval set by SET_SWEEP, as STEP (32; 02 R51; 0) -/
  sweepConf : BitVec 32
  /-- stored mode is COMMISSION (1; 16 R448; false) -/
  commission : Bool
deriving DecidableEq, Repr

/-! ### Firmware update (chapter 17) -/

/-- A firmware image by its header (R460). -/
structure Fw where
  /-- IMAGE_ID (32; 17 R460; -) -/
  id : Nat
  /-- VERSION: major, minor, patch, build (32; 17 R460; -) -/
  ver : Nat
deriving DecidableEq, Repr

/-- An update of a ring's nodes in progress (R474). -/
structure NodeUpd where
  /-- port (7; 17 R473; -) -/
  port : Nat
  /-- positions still to activate, descending (list; 17 R474; -) -/
  todo : List Nat
  /-- nodes updated so far (16; 17 R474; 0) -/
  done : Nat
  /-- the node in progress has received the payload again (1; 17 R474; false) -/
  again : Bool
  /-- clock of the OK of the node in progress, while its return is awaited (-; 17 R474; none) -/
  since : Option Nat
  /-- its answer showed the old FW_VER (1; 17 R477; false) -/
  old : Bool
deriving DecidableEq, Repr

/-- The firmware slots and the update record. -/
structure Update where
  /-- USTATE (3; 11 R345; 0) -/
  ustate : UState
  /-- the active slot is B (1; 17 R463; DESIGN CHOICE false, A) -/
  slotB : Bool
  /-- image of the active slot (-; 17 R460; DESIGN CHOICE id 0, version 1.0.0.0: 00 R1 gives the major version) -/
  active : Fw
  /-- image of the inactive slot (-; 17 R463; none) -/
  inactive : Option Fw
  /-- the running slot is uncommitted (1; 17 R467; false) -/
  uncommitted : Bool
  /-- the scheduled activation is a rollback (1; 17 R470; false) -/
  rollback : Bool
  /-- ACT_WALL (64; 17 R466; 0) -/
  actWall : BitVec 64
  /-- clock at which ACT_WALL falls, as the wall time stood when it was scheduled (-; 17 R466; 0) -/
  actAt : Nat
  /-- target, IMAGE_ID and LENGTH of the last BEGIN (-; 17 R463; none) -/
  begun : Option (Nat × Nat × Nat)
  /-- blocks stored, by offset (-; 17 R464; none) -/
  blocks : Tbl (List (BitVec 8))
  /-- NODE_IMAGE_ID (32; 11 R345; 0) -/
  nodeId : Nat
  /-- version and node type of the node image (32 + 8; 17 R474; 0) -/
  nodeVer : Nat × Nat
  /-- decrypted node payload (-; 17 R474; none) -/
  nodeBytes : List (BitVec 8)
  /-- ring update in progress (-; 17 R473; none) -/
  node : Option NodeUpd
  /-- configuration snapshot beside the inactive image (-; 17 R468; none) -/
  snap : Option Store
  /-- the store as it stood when power went, until the Reckoner has loaded it (-; 15 R420, 16 R453; none) -/
  store : Option Store
  /-- clock of the last handover or swap (-; 17 R467 R471; none) -/
  handAt : Option Nat
  /-- slot whose boot failed last is B (1; 17 R472; none) -/
  failedB : Option Bool
  /-- the slot verified in RECOVERY waits for RECOV's release (1; 17 R472; false) -/
  ready : Bool
  /-- version replaced by the last swap (32; 17 R477; 0) -/
  oldVer : Nat
  /-- the swap whose start is still to come, 1 update, 2 rollback, 0 none (2; 17 R467 R470; 0) -/
  swap : Nat
deriving DecidableEq, Repr

/-! ### The whole machine -/

/-- The state of the block. -/
structure State where
  /-- commands waiting, first in, first out (list; the model's own; empty) -/
  pending : List Instr
  /-- ticks of the 200 MHz clock since power-up (-; the model's own, 02 R33; 0) -/
  clock : Nat
  /-- free values taken so far (-; the model's own; DESIGN CHOICE 0) -/
  fresh : Nat
  /-- supplies, straps and start-up (-; 18 R478; per Power) -/
  power : Power
  /-- system registers, host links, mailbox (-; 10 R279; per Sys) -/
  sys : Sys
  /-- mains-angle time base (-; 02 R57; per Beam) -/
  beam : Beam
  /-- ring ports P0…P127 (128; 03 R59; per Ring) -/
  rings : Tbl Ring
  /-- nodes by port × 65,536 + place on the ring from the A end (-; 03 R68; per Node) -/
  nodes : Tbl Node
  /-- rod array (-; 04 R102; per Sched) -/
  sched : Sched
  /-- estimation, balancing, thermal inputs (-; 06 R150; per Est) -/
  est : Est
  /-- guard, fast inputs, trip outputs (-; 08 R212; per Guard) -/
  guard : Guard
  /-- tenants and dispatch (-; 09 R240; per Dispatch) -/
  disp : Dispatch
  /-- event log, counters, non-volatile memory (-; 15 R420; per Records) -/
  recs : Records
  /-- loop engine and axes (-; 12 R347; per Loops) -/
  loops : Loops
  /-- load channels (-; 13 R379; per Load) -/
  load : Load
  /-- CAN controllers (-; 14 R397; per Can) -/
  can : Can
  /-- firmware slots and update (-; 17 R460; per Update) -/
  upd : Update
deriving DecidableEq, Repr

/-! ### Values at reset -/

/-- A mark unit at reset (R58). -/
def Mark.reset : Mark where
  cmp := 0
  step := 0
  stepNow := 0
  stepWas := none
  count := 0
  subdiv := 1
  en := false
  owed := none
  k := 0
  fired := 0
  fires := 0
  done := false
  late := false
  skipped := false
  newStat := (0, 0)

/-- The beam at reset (R58, R43): no source, mains lost, 50 Hz. -/
def Beam.reset : Beam where
  ctl := 0x0000A530
  nominal := 0
  window := 0xA0147055
  pulse := 0x00020000
  trim := 0
  status := 2
  event := 0
  newEvent := (0, 0)
  cycle := 0
  frac := 0
  freq := 0
  ampl := 0
  faults := 0
  oldFaults := (0, 0)
  cycWall := BitVec.allOnes 64
  cycTag := 0
  frozenHi := none
  frozenTag := none
  readHi := false
  readTag := false
  boutCtl := 0
  boutRatio := 0x00010001
  boutWidth := 100
  boutCycle := 0
  actGate := 0
  marks := []
  ext := 0
  trackFreq := 3276800
  trackFrac := 0
  validRun := 0
  standstill := 0
  validAt := none
  zeroAt := none
  revRun := 0
  normRun := 0
  bzxLevel := none
  bzxPin := false
  bzxSince := 0
  slew := 0
  hold := none
  bzxLast := none
  settleAt := none
  overRange := []
  sweepConf := 0
  lastSweep := none
  sampledAt := none
  launched := none
  launchOwed := false
  sweptAt := none
  sweepGen := 0
  skip := false
  sweepSettle := false
  sampleAngle := 0
  oscCorr := 0
  refGain := 1

/-- A ring port at reset: ISOLATED, nothing stored, no lock. -/
def Ring.reset : Ring where
  txA := []
  txB := []
  txUntil := 0
  tripUntil := 0
  block := none
  ends := []
  loopA := none
  loopB := none
  healed := false
  tripBody := none
  state := .isolated
  lockA := false
  lockB := false
  split := false
  skewLimit := false
  skewRun := 0
  skew := 0
  fCal := 0
  rCal := 0
  fNow := 0
  nodes := 0
  missing := 0
  config := []
  calib := []
  echoes := []
  resync := false
  displaced := false
  displacedCnt := 0
  bseq := 0
  bresync := true
  queue := []
  out := []
  useq := []
  synced := []
  gen := 0
  collecting := false
  arrived := []
  arrivedAt := []
  closedAt := none
  tripped := false
  missRun := []
  unflagged := 0
  rejoinPending := false
  renew := false
  busy := 0
  goal := none
  echoOut := []
  census := none
  settling := false
  kaAt := none
  serials := []
  staged := []

/-- A node at reset (R68, R80, R89): factory registers, outputs open, watchdog latch set. -/
def Node.reset : Node where
  serial := 0
  type := 1
  hwRev := 0
  fwVer := 0
  pos := 0
  string := 0xFFFF
  compA := 0
  compB := 0
  cellEn := 0
  tempEn := 0
  switchWd := 200
  lastSeq := 0
  lastBseq := 0
  crcErr := 0
  staleCnt := 0
  link := 0
  usync := false
  bsync := false
  stored := none
  lease := 0
  leaseLen := 0
  duty := List.replicate 32 0
  dir := 0
  nextDuty := none
  leaseExpired := false
  out := 0
  aux := 0
  latchTrip := false
  latchWd := true
  wdSince := 0
  nodeReset := true
  tag := none
  sampleDue := none
  lastSample := none
  nosync := false
  adcFault := false
  ready := false
  lastGen := none
  lastCollect := 0
  sweepIvl := 0
  cells := List.replicate 32 0xFFFF
  temps := List.replicate 8 0x8000
  stack := 0xFFFF
  nodeT := 0x8000
  busI := 0x8000
  nstat := 0
  lastTrip := none
  tripSeen := none
  answer := none
  sent := []
  fwArea := []
  fwNext := none

/-- A rod's execution context before its first invocation. -/
def RodCtx.reset : RodCtx where
  passB := false
  v := []
  a := []
  sd := []
  si := []
  lm := 0
  lt := false
  eq := false
  gt := false
  pc := 0
  stack := []
  overlay := []
  window := []
  bankA := []
  bankB := []
  cycles := 0
  passCycles := 0
  maxCycles := 1000000
  fault := none
  faultA := none
  ended := false
  entry := 0
  string := 0
  base := 0
  n := 0
  gen := 0
  cls := 0
  masks := []
  ins := []
  at_ := 0
  settled := true

/-- A rod at reset (R123). -/
def Rod.reset : Rod where
  state := .healthy
  retries := 0
  windows := 0
  tableFaults := 0
  wseq := 0
  sigA := 0xFFFFFFFF
  sigB := 0xFFFFFFFF
  invs := 0
  opened := none
  tainted := false
  forced := false
  reload := false
  img := 0
  testing := false
  walked := BitVec.allOnes 64
  items := []
  redo := []
  ctx := RodCtx.reset

/-- The rod array's scheduler at reset. -/
def Sched.reset : Sched where
  rods := []
  recorded := []
  dieT := 2500
  warn := false
  throttle := false
  shutdown := false
  floorOver := false
  lowered := false
  diodeT := List.replicate 8 2500
  diodes := 8
  excluded := []
  factor := 1000
  budget := 0
  spent := 0
  spends := []
  classAt := []
  starved := []
  walkTurn := 0
  eSweep := []
  eLast := 0
  overRun := 0
  calmSince := none
  suspended := false
  bursts := []
  released := []
  service := none
  inactive := none
  inactiveKind := 0
  past := []
  xAt := none
  xgen := 0
  faults := []
  revert := false
  wordsReset := 0

/-- A learned record before anything was learned. -/
def Learned.reset : Learned where
  cap := 0
  r0 := 0
  diff := 0
  sdr := 0
  idChanged := false
  neverLearned := true
  cnt := 0
  tag := 0

/-- A published record before the first publication: no measurement. -/
def CellRec.reset : CellRec where
  v := 0xFFFF
  t := -32768
  socInt := 0
  socUse := 0
  sigma := 0
  conf := 0
  flags := 0
  zrel2 := 0xFFFF
  zrel6 := 0xFFFF
  idis := -32768
  ichg := -32768
  resid := -32768
  erem := 0xFFFF
  gen := 0

/-- A cell at reset. -/
def Cell.reset : Cell where
  pub := CellRec.reset
  half := false
  half0 := []
  half1 := []
  learned := Learned.reset
  prevRec := []
  use := none
  nisSince := none
  invalidSince := none
  goodSince := none
  discards := 0
  net := 0
  gross := 0
  first := none
  rest := none
  learn := none
  at_ := none
  taken := none
  lastAmps := none
  xgen := 0
  burst := []
  zabs2 := 0xFFFF
  zabs6 := 0xFFFF
  burstWall := BitVec.allOnes 64
  zHist := []

/-- A temperature input at reset. -/
def TempIn.reset : TempIn where
  raw := -32768
  used := -32768
  subst := false
  unjudged := false
  run := 0
  goodSince := none
  hist := []
  gen := 0

/-- The LFP thermal table of R189. -/
def Thermal.lfp : Thermal where
  warn := 4500
  thr := 5000
  sd := 6000
  lwarn := 500
  lthr := 200
  lsd := 0
  hyst := 200

/-- The LFP limit table of R226. -/
def Limits.lfp : Limits where
  volts := [36500, 37500, 39000, 25000, 23000, 20000]
  oc := [1100, 1500]
  ot2 := 1000
  vHyst := 200
  iHyst := 2000
  times := [10000, 1000, 0, 10000, 1000, 0, 30000, 1000]
  tOt2 := 0

/-- A string at reset. -/
def Str.reset : Str where
  cells := []
  sflags := 0
  i := 0
  iSigma := 0
  nobs := 0
  src := 0
  pdis := 0
  pchg := 0
  euse := 0
  ehead := 0
  socUse := 0
  iHat := 0
  pVar := 0
  heldSince := none
  unavailable := false
  stepped := false
  stepTicks := 0
  results := []
  acc := []
  accN := 0
  accGen := none
  doneGen := none
  runGen := none
  obsAt := none
  iHist := []
  ripAcc := []
  learnAcc := []
  restSince := none
  restPoints := 0
  bandSince := none
  first := none
  keepFirst := false
  learn := none
  noCurrent := 0
  spoiled := false
  unhealthy := 0
  lastBurst := none
  burst := none
  fpiBurst := []
  merge := none
  thermal := Thermal.lfp
  tflags := 0
  tHot := 0
  tCold := 0
  hotCell := 0
  fDis := none
  fChg := none
  evalAt := 0
  substN := 0
  spread := 0xFFFF
  plan := []
  heatLimited := false
  excluded := false
  quiet := false
  planGen := 0
  planned := none
  planTarget := 0
  planNodes := []
  evalGen := none
  limits := Limits.lfp
  timers := []
  fpChg := 1
  fpDis := 1
  locked := none
  causes := []
  welded := false
  notJoined := false
  closed := false
  closedGen := 0
  tripHold := false
  crossed := []
  derated := 0
  sw := 0

/-- A node's balancing state at reset. -/
def BalNode.reset : BalNode where
  map := none
  hot := false
  board := false
  excl := none
  mism := 0
  suspend := 0
  noCross := false
  sent := (List.replicate 32 0, 0)
  owed := false
  force := (List.replicate 32 0, 0)
  was := (List.replicate 32 0, 0)
  next := none

/-- A thermal input at reset (R207). -/
def Tin.reset : Tin where
  cfg := 0
  par := 0x0D6B03E8
  lim := 0x2EE0F060
  val := 0x8000
  bad := 0
  badKind := 0
  good := 0
  faulty := false
  alarm := 0
  last := 2500
  next := 2500

/-- The estimator at reset. -/
def Est.reset : Est where
  pubGen := none
  partGen := none
  before := []
  stale := false
  cells := []
  temps := []
  strs := []
  configured := []
  bal := []
  groups := []
  params := []
  live := []
  thermalStaged := none
  pthDis := 0
  pthChg := 0
  balAllow := 0
  balReq := 0
  heatReported := false
  replanAt := none
  tins := []
  fallback := []
  learnQueue := []
  fpiAt := []
  ckAt := 0
  socAt := 0

/-- A fast protection input at reset (R216). -/
def Fpi.reset : Fpi where
  cfg := 0xA0000000
  act := 0
  tgt := 0xFFFF0000
  thr := 0x7FFF8001
  scale := 0
  val := 0
  latched := 0
  fired := false
  beyond := false

/-- The BANK_CONNECT section at reset (R234). -/
def SeqTable.bankConnect : List SeqStep :=
  [⟨3, 0, 0, 8, 0, 5000, 0⟩, ⟨5, 0, 0, 0, 0, 1, 1⟩, ⟨1, 2, 0, 0, 0, 100, 1⟩, ⟨1, 3, 0, 1, 950, 5000, 0⟩,
   ⟨1, 1, 0, 0, 0, 50, 1⟩, ⟨2, 3, 0, 0, 0, 50, 1⟩, ⟨4, 0, 3, 0, 0, 1, 1⟩, ⟨0, 0, 0, 0, 0, 1, 1⟩]

/-- The STRING_CONNECT section at reset (R234). -/
def SeqTable.stringConnect : List SeqStep :=
  [⟨1, 6, 0, 3, 0, 200, 0⟩, ⟨1, 7, 0, 0, 0, 500, 1⟩, ⟨1, 5, 0, 3, 0, 200, 0⟩, ⟨2, 7, 0, 4, 0, 200, 0⟩,
   ⟨0, 0, 0, 0, 0, 1, 1⟩]

/-- The DISCONNECT section at reset (R234). -/
def SeqTable.bankDisconnect : List SeqStep :=
  [⟨4, 0, 1, 5, 50, 150, 1⟩, ⟨2, 1, 0, 0, 0, 20, 1⟩, ⟨2, 2, 0, 0, 0, 20, 1⟩, ⟨6, 0, 0, 0, 0, 200, 1⟩,
   ⟨0, 0, 0, 0, 0, 1, 1⟩]

/-- The sequence table at reset: the sections of R234, no role assigned. -/
def SeqTable.reset : SeqTable where
  roles := [0xFF, 0xFF, 0xFF, 0xFF]
  connect := SeqTable.bankConnect
  string := SeqTable.stringConnect
  disconnect := SeqTable.bankDisconnect

/-- The guard at reset. -/
def Guard.reset : Guard where
  fpi := []
  tripMode := 0
  tripId := 0
  tripped := false
  tripCause := 0
  hwTrip := false
  guardOk := false
  stopOk := false
  hwMask := 0
  hwBank := false
  released := false
  failed := false
  cycles := 0
  lastCycle := none
  beatAt := none
  beatMs := 10000
  silent := false
  reqs := []
  hwPending := false
  hwCause := 0
  idAt := none
  present := []
  clears := []
  pcsCmd := 0
  pcsId := (0, 0)
  pcsCount := 0
  releases := 0
  pcsAt := none
  seq := none
  strDisc := none
  swapZero := false
  table := SeqTable.reset
  tableStaged := none
  owed := none
  limitsStaged := none
  cmd := 0
  connected := false
  weld := none
  openedAt := none
  strOpened := []
  preTries := []
  preSince := none
  vlink := 0
  ibank := 0
  vbank := 0
  alarms := []
  stops := []
  stopRings := 0
  stopAt := []
  substSince := []

/-- A tenant with no allocation record. -/
def Tenant.reset : Tenant where
  exists_ := false
  enabled := false
  pDis := 0
  pChg := 0
  eAlloc := 0
  nextAlloc := none
  pending := []
  cur := none
  clipped := false
  ramp := 0
  sched := 0
  req := 0
  deliv := 0
  curt := false
  empty := false
  full := false
  emptyRef := none
  fullRef := none
  mj := 0
  disSum := 0
  chgSum := 0
  curtSum := 0

/-- No binding (R258). -/
def Binding.reset : Binding := ⟨0, 0, 0, 0, 0, 0, 0, 0⟩

/-- The dispatch engine at reset. -/
def Dispatch.reset : Dispatch where
  tenants := []
  slotCyc := 50
  slotNext := none
  binding := Binding.reset
  term := 0
  extFault := false
  holdUntil := none
  input := 0
  terms := []
  stopSeen := 0
  pBank := 0
  pReq := 0
  lDis := 0
  lChg := 0
  sop := (0, 0)
  prot := (0, 0)
  pDisp := 0
  bflags := 0
  slot := 0
  tick := 0
  slotWall := BitVec.allOnes 64
  tickAt := none
  needRun := (0, 0)
  freeRun := (0, 0)
  curtDis := none
  curtChg := none
  deficit := none
  settleAt := 0
  dt := 4000000
  held := none
  frameSeq := 0
  aout := 0

/-- A tenant's page at reset (R278). -/
def Page.reset : Page where
  rqEn := false
  rsEn := false
  rqBase := 0
  rsBase := 0
  rqTail := 0
  rqHead := 0
  rsHead := 0
  rsTail := 0
  epoch := 0
  irqMod := 0x80010000
  rqFault := false
  cntStale := 0
  cntLate := 0
  cntStray := 0
  cntFault := 0
  cntAOld := (0, 0)
  cntBOld := (0, 0)
  arrived := []
  seq := 0
  ethSeq := 0
  outstanding := []
  irqPend := 0
  irqSince := none
  irqs := 0
  waiting := []
  notes := []
  ethNotes := []
  wire := []
  posted := []
  stored := []
  keys := []
  replay := []
  windows := []
  epochSeq := []
  lastSlot := 0
  ethPeer := false

/-- Nothing committed (R321). -/
def Conf.reset : Conf where
  groups := []
  binding := Binding.reset
  maps := []
  tins := []
  fpi := []
  tripMode := 0
  alarms := []
  sev := (6, 4)

/-- The system registers at reset (R279). -/
def Sys.reset : Sys where
  mode := .off
  run := .rom
  holdup := false
  shut := false
  storedCommission := false
  ckDue := false
  wakeCause := 0
  wakeNew := (0, 0)
  wakeEn := 7
  pmeCount := 0
  pmeOld := (0, 0)
  pme := false
  wakeDue := none
  wakeOpen := false
  mbLoad := 0
  recovPin := false
  bootFails := 0
  d3 := false
  pcieUp := false
  pcieMode := (0, 0)
  eth0 := false
  eth1 := false
  authDrop := 0
  replayDrop := 0
  authAt := none
  replayAt := none
  lateDrop := 0
  staleReq := 0
  notifDrop := 0
  pages := []
  round := []
  cursors := []
  expired := []
  nextCursor := 1
  snaps := []
  apertures := []
  wall := BitVec.allOnes 64
  ptpLock := false
  holdover := false
  ptpPort := 0
  ptpGood := 0
  ptpOffset := 0
  ptpSlew := 0
  exchange := none
  held := []
  conf := Conf.reset

/-- The records at reset: a module as it leaves manufacture (R428). -/
def Records.reset : Records where
  queue := []
  queueAt := []
  dropped := 0
  tail := []
  flash := []
  nextSeq := 1
  flushed := false
  wakeSev := 6
  notifySev := 4
  counters := []
  fractions := []
  markers := []
  ckSeq := []
  socPool := []
  learnedPool := []
  spare := 61000
  nvFailed := []
  cfgGen := 0
  cfgValid := false
  cfgPending := []
  cfgLoop := []
  cfgLoad := []
  cfgSense := 0
  corrupt := []
  lseq := 0
  ledgerCopy := []
  ledgerStamp := (0, 0)

/-- A loop's internal state at reset. -/
def Loop.reset : Loop where
  spPrev := 0
  pvPrev := 0
  df := 0
  i := 0
  u := 0
  ym := 0
  left := 0
  takeOver := false
  resSince := none
  supFault := false
  srcFault := false
  spHeld := false
  restart := false
  afterFault := false
  capBusy := false
  capDone := false
  capMode := 0
  capSkip := 0
  capAfter := none
  capBuf := []
  injOn := false
  injK := 0
  lfsr := 0x7FF
  pv := 0
  res := 0
  spGood := none

/-- An axis at reset. -/
def Axis.reset : Axis where
  pos := 0
  latched := 0
  ext := 0
  index := 0
  speed := 0
  edgeAt := []
  edges := []
  dir := false
  still := false
  ampLow := false
  ampHigh := false
  wire := 0
  fault := false
  kind := 0
  clamped := false
  arrived := false
  event := 0
  dirChanges := 0
  edgeFaults := 0
  evNew := (0, 0)
  cntOld := (0, 0)
  edgeRep := (0, 0)
  target := 0
  p := 0
  v := 0
  periods := 0
  lowSince := none
  highSince := none
  quad := 4

/-- The loop engine at reset. -/
def Loops.reset : Loops where
  regs := []
  levent := []
  leNew := []
  loops := []
  axes := []
  ain := []
  ainStat := []
  open_ := []
  out := []
  ticks := 0
  load := 0
  drvAt := none
  tickAt := none
  started := false

/-- A load channel at reset. -/
def Chan.reset : Chan where
  on := false
  oc := false
  stage := 0
  dtOff := false
  dtLatch := false
  openLoad := false
  inrush := false
  clamp := false
  i := 0
  dt := 0
  ocTrips := 0
  dtOffs := 0
  cntOld := (0, 0)
  dtAt := []
  onAt := none
  offAt := none
  onAcc := 0
  onFrom := 0
  latchAt := none
  recmd := none

/-- The load block at reset (R395). -/
def Load.reset : Load where
  cmd := 0
  pins := 0
  cfg := []
  sense := 0
  vload := 0
  sup := 1
  itot1s := 0
  event := 0
  evNew := (0, 0)
  chans := []
  stagger := []
  staggerAt := none
  uvAt := 0
  dump := (0, 0)
  gndAt := 0
  overSince := none
  calmSince := none
  shedAt := none
  shed := 0
  reverseOn := false

/-- A CAN controller at reset. -/
def Ctrl.reset : Ctrl where
  tec := 0
  rec_ := 0
  estate := 0
  lec := 0
  pxe := false
  ovr := false
  noAck := 0
  busOffs := 0
  cntOld := (0, 0)
  failed := 0
  event := 0
  evNew := (0, 0)
  rxLost := 0
  lostOld := (0, 0)
  queue := []
  ded := []
  onBus := none
  busAt := 0
  fifo := []
  offAt := none
  probeAt := none
  probes := 0
  ovfAt := none
  integrating := false
  retime := none

/-- A PCS unit at start: stale until its first good frame (R412). -/
def Unit_.reset : Unit_ where
  iDc := 0
  vDc := 0
  state := 0
  count := none
  same := 0
  at_ := none
  stale := true
  told := false

/-- An alarm source before its first frame. -/
def Alarm.reset : Alarm := ⟨0, none, none, false⟩

/-- The CAN block at reset. -/
def Can.reset : Can where
  regs := []
  ctrls := []
  units := []
  pcsAt := 0
  alarms := []
  guardTx := none
  guardPass := false
  guardTec := 0
  guardRec := 0

/-- The supplies at reset: none has arrived yet. -/
def Power.reset : Power where
  vmain := false
  vana := false
  vanaLost := false
  vanaAt := 0
  vmainLow := false
  vioOk := true
  vioSel := true
  test := false
  pwrgd := false
  goodAt := 0
  armed := false
  stage := 0
  recheck := []
  holdupFault := false

/-- A ring port of which the store keeps nothing. -/
def RingConf.reset : RingConf := ⟨[], [], 0, 0, []⟩

/-- The configuration store of a first start. -/
def Store.reset : Store where
  params := []
  conf := Conf.reset
  rings := []
  limits := []
  thermal := []
  seq := SeqTable.reset
  service := none
  inactive := none
  inactiveKind := 0
  recorded := []
  keys := []
  allocs := []
  loop := []
  load := []
  sense := 0
  can := []
  beam := []
  sweepConf := 0
  commission := false

/-- The firmware slots at reset. -/
def Update.reset : Update where
  ustate := .empty
  slotB := false
  active := ⟨0, 1⟩
  inactive := none
  uncommitted := false
  rollback := false
  actWall := 0
  actAt := 0
  begun := none
  blocks := []
  nodeId := 0
  nodeVer := (0, 0)
  nodeBytes := []
  node := none
  snap := none
  store := none
  handAt := none
  failedB := none
  ready := false
  oldVer := 0
  swap := 0

/-- The machine right after reset: every part at its value at reset, no command waiting. -/
def State.reset : State where
  pending := []
  clock := 0
  fresh := 0
  power := Power.reset
  sys := Sys.reset
  beam := Beam.reset
  rings := []
  nodes := []
  sched := Sched.reset
  est := Est.reset
  guard := Guard.reset
  disp := Dispatch.reset
  recs := Records.reset
  loops := Loops.reset
  load := Load.reset
  can := Can.reset
  upd := Update.reset

end Sys2Proof.Machine
end

