-- ==== Sys2Proof/Machine/Operands.lean ====
section
/-! DEFINITION. Operand forms: bit fields of a register word, signed codes, byte order, point and string addresses,
and the rounding rules shared by every part (R8-R15, R129). -/
namespace Sys2Proof.Machine
open Sys2Proof

/-! ### Bit fields -/

/-- Bits [hi:lo] of a number. -/
def fld (w hi lo : Nat) : Nat := w / 2 ^ lo % 2 ^ (hi + 1 - lo)

/-- A number with bits [hi:lo] replaced. -/
def setFld (w hi lo v : Nat) : Nat := w - fld w hi lo * 2 ^ lo + v % 2 ^ (hi + 1 - lo) * 2 ^ lo

/-- Bits [hi:lo] of a word. -/
def wfld {n : Nat} (w : BitVec n) (hi lo : Nat) : Nat := fld w.toNat hi lo

/-- A word with bits [hi:lo] replaced. -/
def wset {n : Nat} (w : BitVec n) (hi lo v : Nat) : BitVec n := BitVec.ofNat n (setFld w.toNat hi lo v)

/-- Bit i of a word. -/
def bit {n : Nat} (w : BitVec n) (i : Nat) : Bool := w.getLsbD i

/-- A word with bit i set or cleared. -/
def putBit {n : Nat} (w : BitVec n) (i : Nat) (b : Bool) : BitVec n :=
  if b then w ||| BitVec.ofNat n (2 ^ i) else w &&& ~~~ BitVec.ofNat n (2 ^ i)

/-- 1 for true, 0 for false. -/
def b2n (b : Bool) : Nat := if b then 1 else 0

/-- A bit in its place, for words assembled from flags. -/
def flag (b : Bool) (i : Nat) : Nat := if b then 2 ^ i else 0

/-- The word whose set bits are the listed numbers. -/
def maskOf (l : List Nat) : Nat := (l.eraseDups.map (fun i => 2 ^ i)).sum

/-- The set bits of a number below n, ascending. -/
def bitsOf (n w : Nat) : List Nat := (List.range n).filter (fun i => w.testBit i)

/-! ### Signed codes -/

/-- The n low bits of a number read as a signed code (R11). -/
def sx (n v : Nat) : Int :=
  let m := v % 2 ^ n
  if m < 2 ^ (n - 1) then (m : Int) else (m : Int) - (2 : Int) ^ n

/-- The n-bit code of an integer. -/
def ux (n : Nat) (v : Int) : Nat := (v % ((2 : Int) ^ n)).toNat

/-- A value held between two bounds. -/
def clampI (lo hi v : Int) : Int := if v < lo then lo else if hi < v then hi else v

/-- A count held at a ceiling. -/
def satN (top v : Nat) : Nat := if v < top then v else top

/-- A counter that saturates at 65,535. -/
def sat16 (v : Nat) : Nat := satN 65535 v

/-- Saturation to Q15 (R129): the module never produces -32,768. -/
def satQ (v : Int) : Int := clampI (-32767) 32767 v

/-- Saturation to an accumulator lane (R129, R11). -/
def sat40 (v : Int) : Int := clampI (-549755813887) 549755813887 v

/-- Rounded right shift, half away from zero (R129). -/
def rnd (v : Int) (n : Nat) : Int :=
  if v < 0 then - (((-v) * 2 + (2 : Int) ^ n) / (2 * (2 : Int) ^ n)) else (v * 2 + (2 : Int) ^ n) / (2 * (2 : Int) ^ n)

/-- Rounded division, half away from zero (R129); the callers pass a divisor that is not 0. -/
def rdiv (a b : Int) : Int :=
  let q := (2 * a.natAbs + b.natAbs) / (2 * b.natAbs)
  if (a < 0) = (b < 0) then (q : Int) else - (q : Int)

/-- A rational rounded to an integer, half away from zero. -/
def rround (x : Rat) : Int := rdiv x.num (x.den : Int)

/-- The sign of an integer. -/
def sgn (v : Int) : Int := if v < 0 then -1 else if v = 0 then 0 else 1

/-- A measured value as a valid code of R11: held at the nearest valid code. -/
def tempCode (v : Int) : Int := clampI (-32767) 32767 v

/-- A cell voltage code held at the nearest valid code (R11). -/
def voltCode (v : Int) : Nat := (clampI 0 65534 v).toNat

/-! ### Bytes -/

/-- n bytes of a number, least significant first (R7). -/
def le : Nat → Nat → List Byte
  | 0, _ => []
  | n + 1, v => BitVec.ofNat 8 v :: le n (v / 256)

/-- n bytes of a signed number, least significant first. -/
def leI (n : Nat) (v : Int) : List Byte := le n (ux (8 * n) v)

/-- The number that bytes spell, least significant first. -/
def unle : List Byte → Nat
  | [] => 0
  | b :: r => b.toNat + 256 * unle r

/-- The number in `size` bytes at an offset. -/
def rdle (l : List Byte) (off size : Nat) : Nat := unle ((l.drop off).take size)

/-- A register word as four bytes. -/
def leW (w : Word) : List Byte := le 4 w.toNat

/-! ### Addresses -/

/-- The key of a string: port and STRING_ID. -/
def strKey (port sid : Nat) : Nat := port * 65536 + sid

/-- The key of a node: port and position. -/
def nodeKey (port pos : Nat) : Nat := port * 65536 + pos

/-- The port of a string or node key. -/
def keyPort (k : Nat) : Nat := k / 65536

/-- The STRING_ID or position of a key. -/
def keyId (k : Nat) : Nat := k % 65536

/-- The point address of a cell input (R15). -/
def cellPoint (port pos input : Nat) : Nat := port * 2 ^ 21 + pos * 32 + input

/-- The port, position and input of a point address (R15). -/
def pointPort (p : Nat) : Nat := fld p 27 21
/-- The position of a point address. -/
def pointPos (p : Nat) : Nat := fld p 20 5
/-- The input of a point address. -/
def pointInput (p : Nat) : Nat := fld p 4 0
/-- The kind of a point address, true for a temperature. -/
def pointTemp (p : Nat) : Bool := p.testBit 31

/-- The reserved bits of a point address are zero (R10, R15). -/
def pointClear (p : Nat) : Bool := decide (fld p 30 28 = 0)

/-- A point address whose fields lie in range (R15). -/
def pointOk (p : Nat) : Bool :=
  decide (1 ≤ pointPos p ∧ pointPos p ≤ 65534 ∧ (pointTemp p = true → pointInput p < 8) ∧ p < 2 ^ 32)

/-- The four bytes of a power in W; beyond the range of valid codes it is carried as the nearest (R11). -/
def watts (v : Int) : List Byte := leI 4 (clampI (-2147483647) 2147483647 v)

/-- The four bytes of a figure whose layout is unsigned, saturating. -/
def le4U (v : Nat) : List Byte := le 4 (satN 0xFFFFFFFF v)

/-! ### Lists -/

/-- The element at a place, or a default. -/
def nth {α : Type} (d : α) (l : List α) (i : Nat) : α := l.getD i d

/-- A list with one place replaced; places beyond its end are left alone. -/
def putNth {α : Type} (l : List α) (i : Nat) (v : α) : List α := l.set i v

/-- A list held at n elements by padding with a default. -/
def padTo {α : Type} (n : Nat) (d : α) (l : List α) : List α := (l ++ List.replicate (n - l.length) d).take n

/-- Insertion of an integer in ascending order. -/
def insI (x : Int) : List Int → List Int
  | [] => [x]
  | y :: r => if x ≤ y then x :: y :: r else y :: insI x r

/-- Ascending order of integers. -/
def sortI (l : List Int) : List Int := l.foldr insI []

/-- The median; of an even number of values, the mean of the middle two rounded half away from zero (R186). -/
def medianI (l : List Int) : Int :=
  let m := sortI l
  let n := m.length
  if n % 2 = 1 then m.getD (n / 2) 0 else rdiv (m.getD (n / 2 - 1) 0 + m.getD (n / 2) 0) 2

/-- The median of counts. -/
def medianN (l : List Nat) : Nat := (medianI (l.map Int.ofNat)).toNat

/-- The greatest of a list, or a default. -/
def maxI (d : Int) (l : List Int) : Int := l.foldl max d

/-- The least of a list, or a default. -/
def minI (d : Int) (l : List Int) : Int := l.foldl min d

/-- Ascending order of numbers without repeats. -/
def insN (x : Nat) : List Nat → List Nat
  | [] => [x]
  | y :: r => if x < y then x :: y :: r else if x = y then y :: r else y :: insN x r

/-- Ascending order without repeats. -/
def sortN (l : List Nat) : List Nat := l.foldr insN []

end Sys2Proof.Machine
end

