-- ==== Sys2Proof/Machine/Flags.lean ====
section
/-! DEFINITION. Flag computations: the severity and source of every event (R427), and the flag words that the records
and registers show. -/
namespace Sys2Proof.Machine
open Sys2Proof

/-! ### Severity and source of an event (R426, R427) -/

/-- The rows of R427: codes, severity, source. -/
def sevRows : List (List Nat × Nat × Nat) :=
  [([0x0101, 0x0102, 0x0104, 0x0105], 3, 0), ([0x0103], 4, 0), ([0x0106], 1, 0), ([0x0121], 7, 1), ([0x0122], 1, 1),
   ([0x0123], 4, 0), ([0x0124, 0x0125, 0x0126], 6, 0), ([0x0141, 0x0142, 0x0146, 0x014B], 3, 7),
   ([0x0143, 0x0144, 0x0147, 0x0148, 0x014A], 4, 7), ([0x0145], 6, 7), ([0x0149], 1, 7)] ++
  [([0x0301, 0x0304, 0x0307, 0x0309, 0x030A], 4, 0), ([0x0302, 0x0303], 2, 0), ([0x0305], 1, 0), ([0x0306], 5, 0),
   ([0x0308], 3, 0), ([0x0311, 0x0313, 0x031B], 5, 0), ([0x0312, 0x0314, 0x0316], 1, 0),
   ([0x0315, 0x0317, 0x0318, 0x031A, 0x031D], 4, 0), ([0x0319, 0x031C], 6, 0), ([0x0401], 6, 3),
   ([0x0402, 0x0404], 3, 0), ([0x0403, 0x0405], 4, 0), ([0x0406], 6, 0)] ++
  [([0x0501, 0x0502, 0x0506, 0x0507, 0x0508, 0x050D], 4, 0), ([0x0503, 0x0509, 0x050B], 1, 0), ([0x0504], 5, 0),
   ([0x0505, 0x050A, 0x050C], 3, 0),
   ([0x0601, 0x0602, 0x0603, 0x0604, 0x0605, 0x0606, 0x0607, 0x0608, 0x0609, 0x060A, 0x060B, 0x060C, 0x060D, 0x060E], 7, 1),
   ([0x060F, 0x0613, 0x0614, 0x0615, 0x0616], 4, 1), ([0x0610, 0x0611], 1, 1), ([0x0612, 0x0618], 3, 1),
   ([0x0617], 5, 1), ([0x0701], 3, 9), ([0x0702, 0x0703, 0x0705, 0x0707, 0x0708, 0x070A, 0x070C, 0x070D], 4, 9),
   ([0x0704, 0x0706, 0x0709], 1, 9)] ++
  [([0x0801, 0x080A, 0x080B], 4, 2), ([0x0802], 1, 2), ([0x0803], 5, 2), ([0x0804], 3, 2),
   ([0x0805, 0x0806, 0x0807, 0x0808, 0x0809], 4, 0), ([0x0901, 0x0902, 0x0904], 6, 4), ([0x0903, 0x0905, 0x0908], 1, 4),
   ([0x0906, 0x0907, 0x0909], 4, 4), ([0x0A01, 0x0A02, 0x0A0C], 6, 5), ([0x0A03, 0x0A05, 0x0A07, 0x0A08, 0x0A09], 4, 5),
   ([0x0A04, 0x0A06, 0x0A0A], 1, 5), ([0x0A0B], 5, 5)] ++
  [([0x0B01, 0x0B04, 0x0B06], 4, 6), ([0x0B02], 6, 6), ([0x0B03, 0x0B05], 1, 6), ([0x0B07], 4, 0),
   ([0x0B08, 0x0B0C], 1, 0), ([0x0B09, 0x0B0B], 6, 0), ([0x0B0A], 5, 0), ([0x0C01], 7, 1), ([0x0C02], 3, 0),
   ([0x0C03, 0x0C05, 0x0C07, 0x0C08, 0x0C0A], 4, 0), ([0x0C04, 0x0C06, 0x0C09, 0x0C0B], 6, 0)] ++
  [([0x0D01, 0x0D02, 0x0D0D, 0x0D0F], 1, 0), ([0x0D03], 4, 0),
   ([0x0D04, 0x0D05, 0x0D06, 0x0D07, 0x0D08, 0x0D0C], 3, 0), ([0x0D09, 0x0D0A, 0x0D0B], 6, 8), ([0x0D0E], 6, 0),
   ([0x0E01, 0x0E05, 0x0E0A, 0x0E0D, 0x0E0F, 0x0E10], 4, 3), ([0x0E02, 0x0E04, 0x0E0E], 6, 3),
   ([0x0E03, 0x0E06, 0x0E08, 0x0E0B], 1, 3), ([0x0E07, 0x0E09, 0x0E0C], 5, 3)]

/-- Severity and source of an event code (R427); a code the manual does not list has neither. -/
def sevSrc (code : Nat) : Nat × Nat :=
  match sevRows.find? (fun r => r.1.contains code) with
  | some r => r.2
  | none => (0, 0)

/-- The severity of an event code. -/
def severity (code : Nat) : Nat := (sevSrc code).1

/-- SEVSRC of R425. -/
def sevSrcByte (code : Nat) : Nat := (sevSrc code).1 * 32 + (sevSrc code).2

/-! ### Bits set in the clock in which they are cleared (R9) -/

/-- The note of bits set in a clock: those of an earlier clock are forgotten. -/
def noteBits (clock : Nat) (p : Nat × Nat) (mask : Nat) : Nat × Nat := (clock, if p.1 = clock then p.2 ||| mask else mask)

/-- A W1C register after a write: 1 clears a bit, but for the bits that were set in the same clock (R8, R9). -/
def w1c {n : Nat} (clock : Nat) (p : Nat × Nat) (old w : BitVec n) : BitVec n :=
  old &&& ~~~ (w &&& ~~~ (if p.1 = clock then BitVec.ofNat n p.2 else 0))

/-- A single W1C bit, number i of the note, after a write. -/
def w1cBit (clock : Nat) (p : Nat × Nat) (i : Nat) (old one : Bool) : Bool :=
  old && !(one && !(decide (p.1 = clock) && p.2.testBit i))

/-- The note of an RC register's value before the first event of a clock. -/
def noteOld (clock : Nat) (p : Nat × Nat) (old : Nat) : Nat × Nat := if p.1 = clock then p else (clock, old)

/-- What a read of an RC register returns: in a clock in which events were counted, the value from before them (R9). -/
def rcShown (clock : Nat) (p : Nat × Nat) (cur : Nat) : Nat := if p.1 = clock then p.2 else cur

/-- What an RC register holds after a read: the events of the same clock (R9). -/
def rcLeft (clock : Nat) (p : Nat × Nat) (cur : Nat) : Nat := if p.1 = clock then cur - p.2 else 0

/-- The note of an RC register after a read: what has been shown is not shown again. -/
def rcNote (clock : Nat) (p : Nat × Nat) : Nat × Nat := if p.1 = clock then (clock, 0) else p

/-! ### Mode and state codes -/

/-- The code of a mode (R279, R442). -/
def modeCode : Mode → Nat
  | .off => 0
  | .recovery => 1
  | .commission => 2
  | .standby => 3
  | .connect => 4
  | .online => 5
  | .service => 6
  | .tripped => 7

/-- The code of RUNSTATE (R279). -/
def runCode : RunState → Nat
  | .rom => 0
  | .recovery => 1
  | .restarting => 2
  | .running => 3

/-- The code of a ring state (R98, R342). -/
def ringCode : RingState → Nat
  | .active => 0
  | .service => 1
  | .isolated => 2

/-- The code of a rod's state (R123). -/
def rodCode : RodState → Nat
  | .healthy => 0
  | .retrying => 1
  | .quarantined => 2
  | .testing => 3
  | .halted => 4

/-- The code of USTATE (R345). -/
def uCode : UState → Nat
  | .empty => 0
  | .receiving => 1
  | .complete => 2
  | .verified => 3
  | .scheduled => 4
  | .uncommitted => 5

end Sys2Proof.Machine
end

