-- ==== Sys2Proof/Machine/Ops.lean ====
section
/-! DEFINITION. The named operations every family shares: tables by key, events, counters, settings, time, free values. -/
namespace Sys2Proof.Machine
open Sys2Proof

/-! ### Tables by key -/

/-- The value of a key; the default where the key is unlisted. -/
def tget {α : Type} (d : α) : Tbl α → Nat → α
  | [], _ => d
  | (a, v) :: r, k => if a = k then v else tget d r k

/-- The entry of a key, if the table lists it. -/
def tfind? {α : Type} : Tbl α → Nat → Option α
  | [], _ => none
  | (a, v) :: r, k => if a = k then some v else tfind? r k

/-- A key's entry removed. -/
def tdel {α : Type} : Tbl α → Nat → Tbl α
  | [], _ => []
  | (a, v) :: r, k => if a = k then r else (a, v) :: tdel r k

/-- A key's entry placed in its order. -/
def tput {α : Type} : Tbl α → Nat → α → Tbl α
  | [], k, v => [(k, v)]
  | (a, w) :: r, k, v => if k < a then (k, v) :: (a, w) :: r else if a = k then (k, v) :: r else (a, w) :: tput r k v

/-- A table with one key's value set; a value equal to the default leaves the key unlisted. -/
def tset {α : Type} [DecidableEq α] (d : α) (t : Tbl α) (k : Nat) (v : α) : Tbl α :=
  if v = d then tdel t k else tput t k v

/-- A table with one key's value changed by a function. -/
def tmod {α : Type} [DecidableEq α] (d : α) (t : Tbl α) (k : Nat) (f : α → α) : Tbl α := tset d t k (f (tget d t k))

/-- The keys a table lists. -/
def tkeys {α : Type} (t : Tbl α) : List Nat := t.map Prod.fst

/-- Keys strictly rising from above a bound. -/
def keysRise {α : Type} : Tbl α → Bool
  | [] => true
  | [_] => true
  | (a, _) :: (b, w) :: r => decide (a < b) && keysRise ((b, w) :: r)

/-- The canonical form: keys strictly rising, and no entry equal to the default. -/
def tok {α : Type} [DecidableEq α] (d : α) (t : Tbl α) : Bool := keysRise t && t.all (fun e => decide (e.2 ≠ d))

/-! ### The parts of the state by number -/

/-- Ring port p. -/
def State.ring (s : State) (p : Nat) : Ring := tget Ring.reset s.rings p
/-- Ring port p changed. -/
def State.modRing (s : State) (p : Nat) (f : Ring → Ring) : State := { s with rings := tmod Ring.reset s.rings p f }
/-- The node at a place of a ring. -/
def State.node (s : State) (k : Nat) : Node := tget Node.reset s.nodes k
/-- The node at a place changed. -/
def State.modNode (s : State) (k : Nat) (f : Node → Node) : State := { s with nodes := tmod Node.reset s.nodes k f }
/-- Mark unit n. -/
def State.mark (s : State) (n : Nat) : Mark := tget Mark.reset s.beam.marks n
/-- Mark unit n changed. -/
def State.modMark (s : State) (n : Nat) (f : Mark → Mark) : State :=
  { s with beam := { s.beam with marks := tmod Mark.reset s.beam.marks n f } }
/-- Rod n. -/
def State.rod (s : State) (n : Nat) : Rod := tget Rod.reset s.sched.rods n
/-- Rod n changed. -/
def State.modRod (s : State) (n : Nat) (f : Rod → Rod) : State :=
  { s with sched := { s.sched with rods := tmod Rod.reset s.sched.rods n f } }
/-- The cell of a point address. -/
def State.cell (s : State) (p : Nat) : Cell := tget Cell.reset s.est.cells p
/-- A cell changed. -/
def State.modCell (s : State) (p : Nat) (f : Cell → Cell) : State :=
  { s with est := { s.est with cells := tmod Cell.reset s.est.cells p f } }
/-- The string of a key. -/
def State.str (s : State) (k : Nat) : Str := tget Str.reset s.est.strs k
/-- A string changed. -/
def State.modStr (s : State) (k : Nat) (f : Str → Str) : State :=
  { s with est := { s.est with strs := tmod Str.reset s.est.strs k f } }
/-- The balancing state of a node. -/
def State.balNode (s : State) (k : Nat) : BalNode := tget BalNode.reset s.est.bal k
/-- The balancing state of a node changed. -/
def State.modBal (s : State) (k : Nat) (f : BalNode → BalNode) : State :=
  { s with est := { s.est with bal := tmod BalNode.reset s.est.bal k f } }
/-- A temperature input by point address without KIND. -/
def State.tempIn (s : State) (p : Nat) : TempIn := tget TempIn.reset s.est.temps p
/-- A temperature input changed. -/
def State.modTemp (s : State) (p : Nat) (f : TempIn → TempIn) : State :=
  { s with est := { s.est with temps := tmod TempIn.reset s.est.temps p f } }
/-- Thermal input n. -/
def State.tin (s : State) (n : Nat) : Tin := tget Tin.reset s.est.tins n
/-- Thermal input n changed. -/
def State.modTin (s : State) (n : Nat) (f : Tin → Tin) : State :=
  { s with est := { s.est with tins := tmod Tin.reset s.est.tins n f } }
/-- Fast protection input n. -/
def State.fpi (s : State) (n : Nat) : Fpi := tget Fpi.reset s.guard.fpi n
/-- Fast protection input n changed. -/
def State.modFpi (s : State) (n : Nat) (f : Fpi → Fpi) : State :=
  { s with guard := { s.guard with fpi := tmod Fpi.reset s.guard.fpi n f } }
/-- Tenant t. -/
def State.tenant (s : State) (t : Nat) : Tenant := tget Tenant.reset s.disp.tenants t
/-- Tenant t changed. -/
def State.modTenant (s : State) (t : Nat) (f : Tenant → Tenant) : State :=
  { s with disp := { s.disp with tenants := tmod Tenant.reset s.disp.tenants t f } }
/-- Page of tenant t. -/
def State.page (s : State) (t : Nat) : Page := tget Page.reset s.sys.pages t
/-- Page of tenant t changed. -/
def State.modPage (s : State) (t : Nat) (f : Page → Page) : State :=
  { s with sys := { s.sys with pages := tmod Page.reset s.sys.pages t f } }
/-- Loop n. -/
def State.loop (s : State) (n : Nat) : Loop := tget Loop.reset s.loops.loops n
/-- Loop n changed. -/
def State.modLoop (s : State) (n : Nat) (f : Loop → Loop) : State :=
  { s with loops := { s.loops with loops := tmod Loop.reset s.loops.loops n f } }
/-- Axis n. -/
def State.axis (s : State) (n : Nat) : Axis := tget Axis.reset s.loops.axes n
/-- Axis n changed. -/
def State.modAxis (s : State) (n : Nat) (f : Axis → Axis) : State :=
  { s with loops := { s.loops with axes := tmod Axis.reset s.loops.axes n f } }
/-- Load channel n. -/
def State.chan (s : State) (n : Nat) : Chan := tget Chan.reset s.load.chans n
/-- Load channel n changed. -/
def State.modChan (s : State) (n : Nat) (f : Chan → Chan) : State :=
  { s with load := { s.load with chans := tmod Chan.reset s.load.chans n f } }
/-- CAN controller n. -/
def State.ctrl (s : State) (n : Nat) : Ctrl := tget Ctrl.reset s.can.ctrls n
/-- CAN controller n changed. -/
def State.modCtrl (s : State) (n : Nat) (f : Ctrl → Ctrl) : State :=
  { s with can := { s.can with ctrls := tmod Ctrl.reset s.can.ctrls n f } }
/-- PCS unit n. -/
def State.unit (s : State) (n : Nat) : Unit_ := tget Unit_.reset s.can.units n
/-- PCS unit n changed. -/
def State.modUnit (s : State) (n : Nat) (f : Unit_ → Unit_) : State :=
  { s with can := { s.can with units := tmod Unit_.reset s.can.units n f } }
/-- An alarm source by CH × 64 + SOURCE. -/
def State.alarm (s : State) (k : Nat) : Alarm := tget Alarm.reset s.can.alarms k
/-- An alarm source changed. -/
def State.modAlarm (s : State) (k : Nat) (f : Alarm → Alarm) : State :=
  { s with can := { s.can with alarms := tmod Alarm.reset s.can.alarms k f } }

/-- The beam changed. -/
def State.onBeam (s : State) (f : Beam → Beam) : State := { s with beam := f s.beam }
/-- The guard changed. -/
def State.onGuard (s : State) (f : Guard → Guard) : State := { s with guard := f s.guard }
/-- The system registers changed. -/
def State.onSys (s : State) (f : Sys → Sys) : State := { s with sys := f s.sys }
/-- The records changed. -/
def State.onRecs (s : State) (f : Records → Records) : State := { s with recs := f s.recs }
/-- The estimator changed. -/
def State.onEst (s : State) (f : Est → Est) : State := { s with est := f s.est }
/-- The scheduler changed. -/
def State.onSched (s : State) (f : Sched → Sched) : State := { s with sched := f s.sched }
/-- The dispatch engine changed. -/
def State.onDisp (s : State) (f : Dispatch → Dispatch) : State := { s with disp := f s.disp }
/-- The loop engine changed. -/
def State.onLoops (s : State) (f : Loops → Loops) : State := { s with loops := f s.loops }
/-- The load block changed. -/
def State.onLoad (s : State) (f : Load → Load) : State := { s with load := f s.load }
/-- The CAN block changed. -/
def State.onCan (s : State) (f : Can → Can) : State := { s with can := f s.can }
/-- The supplies changed. -/
def State.onPower (s : State) (f : Power → Power) : State := { s with power := f s.power }
/-- The firmware slots changed. -/
def State.onUpd (s : State) (f : Update → Update) : State := { s with upd := f s.upd }

/-- A condition chooses between a change and none. -/
def State.when (s : State) (c : Bool) (f : State → State) : State := if c then f s else s

/-- One change for each element of a list, in order. -/
def forEach {α : Type} (l : List α) (f : α → State → State) (s : State) : State := l.foldl (fun t x => f x t) s

/-! ### Time -/

/-- Ticks of the 200 MHz clock in n microseconds. -/
def us (n : Nat) : Nat := n * 200
/-- Ticks in n milliseconds. -/
def ms (n : Nat) : Nat := n * 200000
/-- Ticks in n seconds. -/
def secs (n : Nat) : Nat := n * 200000000

/-- Ticks since an instant. -/
def State.since (s : State) (t : Nat) : Nat := s.clock - t
/-- Milliseconds since an instant. -/
def State.msSince (s : State) (t : Nat) : Nat := (s.clock - t) / 200000
/-- An instant lies at least n ticks back. -/
def State.elapsed (s : State) (t n : Nat) : Bool := decide (t + n ≤ s.clock)
/-- An optional instant lies at least n ticks back; none has not begun. -/
def State.elapsed? (s : State) (t : Option Nat) (n : Nat) : Bool :=
  match t with
  | some a => s.elapsed a n
  | none => false

/-- BEAM_ANGLE: the angle field (R33, R34). -/
def Beam.angle (b : Beam) : Nat := b.frac.toNat / 2 ^ 32
/-- BEAM_ANGLE in one 32-bit access (R34). -/
def Beam.angleWord (b : Beam) : Nat := b.cycle.toNat * 65536 + b.angle
/-- The extended cycle count brought up to the exposed cycle count (R35). -/
def Beam.extended (b : Beam) : Nat := (b.ext.toNat + (b.cycle.toNat + 65536 - b.ext.toNat % 65536) % 65536) % 2 ^ 48
/-- Beam time, 64 bits (R35). -/
def State.beamTime (s : State) : Nat := s.beam.extended * 65536 + s.beam.angle

/-- The nominal frequency in 2^-16 Hz (R58); 16.7 Hz rounded to the nearest code. -/
def Beam.nominalFreq (b : Beam) : Nat :=
  match wfld b.nominal 1 0 with
  | 0 => 3276800
  | 1 => 3932160
  | 2 => 1094451
  | _ => wfld b.nominal 30 8

/-- The nominal frequency's code held above 0, for divisions. -/
def Beam.nomDiv (b : Beam) : Nat := max 1 b.nominalFreq

/-- Nanoseconds of an angle in beam units at the nominal frequency. -/
def Beam.nsAtNominal (b : Beam) (bu : Nat) : Nat := bu * 1000000000 / b.nomDiv

/-- Wall time, none while it has not been acquired (R11, R55). -/
def State.wallNow (s : State) : Option Nat :=
  if s.sys.ptpLock then some s.sys.wall.toNat else none
/-- Wall time as a 64-bit code. -/
def State.wall (s : State) : BitVec 64 := if s.sys.ptpLock then s.sys.wall else BitVec.allOnes 64

/-! ### Free values -/

/-- A free value is taken: the present one, and the state that will take the next. -/
def State.free (s : State) : Int × State := (Config.free s.fresh, { s with fresh := s.fresh + 1 })

/-! ### Free-running numbers -/

/-- a is older than b, compared modulo 2^32 (R428). -/
def seqOlder (a b : Nat) : Bool :=
  let d := (b + 2 ^ 32 - a) % 2 ^ 32
  decide (1 ≤ d ∧ d < 2 ^ 31)

/-! ### Carry counters (R433-R435) -/

/-- A digit word (R433). -/
def digit (co et rt : Bool) (v : Nat) : BitVec 16 := BitVec.ofNat 16 (flag co 15 + flag et 14 + flag rt 13 + v % 8192)
/-- RT of a digit word. -/
def dRt (w : BitVec 16) : Bool := bit w 13
/-- VALUE of a digit word. -/
def dVal (w : BitVec 16) : Nat := w.toNat % 8192
/-- CO of a digit word. -/
def dCo (w : BitVec 16) : Bool := bit w 15
/-- ET of a digit word. -/
def dEt (w : BitVec 16) : Bool := bit w 14
/-- A digit word with CO cleared. -/
def dNoCo (w : BitVec 16) : BitVec 16 := putBit w 15 false

/-- The five digit words of a counter that nothing has counted. -/
def cnt0 : List (BitVec 16) := List.replicate 5 0

/-- The value of a counter (R433). -/
def cntValue (c : List (BitVec 16)) : Nat :=
  dVal (nth 0 c 0) + 8192 * (dVal (nth 0 c 1) + 8192 * (dVal (nth 0 c 2) + 8192 * (dVal (nth 0 c 3) + 8192 * dVal (nth 0 c 4))))

/-- saturate() of R434: every digit at 8,191 with its RT kept. -/
def cntSaturate (c : List (BitVec 16)) : List (BitVec 16) :=
  (List.range 5).map (fun k => digit false false (dRt (nth 0 c k)) 8191)

/-- put() of R434: the words, whether a carry is owed, whether the counter saturated. -/
def cntPut (c : List (BitVec 16)) (k v : Nat) (r : Bool) : List (BitVec 16) × Bool × Bool :=
  if v < 8192 then (putNth c k (digit false false r v), false, false)
  else if k = 4 then (cntSaturate c, false, true)
  else (putNth c k (digit true (!dRt (nth 0 c (k + 1))) r (v - 8192)), true, false)

/-- The carry loop of add() from digit k on (R434); fuel counts the digits left. -/
def cntCarry : Nat → Nat → List (BitVec 16) → List (BitVec 16) × Bool
  | 0, _, c => (c, false)
  | n + 1, k, c =>
    let nxt := nth 0 c (k + 1)
    let (c1, carry, sat) := cntPut c (k + 1) (dVal nxt + 1) (!dRt nxt)
    if sat then (c1, true)
    else
      let c2 := putNth c1 k (dNoCo (nth 0 c1 k))
      if carry then cntCarry n (k + 1) c2 else (c2, false)

/-- add() of R434 for one piece of at most 8,191: the words and whether the counter saturated. -/
def cntAdd1 (c : List (BitVec 16)) (n : Nat) : List (BitVec 16) × Bool :=
  let (c1, carry, _) := cntPut c 0 (dVal (nth 0 c 0) + n) false
  if carry then cntCarry 4 0 c1 else (c1, false)

/-- Whole units added in pieces of at most 8,191; fuel bounds the pieces (R434). -/
def cntAddN : Nat → List (BitVec 16) → Nat → List (BitVec 16) × Bool
  | 0, c, _ => (c, false)
  | f + 1, c, n =>
    if n = 0 then (c, false)
    else
      let m := min n 8191
      let (c1, sat) := cntAdd1 c m
      if sat then (c1, true) else cntAddN f c1 (n - m)

/-- Key of a counter: set 0 module, 1 bank, 2 string; the string's key; the counter's number. -/
def cntKey (set k n : Nat) : Nat := (set * 2 ^ 24 + k) * 8 + n

/-! ### Events (chapter 15) -/

/-- The entry of an event with its parameters as 16-bit codes, unused ones 0 (R425). -/
def mkEv (code : Nat) (ps : List Int) : Ev := ⟨code, padTo 5 0 (ps.map (ux 16))⟩

/-- An entry that has a reserved place in the queue: the overrun and the power-fail record (R429). -/
def Ev.reserved (e : Ev) : Bool := decide (e.code = 0x0C04 ∨ e.code = 0x0C01)

/-- Entries that take one of the 1,024 places (R429). -/
def queueUsed (q : List Ev) : Nat := (q.filter (fun e => !e.reserved)).length

/-- OPTIME and PCYCLE as they stand: bits [31:0] of the module counters 0 and 1 (R425, R433). -/
def Records.stamp (r : Records) : Nat × Nat :=
  let c := fun n => cntValue (tget cnt0 r.counters (cntKey 0 0 n)) % 2 ^ 32
  (c 0, c 1)

/-- Entries join the queue with the operating time and the power cycle of their occurrence (R425, R429). -/
def Records.enqueue (r : Records) (es : List Ev) : Records :=
  { r with queue := r.queue ++ es, queueAt := r.queueAt ++ es.map (fun _ => r.stamp) }

/-- An event enters the queue: dropped and counted when it is full, and preceded by the overrun record at the first
event after an entry has become free again; the power-fail record is never dropped (R429). -/
def Records.push (r : Records) (e : Ev) : Records :=
  if e.reserved then r.enqueue [e]
  else if 1024 ≤ queueUsed r.queue then { r with dropped := r.dropped + 1 }
  else if 0 < r.dropped then { r.enqueue [mkEv 0x0C04 [(sat16 r.dropped : Int)], e] with dropped := 0 }
  else r.enqueue [e]

/-- An event of a block is raised. -/
def State.raise (s : State) (code : Nat) (ps : List Int) : State := { s with recs := s.recs.push (mkEv code ps) }

/-! ### Wake causes -/

/-- A wake cause: its WAKE_CAUSE bit sets. In D3hot an enabled cause asserts PME and owes a WAKE notification with the wall
time of the earliest cause; after the wake, until the host has cleared WAKE_CAUSE, an enabled cause owes a further one
(R279, R303, R304). -/
def State.wake (s : State) (n : Nat) : State :=
  s.onSys fun y =>
    let on := bit y.wakeEn n
    { y with wakeCause := putBit y.wakeCause n true, wakeNew := noteBits s.clock y.wakeNew (2 ^ n), pme := y.pme || (y.d3 && on), wakeOpen := y.wakeOpen || (y.d3 && on),
             wakeDue := if (y.d3 || y.wakeOpen) && on then
                 some (y.wakeDue.getD (if y.ptpLock then y.wall else BitVec.allOnes 64)) else y.wakeDue }

/-! ### Settings (R180, R186, R205, R118, R241, R234, R330, R331) -/

/-- The scope a setting is held at (R327). -/
inductive Scope where
  | bank | string | group
deriving DecidableEq, Repr

/-- A setting's row: scope, default (none where the spec gives none), least and greatest value. -/
structure ParamRow where
  /-- PARAM. -/
  code : Nat
  /-- scope. -/
  scope : Scope
  /-- default in the unit of R329. -/
  dflt : Option Int
  /-- least value. -/
  lo : Int
  /-- greatest value. -/
  hi : Int
deriving DecidableEq, Repr

/-- Table 0x31, R180. -/
def params31 : List ParamRow :=
  [⟨0x3101, .string, some 1, 1, 3⟩, ⟨0x3102, .bank, some 8, 8, 64⟩, ⟨0x3103, .bank, some 2000, 100, 10000⟩,
   ⟨0x3104, .group, some 1000, 100, 10000⟩, ⟨0x3105, .group, some 100, 20, 1000⟩, ⟨0x3106, .bank, some 5000, 0, 30000⟩,
   ⟨0x3107, .bank, some 3000, 0, 30000⟩, ⟨0x3108, .bank, some 500, 100, 5000⟩, ⟨0x3109, .string, some 200, 50, 2000⟩,
   ⟨0x310A, .bank, some 50, 10, 500⟩, ⟨0x310B, .bank, some 1800000, 600000, 14400000⟩,
   ⟨0x310C, .bank, some 35000, 20000, 80000⟩, ⟨0x310D, .bank, some 604800000, 86400000, 2592000000⟩,
   ⟨0x310E, .bank, some 500, 100, 2000⟩] ++
  [⟨0x310F, .bank, some 1500, 1000, 5000⟩, ⟨0x3110, .bank, some 43200000, 14400000, 604800000⟩,
   ⟨0x3111, .bank, some 250, 50, 1000⟩, ⟨0x3112, .bank, some 20000, 5000, 50000⟩, ⟨0x3113, .bank, some 200, 50, 1000⟩,
   ⟨0x3114, .bank, some 9000, 2000, 25000⟩, ⟨0x3115, .bank, some 8000, 2000, 20000⟩,
   ⟨0x3116, .string, some 14400000, 900000, 604800000⟩, ⟨0x3117, .bank, some 20, 5, 1000⟩,
   ⟨0x3118, .bank, some 2000, 100, 100000⟩, ⟨0x3119, .bank, some 15000, 5000, 50000⟩,
   ⟨0x311A, .bank, some 900000, 900000, 900000⟩, ⟨0x311B, .bank, some 10000, 1000, 60000⟩]

/-- Tables 0x32, R186, and 0x34, R118. -/
def params32 : List ParamRow :=
  [⟨0x3201, .bank, some 800, 300, 3000⟩, ⟨0x3202, .bank, some 100, 20, 1000⟩, ⟨0x3203, .bank, some 300, 0, 1000⟩,
   ⟨0x3401, .bank, some 50000, 0, 500000⟩, ⟨0x3402, .bank, some 300, 0, 2000⟩]

/-- Table 0x33, R205; BAL_LOSS in mW (log entry 5). -/
def params33 : List ParamRow :=
  [⟨0x3301, .string, some 0, 0, 1⟩, ⟨0x3302, .string, some 200, 50, 5000⟩, ⟨0x3303, .bank, some 14400000, 1800000, 172800000⟩,
   ⟨0x3304, .bank, some 255, 16, 255⟩, ⟨0x3305, .bank, some 770, 500, 980⟩, ⟨0x3306, .bank, some 800, 100, 5000⟩,
   ⟨0x3307, .bank, some 2000, 500, 10000⟩, ⟨0x3308, .bank, some 10000, 2000, 600000⟩, ⟨0x3309, .bank, some 64, 8, 256⟩,
   ⟨0x330A, .bank, some 4, 1, 255⟩] ++
  [⟨0x330B, .string, some 500, 0, 2000⟩, ⟨0x330C, .bank, some 9000, 6000, 10000⟩, ⟨0x330D, .bank, some 600000, 0, 3600000⟩,
   ⟨0x330E, .bank, some 1000000, 0, 1000000⟩, ⟨0x330F, .bank, none, 1, 100000000⟩, ⟨0x3310, .bank, some 10000, 0, 50000⟩,
   ⟨0x3311, .bank, some 0, 0, 10000000⟩]

/-- Table 0x35, R330: no defaults. -/
def params35 : List ParamRow :=
  [⟨0x3501, .string, none, 1000, 1638000⟩, ⟨0x3502, .string, none, 1000, 1310000⟩, ⟨0x3503, .string, none, 1, 65535⟩,
   ⟨0x3504, .string, none, 1000000, 5000000000⟩, ⟨0x3505, .string, none, 0, 65000⟩]

/-- Tables 0x51, R241, and 0x61, R234. -/
def params56 : List ParamRow :=
  [⟨0x5101, .bank, none, 1, 2000000000⟩, ⟨0x5102, .bank, none, 1, 2000000000⟩, ⟨0x5103, .bank, none, 1, 4611686018427387904⟩,
   ⟨0x5104, .bank, some 0, 0, 2000000000⟩, ⟨0x5105, .bank, some 0, 0, 2000000000⟩, ⟨0x5106, .bank, none, 1, 63⟩,
   ⟨0x5107, .bank, some 950, 800, 1000⟩, ⟨0x5108, .bank, some 2, 2, 1000⟩, ⟨0x5109, .bank, some 0, 0, 2⟩] ++
  [⟨0x6101, .bank, some 10000, 1000, 20000⟩, ⟨0x6102, .bank, some 10000, 1000, 30000⟩, ⟨0x6103, .bank, some 1000, 200, 5000⟩,
   ⟨0x6104, .bank, some 90000, 1000, 100000⟩, ⟨0x6105, .bank, some 50000, 10000, 90000⟩, ⟨0x6106, .bank, some 5000, 500, 60000⟩]

/-- Table 0x11, R331. -/
def params11 : List ParamRow :=
  [⟨0x1101, .bank, some 49928, 1024, 65535⟩, ⟨0x1102, .bank, some 0xC0A88001, 0, 0xFFFFFFFF⟩, ⟨0x1103, .bank, some 24, 8, 30⟩,
   ⟨0x1104, .bank, some 0, 0, 0xFFFFFFFF⟩, ⟨0x1105, .bank, some 0, 0, 4094⟩, ⟨0x1106, .bank, some 0, 0, 0xFFFFFFFF⟩,
   ⟨0x1107, .bank, some 24, 8, 30⟩, ⟨0x1108, .bank, some 0, 0, 0xFFFFFFFF⟩, ⟨0x1109, .bank, some 0, 0, 4094⟩,
   ⟨0x110A, .bank, some 0, 0, 1⟩, ⟨0x110B, .bank, some 0, 0, 127⟩, ⟨0x110C, .bank, some 0, 0, 1⟩]

/-- Every setting. -/
def paramRows : List ParamRow := params11 ++ params31 ++ params32 ++ params33 ++ params35 ++ params56

/-- The row of a PARAM. -/
def paramRow? (code : Nat) : Option ParamRow := paramRows.find? (fun r => decide (r.code = code))

/-- The value a setting has while nobody has set it: its default, or one below its least value (R327). -/
def ParamRow.unset (r : ParamRow) : Int := r.dflt.getD (r.lo - 1)

/-- The key of a bank setting. -/
def pkBank (code : Nat) : Nat := code * 2 ^ 25
/-- The key of a string setting. -/
def pkStr (code k : Nat) : Nat := code * 2 ^ 25 + 1 + k
/-- The key of a group setting. -/
def pkGrp (code g : Nat) : Nat := code * 2 ^ 25 + 2 ^ 24 + g

/-- The unset value of a PARAM. -/
def unsetOf (code : Nat) : Int :=
  match paramRow? code with
  | some r => r.unset
  | none => 0

/-- A bank setting in force (R321). -/
def State.par (s : State) (code : Nat) : Int := tget (unsetOf code) s.est.live (pkBank code)
/-- A string setting in force. -/
def State.parStr (s : State) (code k : Nat) : Int := tget (unsetOf code) s.est.live (pkStr code k)
/-- A group setting in force. -/
def State.parGrp (s : State) (code g : Nat) : Int := tget (unsetOf code) s.est.live (pkGrp code g)
/-- A bank setting as committed. -/
def State.parC (s : State) (code : Nat) : Int := tget (unsetOf code) s.est.params (pkBank code)
/-- A string setting as committed. -/
def State.parStrC (s : State) (code k : Nat) : Int := tget (unsetOf code) s.est.params (pkStr code k)
/-- A setting without a default has been set. -/
def State.parSet (s : State) (code : Nat) : Bool := decide (s.parC code ≠ unsetOf code)

/-- SLOT_CYC's default at the nominal frequency (R241). -/
def Beam.slotCycDefault (b : Beam) : Nat :=
  match wfld b.nominal 1 0 with
  | 0 => 50
  | 1 => 60
  | 2 => 17
  | _ => min 63 ((wfld b.nominal 30 8 * 2 + 65536) / 131072)

/-- The settings of R241 without a default are all set. -/
def State.bankSet (s : State) : Bool := s.parSet 0x5101 && s.parSet 0x5102 && s.parSet 0x5103

/-- I_RATED of a string, mA; 0 while it is unset. -/
def State.iRated (s : State) (k : Nat) : Nat := (max 0 (s.parStr 0x3501 k)).toNat

/-! ### Ledgers (R240, R255) -/

/-- Tenants 1…255 with an enabled allocation in force (R240). -/
def State.enabledTenants (s : State) : List Nat :=
  (tkeys s.disp.tenants).filter (fun t => decide (t ≠ 0) && (s.tenant t).exists_ && (s.tenant t).enabled)

/-- Tenants of a tick: tenant 0 and the enabled ones (R251). -/
def State.tickTenants (s : State) : List Nat := 0 :: s.enabledTenants

/-- ETA_C in 1/1000 (R241). -/
def State.etaMilli (s : State) : Nat := (max 1 (s.par 0x5107)).toNat

/-- The energy of a power over a time in ticks of 5 ns, mJ: rdiv(W × ns, 1,000,000) (R255). -/
def energyMj (w : Int) (ticks : Nat) : Int := rdiv (w * (5 * ticks : Nat)) 1000000

/-- A ledger and its sums moved by the delivered power over a time (R255). -/
def Tenant.settle (q : Tenant) (eta ticks : Nat) : Tenant :=
  let e := energyMj q.deliv ticks
  let de := if q.deliv < 0 then rdiv (e * eta) 1000 else e
  let curt := if 0 ≤ q.req * q.deliv ∧ q.deliv.natAbs < q.req.natAbs then energyMj (q.req.natAbs - q.deliv.natAbs : Nat) ticks
    else 0
  { q with mj := q.mj - de, disSum := q.disSum + max e 0, chgSum := q.chgSum + max (-e) 0, curtSum := q.curtSum + curt }

/-- LEDGER_MOVE: every ledger moves by its delivered power since the last settlement (R255); tenant 0 keeps sums but no
ledger (R256). -/
def State.settle (s : State) : State :=
  let n := s.clock - s.disp.settleAt
  (forEach s.tickTenants (fun t u => u.modTenant t fun q =>
    { q.settle s.etaMilli n with mj := if t = 0 then 0 else (q.settle s.etaMilli n).mj }) s).onDisp fun d =>
      { d with settleAt := s.clock }

/-! ### The mode (R249, R443, R444) -/

/-- The mode leaves ONLINE and SERVICE: the ledgers move by the powers delivered up to here, and from here every delivered
power, request and ramp state and the bank set-point are 0 (R249, R265). -/
def State.leaveDispatch (s : State) : State :=
  let s1 := if s.disp.held.isNone then s.settle else s
  (forEach s1.tickTenants (fun t u => u.modTenant t fun q =>
    { q with ramp := 0, sched := 0, req := 0, deliv := 0, curt := false }) s1).onDisp fun d =>
      { d with pBank := 0, pReq := 0, bflags := putBit (putBit d.bflags 1 false) 2 false }

/-- Dispatch may run in a mode (R249). -/
def Mode.dispatches (m : Mode) : Bool := decide (m = .online ∨ m = .service)

/-- The mode changes, with the mode-changed event and its cause (R444); a change to the present mode is none. On entry to STANDBY a
learned checkpoint falls due (R177). -/
def State.setMode (s : State) (m : Mode) (cause : Nat) : State :=
  if s.sys.mode = m then s
  else
    let s1 := s.when (s.sys.mode.dispatches && !m.dispatches) State.leaveDispatch
    ((s1.onSys fun y => { y with mode := m, ckDue := y.ckDue || decide (m = .standby) }).raise 0x0101 [modeCode s.sys.mode, modeCode m, cause]).wake 2

/-- Ports whose ring state satisfies a test, ascending. -/
def State.portsWhere (s : State) (p : Ring → Bool) : List Nat := (List.range 128).filter (fun n => p (s.ring n))
/-- The ports in the ring state ACTIVE. -/
def State.activePorts (s : State) : List Nat := s.portsWhere (fun r => decide (r.state = .active))
/-- At least one ring is in the ring state SERVICE. -/
def State.anyService (s : State) : Bool := !(s.portsWhere (fun r => decide (r.state = .service))).isEmpty

/-- The mode that R443 gives while the module would otherwise be in STANDBY or ONLINE. -/
def State.restMode (s : State) : Mode :=
  if s.anyService then .service else if s.guard.connected then .online else .standby

/-- R443 is applied after a change of ring states or of the connection. -/
def State.followRings (s : State) (cause : Nat) : State :=
  match s.sys.mode with
  | .standby | .online | .service => s.setMode s.restMode cause
  | _ => s

/-! ### Strings and their cells -/

/-- The strings of a ring that are configured, ascending STRING_ID. -/
def State.stringsOf (s : State) (p : Nat) : List Nat := s.est.configured.filter (fun k => decide (keyPort k = p))
/-- The stored positions of a string, ascending. -/
def State.posOf (s : State) (k : Nat) : List Nat :=
  ((s.ring (keyPort k)).config.filter (fun n => decide (n.string = keyId k))).map NodeId.pos
/-- The places of the nodes on a ring, ascending from the A end. -/
def State.places (s : State) (port : Nat) : List Nat :=
  ((tkeys s.nodes).filter (fun k => decide (keyPort k = port ∧ keyId k ≠ 0))).map keyId
/-- The place on the ring of the node that answers at a position, if one does. -/
def State.placeOf? (s : State) (port pos : Nat) : Option Nat :=
  (s.places port).find? (fun i => decide ((s.node (nodeKey port i)).pos = pos ∧ pos ≠ 0))
/-- The key under which the node of a position is held; an unanswered position's own key. -/
def State.nodeAt (s : State) (port pos : Nat) : Nat := nodeKey port ((s.placeOf? port pos).getD pos)
/-- The string-switch position of a string: the stored node of type 2 (R68). -/
def State.switchPos? (s : State) (k : Nat) : Option Nat :=
  (((s.ring (keyPort k)).config.filter (fun n => decide (n.string = keyId k ∧ n.type = 2))).map NodeId.pos).head?

/-! ### Carry counters: counting (R434) -/

/-- A counter is increased; a counter that saturates raises its event once (R434). -/
def State.count (s : State) (set k n v : Nat) : State :=
  let key := cntKey set k n
  let c := tget cnt0 s.recs.counters key
  let (c1, sat) := cntAddN (v / 8191 + 1) c v
  let s1 := s.onRecs fun r => { r with counters := tset cnt0 r.counters key c1 }
  s1.when (sat && decide (cntValue c ≠ 8192 ^ 5 - 1)) (·.raise 0x0C08 [set, keyPort k, keyId k, n])

/-! ### Configuration store (R350, R393, R321, R333) -/

/-- A commit to the configuration store: CFG_GEN rises by 1 (R333, R420). -/
def State.commitCfg (s : State) : State :=
  s.onRecs fun r => { r with cfgGen := (r.cfgGen + 1) % 2 ^ 32, cfgValid := true }

/-- A block's registers await their copy into the store (R350, R393). -/
def State.cfgOwed (s : State) (block : Nat) : State := s.onRecs fun r => { r with cfgPending := insN block r.cfgPending }

/-! ### Responses -/

/-- A command's effect as the outcome of a step: the machine goes on. -/
def done (s : State) : Host.Outcome State Fault Refusal := .next s

/-- A command whose condition the state refutes changes nothing (log entry 4). -/
def onlyIf (c : Bool) (f : State → State) (s : State) : Host.Outcome State Fault Refusal := .next (if c then f s else s)

/-! ### Corrections of conversions (R209, R210) -/

/-- A conversion of BV, AIN, FPI or TIN corrected by the reference diode's gain (R210). -/
def State.referred (s : State) (v : Int) : Int :=
  if s.beam.refGain = 1 then v else rround ((v : Rat) * s.beam.refGain)

/-- TYPE of a TIN. -/
def Tin.type (t : Tin) : Nat := wfld t.cfg 1 0

/-- The factor of R209 on a target: 0…15 FPI, 16…23 AIN. -/
def State.tinFactor (s : State) (target : Nat) : Rat :=
  match (List.range 16).find? (fun n =>
    let t := s.tin n
    decide (t.type ≠ 0 ∧ wfld t.cfg 3 2 = 1 ∧ wfld t.cfg 8 4 = target)) with
  | some n =>
    let t := s.tin n
    1 + (sx 16 (wfld t.cfg 31 16) : Rat) / 10000000 * (((t.last : Rat) / 100) - 25)
  | none => 1

/-- ROLE of an input (R216). -/
def Fpi.role (f : Fpi) : Nat := wfld f.cfg 11 8

/-- VALUE of an input from its conversion: with INV, the REF gain (R210) and the compensation of R209; scaled for ROLE 1, 2
and 3, otherwise the input code (R216). -/
def State.fpiValue (s : State) (n : Nat) (code : Int) : Int :=
  let f := s.fpi n
  let c : Rat := ((if bit f.cfg 2 then -code else code : Int) : Rat) * s.beam.refGain * s.tinFactor n
  if f.role = 1 ∨ f.role = 2 ∨ f.role = 3 then
    clampI (-2147483648) 2147483647 (rround (c * 10 * (f.scale.toNat : Rat) / 32767))
  else clampI (-32768) 32767 (rround c)

/-- A span of port-end timestamps in ns, by the oscillator's correction (R71, R210). -/
def State.portNs (s : State) (n : Nat) : Nat :=
  if s.beam.oscCorr = 0 then n else (rround ((n : Rat) / (1 + s.beam.oscCorr))).toNat

/-- A PCS unit's figures hold: it is not stale, and no swap treats every unit as stale (R412). -/
def State.unitFresh (s : State) (u : Nat) : Bool := decide (s.sys.run = .running) && !(s.unit u).stale

/-- The analogue domain is fed: ring ports, FPI comparators, CAN transceivers. Without VANA the hold-up bank carries it during
HOLDUP, and for 1 ms from the loss (R481, R482, R500). -/
def State.analogue (s : State) : Bool := !s.power.vanaLost || s.sys.holdup || decide (s.clock < s.power.vanaAt + ms 1)

/-- The ring ports carry frames: they are fed, and not left at IDLE by a SHUTDOWN (R447, R482). -/
def State.portsUp (s : State) : Bool := s.analogue && !s.sys.shut

end Sys2Proof.Machine
end

