-- ==== Sys2Proof/Machine/Beam.lean ====
section
/-! DEFINITION. The beam: tracking, loss and return of mains, marks, the divided output and the beam registers (chapter 2). -/
namespace Sys2Proof.Machine
open Sys2Proof

/-! ### Status and event bits -/

/-- A bit of BEAM_STATUS. -/
def Beam.st (b : Beam) (i : Nat) : Bool := bit b.status i
/-- A bit of BEAM_STATUS set or cleared. -/
def Beam.putSt (b : Beam) (i : Nat) (v : Bool) : Beam := { b with status := putBit b.status i v }
/-- LOCK. -/
def Beam.lock (b : Beam) : Bool := b.st 0
/-- MAINS_LOST. -/
def Beam.lost (b : Beam) : Bool := b.st 1
/-- SRC. -/
def Beam.src (b : Beam) : Nat := wfld b.ctl 1 0
/-- QUALIFY. -/
def Beam.qualify (b : Beam) : Nat := wfld b.ctl 11 8
/-- STANDSTILL. -/
def Beam.standstillMax (b : Beam) : Nat := wfld b.ctl 7 4
/-- PHASE_TRIM. -/
def Beam.phaseTrim (b : Beam) : Int := sx 16 b.trim.toNat

/-- A beam event: its BEAM_EVENT bit sets and its code is logged (R58). -/
def State.beamEv (s : State) (i code : Nat) : State :=
  (s.onBeam fun b => { b with event := putBit b.event i true, newEvent := noteBits s.clock b.newEvent (2 ^ i) }).raise code []

/-- QUALIFYING shows a selected source that has not reached LOCK (R58). -/
def Beam.showQual (b : Beam) : Beam := b.putSt 7 (decide (b.src ≠ 0) && !b.lock)

/-! ### Reference and slew (R33, R45) -/

/-- The tracked angle minus the exposed angle, modulo one cycle, in 2^-32 bu. -/
def Beam.diff (b : Beam) : Nat := (b.trackFrac - b.frac).toNat

/-- The distance between the tracked and the exposed angle in bu. -/
def Beam.dist (b : Beam) : Nat := min (b.diff / 2 ^ 32) ((2 ^ 48 - b.diff) / 2 ^ 32)

/-- The exposed angle starts to close its difference to the tracked angle: forward up to half a cycle, backward
beyond; a difference below 1 bu needs none; SLEWING shows a difference above 64 bu (R45). -/
def Beam.startSlew (b : Beam) : Beam :=
  let d := b.diff / 2 ^ 32
  let b1 := { b with slew := if b.dist = 0 then 0 else if d ≤ 32768 then 1 else -1 }
  b1.putSt 5 (decide (64 < b.dist))

/-- The slew begins when the tracked angle is the reference: not on the synthetic cycle, nor after a change of source that
has not qualified yet (R33, R44, R45). -/
def Beam.follow (b : Beam) : Beam := if b.lost || b.hold.isSome then b else b.startSlew

/-- The synthetic cycle's frequency on the module's clock: the nominal one, corrected for the crystal (R42, R210). -/
def Beam.synthFreq (b : Beam) : Nat :=
  if b.oscCorr = 0 then b.nominalFreq else (rround ((b.nominalFreq : Rat) / (1 + b.oscCorr))).toNat

/-- The frequency of the reference: the tracked one, nominal on the synthetic cycle, or the rate kept since a change of
source (R33, R42, R44). -/
def Beam.refFreq (b : Beam) : Nat := if b.lost then b.synthFreq else b.hold.getD b.trackFreq

/-- The frequency at which the exposed angle runs: the reference's, times 1.02 or 0.98 while it slews (R33, R45). -/
def Beam.exposedFreq (b : Beam) : Nat :=
  if b.lost then b.refFreq else if 0 < b.slew then b.refFreq * 102 / 100 else if b.slew < 0 then b.refFreq * 98 / 100 else b.refFreq

/-- Advance of the 48-bit fraction per tick of 5 ns at a frequency in 2^-16 Hz (log entry 7). -/
def fracStep (f : Nat) : Nat := f * 2 ^ 32 / 200000000

/-- Advance of the exposed angle per tick: the reference's, times 1.02 or 0.98 while it slews (R33, R45). -/
def Beam.exposedStep (b : Beam) : Nat :=
  let n := fracStep b.refFreq
  if b.lost then n else if 0 < b.slew then n * 102 / 100 else if b.slew < 0 then n * 98 / 100 else n

/-- The exposed angle passes 0 at a clock: the cycle count rises, wall time and cycle field are latched, and the standstill
count of R42 rises, unless a valid cycle was recognised in the same tick (R33, R42, R55). -/
def Beam.angleZero (b : Beam) (clock : Nat) (wall : BitVec 64) (rest : BitVec 48) : Beam :=
  let c := b.cycle + 1
  { b with cycle := c, frac := rest, cycWall := wall, cycTag := c,
           standstill := if b.validAt = some clock then b.standstill else satN 15 (b.standstill + 1) }

/-- The exposed fraction one tick on, not yet reduced to a cycle. -/
def Beam.nextFrac (b : Beam) : Nat := b.frac.toNat + b.exposedStep

/-- The exposed angle has passed 0 with its last advance. -/
def Beam.atZero (b : Beam) : Bool := decide (b.frac.toNat < max 1 b.exposedStep)

/-- One tick of the 200 MHz clock on the beam, from a clock to the next; the advance that EXPOSED_ANGLE_ZERO took ahead is
not made twice; SLEWING follows the difference that is left; a sweep's sample angle is recorded at its sample instant
(R33, R45, R73). -/
def Beam.tick (b : Beam) (clock : Nat) (wall : BitVec 64) : Beam :=
  let n := b.nextFrac
  let b1 := { b with trackFrac := b.trackFrac + BitVec.ofNat 48 (fracStep b.trackFreq) }
  let b2 :=
    if b.zeroAt = some clock then b1
    else if n < 2 ^ 48 then { b1 with frac := BitVec.ofNat 48 n }
    else b1.angleZero (clock + 1) wall (BitVec.ofNat 48 n)
  let b3 := if b2.slew = 0 then b2 else b2.putSt 5 (decide (64 < b2.dist))
  if b3.lastSweep = some (clock + 1) then 
    { b3 with sampleAngle := BitVec.ofNat 32 b3.angleWord, sweepSettle := b3.st 6, sampledAt := some (clock + 1) }
  else b3

/-- The servo's time after a tick: 5 ns on, and a slew still owed is applied 1 ns in 400 ticks, 500 ppm (R306); MB_LOAD, which
never exceeds 99 %, is timing and a free value (R311, log entry 67). -/
def Sys.tick (y : Sys) (clock : Nat) : Sys :=
  let load := Config.mailboxLoad clock % 991
  if y.wall = BitVec.allOnes 64 then { y with mbLoad := load }
  else
    let d : Int := if clock % 400 = 0 then sgn y.ptpSlew else 0
    { y with mbLoad := load, wall := BitVec.ofNat 64 (ux 64 (y.wall.toNat + 5 + d)), ptpSlew := y.ptpSlew - d }

/-- The tick of an idle block: the clock, the servo's time and the exposed angle advance (log entry 3). -/
def State.tick (s : State) : State :=
  let s1 := { s with clock := s.clock + 1, sys := s.sys.tick s.clock }
  { s1 with beam := s1.beam.tick s.clock s1.wall }

/-! ### Settling (R41) -/

/-- AIN channels that are enabled. -/
def State.ainsOn (s : State) : List Nat :=
  (List.range 8).filter (fun n => bit (tget (0 : Word) s.loops.regs (0x2400 + 0x10 * n)) 0)

/-- A synchronising reset: the decimators restart and the next three samples are flagged SETTLING (R41). -/
def State.syncReset (s : State) : State :=
  let s1 := s.onBeam fun b => { b.putSt 6 true with settleAt := some s.clock }
  s1.onLoops fun l =>
    { l with ainStat := s.ainsOn.foldl (fun t n => tmod (0 : BitVec 3) t n (fun w => putBit w 2 true)) l.ainStat }

/-! ### Loss of lock and change of source -/

/-- LOCK clears with its event; a loss under R36 or R40 is counted (R36, R40, R44). -/
def State.unlock (s : State) (counted : Bool) : State :=
  if s.beam.lock then
    (s.onBeam fun b =>
      let b1 := { b.putSt 0 false with validRun := 0 }
      let b2 :=
        if counted then
          { b1 with faults := wset b1.faults 31 16 (sat16 (wfld b1.faults 31 16 + 1)), oldFaults := noteOld s.clock b1.oldFaults b1.faults.toNat }
        else b1
      b2.showQual).beamEv 1 0x0702
  else s

/-- A write of SRC with another value (R44, R41, R39). -/
def State.sourceChange (s : State) (src : Nat) : State :=
  if s.beam.src = src ∨ src = 3 then s
  else
    let s1 := s.unlock false
    let s2 := s1.onBeam fun b =>
      let b1 := { b with ctl := wset b.ctl 1 0 src, validRun := 0, revRun := 0, normRun := 0, standstill := 0, slew := 0,
                         hold := if b.lost then none else some b.exposedFreq,
                         bzxLast := none, bzxLevel := none, ampl := if src = 1 then b.ampl else 0 }
      ((((b1.putSt 2 false).putSt 3 false).putSt 4 false).putSt 5 false).showQual
    s2.syncReset

/-- A measured cycle of the selected source counts: valid cycles run on, a cycle that is not valid clears LOCK
(R36, R40); a valid cycle restarts the standstill count (R42). -/
def State.judgeCycle (s : State) (valid inLock : Bool) : State :=
  if valid then
    s.onBeam fun b => { b with validRun := if inLock then satN 15 (b.validRun + 1) else 0, standstill := 0, validAt := some s.clock }
  else (s.onBeam fun b => { b with validRun := 0 }).unlock true

/-! ### Tracking three phases (R36-R38) -/

/-- SEQUENCE_JUDGEMENT: a counted cycle's sequence (R37). -/
def State.judgeSequence (s : State) (counted reversed : Bool) : State :=
  if !counted then s
  else if reversed then
    let s1 := s.onBeam fun b => { b with revRun := satN 3 (b.revRun + 1), normRun := 0 }
    s1.when (decide (2 ≤ s1.beam.revRun) && !s1.beam.st 2) fun t => (t.onBeam (·.putSt 2 true)).beamEv 4 0x0705
  else
    let s1 := s.onBeam fun b => { b with normRun := satN 3 (b.normRun + 1), revRun := 0 }
    s1.when (decide (2 ≤ s1.beam.normRun) && s1.beam.st 2) fun t => (t.onBeam (·.putSt 2 false)).beamEv 5 0x0706

/-- AMPLITUDE_WINDOW: the cycle's mean magnitude, in 0.1 % of nominal, against LOW and HIGH with 2 points of
hysteresis (R38). -/
def State.judgeAmplitude (s : State) (mag : Nat) : State :=
  let low := wfld s.beam.window 7 0
  let high := wfld s.beam.window 15 8
  let s1 := s.when (!s.beam.st 3 && decide (mag < low * 10)) fun t => (t.onBeam (·.putSt 3 true)).beamEv 6 0x0707
  let s2 := s1.when (s.beam.st 3 && decide ((low + 2) * 10 < mag)) fun t => (t.onBeam (·.putSt 3 false)).beamEv 8 0x0709
  let s3 := s2.when (!s.beam.st 4 && decide (high * 10 < mag)) fun t => (t.onBeam (·.putSt 4 true)).beamEv 7 0x0708
  s3.when (s.beam.st 4 && decide (mag + 20 < high * 10)) fun t => (t.onBeam (·.putSt 4 false)).beamEv 8 0x0709

/-- The loop frequency clamped to 15 Hz…70 Hz (R36). -/
def clampFreq (f : Nat) : Nat := if f < 983040 then 983040 else if 4587520 < f then 4587520 else f

/-- BEAM_FREQ shows the tracked frequency with its scale corrected for the crystal, 0 while MAINS_LOST is set
(R58, R42, R210). -/
def Beam.showFreq (b : Beam) : Beam :=
  let f := if b.oscCorr = 0 then b.trackFreq else (rround ((b.trackFreq : Rat) * (1 + b.oscCorr))).toNat
  { b with freq := if b.lost then 0 else BitVec.ofNat 32 f }

/-- The loop's angle passes 0 at the end of a cycle of which its samples above the floor were taken (R36). A loop that would
have to follow an angle that runs backward, because the grid's sequence is not the one SEQ_REV shows, is clamped at 15 Hz
(R37). -/
def Beam.endCycle (b : Beam) (freq : Nat) (backward : Bool) : Beam :=
  ({ b with trackFreq := if backward then 983040 else clampFreq freq, trackFrac := 0 }).showFreq.follow

/-- TRACKER_CYCLE: the loop's angle passes 0 and ends a cycle with a mean magnitude in 0.1 % of nominal before the
reference gain (R210), a loop frequency, the greatest and least phase error in bu, and the grid's sequence (R36-R38). A
cycle whose mean lies below the floor counts as coasted throughout (log entry 99): the loop keeps its last frequency and
its own angle. -/
def execTrackerCycle (mag freq errMax errMin : Nat) (reversed : Bool) (s : State) : Host.Outcome State Fault Refusal :=
  onlyIf (decide (s.beam.src = 1)) (fun s =>
    let mag := if s.beam.refGain = 1 then mag else (rround ((mag : Rat) * s.beam.refGain)).toNat
    let floor := wfld s.beam.window 23 16 * 10
    let backward := decide (reversed ≠ s.beam.st 2)
    let valid := decide (floor ≤ mag ∧ clampFreq freq = freq) && !backward
    let s0 := s.onBeam fun b => { b with ampl := BitVec.ofNat 32 (sat16 mag) }
    let s1 := s0.when (decide (floor ≤ mag)) (·.onBeam (·.endCycle freq backward))
    let s2 := s1.judgeSequence (decide (floor ≤ mag)) reversed
    let s3 := s2.judgeAmplitude mag
    let s4 := s3.judgeCycle valid (decide (errMax ≤ 182))
    s4.when (decide (1820 < errMin)) (·.unlock true)) s

/-- LOCK_SET: the count of valid cycles has reached QUALIFY (R36, R40); while MAINS_LOST is set the mains return
(MAINS_RETURNED, R45). -/
def execLockSet (s : State) : Host.Outcome State Fault Refusal :=
  onlyIf (decide (s.beam.src ≠ 0) && !s.beam.lock && decide (s.beam.qualify ≤ s.beam.validRun)) (fun s =>
    let s1 := (s.onBeam fun b => (b.putSt 0 true).showQual).beamEv 0 0x0701
    if s1.beam.lost then
      (s1.onBeam fun b => (b.putSt 1 false).showFreq.startSlew).beamEv 3 0x0704
    else s1.onBeam fun b => { b with hold := none }.startSlew) s

/-! ### Tracking the zero-crossing pulse (R39, R40) -/

/-- The least spacing of accepted edges in ticks: MINSPACE, or 60 % of the nominal period (R39). -/
def Beam.minSpace (b : Beam) : Nat :=
  let m := wfld b.pulse 15 0
  if m = 0 then 60 * 65536 * 200000000 / (100 * b.nomDiv) else us m

/-- The tracked angle at a measured angle 0: PHASE_TRIM (R32). -/
def Beam.trimFrac (b : Beam) : BitVec 48 := BitVec.ofNat 48 (ux 16 b.phaseTrim * 2 ^ 32)

/-- An accepted or rejected edge of the selected polarity at the present tick (R39, R40). -/
def State.bzxEdge (s : State) : State :=
  match s.beam.bzxLast with
  | none => s.onBeam fun b => { b with bzxLast := some s.clock }
  | some t =>
    let p := s.clock - t
    if p < s.beam.minSpace then
      (s.onBeam fun b =>
        { b with faults := wset b.faults 15 0 (sat16 (wfld b.faults 15 0 + 1)),
                 oldFaults := noteOld s.clock b.oldFaults b.faults.toNat }).beamEv 9 0x070A
    else
      let s1 := s.onBeam fun b => { b with bzxLast := some s.clock }
      if 200000000 ≤ 70 * p ∧ 15 * p ≤ 200000000 then
        (s1.onBeam fun b =>
          ({ b with trackFreq := (65536 * 200000000 * 2 + p) / (2 * p), trackFrac := b.trimFrac }).showFreq.follow).judgeCycle
          true true
      else s1.judgeCycle false false

/-- GLITCH in ticks (R39). -/
def Beam.glitch (b : Beam) : Nat := us (wfld b.pulse 23 16)

/-- The level the filter holds when a transition arrives: its own, or the one the pin has held for GLITCH since a change of
SRC left it without one (R39). -/
def State.bzxFrom (s : State) : Option Bool :=
  match s.beam.bzxLevel with
  | some v => some v
  | none => if s.beam.bzxSince + s.beam.glitch ≤ s.clock then some s.beam.bzxPin else none

/-- A transition of the BZX pin to a level that has then held for some nanoseconds: shorter than GLITCH it is passed over;
the first level to hold after a change of SRC starts the filter and is no edge; any other new level is a transition, and
an edge where its polarity is the selected one (R39). -/
def State.bzxMove (s : State) (rising : Bool) (held : Nat) : State :=
  let pin := s.onBeam fun b => { b with bzxPin := rising, bzxSince := s.clock }
  if s.beam.src ≠ 2 then pin
  else if held < wfld s.beam.pulse 23 16 * 1000 then pin.onBeam fun b => { b with bzxLevel := s.bzxFrom }
  else
    let s1 := pin.onBeam fun b => { b with bzxLevel := some rising }
    s1.when (decide (s.bzxFrom = some (!rising) ∧ rising = (wfld s.beam.ctl 2 2 = 0))) State.bzxEdge

/-- BZX_EDGE: a transition of BZX to a level that then holds for some nanoseconds (R39, R40). -/
def execBzxEdge (rising : Bool) (held : Nat) (s : State) : Host.Outcome State Fault Refusal :=
  onlyIf (s.power.vioOk && decide (s.beam.bzxPin ≠ rising)) (·.bzxMove rising held) s

/-- BZX_CYCLE_TIMEOUT: no accepted edge for 1/15 s since the last one (R40). -/
def execBzxCycleTimeout (s : State) : Host.Outcome State Fault Refusal :=
  onlyIf (decide (s.beam.src = 2) && s.elapsed? s.beam.bzxLast 13333334) (·.judgeCycle false false) s

/-! ### Loss of mains, angle 0, slews (R42, R45, R55) -/

/-- MAINS_LOST: STANDSTILL expected cycles have passed without a valid cycle (R42); with no source selected there is no event
(R43, R44). -/
def execMainsLost (s : State) : Host.Outcome State Fault Refusal :=
  onlyIf (!s.beam.lost && decide (s.beam.standstillMax ≤ s.beam.standstill)) (fun s =>
    let s1 := s.onBeam fun b => { (b.putSt 1 true).putSt 5 false with freq := 0, slew := 0, hold := none }
    (s1.when (decide (s1.beam.src ≠ 0)) (·.beamEv 2 0x0703)).unlock false) s

/-- EXPOSED_ANGLE_ZERO: the exposed angle passes through 0 with the advance of this tick, which is thereby made (R33, R55);
elsewhere in the cycle nothing passes (log entry 4). -/
def execExposedAngleZero (s : State) : Host.Outcome State Fault Refusal :=
  onlyIf (decide (2 ^ 48 ≤ s.beam.nextFrac ∧ s.beam.zeroAt ≠ some s.clock)) (fun s =>
    s.onBeam fun b => { b.angleZero s.clock s.wall (BitVec.ofNat 48 b.nextFrac) with zeroAt := some s.clock }) s

/-- SLEW_COMPLETE: the difference to the reference is below 1 bu, and the exposed angle runs at the reference's rate from
where it stands (R33, R45). -/
def execSlewComplete (s : State) : Host.Outcome State Fault Refusal :=
  onlyIf (decide (s.beam.slew ≠ 0 ∧ s.beam.dist = 0)) (fun s =>
    s.onBeam fun b => ({ b.putSt 5 false with slew := 0 })) s

/-- The extended cycle count is brought up to the exposed one (R35). -/
def Beam.extend (b : Beam) : Beam := { b with ext := BitVec.ofNat 48 b.extended }

/-- BEAM_TIME_EXTEND: the Reckoner extends the cycle field (R35). -/
def execBeamTimeExtend (s : State) : Host.Outcome State Fault Refusal := .next (s.onBeam Beam.extend)

/-! ### Over-range and settling (R41, R360) -/

/-- AIN n is in current mode. -/
def State.ainCurrent (s : State) (n : Nat) : Bool := bit (tget (0 : Word) s.loops.regs (0x2400 + 0x10 * n)) 1

/-- A sample beyond the over-range level of R506: 10.5 V, or 22.0 mA in current mode; value in mV or uA. -/
def State.beyondRange (s : State) (input : Nat) (v : Int) : Bool :=
  if 3 ≤ input ∧ s.ainCurrent (input - 3) then decide (22000 < v) else decide (10500 < v.natAbs)

/-- An input is converted: BV always, an AIN while it is enabled (R41, R360). -/
def State.converted (s : State) (input : Nat) : Bool :=
  decide (input < 3) || (decide (input < 11) && bit (tget (0 : Word) s.loops.regs (0x2400 + 0x10 * (input - 3))) 0)

/-- An input enters over-range; of an AIN this is OVER (R41, R360). -/
def State.enterOver (s : State) (input : Nat) : State :=
  let s1 := s.onBeam fun b => { b with overRange := insN input b.overRange }
  s1.when (decide (3 ≤ input)) fun t => t.onLoops fun l =>
    { l with ainStat := tmod (0 : BitVec 3) l.ainStat (input - 3) (fun w => putBit w 0 true) }

/-- A sample of AINn, corrected for the reference, is taken unless it is flagged SETTLING: AIN_VAL with the gain
compensation of R209, and BROKEN below 3.6 mA in current mode (R41, R360). -/
def State.putAin (s : State) (n : Nat) (x : Int) : State :=
  if bit (tget (0 : BitVec 3) s.loops.ainStat n) 2 then s
  else
    let y := rround (x * s.tinFactor (16 + n))
    let broken := s.ainCurrent n && decide (x < 3600)
    s.onLoops fun l =>
      { l with ainStat := tmod (0 : BitVec 3) l.ainStat n (fun w => putBit w 1 broken), ain := tset (0 : Int) l.ain n y }

/-- A conversion of AINn: over-range is entered at the first sample beyond its level (R41, R360). -/
def State.takeAin (s : State) (n : Nat) (raw : Int) : State :=
  let x := s.referred raw
  if s.converted (3 + n) then (s.when (s.beyondRange (3 + n) x) (·.enterOver (3 + n))).putAin n x else s

/-- INPUT_OVER_RANGE: the first sample of input 0…2 (BV_A…BV_C) or 3…10 (AIN0…AIN7) beyond the level (R41). -/
def execInputOverRange (input : Nat) (value : Int) (s : State) : Host.Outcome State Fault Refusal :=
  onlyIf (s.converted input && s.beyondRange input value) (fun s =>
    if 3 ≤ input then (s.enterOver input).putAin (input - 3) value else s.enterOver input) s

/-- OVER_RANGE_RETURN: the samples have stayed within the level for some milliseconds; after 20 ms the input returns
and a synchronising reset is issued (R41). -/
def execOverRangeReturn (input heldMs : Nat) (s : State) : Host.Outcome State Fault Refusal :=
  onlyIf (s.beam.overRange.contains input && decide (20 ≤ heldMs)) (fun s =>
    let s1 := s.onBeam fun b => { b with overRange := b.overRange.erase input }
    let s2 := s1.when (decide (3 ≤ input)) fun t => t.onLoops fun l =>
      { l with ainStat := tmod (0 : BitVec 3) l.ainStat (input - 3) (fun w => putBit w 0 false) }
    s2.syncReset) s

/-- SETTLING_DONE: the three flagged samples, 9.6 us since the last synchronising reset, have been delivered (R41). -/
def execSettlingDone (s : State) : Host.Outcome State Fault Refusal :=
  onlyIf (s.beam.st 6 && s.elapsed? s.beam.settleAt 1920) (fun s =>
    let s1 := s.onBeam fun b =>
      { b.putSt 6 false with settleAt := none, event := putBit b.event 10 true, newEvent := noteBits s.clock b.newEvent (2 ^ 10) }
    s1.onLoops fun l =>
      { l with ainStat := (List.range 8).foldl (fun t n => tmod (0 : BitVec 3) t n (fun w => putBit w 2 false)) l.ainStat }) s

/-- SYNC_RESET: SYNC_RESET is written with 1 (R41, R58). -/
def execSyncReset (s : State) : Host.Outcome State Fault Refusal := .next s.syncReset

/-- SOURCE_CHANGE: SRC is written (R31, R44). -/
def execSourceChange (src : Nat) (s : State) : Host.Outcome State Fault Refusal := .next (s.sourceChange src)

/-- CYC_WALL_LO_READ: the read freezes CYC_WALL_HI and CYC_TAG (R55). -/
def execCycWallLoRead (s : State) : Host.Outcome State Fault Refusal :=
  .next (s.onBeam fun b =>
    { b with frozenHi := some (BitVec.ofNat 32 (b.cycWall.toNat / 2 ^ 32)),
             frozenTag := some b.cycTag, readHi := false, readTag := false })

/-! ### Marks (R46-R53) -/

/-- The position of the firing due next: pos_k of R47. -/
def Mark.pos (m : Mark) : Nat :=
  let n := max 1 m.subdiv.toNat
  (m.cmp.toNat + (2 * m.k * m.stepNow.toNat + n) / (2 * n)) % 2 ^ 32

/-- The exposed angle has reached a position: the comparison of R46. -/
def reached (angle pos : Nat) : Bool := decide ((angle + 2 ^ 32 - pos) % 2 ^ 32 < 2 ^ 31)

/-- A unit's next firing is due at a clock and an exposed angle: it is enabled, or EN was cleared in this tick while the firing
was due; M15 follows R53 instead (R46, R48). -/
def Mark.due (m : Mark) (clock angle : Nat) : Bool := (m.en || decide (m.owed = some clock)) && reached angle m.pos

/-- A unit's firing is due, and so is none of a lower unit: those of one tick are delivered in ascending order (R46, R49). -/
def State.markDue (s : State) (n : Nat) : Bool :=
  (s.mark n).due s.clock s.beam.angleWord && (List.range n).all (fun i => !(s.mark i).due s.clock s.beam.angleWord)

/-- The STEP that an advance adds at a clock: the one a write of the same tick replaced, else STEP (R48). -/
def Mark.stepAt (m : Mark) (clock : Nat) : BitVec 32 :=
  match m.stepWas with
  | some (c, v) => if c = clock then v else m.step
  | none => m.step

/-- STEP is written at a clock: it takes effect at the next advance that does not fall on this tick (R48). -/
def Mark.putStep (m : Mark) (clock : Nat) (v : BitVec 32) : Mark :=
  { m with step := v, stepWas := if m.en then some (clock, m.stepAt clock) else none }

/-- A firing at a clock: FIRES rises, after firing SUBDIV - 1 the compare value advances by STEP, and after COUNT firings the
unit stops (R47, R48). -/
def Mark.fire (m : Mark) (clock : Nat) : Mark :=
  let m1 :=
    if m.subdiv.toNat ≤ m.k + 1 then { m with cmp := m.cmp + m.stepAt clock, stepNow := m.stepAt clock, k := 0 }
    else { m with k := m.k + 1 }
  let m2 := { m1 with fires := m1.fires + 1, fired := (m1.fired + 1) % 65536, owed := none }
  if m2.count ≠ 0 ∧ m2.count.toNat ≤ m2.fired then { m2 with en := false, done := true } else m2

/-- A unit fires: the Reckoner extends the cycle field at every beam mark (R35, R46). -/
def State.fireMark (s : State) (n : Nat) : State := (s.modMark n (·.fire s.clock)).onBeam Beam.extend

/-- EN is set at a clock: DONE clears, a new run of firings begins; a compare value already reached sets LATE (R46, R48). -/
def Mark.enable (m : Mark) (clock angle : Nat) : Mark :=
  let m1 := { m with en := true, done := false, k := 0, fired := 0, stepNow := m.step, stepWas := none, owed := none }
  if reached angle m1.pos then { m1 with late := true, newStat := noteBits clock m1.newStat (2 ^ 17) } else m1

/-- A notification-mark configuration fires at most 100 times per second at nominal (R52). -/
def Beam.notifyOk (b : Beam) (step subdiv : Nat) : Bool := decide (subdiv * b.nominalFreq ≤ 100 * step)

/-- EN of a unit may be set: not at STEP = 0, and not for a notification mark that would fire too often (R48, R52). -/
def State.enableOk (s : State) (n : Nat) : Bool :=
  let m := s.mark n
  decide (m.step ≠ 0) && (decide (n < 4) || s.beam.notifyOk m.step.toNat m.subdiv.toNat)

/-- EN of a unit is set (R46, R48, R52), but for M15, whose firing R53 rules. -/
def State.markEnable (s : State) (n : Nat) : State :=
  if n = 15 then s.modMark 15 fun m => { m with en := true, done := false }
  else if s.enableOk n = false ∨ (s.mark n).en then s
  else
    let s1 := s.modMark n (·.enable s.clock s.beam.angleWord)
    s1.when (reached s.beam.angleWord (s1.mark n).pos) (·.beamEv 11 0x070C)

/-- MARK_ENABLE: EN is set on a unit (R46, R48). -/
def execMarkEnable (unit : Nat) (s : State) : Host.Outcome State Fault Refusal :=
  onlyIf (decide (unit < 16)) (·.markEnable unit) s

/-- A sweep interval in bu is admitted: 10 ms…2 s at the nominal frequency (R50). -/
def Beam.sweepOk (b : Beam) (step : Nat) : Bool := decide (b.nominalFreq ≤ 100 * step ∧ step ≤ 2 * b.nominalFreq)

/-- The default sweep interval: the fewest whole cycles that last 40 ms at nominal (R51). -/
def Beam.sweepDefault (b : Beam) : Nat := (4 * b.nominalFreq + 100 * 65536 - 1) / (100 * 65536) * 65536

/-- M0 fires; an interval set by SET_SWEEP that the nominal frequency no longer admits falls back to the default at
the advance and counts as unset again (R51). -/
def State.fireM0 (s : State) : State :=
  let keep := decide (s.beam.sweepConf = 0) || s.beam.sweepOk s.beam.sweepConf.toNat
  let s1 := s.when (!keep) fun t =>
    ((t.modMark 0 fun m => { m with step := BitVec.ofNat 32 t.beam.sweepDefault, stepWas := none }).onBeam fun b =>
      { b with sweepConf := 0 }).commitCfg
  s1.fireMark 0

/-- M3 is armed for the next firing of M0, once; a compare value already reached sets LATE (R46, R243, R456). -/
def State.armM3 (s : State) : State :=
  if (s.mark 3).en then s
  else
    let m0 := s.mark 0
    (s.modMark 3 fun m => { m with cmp := BitVec.ofNat 32 m0.pos, step := m0.step, count := 1, subdiv := 1, k := 0 }).markEnable 3

/-! ### The divided output (R54) -/

/-- The angle since BOUT's first group started, in bu, within its group. -/
def Beam.boutPos (b : Beam) : Nat :=
  (b.extended * 65536 + b.angle - (b.boutCycle.toNat * 65536 + wfld b.boutCtl 31 16)) % (max 1 (wfld b.boutRatio 23 16) * 65536)

/-- The rising point of pulse k of a group, from the group's start. -/
def Beam.boutRise (b : Beam) (k : Nat) : Nat :=
  let p := max 1 (wfld b.boutRatio 10 0)
  (2 * k * wfld b.boutRatio 23 16 * 65536 + p) / (2 * p)

/-- The pulse of a group that rose last: the greatest k whose rising point has been reached (R54). -/
def Beam.boutPulse (b : Beam) : Nat :=
  let p := max 1 (wfld b.boutRatio 10 0)
  let k := min (p - 1) (b.boutPos * p / max 1 (wfld b.boutRatio 23 16 * 65536))
  if b.boutPos < b.boutRise k then k - 1 else if k + 1 < p ∧ b.boutRise (k + 1) ≤ b.boutPos then k + 1 else k

/-- The level of BOUT (R54): high from the last rising point for WIDTH or half the spacing, whichever is shorter, or
for half the spacing in square mode; low while BOUT is off, before the first group, or held during MAINS_LOST. DESIGN
CHOICE (log entry 100): the falling edge lies a whole number of bu after the rising one: WIDTH at the exposed frequency and
half of an odd spacing are rounded down; the spec rounds rising points only. -/
def Beam.bout (b : Beam) : Bool :=
  let p := max 1 (wfld b.boutRatio 10 0)
  let k := b.boutPulse
  let half := ((if k + 1 = p then wfld b.boutRatio 23 16 * 65536 else b.boutRise (k + 1)) - b.boutRise k) / 2
  let width := (wfld b.boutWidth 15 0) * b.exposedFreq / 1000000
  bit b.boutCtl 0 && !(bit b.ctl 17 && b.lost) &&
    decide (b.boutCycle.toNat * 65536 + wfld b.boutCtl 31 16 ≤ b.extended * 65536 + b.angle) &&
    decide (b.boutPos - b.boutRise k < (if bit b.boutCtl 1 then half else min width half))

/-! ### The wall time of a beam event (R55) -/

/-- The wall time of the present exposed angle: the latched one plus angle / BEAM_FREQ, the nominal frequency while MAINS_LOST is
set; all ones while none has been latched. The quotient is rounded down to whole nanoseconds (DESIGN CHOICE, log entry 101). -/
def Beam.eventWall (b : Beam) : BitVec 64 :=
  if b.cycWall = BitVec.allOnes 64 then b.cycWall
  else b.cycWall + BitVec.ofNat 64 (b.angle * 1000000000 / max 1 (if b.lost then b.nominalFreq else b.freq.toNat))

/-! ### Registers (R57, R58) -/

/-- FUNC of a unit (R48). -/
def markFunc (n : Nat) : Nat := match n with | 0 => 1 | 1 => 2 | 2 => 3 | 3 => 4 | 15 => 5 | _ => 0

/-- A mark register as read, by its place 0…3 in the unit. -/
def Mark.read (m : Mark) (n part : Nat) : Nat :=
  match part with
  | 0 => m.cmp.toNat
  | 1 => m.step.toNat
  | 2 => m.count.toNat * 65536 + m.subdiv.toNat * 256 + markFunc n * 16 + b2n m.en
  | _ => flag m.skipped 18 + flag m.late 17 + flag m.done 16 + m.fires.toNat

/-- A beam register as read (R57, R58); offsets that hold none read 0. -/
def State.beamRead (s : State) (off : Nat) : Nat :=
  let b := s.beam
  if 0x100 ≤ off ∧ off < 0x200 then (s.mark ((off - 0x100) / 16)).read ((off - 0x100) / 16) (off % 16 / 4)
  else
    match off with
    | 0x000 => b.ctl.toNat | 0x004 => b.nominal.toNat | 0x008 => b.window.toNat | 0x00C => b.pulse.toNat
    | 0x010 => b.trim.toNat | 0x014 => b.status.toNat | 0x018 => b.event.toNat | 0x01C => b.angleWord
    | 0x020 => b.freq.toNat | 0x024 => b.ampl.toNat | 0x028 => rcShown s.clock b.oldFaults b.faults.toNat
    | 0x030 => b.cycWall.toNat % 2 ^ 32
    | 0x034 => (b.frozenHi.getD (BitVec.ofNat 32 (b.cycWall.toNat / 2 ^ 32))).toNat
    | 0x038 => (b.frozenTag.getD b.cycTag).toNat
    | 0x040 => b.boutCtl.toNat | 0x044 => b.boutRatio.toNat | 0x048 => b.boutWidth.toNat
    | 0x080 => b.actGate.toNat % 2 ^ 32 | 0x084 => b.actGate.toNat / 2 ^ 32
    | _ => 0

/-- CYC_WALL_HI or CYC_TAG has been read: both stay frozen until both have been (R55). -/
def Beam.thaw (b : Beam) (hi tag : Bool) : Beam :=
  let h := b.frozenHi.isSome && (b.readHi || hi)
  let t := b.frozenTag.isSome && (b.readTag || tag)
  if h && t then { b with frozenHi := none, frozenTag := none, readHi := false, readTag := false } else { b with readHi := h, readTag := t }

/-- What a read of a beam register does: RC fields clear, CYC_WALL_LO freezes, its partners thaw (R8, R55). -/
def State.beamReadEffect (s : State) (off : Nat) : State :=
  s.onBeam fun b =>
    match off with
    | 0x028 => { b with faults := BitVec.ofNat 32 (rcLeft s.clock b.oldFaults b.faults.toNat), oldFaults := rcNote s.clock b.oldFaults }
    | 0x030 => { b with frozenHi := some (BitVec.ofNat 32 (b.cycWall.toNat / 2 ^ 32)),
                        frozenTag := some b.cycTag, readHi := false, readTag := false }
    | 0x034 => b.thaw true false
    | 0x038 => b.thaw false true
    | _ => b

/-- An offset of the beam block holds a register (R57). -/
def beamOffset (off : Nat) : Bool :=
  decide (off % 4 = 0) &&
    (decide (0x100 ≤ off ∧ off < 0x200) ||
      [0x000, 0x004, 0x008, 0x00C, 0x010, 0x014, 0x018, 0x01C, 0x020, 0x024, 0x028, 0x030, 0x034, 0x038, 0x040, 0x044,
       0x048, 0x080, 0x084].contains off)

/-- Every field of a word written to a beam register lies in its range (R58). -/
def beamRangeOk (off v : Nat) : Bool :=
  match off with
  | 0x000 => decide (fld v 1 0 ≠ 3 ∧ 2 ≤ fld v 16 12 ∧ 2 ≤ fld v 11 8 ∧ 1 ≤ fld v 7 4)
  | 0x004 => decide (fld v 1 0 = 3 → 983040 ≤ fld v 30 8 ∧ fld v 30 8 ≤ 4587520)
  | 0x008 => decide (1 ≤ fld v 31 24 ∧ fld v 31 24 ≤ 200 ∧ 5 ≤ fld v 23 16 ∧ fld v 23 16 ≤ 50 ∧ 101 ≤ fld v 15 8 ∧
      fld v 15 8 ≤ 150 ∧ fld v 23 16 + 5 ≤ fld v 7 0 ∧ fld v 7 0 ≤ 99)
  | 0x00C => decide (fld v 15 0 = 0 ∨ (1000 ≤ fld v 15 0 ∧ fld v 15 0 ≤ 60000))
  | 0x010 => decide (-8192 ≤ sx 16 v ∧ sx 16 v ≤ 8192)
  | 0x044 => decide (1 ≤ fld v 23 16 ∧ 1 ≤ fld v 10 0 ∧ fld v 10 0 ≤ 1024)
  | 0x048 => decide (1 ≤ fld v 15 0)
  | _ => true

/-- A write to a mark unit is admitted: STEP non-zero, SUBDIV 1…63, no EN at STEP 0, at most 100 notifications a
second, of a disabled unit's configuration too once its STEP is set (R48, R52, R58). -/
def State.markRangeOk (s : State) (off v : Nat) : Bool :=
  let n := (off - 0x100) / 16
  let m := s.mark n
  match off % 16 / 4 with
  | 1 => decide (v ≠ 0) && s.beam.notifyOk v m.subdiv.toNat
  | 2 =>
    decide (1 ≤ fld v 13 8) &&
      (if m.step = 0 then !v.testBit 0 else s.beam.notifyOk m.step.toNat (fld v 13 8))
  | _ => true

/-- A write to a mark unit is locked: a unit of the firmware, or CMP, SUBDIV or COUNT of an enabled unit (R48). -/
def State.markLocked (s : State) (off v : Nat) : Bool :=
  let n := (off - 0x100) / 16
  let m := s.mark n
  decide (n < 4 ∨ n = 15) ||
    (m.en && (match off % 16 / 4 with
      | 0 => decide (v ≠ m.cmp.toNat)
      | 2 => decide (fld v 31 16 ≠ m.count.toNat ∨ fld v 13 8 ≠ m.subdiv.toNat)
      | _ => false))

/-- The effect of an admitted word on a mark register (R48, R58). -/
def State.markWrite (s : State) (off v : Nat) : State :=
  let n := (off - 0x100) / 16
  match off % 16 / 4 with
  | 0 => s.modMark n fun m => { m with cmp := BitVec.ofNat 32 v }
  | 1 => s.modMark n (·.putStep s.clock (BitVec.ofNat 32 v))
  | 2 =>
    let s1 := s.modMark n fun m => { m with count := BitVec.ofNat 16 (fld v 31 16), subdiv := BitVec.ofNat 6 (fld v 13 8) }
    if v.testBit 0 then s1.markEnable n
    else s1.modMark n fun m => { m with en := false, owed := if m.en then some s.clock else m.owed }
  | _ => s.modMark n fun m =>
      { m with skipped := w1cBit s.clock m.newStat 18 m.skipped (v.testBit 18), late := w1cBit s.clock m.newStat 17 m.late (v.testBit 17) }

/-- A change of the nominal frequency carries M0's default interval with it while none is set (R51). -/
def State.renominal (s : State) : State :=
  s.when (decide (s.beam.sweepConf = 0) && !(s.sched.lowered && decide (s.beam.sweepDefault < (s.mark 0).step.toNat))) fun t =>
    t.modMark 0 (·.putStep t.clock (BitVec.ofNat 32 t.beam.sweepDefault))

/-- The effect of an admitted word on a beam register (R57, R58, R41, R44, R45). -/
def State.beamWrite (s : State) (off v : Nat) : State :=
  if 0x100 ≤ off ∧ off < 0x200 then s.markWrite off v
  else
    let w : Word := BitVec.ofNat 32 v
    match off with
    | 0x000 =>
      let s1 := s.onBeam fun b => ({ b with ctl := wset (w &&& 0x0003FFF4) 1 0 b.src }).showQual
      (s1.sourceChange (fld v 1 0)).when (v.testBit 31) (·.syncReset)
    | 0x004 => (s.onBeam fun b => { b with nominal := w &&& 0x7FFFFF03 }).renominal
    | 0x008 => s.onBeam fun b => { b with window := w }
    | 0x00C => s.onBeam fun b => { b with pulse := w &&& 0x00FFFFFF }
    | 0x010 => s.onBeam fun b =>
        ({ b with trim := w &&& 0x0000FFFF, trackFrac := b.trackFrac - b.trimFrac + BitVec.ofNat 48 (v % 65536 * 2 ^ 32) }).follow
    | 0x018 => s.onBeam fun b => { b with event := w1c s.clock b.newEvent b.event w }
    | 0x040 => s.onBeam fun b =>
        { b with boutCtl := w &&& 0xFFFF0003, boutCycle := if bit b.boutCtl 0 then b.boutCycle else BitVec.ofNat 48 (b.extended + 1) }
    | 0x044 => s.onBeam fun b => { b with boutRatio := w &&& 0x00FF07FF }
    | 0x048 => s.onBeam fun b => { b with boutWidth := w &&& 0x0000FFFF }
    | 0x080 => s.onBeam fun b => { b with actGate := BitVec.ofNat 64 (setFld b.actGate.toNat 31 0 v) }
    | 0x084 => s.onBeam fun b => { b with actGate := BitVec.ofNat 64 (setFld b.actGate.toNat 63 32 v) }
    | _ => s

end Sys2Proof.Machine
end

