-- ==== Sys2Proof/Machine/Frame.lean ====
section
/-! DEFINITION. The bead link's line and frames, byte for byte: ordered sets, frame header, payloads, CRC, the trip body
(R61, R63-R67, R77, R92). -/
namespace Sys2Proof.Machine
open Sys2Proof

/-! ### CRC-32C (R64) -/

/-- One bit of the reflected CRC register. -/
def crcBit (c : Nat) : Nat := if c % 2 = 1 then (c / 2) ^^^ 0x82F63B78 else c / 2
/-- One byte of the CRC. -/
def crcByte (c : Nat) (b : Byte) : Nat := Nat.repeat crcBit 8 (c ^^^ b.toNat)
/-- CRC-32C of a byte string. -/
def crc32c (l : List Byte) : Nat := l.foldl crcByte 0xFFFFFFFF ^^^ 0xFFFFFFFF
/-- A byte string with its CRC-32C after it, little-endian. -/
def withCrc (l : List Byte) : List Byte := l ++ le 4 (crc32c l)
/-- A byte string of n bytes and their CRC-32C. -/
def crcGood (n : Nat) (l : List Byte) : Bool := decide (n + 4 ≤ l.length ∧ rdle l n 4 = crc32c (l.take n))

/-! ### Ordered sets (R61) -/

/-- A control symbol. -/
def symK (v : Nat) : Sym := ⟨true, BitVec.ofNat 8 v⟩
/-- A data symbol. -/
def symD (b : Byte) : Sym := ⟨false, b⟩
/-- IDLE: K28.5 D16.2. -/
def idleSet : List Sym := [symK 0xBC, symD 0x50]
/-- SYNC: K28.0 and the sweep tag. -/
def syncSet (tag : Nat) : List Sym := [symK 0x1C, symD (BitVec.ofNat 8 tag)]
/-- FAULT: K28.3 D21.5. -/
def faultSet : List Sym := [symK 0x7C, symD 0xB5]
/-- ABORT: K30.7. -/
def abortSet : List Sym := [symK 0xFE]
/-- A frame on the line: SOF, its bytes, EOF. -/
def frameSyms (l : List Byte) : List Sym := symK 0xFB :: l.map symD ++ [symK 0xFD]
/-- One copy of a trip: K28.1 K28.1, the body, EOF. -/
def tripCopy (body : List Byte) : List Sym := symK 0x3C :: symK 0x3C :: body.map symD ++ [symK 0xFD]
/-- A trip sequence: ABORT where a frame is in flight on the TX, then three copies back to back (R63, R92). -/
def tripSyms (inFlight : Bool) (body : List Byte) : List Sym :=
  (if inFlight then abortSet else []) ++ tripCopy body ++ tripCopy body ++ tripCopy body
/-- Ticks that symbols take on the line, 80 ns each (R60). -/
def symTicks (l : List Sym) : Nat := 16 * l.length

/-- The body of a trip: TRIP_ID, SCOPE, reserved, TARGET, CAUSE, CRC (R92). -/
def tripBytes (id scope target cause : Nat) : List Byte := withCrc (le 2 id ++ le 1 scope ++ le 1 0 ++ le 2 target ++ le 2 cause)

/-! ### Frames (R64-R67) -/

/-- What a frame carries, by TYPE (R66). -/
inductive FrameBody where
  /-- ENUM: NEXT. -/
  | enum (next : Nat)
  /-- CLEAR. -/
  | clear
  /-- ECHO. -/
  | echo
  /-- ECHO_REPLY. -/
  | echoReply
  /-- CENSUS: HIGH. -/
  | census (high : Nat)
  /-- COLLECT: the collection block. -/
  | collect (b : Block)
  /-- KEEPALIVE: GUARD_OK. -/
  | keepalive (ok : Bool)
  /-- a numbered command. -/
  | cmd (op : LinkOp)
  /-- RESPONSE: STATUS and DATA. -/
  | response (status : Nat) (data : List Byte)
deriving DecidableEq, Repr

/-- A frame (R64, R65). -/
structure LinkFrame where
  /-- FLAGS.RESYNC. -/
  resync : Bool
  /-- FLAGS.GUARD. -/
  guard : Bool
  /-- FLAGS.REV. -/
  rev : Bool
  /-- FLAGS.RETRY. -/
  retry : Bool
  /-- DST. -/
  dst : Nat
  /-- SRC. -/
  src : Nat
  /-- SEQ. -/
  seq : Nat
  /-- TYPE and payload. -/
  body : FrameBody
deriving DecidableEq, Repr

/-- TYPE of a numbered command (R66). -/
def LinkOp.type : LinkOp → Nat
  | .read _ _ => 0x20
  | .write _ _ => 0x21
  | .balance _ _ _ => 0x22
  | .switch _ _ => 0x23
  | .unwrap => 0x24
  | .fwBlock _ _ => 0x40
  | .fwActivate _ => 0x41

/-- Payload of a numbered command (R66, R86). -/
def LinkOp.payload : LinkOp → List Byte
  | .read a n => le 2 a ++ le 2 n
  | .write a d => le 2 a ++ le 2 d.length ++ d
  | .balance l dir duty => le 1 l ++ le 1 0 ++ leW dir ++ duty.flatMap (le 1)
  | .switch _ o => [o, 0]
  | .unwrap => []
  | .fwBlock o d => le 4 o ++ d
  | .fwActivate c => leW c

/-- The collection block (R77). -/
def Block.bytes (b : Block) : List Byte :=
  le 4 b.gen ++ le 1 (flag b.displaced 2 + flag b.settling 1 + flag b.renew 0) ++ le 1 0 ++ le 4 b.angle ++ le 4 b.ivl

/-- TYPE of a frame (R66). -/
def FrameBody.type : FrameBody → Nat
  | .enum _ => 0x01
  | .clear => 0x02
  | .echo => 0x03
  | .echoReply => 0x04
  | .census _ => 0x05
  | .collect _ => 0x10
  | .keepalive _ => 0x11
  | .cmd op => op.type
  | .response _ _ => 0x30

/-- Payload of a frame (R66). -/
def FrameBody.payload : FrameBody → List Byte
  | .enum n => le 2 n
  | .clear => []
  | .echo => le 8 0
  | .echoReply => le 8 0
  | .census h => le 2 h
  | .collect b => b.bytes
  | .keepalive ok => [if ok then 1 else 0, 0]
  | .cmd op => op.payload
  | .response st d => le 1 st ++ le 1 0 ++ d

/-- FLAGS (R65). -/
def LinkFrame.flags (f : LinkFrame) : Nat := flag f.retry 3 + flag f.rev 2 + flag f.guard 1 + flag f.resync 0

/-- A frame's bytes between SOF and EOF: header, payload, CRC; the records of a collection follow its CRC (R64, R65, R77). -/
def LinkFrame.bytes (f : LinkFrame) : List Byte :=
  let p := f.body.payload
  withCrc (le 1 f.body.type ++ le 1 f.flags ++ le 2 f.dst ++ le 2 f.src ++ le 2 f.seq ++ le 2 p.length ++ p)

/-- A frame of the module to a position, or 0xFFFF, with its sequence number. -/
def sentFrame (dst seq : Nat) (resync : Bool) (body : FrameBody) : LinkFrame := ⟨resync, false, false, false, dst, 0, seq, body⟩

/-- The payload of a TYPE, none where its length does not fit, the TYPE is unknown or a reserved field is not zero (R66, R67,
R86, R90). -/
def parseBody (type : Nat) (guard : Bool) (p : List Byte) : Option FrameBody :=
  let n := p.length
  match type with
  | 0x01 => if n = 2 then some (.enum (rdle p 0 2)) else none
  | 0x02 => if n = 0 then some .clear else none
  | 0x03 => if n = 8 then some .echo else none
  | 0x04 => if n = 8 then some .echoReply else none
  | 0x05 => if n = 2 then some (.census (rdle p 0 2)) else none
  | 0x10 =>
    if n = 14 ∧ rdle p 4 1 < 8 ∧ rdle p 5 1 = 0 then
      some (.collect ⟨rdle p 0 4, (rdle p 4 1).testBit 0, (rdle p 4 1).testBit 1, (rdle p 4 1).testBit 2, rdle p 6 4, rdle p 10 4⟩)
    else none
  | 0x11 => if n = 2 ∧ rdle p 0 1 < 2 ∧ rdle p 1 1 = 0 then some (.keepalive (decide (rdle p 0 1 = 1))) else none
  | 0x20 => if n = 4 then some (.cmd (.read (rdle p 0 2) (rdle p 2 2))) else none
  | 0x21 => if 5 ≤ n ∧ n ≤ 244 ∧ rdle p 2 2 + 4 = n then some (.cmd (.write (rdle p 0 2) (p.drop 4))) else none
  | 0x22 =>
    if n = 38 ∧ rdle p 1 1 = 0 then
      some (.cmd (.balance (rdle p 0 1) (BitVec.ofNat 32 (rdle p 2 4)) ((p.drop 6).map BitVec.toNat)))
    else none
  | 0x23 =>
    if n = 2 ∧ rdle p 1 1 = 0 ∧ fld (rdle p 0 1) 6 3 = 0 then some (.cmd (.switch guard (BitVec.ofNat 8 (rdle p 0 1)))) else none
  | 0x24 => if n = 0 then some (.cmd .unwrap) else none
  | 0x30 => if 2 ≤ n ∧ n ≤ 256 ∧ rdle p 1 1 = 0 then some (.response (rdle p 0 1) (p.drop 2)) else none
  | 0x40 => if 5 ≤ n ∧ n ≤ 244 then some (.cmd (.fwBlock (rdle p 0 4) (p.drop 4))) else none
  | 0x41 => if n = 4 then some (.cmd (.fwActivate (BitVec.ofNat 32 (rdle p 0 4)))) else none
  | _ => none

/-- A frame read from the bytes between SOF and EOF; none where R67 has it discarded: a bad CRC, an unknown TYPE, a reserved
field that is not zero, a LEN that does not fit (R64-R67). -/
def parseFrame (l : List Byte) : Option LinkFrame :=
  let type := rdle l 0 1
  let fl := rdle l 1 1
  let len := rdle l 8 2
  if crcGood (10 + len) l = false ∨ 256 < len ∨ 16 ≤ fl ∨ (type ≠ 0x10 ∧ l.length ≠ 14 + len) then none
  else
    (parseBody type (fl.testBit 1) ((l.drop 10).take len)).map fun b =>
      ⟨fl.testBit 0, fl.testBit 1, fl.testBit 2, fl.testBit 3, rdle l 2 2, rdle l 4 2, rdle l 6 2, b⟩

/-- The frame that arrives: the one sent where the line does it no harm, or what other bytes spell. -/
def arriving (sent : LinkFrame) (raw : Option (List Byte)) : Option LinkFrame :=
  match raw with
  | none => some sent
  | some l => parseFrame l

/-- The traffic that a ring state lets its port ends send, by TYPE (R98). -/
def RingState.carries (st : RingState) (type : Nat) : Bool :=
  match st with
  | .isolated => false
  | .service => decide (type ≠ 0x10)
  | .active => decide (type ≠ 0x01 ∧ type ≠ 0x02 ∧ type ≠ 0x03 ∧ type ≠ 0x40 ∧ type ≠ 0x41)

/-- Bytes of a numbered command's frame and of its longest response: what it may hold up in a node's buffer (R91). -/
def LinkOp.lineBytes (op : LinkOp) : Nat :=
  14 + op.payload.length + 16 + (match op with | .read _ n => n | _ => 0)

end Sys2Proof.Machine
end

