-- ==== Sys2Proof/Machine/Mail.lean ====
section
/-! DEFINITION. The mailbox's shared operations: judging a request, answering it, notifications (chapters 10 and 11). -/
namespace Sys2Proof.Machine
open Sys2Proof

/-! ### Status codes (R272, R325, R326) -/

/-- A refusal: STATUS, DETAIL, PARAM (R270). -/
structure Refuse where
  /-- STATUS. -/
  status : Nat
  /-- DETAIL. -/
  detail : Nat
  /-- PARAM. -/
  param : Nat
deriving DecidableEq, Repr

/-- DENIED (R325). -/
def denied : Refuse := ⟨0x0010, 0, 0⟩
/-- UNKNOWN_POINT (R325). -/
def unknownPoint (a : Nat) : Refuse := ⟨0x0011, 0, a⟩
/-- NODE_TIMEOUT (R325). -/
def nodeTimeout (port pos : Nat) : Refuse := ⟨0x0012, port, pos⟩
/-- OUT_OF_RANGE (R325). -/
def outOfRange (off : Nat) : Refuse := ⟨0x0013, off, 0⟩
/-- UNKNOWN_OBJECT (R325). -/
def unknownObject (off : Nat) : Refuse := ⟨0x0014, off, 0⟩
/-- BUSY (R325). -/
def busyWith (op : Nat) : Refuse := ⟨0x0015, op, 0⟩
/-- NOT_READY (R325). -/
def notReady (r : Nat) : Refuse := ⟨0x0016, r, 0⟩
/-- NV_FAULT (R325). -/
def nvFault : Refuse := ⟨0x0017, 0, 0⟩
/-- NODE_STATUS (R325). -/
def nodeStatus (st pos : Nat) : Refuse := ⟨0x0018, st, pos⟩
/-- MALFORMED (R272). -/
def malformed (off : Nat) : Refuse := ⟨0x0001, off, 0⟩
/-- WRONG_MODE (R272). -/
def wrongMode (m : Nat) : Refuse := ⟨0x0005, 0, m⟩
/-- RESTARTING (R272, R312). -/
def restarting (d : Nat) : Refuse := ⟨0x0006, d, 0⟩

/-! ### Who may issue a command, and when (R318) -/

/-- The Tenants column. -/
inductive Who where
  | zero | any
  | own (object : Nat)
  | self (object : Nat)
deriving DecidableEq, Repr

/-- The tenant lies within the Tenants entry (R318). -/
def Who.admits (w : Who) (t : Nat) : Bool :=
  match w with
  | .zero => decide (t = 0)
  | .any => true
  | .own o => decide (t = 0 ∨ t = o)
  | .self o => decide (t = o)

/-- Every mode of the Modes column. -/
def allModes : List Mode := [.commission, .standby, .connect, .online, .service, .tripped]
/-- C S O V T. -/
def csovt : List Mode := [.commission, .standby, .online, .service, .tripped]

/-- The judgement of a request before its own rules (R272, R312, R318, R319, R447, R472): RESTARTING while the
Reckoner restarts, WRONG_MODE after SHUTDOWN and in RECOVERY, a tenant without an enabled allocation, the tenant,
the mode. -/
def State.judge (s : State) (rq : Rq) (op : Nat) (w : Who) (modes : List Mode) : Option Refuse :=
  if s.sys.shut then some (wrongMode 0)
  else if s.sys.run = .recovery then
    (if op = 0x0D02 ∨ op = 0x0D03 then if rq.tenant = 0 then none else some denied else some (wrongMode 1))
  else if s.sys.run ≠ .running then
    some (restarting (b2n ((s.page rq.tenant).outstanding.any (fun o => decide (o.1 = rq.tag)))))
  else if rq.tenant ≠ 0 ∧ 3 ≤ op / 256 ∧ ¬((s.tenant rq.tenant).exists_ = true ∧ (s.tenant rq.tenant).enabled = true) then
    some ⟨0x0004, 0, 0⟩
  else if !w.admits rq.tenant then some denied
  else if !modes.contains s.sys.mode then some (wrongMode (modeCode s.sys.mode))
  else none

/-! ### Answers -/

/-- CNT_A as it stands. -/
def Page.cntA (p : Page) : Nat := p.cntStale * 65536 + p.cntLate

/-- A response is dropped and counted in CNT_LATE (R9, R273). -/
def Page.late (p : Page) (clock : Nat) : Page :=
  { p with cntLate := sat16 (p.cntLate + 1), cntAOld := noteOld clock p.cntAOld p.cntA }

/-- A response is built and waits to be posted; while no host memory may be written, 64 wait and the rest are dropped
and counted (R280, R303). -/
def State.respond (s : State) (r : Resp) : State :=
  let p := s.page r.rq.tenant
  if s.sys.d3 ∧ 64 ≤ p.waiting.length ∧ r.rq.eth = false then
    (s.modPage r.rq.tenant (·.late s.clock)).onSys fun y =>
      { y with lateDrop := (y.lateDrop + 1) % 2 ^ 32 }
  else (s.modPage r.rq.tenant fun p => { p with waiting := p.waiting ++ [r] }).wake 4

/-- An OK response with its payload. -/
def State.ok (s : State) (rq : Rq) (op : Nat) (payload : List Byte) : State :=
  s.respond ⟨op, rq, 0, 0, 0, payload, [], false, false, false⟩

/-- An OK response to an NV-class write, after the commit (R321). -/
def State.okNv (s : State) (rq : Rq) (op : Nat) : State :=
  s.commitCfg.respond ⟨op, rq, 0, 0, 0, [], [], false, false, true⟩

/-- A refusal (R270). -/
def State.refuse (s : State) (rq : Rq) (op : Nat) (r : Refuse) : State :=
  s.respond ⟨op, rq, r.status, r.detail, r.param, [], [], false, false, false⟩

/-- A request may start: not during hold-up, and with ORDERED set only when every earlier request of its tenant has completed (R308,
R313). -/
def State.mayStart (s : State) (rq : Rq) : Bool :=
  !s.sys.holdup && (!rq.flags.testBit 0 || ((s.page rq.tenant).outstanding.takeWhile (fun o => decide (o.1 ≠ rq.tag))).isEmpty)

/-- Requests are answered: the ROM has handed over, or the module is in OFF after SHUTDOWN (R312, R447). -/
def State.serving (s : State) : Bool := decide (s.sys.run ≠ .rom) || s.sys.shut

/-- A mailbox command: no answer while the ROM starts, no start before its turn; refused by the judgement of R319; else
its body. -/
def mailbox (rq : Rq) (op : Nat) (w : Who) (modes : List Mode) (body : State → State) (s : State) : State :=
  if s.serving = false ∨ s.mayStart rq = false then s
  else
    match s.judge rq op w modes with
    | some r => s.refuse rq op r
    | none => body s

/-- A body that refuses at its first failing check: a list of checks, each with its refusal, then the effect. -/
def checked (rq : Rq) (op : Nat) (checks : List (Bool × Refuse)) (effect : State → State) (s : State) : State :=
  match checks.find? (fun c => !c.1) with
  | some c => s.refuse rq op c.2
  | none => effect s

/-! ### Answers that wait for their condition (R332, R341, R345) -/

/-- A command's answer waits under a key until its condition comes. -/
def State.holdAnswer (s : State) (key : Nat) (rq : Rq) (op : Nat) : State :=
  s.onSys fun y => { y with held := y.held ++ [(key, ⟨op, rq, 0, 0, 0, [], [], false, false, false⟩)] }

/-- The answers that wait under a key are given, each as a function makes it. -/
def State.giveHeld (s : State) (key : Nat) (f : Resp → State → State) : State :=
  forEach (s.sys.held.filter (fun h => decide (h.1 = key))) (fun h t => f h.2 t)
    (s.onSys fun y => { y with held := y.held.filter (fun h => decide (h.1 ≠ key)) })

/-- The key under which the answer of a command about an object waits. -/
def heldKey (op n : Nat) : Nat := op * 65536 + n

/-! ### Notifications (R293, R294) -/

/-- A notification waits for Ethernet too where an address is known; 256 wait (R293). -/
def Page.noteEth (p : Page) (r : Resp) : Page :=
  if p.ethPeer then { p with ethNotes := ((r :: p.ethNotes.reverse).take 256).reverse } else p

/-- A notification waits for a free slot; when 256 wait, the oldest MARK or EVENT is dropped and counted, and the
overflow event is raised (R294). -/
def State.notify (s : State) (tenant op : Nat) (payload : List Byte) : State :=
  let p := s.page tenant
  let r : Resp := ⟨op, ⟨tenant, 0, p.epoch, 0, false, 0⟩, 0, 0, 0, payload, [], false, true, false⟩
  if p.notes.length < 256 then
    (s.modPage tenant fun p => { p.noteEth r with notes := p.notes ++ [r] }).wake 5
  else
    let s1 := s.modPage tenant fun p => { p.noteEth r with notes := p.notes.drop 1 ++ [r] }
    ((s1.onSys fun y => { y with notifDrop := sat16 (y.notifDrop + 1) }).raise 0x014A [tenant, ((p.notes.head?.map Resp.opcode).getD 0 : Nat)]).wake 5

end Sys2Proof.Machine
end

