-- ==== Sys2Proof/Machine/Link.lean ====
section
/-! DEFINITION. The bead link: nodes, sweeps, records, commands, trips, breaks (chapter 3). -/
namespace Sys2Proof.Machine
open Sys2Proof

/-! ### Node status and records (R79, R80) -/

/-- FWD_LOCK, REV_LOCK, WRAP_A, WRAP_B, FAULT_SEEN are bits 0…4 of LINK (R68). -/
def Node.putLink (n : Node) (i : Nat) (v : Bool) : Node := { n with link := putBit n.link i v }
/-- A node is wrapped (R95). -/
def Node.wrapped (n : Node) : Bool := bit n.link 2 || bit n.link 3
/-- A node has both RX locked and sees no FAULT (R95, R97). -/
def Node.sound (n : Node) : Bool := bit n.link 0 && bit n.link 1 && !bit n.link 4
/-- A latch holds the outputs of a string-switch node open (R80, R89, R93). -/
def Node.latched (n : Node) : Bool := decide (n.type = 2) && (n.latchTrip || n.latchWd)
/-- The TX on which symbols that arrive on an RX leave (true FWD), with the redirection of a wrap (R95). -/
def Node.outOf (n : Node) (fwdRx : Bool) : Bool := if fwdRx then !bit n.link 2 else bit n.link 3
/-- The TXs on which a wrapped node sends FAULT: FWD towards the next position, REV towards the one before (R95). -/
def Node.faultOn (n : Node) (fwdTx : Bool) : Bool := if fwdTx then bit n.link 2 else bit n.link 3
/-- What a node's TX carries towards a lost neighbour (R61, R95). -/
def Node.faultSyms (n : Node) (fwdTx : Bool) : List Sym := if n.faultOn fwdTx then faultSet else []

/-- RFLAGS of the node's next record (R80). -/
def Node.rflags (n : Node) : Nat :=
  flag n.adcFault 6 + flag n.wrapped 5 + flag n.latched 4 + flag n.leaseExpired 3 +
    flag (n.duty.any (fun d => decide (d ≠ 0))) 2 + flag n.nodeReset 1 + flag n.nosync 0

/-- NSTAT (R80). -/
def Node.nstatByte (n : Node) : Nat := (if n.type = 2 then 0x80 else 0x40) + n.nstat.toNat

/-- The SWITCH word, zero on a cell node (R79, R80). -/
def Node.switchWord (n : Node) : Nat :=
  if n.type = 2 then flag n.latchWd 9 + flag n.latchTrip 8 + n.aux.toNat * 16 + n.out.toNat else 0

/-- The 100-byte record a node appends (R79); ADC_FAULT and NOSYNC with no sample make every code invalid (R80, R81). -/
def Node.record (n : Node) : List Byte :=
  let bad := n.adcFault
  let body := le 2 n.pos ++ le 1 n.rflags ++ le 1 n.nstatByte ++
    ((if bad then List.replicate 32 0xFFFF else padTo 32 0xFFFF n.cells).flatMap (le 2)) ++
    ((if bad then List.replicate 8 0x8000 else padTo 8 0x8000 n.temps).flatMap (le 2)) ++
    le 2 (if bad then 0xFFFF else n.stack) ++ le 2 (if bad then 0x8000 else n.nodeT) ++ le 2 n.lastSeq ++
    le 2 (if bad then 0x8000 else n.busI) ++ le 2 n.switchWord ++ le 2 0
  body ++ le 4 (crc32c body)

/-- Balancing stops: every duty 0, the lease over (R87, R93). -/
def Node.stopBalancing (n : Node) : Node :=
  { n with lease := 0, leaseLen := 0, duty := List.replicate 32 0, nextDuty := none,
           leaseExpired := n.leaseExpired || decide (n.leaseLen ≠ 0) }

/-! ### Wraps and splits (R62, R95, R96) -/

/-- The positions of the nodes of a ring that are wrapped, ascending by place. -/
def State.wrappedPos (s : State) (port : Nat) : List Nat :=
  (((s.places port).map (fun i => s.node (nodeKey port i))).filter Node.wrapped).map Node.pos

/-- The end on whose side the node of a position lies, true the B end: on a split ring the nodes beyond the first that is wrapped
towards the A end (R96). -/
def State.endOf (s : State) (port pos : Nat) : Bool :=
  match (s.places port).find? (fun i => bit (s.node (nodeKey port i)).link 2) with
  | some w => (s.ring port).split && decide (w < (s.placeOf? port pos).getD pos)
  | none => (s.ring port).split && (s.places port).any (fun i => bit (s.node (nodeKey port i)).link 3)

/-- A port end puts symbols on its TX: true the B end's (R63). -/
def Ring.send (r : Ring) (clock : Nat) (endB : Bool) (l : List Sym) : Ring :=
  if endB then { r with txB := l, txUntil := clock + symTicks l } else { r with txA := l, txUntil := clock + symTicks l }

/-- Both port ends put the same symbols on their TX, at one tick. -/
def Ring.sendBoth (r : Ring) (clock : Nat) (l : List Sym) : Ring := (r.send clock false l).send clock true l

/-- RING_SPLIT: a port end declares its ring split; the records lost on that sweep do not count towards node loss, and
the next sweep is a ring resync (R96, R82). -/
def State.splitRing (s : State) (port : Nat) : State :=
  if (s.ring port).split then s
  else
    (s.modRing port fun r =>
      { r with split := true, tripped := r.tripped || r.collecting, resync := true, loopA := none, loopB := none, healed := false }).raise 0x0801
      (((port :: s.wrappedPos port).take 5).map Int.ofNat)

/-- NODE_WRAP: a node wraps towards its working side: WRAP_A when REV RX fails, WRAP_B when FWD RX fails (R95). -/
def Node.wrap (n : Node) (fwd : Bool) : Node := n.putLink (if fwd then 3 else 2) true

/-- RX_LOCK: an RX of a node, or of a port end (place 0; fwd is the A end), has seen valid symbols and commas (R62). -/
def execRxLock (port place : Nat) (fwd : Bool) (symbols commas : Nat) (s : State) : Host.Outcome State Fault Refusal :=
  onlyIf (decide (32 ≤ symbols ∧ 4 ≤ commas)) (fun s =>
    if place = 0 then s.modRing port fun r => if fwd then { r with lockA := true } else { r with lockB := true }
    else s.modNode (nodeKey port place) fun n => (n.putLink (if fwd then 0 else 1) true).putLink 4 false) s

/-- RX_LOCK_LOST: four invalid symbols within 64, or no transition for 1 us; the node wraps (R62, R95). -/
def execRxLockLost (port place : Nat) (fwd : Bool) (invalid quietNs : Nat) (s : State) :
    Host.Outcome State Fault Refusal :=
  onlyIf (decide (4 ≤ invalid ∨ 1000 ≤ quietNs)) (fun s =>
    if place = 0 then s.modRing port fun r => if fwd then { r with lockA := false } else { r with lockB := false }
    else s.modNode (nodeKey port place) fun n => (n.putLink (if fwd then 0 else 1) false).wrap fwd) s

/-- FAULT: the FAULT ordered set arrives at an RX of a node, or at a port end (R95, R96). -/
def execFaultSet (port place : Nat) (fwd : Bool) (s : State) : Host.Outcome State Fault Refusal :=
  .next (if place = 0 then s.splitRing port
    else s.modNode (nodeKey port place) fun n => (n.putLink 4 true).wrap fwd)

/-- A command is queued on a ring (R84, R91). -/
def State.queueCmd (s : State) (port dst : Nat) (op : LinkOp) (origin : Option (Rq × Nat)) : State :=
  s.modRing port fun r => { r with queue := r.queue ++ [⟨dst, op, 0, false, false, 0, 0, none, false, origin⟩] }

/-- A queued BALANCE to a node. -/
def LinkCmd.plansOf (c : LinkCmd) (ps : List Nat) : Bool :=
  ps.contains c.dst && (match c.op with | .balance _ _ _ => true | _ => false)

/-- A zero frame is queued ahead of the waiting plan frames, and takes the place of those to its node (R199). -/
def State.queueStop (s : State) (port pos : Nat) (op : LinkOp) : State :=
  s.modRing port fun r =>
    let rest := r.queue.filter (fun c => !c.plansOf [pos])
    let plan (c : LinkCmd) : Bool := match c.op with | .balance _ _ _ => true | _ => false
    { r with queue := rest.takeWhile (fun c => !plan c) ++ [⟨pos, op, 0, false, false, 0, 0, none, false, none⟩] ++
                      rest.dropWhile (fun c => !plan c) }

/-- Every wrapped node of a ring reports both RX locked and no FAULT, and the port ends hear the ring (R62, R97). -/
def State.ringSound (s : State) (port : Nat) : Bool :=
  (s.places port).all (fun i => !(s.node (nodeKey port i)).wrapped || (s.node (nodeKey port i)).sound)

/-- RING_REJOIN: every wrapped node reports both RX locked and no FAULT, and a collection frame has closed since (R97). -/
def execRingRejoin (port : Nat) (s : State) : Host.Outcome State Fault Refusal :=
  onlyIf ((s.ring port).split && (s.ring port).healed && !(s.ring port).collecting && s.ringSound port) (fun s =>
    ((s.queueCmd port 0xFFFF .unwrap none).modRing port fun r =>
      { r with split := false, healed := false, resync := true }).raise 0x0802 [port]) s

/-! ### Addressing and census (R69, R519) -/

/-- A node forwards ENUM: an unaddressed one takes NEXT, unless NEXT exceeds 65,534; the NEXT that goes on, and whether a node was
left unaddressed (R69). -/
def Node.enum (n : Node) (next : Nat) : Node × Nat × Bool :=
  if n.pos ≠ 0 then (n, n.pos + 1, false)
  else if 65534 < next then (n, next, true)
  else ({ n with pos := next }, next + 1, false)

/-- ENUM passes the nodes of the places from i on: the positions taken, NEXT, and whether it overflowed (R69). -/
def enumPass (port : Nat) : Nat → Nat → Nat → State → State × Nat × Bool
  | 0, _, next, s => (s, next, false)
  | n + 1, i, next, s =>
    let a := (s.node (nodeKey port i)).enum next
    let b := enumPass port n (i + 1) a.2.1 (s.modNode (nodeKey port i) fun d => (d.enum next).1)
    (b.1, b.2.1, a.2.2 || b.2.2)

/-- The whole enumeration of a ring of `count` nodes: ENUM is launched with NEXT = 1 and NEXT - 1 is the position of
the last node (R69); the next broadcast carries RESYNC (R84). -/
def State.enumerate (s : State) (port count : Nat) : State :=
  let (s1, next, tooMany) := enumPass port count 1 1 s
  (s1.modRing port fun r => { r with nodes := next - 1, bresync := true }).when tooMany (·.raise 0x0809 [port])

/-- ENUM: the frame passes the ring's nodes and reaches the B end (R69); sent in SERVICE only (R98). -/
def execEnum (port count : Nat) (s : State) : Host.Outcome State Fault Refusal :=
  onlyIf (decide ((s.ring port).state = .service)) (·.enumerate port count) s

/-- CLEAR: a node forgets its position (R66); sent in SERVICE only (R98). -/
def execClear (port place : Nat) (s : State) : Host.Outcome State Fault Refusal :=
  onlyIf (decide ((s.ring port).state = .service)) (·.modNode (nodeKey port place) fun n => { n with pos := 0 }) s

/-- HIGH after the nodes of a ring, whatever their order (R519). -/
def censusHigh (ps : List Nat) : Nat := ps.foldl (fun h p => if p = 0 then 0xFFFF else if h = 0xFFFF then h else max h p) 0

/-- The census of a ring of `count` nodes (R519). -/
def State.censusOf (s : State) (port count : Nat) : Nat :=
  censusHigh ((List.range count).map (fun i => (s.node (nodeKey port (i + 1))).pos))

/-- CENSUS: the frame surveys the ring (R519); sent in ACTIVE and SERVICE. -/
def execCensus (port count : Nat) (s : State) : Host.Outcome State Fault Refusal :=
  onlyIf (decide ((s.ring port).state ≠ .isolated)) (fun s =>
    s.modRing port fun r => { r with census := some (s.censusOf port count) }) s

/-- RING_ECHO: a node receives an ECHO for a position; addressed to it, it sends ECHO_REPLY on the opposite path
4,000 ns later and does not forward (R71); from FWD RX the reply returns to the A end. -/
def execRingEcho (port place pos : Nat) (fwd : Bool) (s : State) : Host.Outcome State Fault Refusal :=
  onlyIf (decide ((s.node (nodeKey port place)).pos = pos ∧ pos ≠ 0 ∧ (s.ring port).state = .service)) (fun s =>
    s.modRing port fun r => { r with echoOut := r.echoOut ++ [(pos, !fwd)] }) s

/-- ECHO_REPLY: a port end timestamps a reply: the round trip in ns (R71, R72). -/
def execEchoReply (port pos : Nat) (endB : Bool) (rtt : Nat) (s : State) : Host.Outcome State Fault Refusal :=
  onlyIf (s.analogue && (s.ring port).echoOut.contains (pos, endB)) (fun s =>
    s.modRing port fun r =>
      { r with echoOut := r.echoOut.erase (pos, endB), echoes := r.echoes ++ [(pos, b2n endB, s.portNs rtt)] }) s

/-! ### Sweeps (R73-R78) -/

/-- LEAD in ticks (R72). -/
def leadTicks : Nat := 400000

/-- The exposed angle after LEAD at its present rate, in beam units (R73). -/
def Beam.projected (b : Beam) : Nat := (b.angleWord + b.exposedFreq * 2 / 1000) % 2 ^ 32

/-- The launch of a sweep is due: M0 is enabled and the projected angle has reached its compare value, or M0 has fired and its
sweep waits for its SYNC (R73). -/
def State.launchDue (s : State) : Bool :=
  s.beam.launchOwed || ((s.mark 0).en && s.beam.launched.isNone && reached s.beam.projected (s.mark 0).pos)

/-- The projected sample instant lies less than 9.8 ms after that of the last accepted sweep (R50). -/
def State.tooSoon (s : State) : Bool :=
  match s.beam.lastSweep with
  | some t => decide (s.clock + leadTicks < t + 1960000)
  | none => false

/-- The rings that take sweeps: ACTIVE, with VANA present and no check owed after its return, and not after a SHUTDOWN (R98, R447,
R482). -/
def State.sweptPorts (s : State) : List Nat :=
  if s.power.vanaLost ∨ s.sys.shut = true then [] else s.activePorts.filter (fun p => !s.power.recheck.contains p)

/-- SYNC of a sweep generation is launched at both ends of every swept ring; where a trip sequence occupies the TX it follows
directly after it, and the ring is displaced by that much (R73, R76). -/
def State.launchSync (s : State) (gen : Nat) : State :=
  forEach s.sweptPorts (fun p t =>
    let r := t.ring p
    let t1 := t.modRing p (·.sendBoth (max t.clock r.tripUntil) (syncSet (gen % 256)))
    t1.when (decide (t.clock < r.tripUntil)) fun u =>
      (u.modRing p fun r => { r with displaced := true, displacedCnt := r.displacedCnt + 1 }).raise 0x080A
        [p, (5 * (r.tripUntil - t.clock) : Nat)]) s

/-- The sweep interval in real time, us: STEP of M0 over the exposed frequency, rounded half up (R77). -/
def State.sweepIvl (s : State) : Nat :=
  let f := max 1 s.beam.exposedFreq
  ((s.mark 0).step.toNat * 1000000 * 2 + f) / (2 * f)

/-- RENEW of the collection block (R88). -/
def State.renewBit (s : State) (port : Nat) : Bool := (s.ring port).renew && decide (s.sys.run = .running)

/-- The collection block of the newest sweep on a ring: RENEW only while the Reckoner runs and has confirmed the plan, SETTLING
on a resync or a settling sample, DISPLACED after a trip (R76, R77, R82, R88, R27). -/
def State.blockOf (s : State) (port : Nat) : Block :=
  let r := s.ring port
  ⟨s.beam.sweepGen, s.renewBit port, r.resync || s.beam.sweepSettle, r.displaced, s.beam.sampleAngle.toNat, s.sweepIvl⟩

/-- The collection frame of a block from an end (R77, R96). -/
def Block.frame (b : Block) (endB : Bool) : LinkFrame := ⟨false, false, endB, false, 0xFFFF, 0, b.gen % 65536, .collect b⟩

/-- A ring's collection frame is due: 0.15 ms after the sample instant (R77). -/
def State.collectDue (s : State) (port : Nat) : Bool :=
  s.sweptPorts.contains port && s.elapsed? s.beam.lastSweep 30000 && decide ((s.ring port).gen ≠ s.beam.sweepGen)

/-- COLLECT_LAUNCH: 0.15 ms after the sample instant the collection frame is launched at the A end, on a split ring at both
(R77, R96). -/
def execCollectLaunch (port : Nat) (s : State) : Host.Outcome State Fault Refusal :=
  onlyIf (s.collectDue port) (fun s =>
    let b := s.blockOf port
    s.modRing port fun r =>
      let r1 := { r with gen := b.gen, collecting := true, arrived := [], arrivedAt := [], settling := b.settling, resync := false, displaced := false,
                         block := some b, ends := if r.split then [false, true] else [false] }
      let r2 := r1.send s.clock false (frameSyms (b.frame false).bytes)
      if r.split then r2.send s.clock true (frameSyms (b.frame true).bytes) else r2) s

/-- A node forwards the collection frame of a block: once per GEN it appends its record and moves its lease counter (R78, R87). -/
def Node.collect (n : Node) (now : Nat) (b : Block) : Node :=
  if n.lastGen = some b.gen then n
  else
    let lease := if n.lease = 0 then 0 else if b.renew then n.leaseLen else n.lease - 1
    let n1 := { n with lastGen := some b.gen, lastCollect := now, sweepIvl := b.ivl, lease := lease }
    if n.ready then { n1 with sent := n.record, ready := false, adcFault := false, leaseExpired := false, nodeReset := false }
    else { n1 with adcFault := true }

/-- LEASE_EXPIRED: the counter is at 0: every duty goes to 0 and the next record says so (R87). -/
def execLeaseExpired (port place : Nat) (s : State) : Host.Outcome State Fault Refusal :=
  let k := nodeKey port place
  onlyIf (decide ((s.node k).lease = 0 ∧ (s.node k).leaseLen ≠ 0)) (·.modNode k Node.stopBalancing) s

/-- LEASE_TIMEOUT: no COLLECT for LEASE × SWEEP_IVL × 1.5 (R87). -/
def execLeaseTimeout (port place : Nat) (s : State) : Host.Outcome State Fault Refusal :=
  let k := nodeKey port place
  let n := s.node k
  onlyIf (decide (n.lease ≠ 0) && s.elapsed n.lastCollect (n.leaseLen * n.sweepIvl * 300)) (·.modNode k fun n =>
    { n with lease := 0 }) s

/-- NODE_SYNC: the first valid SYNC of a tag starts the sample delay; later ones of the tag are ignored (R74). -/
def execNodeSync (port place tag : Nat) (fwd : Bool) (s : State) : Host.Outcome State Fault Refusal :=
  let k := nodeKey port place
  onlyIf (decide ((s.node k).tag ≠ some tag ∧ (s.ring port).state = .active)) (·.modNode k fun n =>
    { n with tag := some tag, sampleDue := some (fwd, s.clock), nosync := false }) s

/-- What a node measures at a sample: codes of the enabled inputs, STACK, NODE_T, BUS_I, the auxiliary contacts, a
balancing bus fault, and whether conversion finished in time (R78, R79, R80). -/
def Node.take (n : Node) (now : Nat) (cells temps : List Nat) (stack nodeT busI aux : Nat) (busFault inTime : Bool) : Node :=
  let cs := (List.range 32).map (fun i => if bit n.cellEn i then nth 0xFFFF cells i else 0xFFFF)
  let ts := (List.range 8).map (fun i => if bit n.tempEn i then nth 0x8000 temps i else 0x8000)
  let openWire := (List.range 32).any (fun i => bit n.cellEn i && decide (nth 0xFFFF cells i = 0xFFFF)) ||
    (List.range 8).any (fun i => bit n.tempEn i && decide (nth 0x8000 temps i = 0x8000))
  let n1 := { n with cells := cs, temps := ts, stack := stack, nodeT := nodeT, busI := busI, aux := BitVec.ofNat 3 aux,
                     nstat := putBit (putBit n.nstat 0 openWire) 1 busFault, lastSample := some now, sampleDue := none,
                     ready := inTime, adcFault := n.adcFault || !inTime }
  match n.nextDuty with
  | some (d, r) => { n1 with duty := d, dir := r, nextDuty := none }
  | none => n1

/-- A node's sample delay has run out: COMP_A ns after a SYNC on FWD RX, COMP_B ns after one on REV RX (R74). -/
def Node.sampleNow (n : Node) (now : Nat) : Bool :=
  match n.sampleDue with
  | some (fwd, t) => decide (5 * t + (if fwd then n.compA else n.compB) ≤ 5 * now)
  | none => false

/-- NODE_SAMPLE: the sample delay has run out (R74). -/
def execNodeSample (port place : Nat) (cells temps : List Nat) (stack nodeT busI aux : Nat) (busFault inTime : Bool)
    (s : State) : Host.Outcome State Fault Refusal :=
  let k := nodeKey port place
  onlyIf ((s.node k).sampleNow s.clock) (·.modNode k fun n =>
    n.take s.clock cells temps stack nodeT busI aux busFault inTime) s

/-- The projected instant of a node's sample has come: SWEEP_IVL after the last one; a node without a recent sample has none
to wait for (R81). -/
def Node.projectedNow (n : Node) (now : Nat) : Bool :=
  match n.lastSample with
  | some t => decide (t + us n.sweepIvl ≤ now)
  | none => true

/-- NODE_PROJECTED_SAMPLE: no SYNC of the current tag came; the node samples at its last sample instant plus
SWEEP_IVL and sets NOSYNC; with no sample instant within 4 s every code is invalid (R81). -/
def execNodeProjectedSample (port place tag : Nat) (cells temps : List Nat) (stack nodeT busI aux : Nat)
    (busFault inTime : Bool) (s : State) : Host.Outcome State Fault Refusal :=
  let k := nodeKey port place
  onlyIf (decide ((s.node k).tag ≠ some tag) && (s.node k).projectedNow s.clock) (·.modNode k fun n =>
    let recent := match n.lastSample with
      | some t => decide (s.clock < t + 800000000)
      | none => false
    if recent then
      { n.take s.clock cells temps stack nodeT busI aux busFault inTime with tag := some tag, nosync := true }
    else { n with tag := some tag, nosync := true, adcFault := true, ready := true, sampleDue := none }) s

/-! ### Records at the port end (R82) -/

/-- RECORD_MISSING: a node's record is missing; it counts towards node loss but for a trip, a split's sweep or the loss
of VANA (R82). -/
def State.recordMissing (s : State) (port pos : Nat) : State :=
  let r := s.ring port
  let exempt := r.tripped || s.power.vanaLost || s.power.recheck.contains port
  (s.modRing port fun r =>
    { r with missing := (r.missing + 1) % 2 ^ 32,
             missRun := if exempt then r.missRun else tmod (0 : Nat) r.missRun pos (fun n => satN 7 (n + 1)) }).raise 0x080B
    [port, pos, ((s.ring port).gen : Nat)]

/-- A record of 100 bytes has a good CRC (R79). -/
def recordGood (rec : List Byte) : Bool := decide (rec.length = 100 ∧ rdle rec 0x60 4 = crc32c (rec.take 96))

/-- Fields of a record (R79). -/
def recPos (rec : List Byte) : Nat := rdle rec 0 2
/-- RFLAGS of a record. -/
def recFlags (rec : List Byte) : Nat := rdle rec 2 1
/-- NSTAT of a record. -/
def recNstat (rec : List Byte) : Nat := rdle rec 3 1
/-- A cell code of a record. -/
def recCell (rec : List Byte) (i : Nat) : Nat := rdle rec (4 + 2 * i) 2
/-- A temperature code of a record. -/
def recTemp (rec : List Byte) (i : Nat) : Int := sx 16 (rdle rec (0x44 + 2 * i) 2)
/-- STACK of a record, 4 mV. -/
def recStack (rec : List Byte) : Nat := rdle rec 0x54 2
/-- NODE_T of a record. -/
def recNodeT (rec : List Byte) : Int := sx 16 (rdle rec 0x56 2)
/-- BUS_I of a record, mA. -/
def recBusI (rec : List Byte) : Int := sx 16 (rdle rec 0x5A 2)
/-- The SWITCH word of a record. -/
def recSwitch (rec : List Byte) : Nat := rdle rec 0x5C 2

/-- A sweep's sample that is also a burst's: the record's codes are the burst's samples of that firing (R49). -/
def State.mergeRecord (s : State) (port pos : Nat) (rec : List Byte) : State :=
  match (s.ring port).config.find? (fun n => decide (n.pos = pos)) with
  | none => s
  | some id =>
    let k := strKey port id.string
    match (s.str k).merge with
    | none => s
    | some (g, i) =>
      let nosync := (recFlags rec).testBit 0
      if g ≠ (s.ring port).gen then s
      else
        forEach ((List.range 32).map (fun c => (cellPoint port pos c, recCell rec c))) (fun e t =>
          t.when ((s.str k).cells.contains e.1) (·.modCell e.1 fun c => { c with burst := putNth c.burst i (if nosync then 0xFFFF else e.2) })) s

/-- The latest good record of a position, empty before the first. -/
def State.staged (s : State) (port pos : Nat) : Nat × List Byte := tget (0, []) (s.ring port).staged pos

/-- RECORD_RECEIVED: the record that the node of a place appended arrives at the receiving end; one that fails its CRC or carries
another position than that node's is missing at the frame's close; a good one is staged for the limit screen (LIMIT_SCREEN,
R17) and the estimator, and a NODE_RESET asks for resynchronisation (R82, R84, R101). -/
def execRecordReceived (port place : Nat) (rec : List Byte) (s : State) : Host.Outcome State Fault Refusal :=
  let pos := recPos rec
  onlyIf (s.analogue && (s.ring port).collecting && recordGood rec && decide (pos = (s.node (nodeKey port place)).pos) &&
      !(s.ring port).arrived.contains pos && (s.ring port).config.any (fun n => decide (n.pos = pos))) (fun s =>
    let s1 := s.modRing port fun r =>
      { r with arrived := insN pos r.arrived, arrivedAt := tput r.arrivedAt pos s.clock,
               staged := tset (0, []) r.staged pos (r.gen, rec) }
    let s2 := s1.mergeRecord port pos rec
    s2.when ((recFlags rec).testBit 1) fun t =>
      (t.modRing port fun r => { r with synced := r.synced.erase pos, bresync := true }).raise 0x0804 [port, pos]) s

/-- The skew figure in ns, rounded up (R75). -/
def skewFigure (f r fNow : Nat) : Nat :=
  let a := if r ≤ f then f - r else r - f
  let d := if f ≤ fNow then fNow - f else f - fNow
  (a + 80 + 2 * d + 3) / 4

/-- The collection of a ring is over: records that have not arrived are missing (R82). -/
def State.closeCollection (s : State) (port : Nat) : State :=
  let r := s.ring port
  let absent := (r.config.map NodeId.pos).filter (fun p => !r.arrived.contains p)
  (forEach absent (fun p t => t.recordMissing port p) s).modRing port fun q =>
    { q with collecting := false, closedAt := some s.clock, tripped := false, missRun := q.arrived.foldl (fun t p => tset (0 : Nat) t p 0) q.missRun }

/-- COLLECT_FRAME_CLOSED: the EOF of the frame launched at an end leaves the ring after fNow ns, at the far end or back at its
own: a return declares the split and measures the half's loop propagation; when no frame is left the missing records are
counted, and on a closed ring the skew figure is updated (R75, R82, R96, R97). -/
def execCollectFrameClosed (port fNow : Nat) (endB returned : Bool) (s : State) : Host.Outcome State Fault Refusal :=
  onlyIf ((s.ring port).ends.contains endB) (fun s =>
    let s0 := s.when returned (·.splitRing port)
    let fNow := s.portNs fNow
    let s1 := s0.modRing port fun r =>
      let r1 := { r with ends := r.ends.erase endB, healed := s.ringSound port }
      if !returned then r1 else if endB then { r1 with loopB := some fNow } else { r1 with loopA := some fNow }
    if (s1.ring port).ends ≠ [] then s1
    else
      (s1.closeCollection port).modRing port fun q =>
        if q.split then q
        else
          let k := skewFigure q.fCal q.rCal fNow
          { q with fNow := fNow, skew := sat16 k, skewRun := if 250 < k then satN 15 (q.skewRun + 1) else 0 }) s

/-- SKEW_LIMIT: the figure has exceeded 250 ns on ten consecutive sweeps (R75). -/
def execSkewLimit (port : Nat) (s : State) : Host.Outcome State Fault Refusal :=
  onlyIf (decide (10 ≤ (s.ring port).skewRun) && !(s.ring port).skewLimit) (fun s =>
    (s.modRing port fun r => { r with skewLimit := true }).raise 0x0803 [port, ((s.ring port).skew : Nat)]) s

/-! ### Keepalives and the watchdog (R89) -/

/-- The KEEPALIVE frame from an end (R66, R89). -/
def keepaliveFrame (endB : Bool) : LinkFrame := ⟨false, true, endB, false, 0xFFFF, 0, 0, .keepalive true⟩

/-- A ring's KEEPALIVE is due: every 20 ms while the guard is sound, the ring is not ISOLATED and its port is fed (R89, R447, R482). -/
def State.kaDue (s : State) (port : Nat) : Bool :=
  let r := s.ring port
  s.portsUp && s.guard.guardOk && decide (r.state ≠ .isolated) && (r.kaAt.isNone || s.elapsed? r.kaAt (ms 20))

/-- KEEPALIVE_LAUNCH: the guard launches KEEPALIVE with GUARD_OK at both ends of every ring on which it is due (R89, R447). -/
def execKeepaliveLaunch (s : State) : Host.Outcome State Fault Refusal :=
  onlyIf s.guard.guardOk (fun s =>
    forEach ((List.range 128).filter s.kaDue) (fun p t =>
      t.modRing p fun r =>
        let r1 := { r with kaAt := some s.clock }
        (r1.send s.clock false (frameSyms (keepaliveFrame false).bytes)).send s.clock true (frameSyms (keepaliveFrame true).bytes)) s) s

/-- SWITCH_WATCHDOG_EXPIRY: no valid KEEPALIVE for SWITCH_WD ms: outputs open, LATCH_WD sets (R89). -/
def execSwitchWatchdogExpiry (port place : Nat) (s : State) : Host.Outcome State Fault Refusal :=
  let k := nodeKey port place
  onlyIf (decide ((s.node k).type = 2) && s.elapsed (s.node k).wdSince (ms (s.node k).switchWd)) (·.modNode k fun n =>
    { n with out := 0, latchWd := true }) s

/-- A node's volatile registers and states at its start; non-volatile ones are kept (R68, R83, R89). -/
def Node.start (n : Node) (now : Nat) : Node :=
  { Node.reset with
    serial := n.serial, type := n.type, hwRev := n.hwRev, fwVer := n.fwVer, pos := n.pos, string := n.string,
    compA := n.compA, compB := n.compB, cellEn := n.cellEn, tempEn := n.tempEn, switchWd := n.switchWd,
    fwArea := n.fwArea, fwNext := n.fwNext, wdSince := now, sent := n.sent, latchWd := decide (n.type = 2) }

/-- NODE_START: a node powers up or restarts; NV_FAULT shows a non-volatile memory that fails its check (R80, R89). -/
def execNodeStart (port place : Nat) (nvFault : Bool) (s : State) : Host.Outcome State Fault Refusal :=
  .next (s.modNode (nodeKey port place) fun n => { n.start s.clock with nstat := putBit 0 3 nvFault })

/-! ### Sequence rule and node registers (R68, R83, R85) -/

/-- A register byte of the node space; reserved addresses read 0 (R68). -/
def Node.regByte (n : Node) (a : Nat) : Byte :=
  let at_ (base v : Nat) : Byte := BitVec.ofNat 8 (v / 256 ^ (a - base))
  if a < 0x08 then at_ 0 n.serial
  else if a = 0x08 then at_ 8 n.type
  else if a = 0x09 then at_ 9 n.hwRev
  else if a < 0x0E then at_ 0x0A n.fwVer
  else if a < 0x10 then 0
  else if a < 0x12 then at_ 0x10 n.pos
  else if a < 0x14 then at_ 0x12 n.string
  else if a < 0x18 then at_ 0x14 n.compA
  else if a < 0x1C then at_ 0x18 n.compB
  else if a < 0x20 then at_ 0x1C n.cellEn.toNat
  else if a = 0x20 then n.tempEn
  else if a = 0x21 then 0
  else if a < 0x24 then at_ 0x22 n.switchWd
  else if a < 0x26 then at_ 0x24 n.lastSeq
  else if a < 0x28 then at_ 0x26 n.lastBseq
  else if a < 0x2A then at_ 0x28 n.crcErr
  else if a < 0x2C then at_ 0x2A n.staleCnt
  else if a < 0x2E then at_ 0x2C n.link.toNat
  else 0

/-- A register byte that may be written. -/
def nodeRw (a : Nat) : Bool := decide ((0x12 ≤ a ∧ a ≤ 0x20) ∨ a = 0x22 ∨ a = 0x23)
/-- An address that holds no register (R68). -/
def nodeReserved (a : Nat) : Bool := decide (a = 0x0E ∨ a = 0x0F ∨ a = 0x21 ∨ 0x2E ≤ a)

/-- The writable registers 0x12…0x23 with bytes replaced from an address on. -/
def Node.patched (n : Node) (addr : Nat) (data : List Byte) : List Byte :=
  (List.range 0x12).map (fun i =>
    let a := 0x12 + i
    if addr ≤ a ∧ a < addr + data.length then nth 0 data (a - addr) else n.regByte a)

/-- The status of a WRITE: BAD_ADDR, then READ_ONLY, then OUT_OF_RANGE, else OK (R68, R85). -/
def Node.writeStatus (n : Node) (addr : Nat) (data : List Byte) : Nat :=
  let as := (List.range data.length).map (fun i => addr + i)
  let p := n.patched addr data
  if as.any nodeReserved then 1
  else if as.any (fun a => !nodeRw a) then 2
  else if 2000000 < rdle p 2 4 ∨ 2000000 < rdle p 6 4 ∨ rdle p 16 2 < 60 ∨ 5000 < rdle p 16 2 then 3
  else 0

/-- An accepted WRITE applied (R68). -/
def Node.written (n : Node) (addr : Nat) (data : List Byte) : Node :=
  let p := n.patched addr data
  { n with string := rdle p 0 2, compA := rdle p 2 4, compB := rdle p 6 4, cellEn := BitVec.ofNat 32 (rdle p 10 4),
           tempEn := BitVec.ofNat 8 (rdle p 14 1), switchWd := rdle p 16 2 }

/-- A READ's bytes and the node after it: RC registers clear (R68, R8). DESIGN CHOICE (log entry 102): a READ that covers one byte
of a two-byte RC register clears the whole register; the spec does not say. -/
def Node.readOut (n : Node) (addr count : Nat) : List Byte × Node :=
  let covers (a : Nat) : Bool := decide (addr ≤ a ∧ a < addr + count)
  ((List.range count).map (fun i => n.regByte (addr + i)),
   { n with crcErr := if covers 0x28 || covers 0x29 then 0 else n.crcErr,
            staleCnt := if covers 0x2A || covers 0x2B then 0 else n.staleCnt })

/-- A discarded frame (R67). -/
def Node.discard (n : Node) : Node := { n with crcErr := sat16 (n.crcErr + 1) }

/-- The node's answer to a unicast command. -/
def Node.answers (n : Node) (seq st : Nat) (data : List Byte) : Node := { n with answer := some (seq, st, data) }

/-- The sequence rule of R83 around a command's own handling, which answers a status, data and the node after it:
RESYNC executes, an unsynchronised node answers NOT_SYNCED (nothing to a broadcast), a duplicate resends the stored
response, a later number executes, an earlier one is stale; BUSY is not committed. -/
def Node.command (n : Node) (seq : Nat) (resync bcast : Bool) (run : Node → Nat × List Byte × Node) : Node :=
  let synced := if bcast then n.bsync else n.usync
  let last := if bcast then n.lastBseq else n.lastSeq
  let d := (seq + 65536 - last) % 65536
  if resync = true ∨ (synced = true ∧ d ≠ 0 ∧ d ≤ 0x7FFF) then
    let (st, data, n1) := run n
    if bcast then (if st = 4 then n else { n1 with lastBseq := seq, bsync := true })
    else if st = 4 then n.answers seq 4 []
    else { n1 with lastSeq := seq, usync := true, stored := some (st, data), answer := some (seq, st, data) }
  else if synced = false then (if bcast then n else n.answers seq 5 [])
  else if d = 0 then
    if bcast then n
    else n.answers seq (n.stored.getD (0, [])).1 (n.stored.getD (0, [])).2
  else { n with staleCnt := sat16 (n.staleCnt + 1) }

/-- READ at a node: an address or a COUNT outside the register space is BAD_ADDR (R66, R68, R85). -/
def Node.onRead (n : Node) (addr count : Nat) : Nat × List Byte × Node :=
  if count = 0 ∨ 240 < count ∨ 65536 < addr + count then (1, [], n)
  else
    let (bs, n1) := n.readOut addr count
    (0, bs, n1)

/-- WRITE at a node: applied whole or refused; a busy non-volatile memory answers BUSY (R68, R85). -/
def Node.onWrite (n : Node) (addr : Nat) (data : List Byte) (nvBusy : Bool) : Nat × List Byte × Node :=
  let st := n.writeStatus addr data
  if st ≠ 0 then (st, [], n) else if nvBusy then (4, [], n) else (0, [], n.written addr data)

/-- BALANCE at a node: a lease and duties, which apply at the next sample instant; a duty on a disabled input is refused, and a
node that is hot holds its lease counter at 0 (R86, R87). DESIGN CHOICE (log entry 103): a LEASE of 0, outside the 1…255 of
R86, is answered OUT_OF_RANGE; the spec names no answer. -/
def Node.onBalance (n : Node) (lease : Nat) (dir : BitVec 32) (duty : List Nat) : Nat × List Byte × Node :=
  if lease = 0 ∨ 255 < lease ∨ (List.range 32).any (fun i => decide (nth 0 duty i ≠ 0) && !bit n.cellEn i) then (3, [], n)
  else
    let n1 := { n with lease := lease, leaseLen := lease, nextDuty := some (duty, dir) }
    (0, [], if bit n.nstat 2 then n1.stopBalancing else n1)

/-- SWITCH at a node: a string-switch node drives its outputs on a frame of the guard; CLEAR releases its latches (R90). -/
def Node.onSwitch (n : Node) (guardSet : Bool) (out : Nat) : Nat × List Byte × Node :=
  if n.type ≠ 2 then (7, [], n)
  else if !guardSet then (6, [], n)
  else if n.latched ∧ fld out 2 0 ≠ 0 ∧ !out.testBit 7 then (6, [], n)
  else
    let n1 := if out.testBit 7 then { n with latchTrip := false, latchWd := false } else n
    (0, [], { n1 with out := BitVec.ofNat 3 (fld out 2 0) })

/-- UNWRAP at a node: one with both RX locked and no FAULT leaves its wrap (R95). -/
def Node.onUnwrap (n : Node) : Nat × List Byte × Node := (0, [], if n.sound then (n.putLink 2 false).putLink 3 false else n)

/-- FW_BLOCK at a node: image data are stored; OFFSET 0 discards a partial image, data beyond its capacity are BAD_ADDR (R475). -/
def Node.onFwBlock (n : Node) (offset : Nat) (data : List Byte) : Nat × List Byte × Node :=
  if Config.nodeCapacity < offset + data.length then (1, [], n)
  else
    let base := if offset = 0 then [] else n.fwArea
    (0, [], { n with fwArea := (List.range data.length).foldl (fun t i => tput t (offset + i) (nth 0 data i)) base })

/-- The stored image of a node, complete from its first byte on; none with a gap (R475). -/
def Node.image? (n : Node) : Option (List Byte) :=
  if n.fwArea ≠ [] ∧ tkeys n.fwArea = List.range n.fwArea.length then some (n.fwArea.map Prod.snd) else none

/-- FW_ACTIVATE at a node: OK only when the stored image is complete and its CRC-32C equals IMAGE_CRC (R475). -/
def Node.onFwActivate (n : Node) (crc : Nat) : Nat × List Byte × Node :=
  match n.image? with
  | some img => if crc32c img = crc then (0, [], { n with fwNext := some crc }) else (3, [], n)
  | none => (3, [], n)

/-- What a node does for a numbered command: STATUS, DATA and the node after it (R66). -/
def Node.run (n : Node) (nvBusy : Bool) : LinkOp → Nat × List Byte × Node
  | .read a c => n.onRead a c
  | .write a d => n.onWrite a d nvBusy
  | .balance l dir duty => n.onBalance l dir duty
  | .switch g o => n.onSwitch g o.toNat
  | .unwrap => n.onUnwrap
  | .fwBlock o d => n.onFwBlock o d
  | .fwActivate c => n.onFwActivate c.toNat

/-- A node handles a frame that is for it: to its position, or broadcast (R65, R66). -/
def Node.handle (n : Node) (now : Nat) (nvBusy : Bool) (f : LinkFrame) : Node :=
  if f.dst ≠ 0xFFFF ∧ (f.dst ≠ n.pos ∨ f.dst = 0) then n
  else
    match f.body with
    | .enum next => (n.enum next).1
    | .clear => { n with pos := 0 }
    | .collect b => n.collect now b
    | .keepalive ok => if f.guard && ok && decide (n.type = 2) then { n with wdSince := now } else n
    | .cmd op => n.command f.seq f.resync (decide (f.dst = 0xFFFF)) (fun m => m.run nvBusy op)
    | .echo | .echoReply | .census _ | .response _ _ => n

/-- A frame arrives at the node of a place: one that R67 names is discarded and counted; one that the ring's state does not send
does not arrive (R67, R98). -/
def State.nodeFrame (s : State) (port place : Nat) (nvBusy : Bool) (f : Option LinkFrame) : State :=
  let st := (s.ring port).state
  match f with
  | none => if st = .isolated then s else s.modNode (nodeKey port place) Node.discard
  | some g => if st.carries g.body.type then s.modNode (nodeKey port place) (·.handle s.clock nvBusy g) else s

/-- The frame of a numbered command to the node of a place, or to all (R65, R83). -/
def State.cmdFrame (s : State) (port place seq : Nat) (resync bcast : Bool) (op : LinkOp) : LinkFrame :=
  let dst := if bcast then 0xFFFF else (s.node (nodeKey port place)).pos
  ⟨resync, (match op with | .switch g _ => g | _ => false), s.endOf port dst, false, dst, 0, seq, .cmd op⟩

/-- COLLECT: the ring's collection frame, or the bytes it has become on the way, reaches the node of a place (R67, R78). -/
def execCollect (port place : Nat) (raw : Option (List Byte)) (s : State) : Host.Outcome State Fault Refusal :=
  .next (match (s.ring port).block with
    | none => s
    | some b => s.nodeFrame port place false (arriving (b.frame false) raw))

/-- KEEPALIVE: a KEEPALIVE, or the bytes it has become on the way, reaches the node of a place; a valid one, GUARD set and
GUARD_OK = 1, restarts a string-switch node's watchdog (R89). -/
def execKeepalive (port place : Nat) (raw : Option (List Byte)) (s : State) : Host.Outcome State Fault Refusal :=
  .next (s.nodeFrame port place false (arriving (keepaliveFrame false) raw))

/-- READ: a node returns register bytes under the sequence rule (R67, R68, R83). -/
def execReadNode (port place seq : Nat) (resync : Bool) (addr count : Nat) (raw : Option (List Byte)) (s : State) :
    Host.Outcome State Fault Refusal :=
  .next (s.nodeFrame port place false (arriving (s.cmdFrame port place seq resync false (.read addr count)) raw))

/-- WRITE: a node applies register bytes under the sequence rule (R67, R68, R83). -/
def execWriteNode (port place seq : Nat) (resync bcast : Bool) (addr : Nat) (data : List Byte) (nvBusy : Bool)
    (raw : Option (List Byte)) (s : State) : Host.Outcome State Fault Refusal :=
  .next (s.nodeFrame port place nvBusy (arriving (s.cmdFrame port place seq resync bcast (.write addr data)) raw))

/-- BALANCE: a node takes a lease and duties under the sequence rule (R67, R83, R86, R87). -/
def execBalance (port place seq : Nat) (resync : Bool) (lease dir : Nat) (duty : List Nat) (raw : Option (List Byte)) (s : State) :
    Host.Outcome State Fault Refusal :=
  .next (s.nodeFrame port place false
    (arriving (s.cmdFrame port place seq resync false (.balance lease (BitVec.ofNat 32 dir) duty)) raw))

/-- SWITCH: a string-switch node drives its outputs under the sequence rule (R67, R83, R90). -/
def execSwitch (port place seq : Nat) (resync guardSet : Bool) (out : Nat) (raw : Option (List Byte)) (s : State) :
    Host.Outcome State Fault Refusal :=
  .next (s.nodeFrame port place false
    (arriving (s.cmdFrame port place seq resync false (.switch guardSet (BitVec.ofNat 8 out))) raw))

/-- UNWRAP: a wrapped node leaves its wrap under the sequence rule (R67, R83, R95). -/
def execUnwrap (port place seq : Nat) (resync bcast : Bool) (raw : Option (List Byte)) (s : State) : Host.Outcome State Fault Refusal :=
  .next (s.nodeFrame port place false (arriving (s.cmdFrame port place seq resync bcast .unwrap) raw))

/-- FW_BLOCK: a node stores image data under the sequence rule; sent in SERVICE only (R67, R83, R98, R475). -/
def execFwBlock (port place seq : Nat) (resync bcast : Bool) (offset : Nat) (data : List Byte) (raw : Option (List Byte)) (s : State) :
    Host.Outcome State Fault Refusal :=
  .next (s.nodeFrame port place false (arriving (s.cmdFrame port place seq resync bcast (.fwBlock offset data)) raw))

/-- FW_ACTIVATE: a node activates its stored image under the sequence rule; sent in SERVICE only (R67, R83, R98, R475). -/
def execFwActivate (port place seq : Nat) (resync bcast : Bool) (crc : Nat) (raw : Option (List Byte)) (s : State) :
    Host.Outcome State Fault Refusal :=
  .next (s.nodeFrame port place false (arriving (s.cmdFrame port place seq resync bcast (.fwActivate (BitVec.ofNat 32 crc))) raw))

/-- NODE_FW_RESTART: after an OK the node restarts into its new image, which reports a version, or falls back to its
previous one (R475). -/
def execNodeFwRestart (port place ver : Nat) (started : Bool) (s : State) : Host.Outcome State Fault Refusal :=
  let k := nodeKey port place
  onlyIf (decide ((s.node k).fwNext ≠ none)) (·.modNode k fun n =>
    { n.start s.clock with fwNext := none, fwArea := [], fwVer := if started then ver else n.fwVer }) s

/-! ### The module's side of commands (R84, R91) -/

/-- The ring state admits a command (R98). -/
def RingState.admits (st : RingState) (op : LinkOp) : Bool := st.carries op.type

/-- A SWITCH that the guard has handed over (R90). -/
def LinkOp.fromGuard : LinkOp → Bool
  | .switch g _ => g
  | _ => false

/-- A command's place in the order of R91 comes: the frame in flight has ended, no SYNC is due, and for a command of the Reckoner
no KEEPALIVE and no COLLECT. -/
def State.linkFree (s : State) (port : Nat) (op : LinkOp) : Bool :=
  decide ((s.ring port).txUntil ≤ s.clock ∧ (s.ring port).tripUntil ≤ s.clock) && !(s.sweptPorts.contains port && s.launchDue) &&
    (op.fromGuard || (!s.kaDue port && !s.collectDue port))

/-- Bytes that the outstanding commands of a ring and their responses may hold up in a node (R91). -/
def Ring.backlog (r : Ring) : Nat := (r.out.map (fun c => c.op.lineBytes)).sum

/-- A string may be sent BALANCE frames: not within a ripple burst, not between a STRING trip and the next close
(R202, R204). -/
def Str.framesOk (q : Str) : Bool := q.burst.isNone && !q.tripHold

/-- A BALANCE frame may be launched at a position: its string takes such frames (R202, R204). -/
def State.balanceOk (s : State) (port pos : Nat) : Bool :=
  match (s.ring port).config.find? (fun n => decide (n.pos = pos)) with
  | some id => (s.str (strKey port id.string)).framesOk
  | none => true

/-- A queued command may be launched: its port is up (R447, R482), the ring state admits it, its place in the order has come, it is broadcast or its node has
none outstanding, its node's backlog stays within 512 B, and a BALANCE frame's string takes it (R84, R91, R98, R202).
DESIGN CHOICE (log entry 104): the backlog is judged by the frames outstanding on the ring and their responses. -/
def State.mayLaunch (s : State) (port : Nat) (c : LinkCmd) : Bool :=
  let r := s.ring port
  s.portsUp && r.state.admits c.op && s.linkFree port c.op && (decide (c.dst = 0xFFFF) || !r.out.any (fun o => decide (o.dst = c.dst))) &&
    (r.out.isEmpty || decide (r.backlog + c.op.lineBytes ≤ 512)) &&
    (match c.op with | .balance _ _ _ => s.balanceOk port c.dst | _ => true)

/-- The first command of a ring's queue that may be launched (R84, R91). -/
def State.nextCmd? (s : State) (port : Nat) : Option LinkCmd := (s.ring port).queue.find? (s.mayLaunch port)

/-- The frame of a command on the line (R65). -/
def LinkCmd.frame (c : LinkCmd) (endB : Bool) : LinkFrame := ⟨c.resync, c.op.fromGuard, endB, c.retry, c.dst, 0, c.seq, .cmd c.op⟩

/-- A command's frame is put on the line: at the end on whose side its node lies, a broadcast on a split ring at both (R96); a port that
is not fed sends nothing (R482). -/
def State.putFrame (s : State) (port : Nat) (c : LinkCmd) : State :=
  let r := s.ring port
  if s.portsUp = false then s
  else if c.dst = 0xFFFF ∧ r.split = true then
    s.modRing port fun q => (q.send s.clock false (frameSyms (c.frame false).bytes)).send s.clock true (frameSyms (c.frame true).bytes)
  else
    let e := decide (c.dst ≠ 0xFFFF) && s.endOf port c.dst
    s.modRing port fun q => q.send s.clock e (frameSyms (c.frame e).bytes)

/-- COMP registers are written: the next sweep is a ring resync (R82). -/
def LinkOp.writesComp : LinkOp → Bool
  | .write a d => decide (a < 0x1C ∧ 0x14 < a + d.length)
  | _ => false

/-- COMMAND_LAUNCH: a queued command is numbered and launched; the first to a node or ring after the listed events
carries RESYNC; a broadcast has no answer and completes as it leaves (R83, R84, R91). -/
def execCommandLaunch (port : Nat) (s : State) : Host.Outcome State Fault Refusal :=
  match s.nextCmd? port with
  | none => .next s
  | some c =>
    let r := s.ring port
    if c.dst = 0xFFFF then
      let seq := (r.bseq + 1) % 65536
      let s1 := (s.putFrame port { c with seq := seq, resync := r.bresync }).modRing port fun q =>
        { q with queue := q.queue.erase c, bseq := seq, bresync := false, resync := q.resync || c.op.writesComp }
      match c.origin with
      | some (rq, op) => .next (s1.ok rq op [])
      | none => .next s1
    else
      let seq := (tget (0 : Nat) r.useq c.dst + 1) % 65536
      let c1 : LinkCmd := { c with seq := seq, resync := !r.synced.contains c.dst, at_ := s.clock }
      .next ((s.putFrame port c1).modRing port fun q =>
        { q with queue := q.queue.erase c, useq := tset (0 : Nat) q.useq c.dst seq, synced := insN c.dst q.synced, out := q.out ++ [c1] })

/-- The command outstanding at a position. -/
def Ring.outAt? (r : Ring) (pos : Nat) : Option LinkCmd := r.out.find? (fun c => decide (c.dst = pos))

/-- The outstanding command of a position replaced. -/
def State.putOut (s : State) (port : Nat) (c c1 : LinkCmd) : State :=
  s.modRing port fun r => { r with out := r.out.map (fun o => if o = c then c1 else o) }

/-- The outstanding command of a position is sent again (R84). -/
def State.resend (s : State) (port : Nat) (c c1 : LinkCmd) : State := (s.putFrame port c1).putOut port c c1

/-- The outstanding command of a position ends. -/
def State.dropOut (s : State) (port : Nat) (c : LinkCmd) : State := s.modRing port fun r => { r with out := r.out.erase c }

/-- The request that caused a command receives its end: OK with the data, or a refusal (R84, R325). -/
def State.endCmd (s : State) (c : LinkCmd) (r : Option Refuse) (data : List Byte) : State :=
  match c.origin with
  | none => s
  | some (rq, op) =>
    match r with
    | some e => s.refuse rq op e
    | none => s.ok rq op data

/-! ### Updating the nodes of a ring (R474) -/

/-- The payload in FW_BLOCK frames of 240 bytes, in ascending OFFSET (R474). -/
def fwBlocks (l : List Byte) : List LinkOp :=
  (List.range ((l.length + 239) / 240)).map (fun i => .fwBlock (240 * i) ((l.drop (240 * i)).take 240))

/-- The ring update in progress changed. -/
def State.onNodeUpd (s : State) (f : NodeUpd → NodeUpd) : State := s.onUpd fun u => { u with node := u.node.map f }

/-- FW_ACTIVATE with IMAGE_CRC goes to the next node of the update, or the update is complete (R474, R477). -/
def State.nodeNext (s : State) : State :=
  match s.upd.node with
  | none => s
  | some u =>
    match u.todo with
    | [] => (s.onUpd fun v => { v with node := none }).raise 0x0D0F [u.port, u.done]
    | pos :: _ => s.queueCmd u.port pos (.fwActivate (BitVec.ofNat 32 (crc32c s.upd.nodeBytes))) none

/-- A node fails: 1 CRC, 2 no return, 3 old FW_VER; the update stops (R474, R477). -/
def State.nodeFailed (s : State) (port pos kind : Nat) : State :=
  (s.onUpd fun v => { v with node := none }).raise 0x0D0E [port, pos, kind]

/-- A node shows the new version, and the update goes on with the next one (R474, R477). -/
def State.nodeActivated (s : State) (port pos : Nat) : State :=
  ((s.onNodeUpd fun u => { u with todo := u.todo.drop 1, done := u.done + 1, again := false, since := none, old := false }).raise 0x0D0D
    [port, pos]).nodeNext

/-- A node that lacks the image receives all of it again in unicast frames, with one further FW_ACTIVATE (R474). -/
def State.nodeResend (s : State) (port pos : Nat) : State :=
  (forEach (fwBlocks s.upd.nodeBytes) (fun op t => t.queueCmd port pos op none) (s.onNodeUpd fun u => { u with again := true })).nodeNext

/-- A command of the update has ended with a status, or without an answer: FW_ACTIVATE is followed by READs of FW_VER
until the new version shows (R474). -/
def State.nodeStep (s : State) (port pos : Nat) (c : LinkCmd) (status : Option Nat) (data : List Byte) : State :=
  match s.upd.node with
  | none => s
  | some u =>
    if u.port ≠ port ∨ u.todo.head? ≠ some pos ∨ c.origin.isSome then s
    else
      match c.op with
      | .fwActivate _ =>
        match status with
        | some 0 => (s.onNodeUpd fun u => { u with since := some s.clock }).queueCmd port pos (.read 0x0A 4) none
        | some 3 => if u.again then s.nodeFailed port pos 1 else s.nodeResend port pos
        | some _ => s.nodeFailed port pos 1
        | none => s.nodeFailed port pos 2
      | .read _ _ =>
        if status = some 0 ∧ rdle data 0 4 = s.upd.nodeVer.1 then s.nodeActivated port pos
        else (s.onNodeUpd fun u => { u with old := u.old || decide (status = some 0) }).queueCmd port pos (.read 0x0A 4) none
      | _ => s

/-- RESPONSE: a node's answer reaches the module: it completes the command, or BUSY waits 10 ms, or NOT_SYNCED is
resent at once with RESYNC; accepted duties apply at the next sample instant
(R84, R85, R87); nothing is resent on a ring whose state does not admit the command (R98). -/
def State.takeResponse (s : State) (port pos seq status : Nat) (data : List Byte) : State :=
  match (s.ring port).outAt? pos with
  | none => s
  | some c =>
    if c.seq ≠ seq then s
    else if status = 4 then
      s.putOut port c { c with busySince := some (c.busySince.getD s.clock), at_ := s.clock, waits := true }
    else if status = 5 then
      (if (s.ring port).state.admits c.op then s.resend port c { c with resync := true, at_ := s.clock }
      else s.putOut port c { c with resync := true })
    else
      let s1 := (s.dropOut port c).modRing port fun r => { r with resync := r.resync || (c.op.writesComp && decide (status = 0)) }
      let s2 := match c.op with
        | .balance _ dir duty =>
          s1.when (decide (status = 0)) fun t => t.modBal (nodeKey port pos) fun b => { b with next := some (duty, dir.toNat) }
        | _ => s1
      (s2.endCmd c (if status = 0 then none else some (nodeStatus status pos)) data).nodeStep port pos c (some status) data

/-- The frame of a node's answer (R66, R85). -/
def responseFrame (pos seq status : Nat) (data : List Byte) : LinkFrame := ⟨false, false, false, false, 0, pos, seq, .response status data⟩

/-- RESPONSE: a node's answer, or the bytes it has become on the way, reaches the module; a frame that fails the checks of R64
and R67, or is no RESPONSE, is dropped, as is one at a port that is not fed (R84, R482). -/
def execResponse (port pos seq status : Nat) (data : List Byte) (raw : Option (List Byte)) (s : State) :
    Host.Outcome State Fault Refusal :=
  .next (match arriving (responseFrame pos seq status data) raw with
    | some ⟨_, _, _, _, 0, src, q, .response st d⟩ => s.when s.portsUp (·.takeResponse port src q st d)
    | _ => s)

/-- The nodes of a ring: as the last enumeration or the stored identity counts them (R84, R342). -/
def Ring.size (r : Ring) : Nat := max r.nodes r.config.length

/-- The response timeout in ticks: F + R + N × 8 us + 100 us (R84). -/
def Ring.timeout (r : Ring) : Nat := (r.fCal + r.rCal) / 5 + us (r.size * 8 + 100)

/-- COMMAND_TIMEOUT: no response in time: retransmitted with RETRY, or abandoned after three retransmissions (R84), or at once on a
ring whose state no longer admits the command (R98, log entry 105). -/
def execCommandTimeout (port pos : Nat) (s : State) : Host.Outcome State Fault Refusal :=
  match (s.ring port).outAt? pos with
  | none => .next s
  | some c =>
    if c.waits || !s.elapsed c.at_ (s.ring port).timeout then .next s
    else if c.tries < 3 ∧ (s.ring port).state.admits c.op = true then
      .next (s.resend port c { c with tries := c.tries + 1, retry := true, at_ := s.clock })
    else
      let s1 := ((s.dropOut port c).modRing port fun r => { r with synced := r.synced.erase pos }).raise 0x0805
        [port, pos, c.op.type]
      .next ((s1.endCmd c (some (nodeTimeout port pos)) []).nodeStep port pos c none [])

/-- BUSY_RETRY: 10 ms after a BUSY answer the command is resent with the same SEQ, or abandoned once 1 s has passed
(R84, R85). -/
def execBusyRetry (port pos : Nat) (s : State) : Host.Outcome State Fault Refusal :=
  match (s.ring port).outAt? pos with
  | none => .next s
  | some c =>
    match c.busySince with
    | none => .next s
    | some t =>
      if !c.waits then .next s
      else if s.elapsed t (secs 1) || !(s.ring port).state.admits c.op then
        .next (((s.dropOut port c).endCmd c (some (nodeStatus 4 pos)) []).nodeStep port pos c none [])
      else if s.elapsed c.at_ (ms 10) then .next (s.resend port c { c with at_ := s.clock, retry := true, waits := false })
      else .next s

/-! ### Trips (R92-R94) -/

/-- RING_TRIP_LAUNCH: both ends of the affected rings send the trip sequence with its TRIP_ID, SCOPE, TARGET and CAUSE, after ABORT
where a frame is in flight on the TX, unless the ports are not fed; the records that a collection loses do not count towards node
loss (R63, R92, R82, R482). -/
def State.launchTrip (s : State) (ports : List Nat) (scope target cause : Nat) : State :=
  let id := s.guard.tripId
  s.when s.portsUp <| forEach ports (fun p t => t.modRing p fun r =>
    let l := tripSyms (decide (s.clock < r.txUntil)) (tripBytes id scope target cause)
    { r.sendBoth s.clock l with tripped := r.collecting || r.tripped, tripBody := some (id, scope, target, cause),
                                tripUntil := s.clock + symTicks l })

/-- A node's action on a good trip body (R93). DESIGN CHOICE (log entry 106): a STRING trip of another string leaves the lease
counter alone, as R93's table says, though R87 sets it to 0 at any valid ring trip. -/
def Node.trip (n : Node) (scope target : Nat) : Node :=
  let hit := decide (scope ≠ 2 ∨ n.string = target)
  if !hit then n
  else
    let n1 := n.stopBalancing
    if scope ≠ 3 ∧ n.type = 2 then { n1 with out := 0, latchTrip := true } else n1

/-- A trip passes through a node: what its elastic buffer holds is lost, its own record and answer among it where they have not
been sent (R94). -/
def Node.dropBuffer (n : Node) : Node := { n with ready := false, answer := none }

/-- A copy of a trip sequence arrives at a node: it acts on the first good one and ignores copies of the same TRIP_ID within 1 ms;
a bad copy counts only where no good one was among the three (R93). -/
def Node.tripCopy (n : Node) (now : Nat) (body : List Byte) : Node :=
  if crcGood 8 body = false ∨ body.length ≠ 12 then
    let acted := match n.lastTrip with
      | some (_, t) => decide (now < t + 2000)
      | none => false
    if acted then n else { n with tripSeen := some (n.tripSeen.getD now) }
  else
    let id := rdle body 0 2
    let same := match n.lastTrip with
      | some (i, t) => decide (i = id ∧ now < t + 200000)
      | none => false
    if same then { n with tripSeen := none }
    else { n.trip (rdle body 2 1) (rdle body 4 2) with lastTrip := some (id, now), tripSeen := none }

/-- TRIP: a copy of the ring's last trip sequence, or the bytes it has become on the way, passes a node (R93, R94). -/
def execTrip (port place : Nat) (raw : Option (List Byte)) (s : State) : Host.Outcome State Fault Refusal :=
  .next (match (s.ring port).tripBody with
    | none => s
    | some (id, scope, target, cause) =>
      s.modNode (nodeKey port place) fun n => (n.tripCopy s.clock (raw.getD (tripBytes id scope target cause))).dropBuffer)

/-- TRIP_BODY_TIMEOUT: the ordered set was seen and no good body came within 10 us: as for BALANCE (R93). -/
def execTripBodyTimeout (port place : Nat) (s : State) : Host.Outcome State Fault Refusal :=
  let k := nodeKey port place
  onlyIf (s.elapsed? (s.node k).tripSeen 2000) (·.modNode k fun n => { n.stopBalancing with tripSeen := none }) s

/-- NODE_HOT: a node's board goes above or back below 105 degC: balancing stops while hot (R80, R87). -/
def execNodeHot (port place : Nat) (hot : Bool) (s : State) : Host.Outcome State Fault Refusal :=
  .next (s.modNode (nodeKey port place) fun n =>
    let n1 := { n with nstat := putBit n.nstat 2 hot }
    if hot then n1.stopBalancing else n1)

end Sys2Proof.Machine
end

