-- ==== Sys2Proof/Machine/Temps.lean ====
section
/-! DEFINITION. Assigned temperatures, thermal levels and derating, string currents (R155, R160, R185-R193). -/
namespace Sys2Proof.Machine
open Sys2Proof

/-! ### Records of the sweep -/

/-- The record of a position for the newest sweep collected on its ring, if it arrived (R82). -/
def State.record? (s : State) (port pos : Nat) : Option (List Byte) :=
  let g := s.staged port pos
  if g.2 ≠ [] ∧ g.1 = (s.ring port).gen then some g.2 else none

/-- The clock of the newest sweep's sample instant. -/
def State.sampleAt (s : State) : Nat := s.beam.sampledAt.getD 0

/-- Records of a ring's newest sweep carry SETTLING (R27, R82). -/
def State.settled (s : State) (port : Nat) : Bool := !(s.ring port).settling

/-- Enabled cell inputs of a node, ascending (R68). -/
def Node.cellsOn (n : Node) : List Nat := (List.range 32).filter (fun i => bit n.cellEn i)
/-- Enabled temperature inputs of a node, ascending (R68). -/
def Node.tempsOn (n : Node) : List Nat := (List.range 8).filter (fun i => bit n.tempEn i)
/-- The node that answers at a position. -/
def State.at_ (s : State) (port pos : Nat) : Node := s.node (s.nodeAt port pos)

/-! ### Judging temperature inputs (R186) -/

/-- The reading kept at the sweep nearest to 60 s before an instant; none while the readings do not reach back so far or
the reading is the invalid code (R186). -/
def TempIn.back60 (t : TempIn) (now : Nat) : Option Int :=
  let target := now - secs 60
  if secs 60 ≤ now ∧ t.hist.any (fun e => decide (e.1 ≤ target)) then
    let d (e : Nat × Int) : Nat := if e.1 ≤ target then target - e.1 else e.1 - target
    let best := t.hist.foldl (fun (b : Option (Nat × Int)) e =>
      match b with
      | none => some e
      | some x => if d e < d x then some e else some x) none
    match best with
    | some e => if e.2 = -32768 then none else some e.2
    | none => none
  else none

/-- The neighbours of an input: the other enabled inputs with a valid code that are not substituted (R186). -/
def State.neighbours (s : State) (port pos : Nat) (rec : List Byte) (i : Nat) : List Nat :=
  (s.at_ port pos).tempsOn.filter (fun j =>
    decide (j ≠ i ∧ recTemp rec j ≠ -32768) && !(s.tempIn (cellPoint port pos j)).subst)

/-- The input's own rate and those of its neighbours give its relative rate, none when unknown (R186). -/
def State.tempRate (s : State) (port pos : Nat) (rec : List Byte) (i : Nat) : Option Int :=
  let now := s.sampleAt
  let delta (j : Nat) : Option Int :=
    ((s.tempIn (cellPoint port pos j)).back60 now).map (fun b => recTemp rec j - b)
  let ds := (s.neighbours port pos rec i).filterMap delta
  match delta i with
  | some d => if 2 ≤ ds.length then some (d - medianI ds) else none
  | none => none

/-- One input judged on a sweep, from the state of the previous one (R186). -/
def State.judgeInput (s : State) (port pos : Nat) (rec : List Byte) (i : Nat) : TempIn :=
  let t := s.tempIn (cellPoint port pos i)
  let raw := recTemp rec i
  let ns := (s.neighbours port pos rec i).map (fun j => recTemp rec j)
  let dev := raw - medianI ns
  let rate := s.tempRate port pos rec i
  let base := { t with raw := raw, gen := (s.ring port).gen, unjudged := false,
                       hist := (s.sampleAt, raw) :: t.hist.filter (fun e => decide (s.sampleAt ≤ e.1 + secs 62)) }
  let subUsed := if ns = [] then -32768 else tempCode (medianI ns + s.par 0x3203)
  if raw = -32768 then
    { base with subst := true, unjudged := decide (ns.length < 2), used := subUsed, run := 0, goodSince := none }
  else if ns.length < 2 then { base with unjudged := true, used := raw, run := 0, goodSince := none }
  else
    match rate with
    | none => { base with used := if t.subst then subUsed else raw, run := 0, goodSince := none }
    | some r =>
      let beyond := decide (s.par 0x3201 < dev.natAbs ∧ s.par 0x3202 < r.natAbs)
      let within := decide ((dev.natAbs : Int) ≤ s.par 0x3201 - 200 ∧ (r.natAbs : Int) ≤ s.par 0x3202)
      let run := if beyond then satN 3 (t.run + 1) else 0
      if t.subst then
        { base with used := subUsed, run := 0, goodSince := if within then some (t.goodSince.getD s.sampleAt) else none }
      else if 3 ≤ run then { base with subst := true, used := subUsed, run := 0, goodSince := none }
      else { base with used := raw, run := run }

/-- An input as judged for the newest sweep: the stored judgement once it has been made. -/
def State.judged (s : State) (port pos i : Nat) : TempIn :=
  let t := s.tempIn (cellPoint port pos i)
  match s.record? port pos with
  | some rec => if t.gen = (s.ring port).gen then t else s.judgeInput port pos rec i
  | none => t

/-- TEMPERATURE_JUDGEMENT: every enabled input of a node is judged once per sweep against the state of the previous one
(R186). -/
def State.judgeTemps (s : State) (port pos : Nat) : State :=
  match s.record? port pos with
  | none => s
  | some rec =>
    let ins := (s.at_ port pos).tempsOn.filter (fun i => decide ((s.tempIn (cellPoint port pos i)).gen ≠ (s.ring port).gen))
    let news := ins.map (fun i => (i, s.tempIn (cellPoint port pos i), s.judgeInput port pos rec i))
    let s1 := forEach news (fun x t =>
      let t1 := t.modTemp (cellPoint port pos x.1) fun _ => x.2.2
      t1.when (!x.2.1.subst && x.2.2.subst && decide (x.2.2.raw ≠ -32768)) (·.raise 0x0315 [port, pos, x.1, x.2.2.raw])) s
    let few := news.filter (fun x => x.2.2.unjudged)
    let k := nodeKey port pos
    if news = [] then s1
    else if few ≠ [] then
      (s1.when (!(s.balNode k).noCross) (·.raise 0x0317
        [port, pos, ((s.neighbours port pos rec ((few.head?).elim 0 Prod.fst)).length : Nat)])).modBal k fun b => { b with noCross := true }
    else s1.modBal k fun b => { b with noCross := false }

/-! ### Assigning temperatures (R185, R187) -/

/-- The temperature input a cell takes; none stands for the hottest valid one (R185). -/
def State.tempOf (s : State) (port pos input : Nat) : Option Nat :=
  let n := s.at_ port pos
  let ts := n.tempsOn
  match (s.balNode (nodeKey port pos)).map with
  | some m => if nth 0xF m input = 0xF then none else some (nth 0xF m input)
  | none =>
    let k := (n.cellsOn.filter (fun c => decide (c < input))).length
    some (nth 0 ts (k * ts.length / max 1 n.cellsOn.length))

/-- A node has an input left that is valid and not substituted (R187). -/
def State.tempUsable (s : State) (port pos : Nat) : Bool :=
  (s.at_ port pos).tempsOn.any (fun i => !(s.judged port pos i).subst && decide ((s.judged port pos i).raw ≠ -32768))

/-- The temperature of a cell from its own node's inputs (R185, R186). -/
def State.ownTemp (s : State) (port pos input : Nat) : Int :=
  match s.tempOf port pos input with
  | some i => (s.judged port pos i).used
  | none =>
    maxI (-32767) (((s.at_ port pos).tempsOn.filter (fun i => !(s.judged port pos i).subst)).map
      (fun i => (s.judged port pos i).used))

/-- The value of a usable node: the hottest temperature of its cells from its own inputs (R187). -/
def State.nodeTemp? (s : State) (port pos : Nat) : Option Int :=
  if s.tempUsable port pos then
    some (maxI (-32767) ((s.at_ port pos).cellsOn.map (fun c => s.ownTemp port pos c)))
  else none

/-- The highest T_HOT of the bank in the thermal records last published. -/
def State.bankHot (s : State) : Int := maxI (-32767) (s.est.configured.map (fun k => (s.str k).tHot))

/-- The temperature of the cells of a node without a usable input: the nearest usable node on either side in the string,
else the bank's highest T_HOT, plus SUB_MARGIN. The second preference of R187, the hottest of the string, cannot hold
where the first fails, since every usable node of the string is the nearest on some side. -/
def State.fallTemp (s : State) (port pos : Nat) : Int :=
  let sid := ((s.ring port).config.find? (fun n => decide (n.pos = pos))).map NodeId.string
  let ps := ((s.ring port).config.filter (fun n => decide (some n.string = sid))).map NodeId.pos
  let below := ((ps.filter (fun p => decide (p < pos))).reverse.filterMap (s.nodeTemp? port)).head?
  let above := ((ps.filter (fun p => decide (pos < p))).filterMap (s.nodeTemp? port)).head?
  let vs := below.toList ++ above.toList
  tempCode ((if vs = [] then s.bankHot else medianI vs) + s.par 0x3203)

/-- The temperature assigned to a cell (R185-R187). -/
def State.cellTemp (s : State) (port pos input : Nat) : Int :=
  if s.tempUsable port pos then s.ownTemp port pos input else s.fallTemp port pos

/-- The temperature assigned to the cell of a point address. -/
def State.pointT (s : State) (p : Nat) : Int := s.cellTemp (pointPort p) (pointPos p) (pointInput p)

/-! ### String currents (R155, R160) -/

/-- The measurement group of a string: its number and contents (R160). -/
def State.groupOf? (s : State) (k : Nat) : Option (Nat × List Nat) :=
  s.est.groups.find? (fun g => (g.2.drop 3).contains k)

/-- A group's measured current in A: an FPI channel's conversion at the sample instant, or the unit's latest report; none while
that is stale (R160, R412). -/
def State.groupAmps? (s : State) (g : List Nat) : Option Rat :=
  if nth 0 g 0 = 1 then some (((tget (0 : Int) s.est.fpiAt (nth 0 g 1) : Int) : Rat) / 1000)
  else if !s.unitFresh (nth 0 g 2) then none
  else some (((s.unit (nth 0 g 2)).iDc : Rat) / 1000)

/-- The measured current of a string alone in its group. -/
def State.aloneAmps? (s : State) (k : Nat) : Option Rat :=
  match s.groupOf? k with
  | some g => if g.2.length = 4 then s.groupAmps? g.2 else none
  | none => none

/-- The source a string uses: SRC_USED and its current, none without one (R160): the rows by CSRC, with SKEW_LIMIT before
the observer's holding and a stale value after both. -/
def State.source (s : State) (k : Nat) : Nat × Option Rat :=
  let st := s.str k
  let skew := (s.ring (keyPort k)).skewLimit
  let alone : Nat × Option Rat :=
    match s.aloneAmps? k with
    | some a => (2, some a)
    | none => (0, none)
  let fresh := match s.groupOf? k with
    | some g => (s.groupAmps? g.2).isSome
    | none => false
  let obs (code : Nat) : Nat × Option Rat := (code, some st.iHat)
  match s.parStr 0x3101 k with
  | 1 => if skew then alone else if st.unavailable then (0, none) else obs 1
  | 2 => if fresh then alone else if 8 ≤ st.cells.length ∧ !skew ∧ !st.unavailable then obs 1 else (0, none)
  | _ => if skew then alone else if st.unavailable then alone else if fresh then obs 3 else obs 1

/-- A cell's balancing current over the interval that ends at the newest sample instant, in mA: the duty and direction leased for
it at 2 A, charging negative; none from a node that reported LEASE_EXPIRED or not BAL_ACTIVE (R155). -/
def State.balCurrent (s : State) (p : Nat) : Int :=
  let port := pointPort p
  let pos := pointPos p
  let f := match s.record? port pos with
    | some r => recFlags r
    | none => 0
  if f.testBit 3 ∨ !f.testBit 2 then 0
  else
    let b := (s.balNode (nodeKey port pos)).was
    let d := rdiv (((nth 0 b.1 (pointInput p) : Nat) : Int) * 2000) 256
    if b.2.testBit (pointInput p) then -d else d

/-- The current of a cell in A: its string's source plus its balancing current; none without a source (R155). -/
def State.cellAmps? (s : State) (k p : Nat) : Option Rat :=
  (s.source k).2.map (fun a => a + (s.balCurrent p : Rat) / 1000)

/-! ### Thermal levels and derating (R189-R193) -/

/-- One level of R190: the flag with hysteresis. -/
def levelNext (was : Bool) (sets clears : Bool) : Bool := if sets then true else if clears then false else was

/-- The flags of R190 from T_HOT and T_COLD. -/
def thermalFlags (th : Thermal) (hot cold : Int) (f : BitVec 8) : BitVec 8 :=
  let up (i : Nat) (l : Int) (w : BitVec 8) := putBit w i (levelNext (bit f i) (decide (l ≤ hot)) (decide (hot < l - th.hyst)))
  let dn (i : Nat) (l : Int) (w : BitVec 8) := putBit w i (levelNext (bit f i) (decide (cold ≤ l)) (decide (l + th.hyst < cold)))
  dn 5 th.lsd (dn 4 th.lthr (dn 3 th.lwarn (up 2 th.sd (up 1 th.thr (up 0 th.warn 0)))))

/-- A target factor in 1/1000, rounded half away from zero and held in 0…1000 (R191). -/
def factorOf (num den : Int) : Nat := (clampI 0 1000 (rdiv (num * 1000) (if den = 0 then 1 else den))).toNat

/-- A published factor follows its target: down at once, up at no more than 0.100 a minute, at once at the first
evaluation (R191). -/
def followFactor (was : Option Nat) (target dtMs : Nat) : Nat :=
  match was with
  | none => target
  | some f => if target ≤ f then target else min target (f + dtMs / 600)

/-- A string's flags and factors at a sweep (R190, R191). -/
def State.evalThermal (s : State) (k : Nat) : State :=
  let st := s.str k
  if st.cells = [] then s
  else
    let ts := st.cells.map s.pointT
    let hot := maxI (-32767) ts
    let cold := minI 32767 ts
    let hc := (ts.idxOf hot)
    let th := st.thermal
    let f := thermalFlags th hot cold st.tflags
    let dis := factorOf (th.sd - hot) (th.sd - th.thr)
    let low := factorOf (cold - th.lsd) (th.lthr - th.lsd)
    let dt := s.msSince st.evalAt
    let fd := followFactor st.fDis dis dt
    let fc := followFactor st.fChg (min dis low) dt
    let port := keyPort k
    let sid := keyId k
    let s1 := s.modStr k fun q =>
      { q with tHot := hot, tCold := cold, hotCell := hc, tflags := f, fDis := some fd, fChg := some fc,
               evalAt := if st.fDis = none then s.clock else st.evalAt + ms (dt / 600 * 600) }
    let s2 := forEach [0, 1, 2] (fun i t =>
      (t.when (!bit st.tflags i && bit f i) (·.raise 0x0311 [port, sid, (i + 1 : Nat), hot, hc])).when
        (bit st.tflags i && !bit f i) (·.raise 0x0312 [port, sid, (i + 1 : Nat), hot])) s1
    forEach [3, 4, 5] (fun i t =>
      (t.when (!bit st.tflags i && bit f i) (·.raise 0x0313 [port, sid, (i - 2 : Nat), cold])).when
        (bit st.tflags i && !bit f i) (·.raise 0x0314 [port, sid, (i - 2 : Nat), cold])) s2

/-- The bank's thermal limits (R192). -/
def State.bankThermal (s : State) : State :=
  let sum (f : Str → Nat) : Nat := (s.est.configured.map (fun k => f (s.str k))).sum
  s.onEst fun e =>
    { e with pthDis := sum (fun q => q.fDis.getD 0 * q.pdis / 1000), pthChg := sum (fun q => q.fChg.getD 0 * q.pchg / 1000) }

/-! ### Near a limit (R118) -/

/-- The limit screen reported a crossing on a string in the newest sweep: a raw voltage code beyond one of the two thresholds
the guard loads, OV1 and UV1 (R118, R188, R229, log entry 116). -/
def State.screened (s : State) (k : Nat) : Bool :=
  let l := (s.str k).limits
  (s.str k).cells.any (fun p =>
    match s.record? (pointPort p) (pointPos p) with
    | some r =>
      let v := recCell r (pointInput p)
      decide (v ≠ 0xFFFF ∧ (nth 0 l.volts 0 < v ∨ v < nth 0 l.volts 3))
    | none => false)

/-- A cell is near a limit for the newest sweep (R118). -/
def State.nearLimit (s : State) (k p : Nat) : Bool :=
  let st := s.str k
  let port := pointPort p
  let pos := pointPos p
  let nearV := s.par 0x3401 / 100
  let nearT := s.par 0x3402
  let vs : List Nat := match s.record? port pos with
    | some r => [recCell r (pointInput p), (s.cell p).pub.v]
    | none => [(s.cell p).pub.v]
  let vNear := vs.any (fun v => decide (v ≠ 0xFFFF) &&
    (List.range 6).any (fun i => let d := (v : Int) - ((nth 0 st.limits.volts i : Nat) : Int); decide ((d.natAbs : Int) ≤ nearV)))
  let tNear := (s.at_ port pos).tempsOn.any (fun i =>
    let t := (s.judged port pos i).used
    decide (t ≠ -32768 ∧ (((t - st.thermal.thr).natAbs : Int) ≤ nearT ∨ ((t - st.thermal.lthr).natAbs : Int) ≤ nearT)))
  vNear || tNear || s.screened k || bit st.sflags 4

end Sys2Proof.Machine
end

