-- ==== Sys2Proof/Machine/Layout.lean ====
section
/-! DEFINITION. How the bytes of a kernel image are read (R135-R138). -/
namespace Sys2Proof.Machine
open Sys2Proof

/-! ### The bytes of an image (R135-R138) -/

/-- A signed number of an image. -/
def rdI (l : List Byte) (off size : Nat) : Int := sx (8 * size) (rdle l off size)

/-- The length that the image's bytes have. -/
abbrev imgWord (l : List Byte) (off : Nat) : Nat := rdle l off 4

/-- CODE_OFF, CODE_LEN, DESC_OFF, DESC_LEN, TAB_OFF, TAB_LEN (R136). -/
def imgSections (l : List Byte) : List (Nat × Nat) :=
  [(imgWord l 0x10, imgWord l 0x14), (imgWord l 0x18, imgWord l 0x1C), (imgWord l 0x20, imgWord l 0x24)]

/-- A section starts on a 16-byte boundary after the header and ends within the image (R136). -/
def sectionOk (size : Nat) (x : Nat × Nat) : Bool := decide (48 ≤ x.1 ∧ x.1 % 16 = 0 ∧ x.1 + x.2 ≤ size)

/-- Two sections do not overlap. -/
def apart (x y : Nat × Nat) : Bool := decide (x.1 + x.2 ≤ y.1 ∨ y.1 + y.2 ≤ x.1)

/-- NENTRY, NCOL, NTAB, WEIGHT of the descriptor (R137). -/
def imgHead (l : List Byte) : Nat × Nat × Nat × Nat :=
  let o := imgWord l 0x18
  (rdle l o 1, rdle l (o + 1) 1, rdle l (o + 2) 1, rdle l (o + 4) 2)

/-- Every offset and length keeps R136 and R137. -/
def layoutOk (l : List Byte) : Bool :=
  let code := (imgWord l 0x10, imgWord l 0x14)
  let desc := (imgWord l 0x18, imgWord l 0x1C)
  let tab := (imgWord l 0x20, imgWord l 0x24)
  let h := imgHead l
  decide (48 ≤ l.length ∧ imgWord l 0x28 = l.length ∧ 4 ≤ code.2 ∧ code.2 ≤ 65536 ∧ code.2 % 4 = 0 ∧ tab.2 ≤ 131072 ∧ tab.2 % 16 = 0) &&
    sectionOk l.length code && sectionOk l.length desc && apart code desc &&
    (if tab.2 = 0 then decide (tab.1 = 0) else sectionOk l.length tab && apart code tab && apart desc tab) &&
    decide (1 ≤ h.1 ∧ h.1 ≤ 4 ∧ 1 ≤ h.2.1 ∧ h.2.2.1 ≤ 64 ∧ 1 ≤ h.2.2.2 ∧ h.2.2.2 ≤ 256 ∧ desc.2 = 8 + 8 * (h.1 + h.2.1))

/-- The words of the code section. -/
def imgCode (l : List Byte) : List (BitVec 32) :=
  (List.range (imgWord l 0x14 / 4)).map (fun i => BitVec.ofNat 32 (imgWord l (imgWord l 0x10 + 4 * i)))

/-- The offsets of the entry records. -/
def entryOffs (l : List Byte) : List Nat := (List.range (imgHead l).1).map (fun i => imgWord l 0x18 + 8 + 8 * i)

/-- The offsets of the column records. -/
def columnOffs (l : List Byte) : List Nat := (List.range (imgHead l).2.1).map (fun i => imgWord l 0x18 + 8 + 8 * ((imgHead l).1 + i))

/-- The entry records ENTRY, CODE_WORD, MAX_CYCLES. -/
def imgEntries (l : List Byte) : List (Nat × Nat × Nat) := (entryOffs l).map (fun o => (rdle l o 1, rdle l (o + 2) 2, rdle l (o + 4) 4))

/-- The column records ROW, ROLE, KIND, SCALE, SRC, IDX. -/
def imgColumns (l : List Byte) : List (List Int) :=
  (columnOffs l).map (fun o => [(rdle l o 2 : Int), (rdle l (o + 2) 1 : Int), (rdle l (o + 3) 1 : Int), rdI l (o + 4) 1,
    (rdle l (o + 5) 1 : Int), (rdle l (o + 6) 1 : Int)])

/-- A table's header TAB, DIMS, K1, S1, K2, S2, X0, Z0 at an offset. -/
def tableHead (l : List Byte) (o : Nat) : List Int :=
  ((List.range 6).map (fun i => (rdle l (o + i) 1 : Int))) ++ [rdI l (o + 8) 2, rdI l (o + 10) 2]

/-- The number of a table's values; none where its header gives no size (R135). -/
def tableSize? (h : List Int) : Option Nat :=
  let k1 := (nth 0 h 2).toNat
  let k2 := (nth 0 h 4).toNat
  if nth 0 h 1 = 1 ∧ 1 ≤ k1 ∧ k1 ≤ 10 then some (2 ^ k1 + 1)
  else if nth 0 h 1 = 2 ∧ 1 ≤ k1 ∧ k1 ≤ 10 ∧ 1 ≤ k2 ∧ k2 ≤ 10 then some ((2 ^ k1 + 1) * (2 ^ k2 + 1))
  else none

/-- The tables that stand in the section from an offset on, with their offsets, and whether n tables fill it whole. -/
def walkTables (l : List Byte) (last : Nat) : Nat → Nat → List (Nat × List Int × List Int) × Bool
  | 0, o => ([], decide (o = last))
  | n + 1, o =>
    let h := tableHead l o
    match tableSize? h with
    | none => ([], false)
    | some c =>
      let next := o + 16 + (2 * c + 15) / 16 * 16
      if last < next then ([], false)
      else
        let r := walkTables l last n next
        ((o, h, (List.range c).map (fun i => rdI l (o + 16 + 2 * i) 2)) :: r.1, r.2)

/-- The tables of an image. -/
def imgTables (l : List Byte) : List (Nat × List Int × List Int) × Bool :=
  walkTables l (imgWord l 0x20 + imgWord l 0x24) (imgHead l).2.2.1 (imgWord l 0x20)

/-- The image that the bytes spell. -/
def imageOf (l : List Byte) : Image where
  id := imgWord l 8
  ver := imgWord l 12
  selfWrite := (rdle l 6 2).testBit 0
  code := imgCode l
  weight := (imgHead l).2.2.2
  entries := imgEntries l
  columns := imgColumns l
  tables := (imgTables l).1.map Prod.snd
  bytes := l

end Sys2Proof.Machine
end

