-- ==== Sys2Proof/Machine/Numbers.lean ====
section
/-! DEFINITION. Rational arithmetic of the estimator: rounding, roots, exponentials, the demodulation of a burst. -/
namespace Sys2Proof.Machine
open Sys2Proof

/-! ### Numbers -/

/-- A rational held between two bounds. -/
def clampR (lo hi v : Rat) : Rat := if v < lo then lo else if hi < v then hi else v
/-- A rational as a code in 0…top, rounded half away from zero. -/
def codeN (top : Nat) (v : Rat) : Nat := (clampI 0 top (rround v)).toNat
/-- A rational rounded down, as a count; 0 below zero. -/
def floorN (v : Rat) : Nat := (max 0 v.floor).toNat
/-- The least root whose square is not below a number, within n bits. -/
def rootUp : Nat → Nat → Nat
  | 0, _ => 0
  | n + 1, v =>
    let h := rootUp n ((v + 3) / 4)
    let c := 2 * h
    if 2 ≤ c ∧ v ≤ (c - 2) * (c - 2) then c - 2 else if 1 ≤ c ∧ v ≤ (c - 1) * (c - 1) then c - 1 else c
/-- The greatest root whose square is not above a number, within n bits. -/
def rootDown : Nat → Nat → Nat
  | 0, _ => 0
  | n + 1, v =>
    let h := 2 * rootDown n (v / 4)
    if (h + 1) * (h + 1) ≤ v then h + 1 else h
/-- Insertion of a rational in ascending order. -/
def insR (x : Rat) : List Rat → List Rat
  | [] => [x]
  | y :: r => if x ≤ y then x :: y :: r else y :: insR x r
/-- The median of rationals; of an even number, the mean of the middle two. -/
def medianR (l : List Rat) : Rat :=
  let m := l.foldr insR []
  let n := m.length
  if n % 2 = 1 then m.getD (n / 2) 0 else (m.getD (n / 2 - 1) 0 + m.getD (n / 2) 0) / 2
/-- The least rational of a list, or a default. -/
def minR (d : Rat) (l : List Rat) : Rat := l.foldl (fun a b => if b < a then b else a) (l.head?.getD d)
/-- A bank setting in units of 0.001 % as a fraction. -/
def State.parPct (s : State) (code : Nat) : Rat := (s.par code : Rat) / 100000
/-- A string current code from amperes (R11). -/
def currentCode (a : Rat) : Int := tempCode (rround (a * 20))

/-- A rational rounded down to 80 binary places: the precision kept of an exponential. -/
def fix80 (v : Rat) : Rat := ((v * 2 ^ 80).floor : Rat) / 2 ^ 80

/-- e to the power -x for x ≥ 0, by 24 terms of its series below 1/2 and squarings; below 2^-90 it is 0. -/
def expNeg (x : Rat) : Rat :=
  if x ≤ 0 then 1
  else if 64 < x then 0
  else
    let m := x.ceil.toNat.log2 + 2
    let y := x / 2 ^ m
    let series := ((List.range 24).foldl (fun (a : Rat × Rat) i => (a.1 + a.2, -a.2 * y / ((i + 1 : Nat) : Rat))) (0, 1)).1
    (List.range m).foldl (fun a _ => fix80 (a * a)) (fix80 series)

/-- The square root of a rational, rounded down to 60 binary places; 0 below zero. -/
def sqrtR (v : Rat) : Rat := ((rootDown 128 (floorN (v * 2 ^ 120)) : Nat) : Rat) / 2 ^ 60

/-! ### Demodulation (R164, R165) -/

/-- Cosine of n × 30° in units of 1/2 and √3/2: the two integer parts. -/
def cos30 (n : Nat) : Int × Int :=
  match n % 12 with
  | 0 => (2, 0) | 1 => (0, 1) | 2 => (1, 0) | 3 => (0, 0) | 4 => (-1, 0) | 5 => (0, -1) | 6 => (-2, 0) | 7 => (0, -1)
  | 8 => (-1, 0) | 9 => (0, 0) | 10 => (1, 0) | _ => (0, 1)

/-- Peak amplitude at harmonic h of 384 samples, in 1/2^20 of their unit, rounded down (R164); √3 to 2^-40. -/
def demod (h : Nat) (l : List Int) : Nat :=
  let idx := List.range 384
  let part (sh : Nat) : Int :=
    idx.foldl (fun t n => let c := cos30 (n * h / 2 + sh); t + nth 0 l n * (c.1 * 2 ^ 40 + c.2 * 1904410002820)) 0
  let ci := (part 0).natAbs
  let cq := (part 9).natAbs
  rootDown 80 ((ci * ci + cq * cq) / 2 ^ 40) / 384

end Sys2Proof.Machine
end

