-- ==== Sys2Proof/Machine/Kernel.lean ====
section
/-! DEFINITION. Kernel words, images, the DMA engine and the issue of one rod instruction (chapters 4 and 5). -/
namespace Sys2Proof.Machine
open Sys2Proof

/-! ### Instruction words (R131, R132) -/

/-- Format R. -/
def kR (op d a b k n : Nat) : Nat :=
  op * 2 ^ 26 + d % 16 * 2 ^ 22 + a % 16 * 2 ^ 18 + b % 16 * 2 ^ 14 + k % 4 * 2 ^ 12 + n % 16 * 2 ^ 8
/-- Format T. -/
def kT (op d a b tab : Nat) : Nat :=
  op * 2 ^ 26 + d % 16 * 2 ^ 22 + a % 16 * 2 ^ 18 + b % 16 * 2 ^ 14 + tab % 64 * 2 ^ 8
/-- Format M. -/
def kM (op d x off : Nat) : Nat := op * 2 ^ 26 + d % 16 * 2 ^ 22 + x % 16 * 2 ^ 18 + off % 2 ^ 18
/-- Format I. -/
def kI (op d : Nat) (imm : Int) : Nat := op * 2 ^ 26 + d % 16 * 2 ^ 22 + ux 22 imm
/-- Format B. -/
def kB (op c x : Nat) (off : Int) : Nat := op * 2 ^ 26 + c % 16 * 2 ^ 22 + x % 16 * 2 ^ 18 + ux 16 off

/-- The unused fields of a format R word are zero: D, A, B, K, N as flagged used (R131). -/
def kRok (w : Nat) (d a b k n : Bool) : Bool :=
  decide (fld w 7 0 = 0 ∧ (d = false → fld w 25 22 = 0) ∧ (a = false → fld w 21 18 = 0) ∧ (b = false → fld w 17 14 = 0) ∧
    (k = false → fld w 13 12 = 0) ∧ (n = false → fld w 11 8 = 0))

/-- A data scalar. -/
def sData (r : Nat) : Bool := decide (r < 8)
/-- An index scalar. -/
def sIdx (r : Nat) : Bool := decide (8 ≤ r)

/-- A word is legal under R131 and R132, with the register classes of R127. -/
def kLegal (w : Nat) : Bool :=
  let d := fld w 25 22
  let a := fld w 21 18
  let b := fld w 17 14
  match fld w 31 26 with
  | 0x00 => decide (w = 0)
  | 0x01 => kRok w true true true false false
  | 0x02 => kRok w true true true false false
  | 0x03 => kRok w true true false false false
  | 0x04 => kRok w true true false false false
  | 0x05 => kRok w true true true false false
  | 0x06 => kRok w true true true false false
  | 0x07 => kRok w true true false false false
  | 0x08 => kRok w true true true false false
  | 0x09 => kRok w true true false false true
  | 0x0A => kRok w true true false false true
  | 0x0B => kRok w true true true false false
  | 0x0C => kRok w false true true false false
  | 0x0D => kRok w false true true false false
  | 0x0E => kRok w true true true false false
  | 0x0F => kRok w true true true false false && sIdx b
  | 0x10 => kRok w false true true true false
  | 0x11 => kRok w false true true true false
  | 0x12 => kRok w false true false true true
  | 0x13 => kRok w false true false true true
  | 0x14 => kRok w true false false true true
  | 0x15 => kRok w false false false true false
  | 0x16 => kRok w true false false true false && sData d
  | 0x17 => kRok w true true false false false && sData d
  | 0x18 => kRok w true true false false true && sData a
  | 0x19 => kRok w true true true false false && (sData d == sData a) && (sData a == sData b)
  | 0x1A => kRok w true true true false false && (sData d == sData a) && (sData a == sData b)
  | 0x1B => kRok w true true true false false && sIdx d && sIdx a && sIdx b
  | 0x1C => true
  | 0x1D => decide (fld w 21 16 = 0 ∧ fld w 15 0 ≠ 0x8000)
  | 0x1E => kRok w false true true false false && (sData a == sData b)
  | 0x20 => sIdx a && decide (fld w 17 0 % 32 = 0)
  | 0x21 => sIdx a && decide (fld w 17 0 % 32 = 0)
  | 0x22 => decide (fld w 7 0 = 0 ∧ b = 0)
  | 0x23 => decide (fld w 7 0 = 0)
  | 0x24 => decide (d = 0 ∧ fld w 21 16 = 0)
  | 0x25 => kRok w true false false false false && sIdx d
  | 0x26 => kRok w false true false false false && sIdx a
  | 0x27 => kRok w false true false false false && sIdx a
  | 0x30 => decide (d ≤ 9 ∧ a = 0 ∧ fld w 17 16 = 0)
  | 0x31 => decide (d = 0 ∧ fld w 17 16 = 0) && sIdx a
  | 0x32 => decide (d = 0 ∧ a = 0 ∧ fld w 17 16 = 0)
  | 0x33 => kRok w false false false false false
  | 0x34 => kRok w false false false false false
  | 0x35 => kRok w false false false false false
  | 0x36 => sIdx d && sIdx a && decide (fld w 17 0 % 4 = 0)
  | _ => false

/-! ### Images (R136-R138, R144) -/

/-- The image of a factory kernel, as the firmware carries it, under its KERNEL_ID (R144, log entry 8). -/
def factoryBytes (id : Nat) : List Byte :=
  let l := Config.factoryBytes id
  l.take 8 ++ le 4 id ++ l.drop 12

/-- A factory kernel: the image that its bytes spell (R136, R144). -/
def factoryImage (id : Nat) : Image := { imageOf (factoryBytes id) with id := id }

/-- The image in service (R144). -/
def State.image (s : State) : Image := s.sched.service.getD (factoryImage 1)
/-- The image that was in service after a number of kernel exchanges (R130, R142). -/
def State.imageAt (s : State) (x : Nat) : Image :=
  if s.sched.xgen ≤ x then s.image else nth (factoryImage 1) s.sched.past (s.sched.xgen - 1 - x)
/-- The image a rod runs: the old one until it has reloaded (R142). -/
def State.rodImage (s : State) (n : Nat) : Image := s.imageAt (s.rod n).img
/-- The image whose columns a cell's words have (R130). -/
def State.cellImage (s : State) (c : Cell) : Image := s.imageAt c.xgen

/-- ROW of a column. -/
def colRow (c : List Int) : Nat := (nth 0 c 0).toNat
/-- ROLE of a column. -/
def colRole (c : List Int) : Int := nth 0 c 1
/-- KIND of a column. -/
def colKind (c : List Int) : Int := nth 0 c 2
/-- SCALE of a column. -/
def colScale (c : List Int) : Int := nth 0 c 3
/-- SRC of a column. -/
def colSrc (c : List Int) : Int := nth 0 c 4
/-- IDX of a column. -/
def colIdx (c : List Int) : Nat := (nth 0 c 5).toNat

/-- The state column of an IDX. -/
def Image.stateCol? (im : Image) (idx : Nat) : Option (List Int) :=
  im.columns.find? (fun c => decide (colRole c = 2 ∧ colIdx c = idx))
/-- The lowest-IDX state column of KIND 0x04: the SOC word (R154). -/
def Image.socIdx (im : Image) : Nat :=
  (((List.range 32).filter (fun i => im.columns.any (fun c => decide (colRole c = 2 ∧ colIdx c = i ∧ colKind c = 4)))).head?).getD 0
/-- The result column of a number. -/
def Image.resultCol? (im : Image) (idx : Nat) : Option (List Int) :=
  im.columns.find? (fun c => decide (colRole c = 3 ∧ colIdx c = idx))
/-- The entry record of an ENTRY. -/
def Image.entry? (im : Image) (e : Nat) : Option (Nat × Nat × Nat) := im.entries.find? (fun r => decide (r.1 = e))
/-- The table of a number. -/
def Image.table? (im : Image) (t : Nat) : Option (List Int × List Int) :=
  im.tables.find? (fun x => decide (nth 0 x.1 0 = (t : Int)))

/-- A power of two as a rational. -/
def pow2 (e : Int) : Rat := if 0 ≤ e then ((2 ^ e.toNat : Nat) : Rat) else 1 / ((2 ^ (-e).toNat : Nat) : Rat)
/-- The physical value of a Q15 code at a scale (R130). -/
def q15Val (q e : Int) : Rat := (q : Rat) / 32768 * pow2 e
/-- The Q15 code of a physical value at a scale (R130). -/
def q15Of (v : Rat) (e : Int) : Int := satQ (rround (v * 32768 / pow2 e))

/-! ### Cell state words (R29, R143, R154, R156) -/

/-- The state words of the current half (R29). -/
def Cell.words (c : Cell) : Tbl Int := if c.half then c.half1 else c.half0

/-- One word reconciled with the column the old image declared (R143): the word, and whether it was set to 0. -/
def reconcileWord (old new : Image) (i : Nat) (q : Int) : Int × Bool :=
  match new.stateCol? i with
  | none => (q, false)
  | some n =>
    match old.stateCol? i with
    | none => (0, true)
    | some o =>
      if colKind o ≠ colKind n then (0, true)
      else if colScale o = colScale n then (q, false)
      else if colScale n ≤ colScale o then (satQ (q * 2 ^ (colScale o - colScale n).toNat), false)
      else (satQ (rnd q (colScale n - colScale o).toNat), false)

/-- The words supplied to the kernel of a rod, by the kernel exchanges before its image: as they stand, or reconciled at the first
update under another image than wrote them; a word set to 0 makes the state cold but for words 0 and 6 (R143, R156). -/
def State.supply (s : State) (x : Nat) (c : Cell) : Tbl Int :=
  if c.xgen = x then c.words
  else
    let rs := (List.range 32).map (fun i => (i, reconcileWord (s.imageAt c.xgen) (s.imageAt x) i (tget (0 : Int) c.words i)))
    let cold := rs.any (fun r => r.2.2)
    rs.foldl (fun t r => tset (0 : Int) t r.1 (if cold ∧ r.1 ≠ 0 ∧ r.1 ≠ 6 then 0 else r.2.1)) []

/-! ### The state-word contract (R154) -/

/-- A word of a cell at its scale, when the image declares a state column of the IDX with the KIND (R154). -/
def wordPhys (im : Image) (w : Tbl Int) (idx kind : Nat) : Option Rat :=
  match im.stateCol? idx with
  | some c => if colKind c = (kind : Int) then some (q15Val (tget (0 : Int) w idx) (colScale c)) else none
  | none => none

/-- The contract's words after the SOC word, in table order: IDX and KIND (R154). -/
def contractWords : List (Nat × Nat) :=
  [(5, 1), (6, 4), (7, 9), (8, 3), (9, 3), (10, 5), (11, 8), (12, 1), (13, 1), (14, 1), (15, 7), (16, 8)]

/-- The mask of missing words, bit 0 the SOC word (R154). -/
def Image.missing (im : Image) : Nat :=
  flag (!im.columns.any (fun c => decide (colRole c = 2 ∧ colKind c = 4))) 0 +
    ((List.range 12).map (fun i =>
      let r := nth (0, 0) contractWords i
      flag (!im.columns.any (fun c => decide (colRole c = 2 ∧ colIdx c = r.1 ∧ colKind c = (r.2 : Int)))) (i + 1))).sum

/-- Internal SOC of a cell, as a fraction (R154). -/
def socOf (im : Image) (w : Tbl Int) : Rat := (wordPhys im w im.socIdx 4).getD 0

/-! ### The DMA engine (R104, R128, R130, R138, R140, R172) -/

/-- Cells of an invocation, in string order (R103). -/
def State.invCells (s : State) (k base : Nat) : List Nat := ((s.str k).cells.drop base).take 16

/-- A cell's voltage code of the sweep, none when missing or invalid. -/
def State.vcell? (s : State) (p : Nat) : Option Nat :=
  match s.record? (pointPort p) (pointPos p) with
  | some r => if recCell r (pointInput p) = 0xFFFF then none else some (recCell r (pointInput p))
  | none => none

/-- The record of a cell's node carries NOSYNC (R81). -/
def State.nosyncOf (s : State) (p : Nat) : Bool :=
  match s.record? (pointPort p) (pointPos p) with
  | some r => (recFlags r).testBit 0
  | none => false

/-- A burst's samples of a cell are all present and valid; a NOSYNC sample is an invalid one (R140, R163). -/
def Cell.burstOk (c : Cell) : Bool := decide (c.burst.length = 384) && c.burst.all (fun v => decide (v ≠ 0xFFFF))

/-- A voltage code; none for the invalid one (R11). -/
def codeV? (v : Nat) : Option Nat := if v = 0xFFFF then none else some v

/-- The voltage codes that VCELL and VPREV supply to an entry (R140, R172). -/
def State.voltages (s : State) (entry p : Nat) : Option Nat × Option Nat :=
  let c := s.cell p
  if entry = 2 then (c.learn.bind (fun x => codeV? x.2.v), c.learn.bind (fun x => codeV? x.1.v))
  else (if entry = 3 ∧ s.nosyncOf p then none else s.vcell? p, codeV? c.pub.v)

/-- DT of a cell in seconds (R140, R172). -/
def State.dtOf (s : State) (entry k p : Nat) : Rat :=
  if entry = 2 then ((((s.str k).learn.map Prod.fst).getD 0 : Nat) : Rat) / 200000000
  else (((s.sampleAt - (s.cell p).at_.getD s.sampleAt : Nat) : Nat) : Rat) / 200000000

/-- ISTR of a cell in A (R155, R172). -/
def State.istrOf (s : State) (entry k p : Nat) : Option Rat :=
  if entry = 2 then
    match (s.cell p).learn, (s.str k).learn with
    | some x, some l => some (((x.2.net - x.1.net : Int) : Rat) / 1000 / (max 1 l.1 : Nat))
    | _, _ => none
  else s.cellAmps? k p

/-- NPCAP of a string's learned records, 0.02 Ah; 0 while it is not set (R173). -/
def State.npcapWord (s : State) (k : Nat) : Nat :=
  if s.parStr 0x3502 k = unsetOf 0x3502 then 0 else (clampI 0 65535 (rdiv (s.parStr 0x3502 k) 20)).toNat
/-- IRATED of a string's learned records, a current code; 0 while it is not set (R173). -/
def State.iratedWord (s : State) (k : Nat) : Nat :=
  if s.parStr 0x3501 k = unsetOf 0x3501 then 0 else (clampI 0 65535 (rdiv (s.parStr 0x3501 k) 50)).toNat

/-- LEARNED word n at its physical value (R173). -/
def State.learnedWord (s : State) (k p n : Nat) : Rat :=
  let l := (s.cell p).learned
  match n with
  | 0 => (l.cap : Rat) / 50
  | 1 => (l.r0 : Rat) / 1000000
  | 2 => (l.diff : Rat) / 1000000
  | 3 => (l.sdr : Rat) / 100000000000
  | 4 => (s.npcapWord k : Rat) / 50
  | 5 => (s.iratedWord k : Rat) / 20
  | _ => 0

/-- The physical value an input source supplies for a cell, 0 when invalid (R140). -/
def State.inputVal (s : State) (entry k p : Nat) (src : Int) (idx : Nat) : Rat :=
  match src with
  | 1 => (((s.voltages entry p).1.getD 0 : Nat) : Rat) / 10000
  | 2 => (((s.voltages entry p).2.getD 0 : Nat) : Rat) / 10000
  | 3 =>
    if entry = 2 then
      match (s.cell p).learn with
      | some x => ((x.1.t + x.2.t : Int) : Rat) / 200
      | none => 0
    else (s.pointT p : Rat) / 100
  | 4 => (s.istrOf entry k p).getD 0
  | 5 => s.dtOf entry k p
  | 6 => s.learnedWord k p idx
  | _ => 0

/-- A row of 16 values, cells beyond the invocation's zero (R103). -/
def row16 (l : List Int) : List Int := padTo 16 0 l

/-- The rows one declared column loads into bank A of a rod whose image came with the x-th kernel exchange (R138, R140). -/
def State.loadCol (s : State) (x entry k : Nat) (ps : List Nat) (c : List Int) : List (Nat × List Int) :=
  if colRole c = 1 ∧ colSrc c = 7 then
    (List.range 384).map (fun j => (colRow c + j,
      row16 (ps.map (fun p =>
        if (s.cell p).burstOk then q15Of (((nth 0 (s.cell p).burst j : Nat) : Rat) / 10000) (colScale c) else 0))))
  else if colRole c = 1 then
    [(colRow c, row16 (ps.map (fun p => q15Of (s.inputVal entry k p (colSrc c) (colIdx c)) (colScale c))))]
  else if colRole c = 2 then
    [(colRow c, row16 (ps.map (fun p => tget (0 : Int) (s.supply x (s.cell p)) (colIdx c))))]
  else []

/-- The masks S8…S11 of an invocation (R128, R140). -/
def State.invMasks (s : State) (im : Image) (entry k : Nat) (ps : List Nat) : List Nat :=
  let idx := List.range ps.length
  let m (f : Nat → Bool) : Nat := (idx.map (fun i => flag (f (nth 0 ps i)) i)).sum
  let burst := im.columns.any (fun c => decide (colRole c = 1 ∧ colSrc c = 7)) && decide (entry = 3)
  let settled := decide (entry = 2) || s.settled (keyPort k)
  [m (fun _ => true),
   m (fun p => settled && (s.voltages entry p).1.isSome && (!burst || (s.cell p).burstOk)),
   m (fun p => (s.voltages entry p).2.isSome),
   if ps.all (fun p => (s.istrOf entry k p).isSome) then 0xFFFF else 0]

/-- The registers at the start of a pass (R128). -/
def RodCtx.begin (c : RodCtx) (im : Image) (passB : Bool) : RodCtx :=
  let si := (List.range 4).foldl (fun t i => tset (0 : BitVec 32) t (8 + i) (BitVec.ofNat 32 (nth 0 c.masks i))) []
  { c with passB := passB, v := [], a := [], sd := [], si := tset (0 : BitVec 32) si 12 (BitVec.ofNat 32 c.n),
           lm := BitVec.ofNat 16 (nth 0 c.masks 0), lt := false, eq := false, gt := false,
           pc := ((im.entry? c.entry).map (fun e => e.2.1)).getD 0, stack := [], overlay := [], window := [],
           passCycles := 0, fault := none, ended := false }

/-- An invocation loaded on a rod: bank A unchanged, bank B negated, both by cell (R104, R106, R128). -/
def State.loadCtx (s : State) (n k base entry cls : Nat) : RodCtx :=
  let im := s.rodImage n
  let ps := s.invCells k base
  let rows := im.columns.flatMap (s.loadCol (s.rod n).img entry k ps)
  let a := rows.foldl (fun t r => tset (List.replicate 16 (0 : Int)) t r.1 r.2) []
  let b := rows.foldl (fun t r => tset (List.replicate 16 (0 : Int)) t r.1 (r.2.map (fun x => -x))) []
  let c : RodCtx :=
    { RodCtx.reset with bankA := a, bankB := b, entry := entry, string := k, base := base, n := ps.length,
                        gen := (s.ring (keyPort k)).gen, cls := cls, at_ := s.sampleAt, settled := s.settled (keyPort k),
                        ins := ps.map (fun p => ((s.voltages entry p).1.getD 0xFFFF, s.pointT p, s.istrOf entry k p)), masks := s.invMasks im entry k ps,
                        maxCycles := ((im.entry? entry).map (fun e => e.2.2)).getD 1000000 }
  c.begin im false

/-! ### Lanes and signatures (R106, R107) -/

/-- off of a window (R106). -/
def Rod.off (r : Rod) : Nat := 1 + r.wseq.toNat % 15
/-- The lane of a cell in a pass (R103, R106). -/
def Rod.lane (r : Rod) (passB : Bool) (cell : Nat) : Nat := if passB then (cell + r.off) % 16 else cell

/-- fold() of R107. -/
def foldSig (sig w : BitVec 32) : BitVec 32 :=
  let x := (sig <<< 1) ^^^ w
  if bit sig 31 then x ^^^ 0x1EDC6F41 else x

/-- The 16 stored values folded in ascending cell order, negated in pass B (R107). -/
def foldRow (passB : Bool) (sig : BitVec 32) (vs : List Int) : BitVec 32 :=
  vs.foldl (fun g v => foldSig g (BitVec.ofInt 32 (if passB then -v else v))) sig

/-! ### Fetch and prefetch (R147, R148) -/

/-- A word of code memory through the overlay. -/
def RodCtx.code? (c : RodCtx) (im : Image) (a : Nat) : Option (BitVec 32) :=
  if a < im.code.length then some ((tfind? c.overlay a).getD (nth 0 im.code a)) else none

/-- The word at PC: the copy in the window, else code memory. -/
def RodCtx.word? (c : RodCtx) (im : Image) : Option (BitVec 32) :=
  match tfind? c.window c.pc with
  | some w => some w
  | none => c.code? im c.pc

/-- The window over four words from an address on; copies already held are kept when `keep`. -/
def RodCtx.fill (c : RodCtx) (im : Image) (a : Nat) (keep : Bool) : RodCtx :=
  { c with window := (List.range 4).foldl (fun t i =>
      match (if keep then tfind? c.window (a + i) else none), c.code? im (a + i) with
      | some w, _ => tput t (a + i) w
      | none, some w => tput t (a + i) w
      | none, none => t) [] }

/-- A taken transfer to an address: the window is refilled there; an address outside the code section is PC (R145). -/
def RodCtx.jump (c : RodCtx) (im : Image) (target : Int) : RodCtx :=
  if target < 0 ∨ (im.code.length : Int) ≤ target then { c with fault := some (7, c.pc - 1) }
  else ({ c with pc := target.toNat }).fill im target.toNat false

/-- The fault of a pass, at the instruction issued last. -/
def RodCtx.faults (c : RodCtx) (code : Nat) : RodCtx := { c with fault := some (code, c.pc - 1) }

/-! ### Kernel faults (R145, R146, R109) -/

/-- A fault has ended the pass of a rod: in pass A it is a kernel fault, logged, and the window is discarded; in pass B,
where pass A had none, it is a signature mismatch; the faults of the tenant-0 image in service count (R109, R146). -/
def State.kernelFault (s : State) (n : Nat) (c : RodCtx) : State :=
  let im := s.rodImage n
  let f := c.fault.getD (0, 0)
  if c.passB then
    s.modRod n fun r => { r with forced := true, ctx := { c with ended := true, cycles := c.cycles + c.passCycles } }
  else
    let s1 := s.modRod n fun r =>
      { r with tainted := true, ctx := { c with ended := true, faultA := c.fault, cycles := c.cycles + c.passCycles } }
    let s2 := s1.raise 0x0401 [im.id, (c.entry * 256 + f.1 : Nat), f.2, keyPort c.string, keyId c.string]
    if im.id < 0x10000 ∨ (s.rod n).img ≠ s.sched.xgen then s2
    else s2.onSched fun q => { q with faults := (s.clock :: q.faults.filter (fun t => decide (s.clock < t + secs 10))).take 16 }

/-- The pass after the instruction at a word address: a fault, the cycle limit, a PC beyond the code section, or the next
instruction; a fault names that instruction (R145, R149). -/
def State.afterIssue (s : State) (n pc : Nat) (im : Image) (c : RodCtx) : State :=
  let c1 :=
    if c.fault.isSome then c
    else if c.maxCycles < c.passCycles then { c with fault := some (5, pc) }
    else if !c.ended ∧ im.code.length ≤ c.pc then { c with fault := some (7, pc) }
    else c
  if c1.fault.isSome then s.kernelFault n c1
  else s.modRod n fun r => { r with ctx := c1 }

/-- A pass is in progress on a rod. -/
def Rod.inPass (r : Rod) : Bool := decide (r.ctx.entry ≠ 0) && !r.ctx.ended

/-- One instruction issues on a rod: its word is the one fetched at PC; an illegal fetched word is ILLEGAL; the next
words enter the window, PC and the cycles advance, and the instruction runs; `sigs` gives the rod's signature
registers after it (R107, R131, R145, R147). -/
def State.issueFold (s : State) (n w cyc stall : Nat) (run : Image → RodCtx → RodCtx) (sigs : RodCtx → Rod → Rod) : State :=
  let c := (s.rod n).ctx
  let im := s.rodImage n
  if !(s.rod n).inPass then s
  else
    match c.word? im with
    | none => s.kernelFault n { c with fault := some (7, c.pc) }
    | some v =>
      if !kLegal v.toNat then s.kernelFault n { c with fault := some (1, c.pc) }
      else if v.toNat ≠ w then s
      else
        let c1 := c.fill im (c.pc + 1) true
        let c2 := run im { c1 with pc := c.pc + 1, passCycles := c.passCycles + cyc + stall }
        (s.modRod n (sigs c)).afterIssue n c.pc im c2

/-- An instruction that folds nothing. -/
def State.issue (s : State) (n w cyc stall : Nat) (run : Image → RodCtx → RodCtx) : State :=
  s.issueFold n w cyc stall run (fun _ r => r)

end Sys2Proof.Machine
end

