-- ==== Sys2Proof/Machine/RodIsa.lean ====
section
/-! DEFINITION. The rod instruction set: one meaning per instruction (R132-R134, R145, R147, R148). -/
namespace Sys2Proof.Machine
open Sys2Proof

/-! ### Registers (R127, R129) -/

/-- A data value as the pass holds it: negated in pass B (R105). -/
def RodCtx.data (c : RodCtx) (v : Int) : Int := if c.passB then -v else v
/-- The 16 cells of V[r]. -/
def RodCtx.vget (c : RodCtx) (r : Nat) : List Int := tget (List.replicate 16 0) c.v (r % 16)
/-- V[r] written by cell. -/
def RodCtx.vput (c : RodCtx) (r : Nat) (f : Nat → Int) : RodCtx :=
  { c with v := tset (List.replicate 16 (0 : Int)) c.v (r % 16) ((List.range 16).map f) }
/-- The value of V[r] in a cell. -/
def RodCtx.vc (c : RodCtx) (r i : Nat) : Int := nth 0 (c.vget r) i
/-- The accumulator cell of A[k]. -/
def RodCtx.ac (c : RodCtx) (k i : Nat) : Int := nth 0 (tget (List.replicate 16 0) c.a (k % 4)) i
/-- A[k] written by cell. -/
def RodCtx.aput (c : RodCtx) (k : Nat) (f : Nat → Int) : RodCtx :=
  { c with a := tset (List.replicate 16 (0 : Int)) c.a (k % 4) ((List.range 16).map f) }
/-- A data scalar. -/
def RodCtx.sd_ (c : RodCtx) (r : Nat) : Int := tget 0 c.sd (r % 16)
/-- A data scalar written. -/
def RodCtx.sdPut (c : RodCtx) (r : Nat) (v : Int) : RodCtx := { c with sd := tset (0 : Int) c.sd (r % 16) v }
/-- An index scalar. -/
def RodCtx.sx_ (c : RodCtx) (r : Nat) : BitVec 32 := tget 0 c.si (r % 16)
/-- An index scalar written. -/
def RodCtx.sxPut (c : RodCtx) (r : Nat) (v : BitVec 32) : RodCtx := { c with si := tset (0 : BitVec 32) c.si (r % 16) v }
/-- The bank of the pass (R102). -/
def RodCtx.bank (c : RodCtx) : Tbl (List Int) := if c.passB then c.bankB else c.bankA
/-- A row of the work area written. -/
def RodCtx.rowPut (c : RodCtx) (row : Nat) (vs : List Int) : RodCtx :=
  if c.passB then { c with bankB := tset (List.replicate 16 (0 : Int)) c.bankB row vs }
  else { c with bankA := tset (List.replicate 16 (0 : Int)) c.bankA row vs }
/-- LM written by cell. -/
def RodCtx.lmPut (c : RodCtx) (f : Nat → Bool) : RodCtx :=
  { c with lm := BitVec.ofNat 16 (((List.range 16).map (fun i => flag (f i) i)).sum) }

/-- A meaning on one rod as the outcome of a step. -/
def rodRun (rod w cyc stall : Nat) (run : Image → RodCtx → RodCtx) (s : State) : Host.Outcome State Fault Refusal :=
  .next (s.issue rod w cyc stall run)

/-! ### Vector instructions -/

/-- NOP (R132). -/
def execNop (rod stall : Nat) (s : State) : Host.Outcome State Fault Refusal := rodRun rod 0 1 stall (fun _ c => c) s

/-- VADD (R132). -/
def execVadd (rod stall d a b : Nat) (s : State) : Host.Outcome State Fault Refusal :=
  rodRun rod (kR 0x01 d a b 0 0) 1 stall (fun _ c => c.vput d fun i => satQ (c.vc a i + c.vc b i)) s

/-- VSUB (R132). -/
def execVsub (rod stall d a b : Nat) (s : State) : Host.Outcome State Fault Refusal :=
  rodRun rod (kR 0x02 d a b 0 0) 1 stall (fun _ c => c.vput d fun i => satQ (c.vc a i - c.vc b i)) s

/-- VNEG (R132). -/
def execVneg (rod stall d a : Nat) (s : State) : Host.Outcome State Fault Refusal :=
  rodRun rod (kR 0x03 d a 0 0 0) 1 stall (fun _ c => c.vput d fun i => -(c.vc a i)) s

/-- VABS: in pass B the result is negated (R132). -/
def execVabs (rod stall d a : Nat) (s : State) : Host.Outcome State Fault Refusal :=
  rodRun rod (kR 0x04 d a 0 0 0) 1 stall (fun _ c => c.vput d fun i => c.data ((c.vc a i).natAbs : Int)) s

/-- VMAX: the minimum in pass B (R132). -/
def execVmax (rod stall d a b : Nat) (s : State) : Host.Outcome State Fault Refusal :=
  rodRun rod (kR 0x05 d a b 0 0) 1 stall (fun _ c => c.vput d fun i =>
    if c.passB then min (c.vc a i) (c.vc b i) else max (c.vc a i) (c.vc b i)) s

/-- VMIN: the maximum in pass B (R132). -/
def execVmin (rod stall d a b : Nat) (s : State) : Host.Outcome State Fault Refusal :=
  rodRun rod (kR 0x06 d a b 0 0) 1 stall (fun _ c => c.vput d fun i =>
    if c.passB then max (c.vc a i) (c.vc b i) else min (c.vc a i) (c.vc b i)) s

/-- VMOV (R132). -/
def execVmov (rod stall d a : Nat) (s : State) : Host.Outcome State Fault Refusal :=
  rodRun rod (kR 0x07 d a 0 0 0) 1 stall (fun _ c => c.vput d fun i => c.vc a i) s

/-- VMUL: the product is negated before rounding in pass B (R132). -/
def execVmul (rod stall d a b : Nat) (s : State) : Host.Outcome State Fault Refusal :=
  rodRun rod (kR 0x08 d a b 0 0) 1 stall (fun _ c => c.vput d fun i => satQ (rnd (c.data (c.vc a i * c.vc b i)) 15)) s

/-- VSHR (R132). -/
def execVshr (rod stall d a n : Nat) (s : State) : Host.Outcome State Fault Refusal :=
  rodRun rod (kR 0x09 d a 0 0 n) 1 stall (fun _ c => c.vput d fun i => rnd (c.vc a i) (n % 16)) s

/-- VSHL (R132). -/
def execVshl (rod stall d a n : Nat) (s : State) : Host.Outcome State Fault Refusal :=
  rodRun rod (kR 0x0A d a 0 0 n) 1 stall (fun _ c => c.vput d fun i => satQ (c.vc a i * 2 ^ (n % 16))) s

/-- VSEL (R132). -/
def execVsel (rod stall d a b : Nat) (s : State) : Host.Outcome State Fault Refusal :=
  rodRun rod (kR 0x0B d a b 0 0) 1 stall (fun _ c => c.vput d fun i => if bit c.lm i then c.vc a i else c.vc b i) s

/-- VCGT: the sense is reversed in pass B (R132). -/
def execVcgt (rod stall a b : Nat) (s : State) : Host.Outcome State Fault Refusal :=
  rodRun rod (kR 0x0C 0 a b 0 0) 1 stall (fun _ c => c.lmPut fun i =>
    if c.passB then decide (c.vc a i < c.vc b i) else decide (c.vc b i < c.vc a i)) s

/-- VCEQ (R132). -/
def execVceq (rod stall a b : Nat) (s : State) : Host.Outcome State Fault Refusal :=
  rodRun rod (kR 0x0D 0 a b 0 0) 1 stall (fun _ c => c.lmPut fun i => decide (c.vc a i = c.vc b i)) s

/-- QDIV: 0 in an unoccupied cell; a zero divisor in an occupied one is DIVZERO (R132, R145). -/
def execQdiv (rod stall d a b : Nat) (s : State) : Host.Outcome State Fault Refusal :=
  rodRun rod (kR 0x0E d a b 0 0) 8 stall (fun _ c =>
    if (List.range 16).any (fun i => decide (i < c.n ∧ c.vc b i = 0)) then c.faults 4
    else c.vput d fun i => if i < c.n then satQ (rdiv (c.data (c.vc a i * 32768)) (c.vc b i)) else 0) s

/-- VBCL: a cell number above 15 is ADDRESS (R132, R145). -/
def execVbcl (rod stall d a b : Nat) (s : State) : Host.Outcome State Fault Refusal :=
  rodRun rod (kR 0x0F d a b 0 0) 1 stall (fun _ c =>
    if 15 < (c.sx_ b).toNat then c.faults 2 else c.vput d fun _ => c.vc a (c.sx_ b).toNat) s

/-! ### Accumulators -/

/-- AMAC: the product is negated in pass B (R132). -/
def execAmac (rod stall k a b : Nat) (s : State) : Host.Outcome State Fault Refusal :=
  rodRun rod (kR 0x10 0 a b k 0) 1 stall (fun _ c => c.aput k fun i => sat40 (c.ac k i + c.data (c.vc a i * c.vc b i))) s

/-- AMSU: the product is negated in pass B (R132). -/
def execAmsu (rod stall k a b : Nat) (s : State) : Host.Outcome State Fault Refusal :=
  rodRun rod (kR 0x11 0 a b k 0) 1 stall (fun _ c => c.aput k fun i => sat40 (c.ac k i - c.data (c.vc a i * c.vc b i))) s

/-- ALDV (R132). -/
def execAldv (rod stall k a n : Nat) (s : State) : Host.Outcome State Fault Refusal :=
  rodRun rod (kR 0x12 0 a 0 k n) 1 stall (fun _ c => c.aput k fun i => c.vc a i * 2 ^ (n % 16)) s

/-- AADV (R132). -/
def execAadv (rod stall k a n : Nat) (s : State) : Host.Outcome State Fault Refusal :=
  rodRun rod (kR 0x13 0 a 0 k n) 1 stall (fun _ c => c.aput k fun i => sat40 (c.ac k i + c.vc a i * 2 ^ (n % 16))) s

/-- AEXT (R132). -/
def execAext (rod stall d k n : Nat) (s : State) : Host.Outcome State Fault Refusal :=
  rodRun rod (kR 0x14 d 0 0 k n) 1 stall (fun _ c => c.vput d fun i => satQ (rnd (c.ac k i) (n % 16))) s

/-- ACLR (R132). -/
def execAclr (rod stall k : Nat) (s : State) : Host.Outcome State Fault Refusal :=
  rodRun rod (kR 0x15 0 0 0 k 0) 1 stall (fun _ c => c.aput k fun _ => 0) s

/-- ARSUM: the saturating sum over cells 0…15 in ascending order (R132). -/
def execArsum (rod stall d k : Nat) (s : State) : Host.Outcome State Fault Refusal :=
  rodRun rod (kR 0x16 d 0 0 k 0) 2 stall (fun _ c =>
    c.sdPut d ((List.range 16).foldl (fun t i => sat40 (t + c.ac k i)) 0)) s

/-- VRSUM: the exact sum over cells 0…15 (R132). -/
def execVrsum (rod stall d a : Nat) (s : State) : Host.Outcome State Fault Refusal :=
  rodRun rod (kR 0x17 d a 0 0 0) 2 stall (fun _ c =>
    c.sdPut d ((List.range 16).foldl (fun t i => t + c.vc a i) 0)) s

/-- VBC (R132). -/
def execVbc (rod stall d a n : Nat) (s : State) : Host.Outcome State Fault Refusal :=
  rodRun rod (kR 0x18 d a 0 0 n) 1 stall (fun _ c => c.vput d fun _ => satQ (rnd (c.sd_ a) (n % 16))) s

/-! ### Scalars -/

/-- SADD (R132). -/
def execSadd (rod stall d a b : Nat) (s : State) : Host.Outcome State Fault Refusal :=
  rodRun rod (kR 0x19 d a b 0 0) 1 stall (fun _ c =>
    if d % 16 < 8 then c.sdPut d (sat40 (c.sd_ a + c.sd_ b)) else c.sxPut d (c.sx_ a + c.sx_ b)) s

/-- SSUB (R132). -/
def execSsub (rod stall d a b : Nat) (s : State) : Host.Outcome State Fault Refusal :=
  rodRun rod (kR 0x1A d a b 0 0) 1 stall (fun _ c =>
    if d % 16 < 8 then c.sdPut d (sat40 (c.sd_ a - c.sd_ b)) else c.sxPut d (c.sx_ a - c.sx_ b)) s

/-- SMUL (R132). -/
def execSmul (rod stall d a b : Nat) (s : State) : Host.Outcome State Fault Refusal :=
  rodRun rod (kR 0x1B d a b 0 0) 1 stall (fun _ c => c.sxPut d (c.sx_ a * c.sx_ b)) s

/-- SLI: a data immediate is negated in pass B (R132). -/
def execSli (rod stall d : Nat) (imm : Int) (s : State) : Host.Outcome State Fault Refusal :=
  rodRun rod (kI 0x1C d imm) 1 stall (fun _ c =>
    if d % 16 < 8 then c.sdPut d (c.data (sx 22 (ux 22 imm))) else c.sxPut d (BitVec.ofInt 32 (sx 22 (ux 22 imm)))) s

/-- VLI: the immediate is negated in pass B (R132). -/
def execVli (rod stall d imm : Nat) (s : State) : Host.Outcome State Fault Refusal :=
  rodRun rod (kI 0x1D d (imm % 65536 : Nat)) 1 stall (fun _ c => c.vput d fun _ => c.data (sx 16 imm)) s

/-- SCMP: for data, LT and GT are exchanged in pass B (R132). -/
def execScmp (rod stall a b : Nat) (s : State) : Host.Outcome State Fault Refusal :=
  rodRun rod (kR 0x1E 0 a b 0 0) 1 stall (fun _ c =>
    if a % 16 < 8 then
      { c with lt := decide (c.data (c.sd_ a) < c.data (c.sd_ b)), eq := decide (c.sd_ a = c.sd_ b),
               gt := decide (c.data (c.sd_ b) < c.data (c.sd_ a)) }
    else
      { c with lt := decide ((c.sx_ a).toNat < (c.sx_ b).toNat), eq := decide (c.sx_ a = c.sx_ b),
               gt := decide ((c.sx_ b).toNat < (c.sx_ a).toNat) }) s

/-! ### Loads, stores and tables -/

/-- The address of a format M operand. -/
def RodCtx.addr (c : RodCtx) (x off : Nat) : Nat := (c.sx_ x).toNat + off % 2 ^ 18

/-- An address of the work area (R102, R145). -/
def workOk (a : Nat) : Bool := decide (a ≤ 0x1FFFF ∧ a % 32 = 0)

/-- VLD (R132): an address outside the work area or misaligned is ADDRESS (R145). -/
def execVld (rod stall d x off : Nat) (s : State) : Host.Outcome State Fault Refusal :=
  rodRun rod (kM 0x20 d x off) 1 stall (fun _ c =>
    let a := c.addr x off
    if !workOk a then c.faults 2
    else c.vput d fun i => nth 0 (tget (List.replicate 16 0) c.bank (a / 32)) i) s

/-- VST: the row is stored and folded into the pass's signature (R107, R132, R145). -/
def execVst (rod stall d x off : Nat) (s : State) : Host.Outcome State Fault Refusal :=
  .next (s.issueFold rod (kM 0x21 d x off) 1 stall
    (fun _ c => let a := c.addr x off
      if !workOk a then c.faults 2 else c.rowPut (a / 32) (c.vget d))
    (fun c r =>
      if !workOk (c.addr x off) then r
      else if c.passB then { r with sigB := foldRow true r.sigB (c.vget d) }
      else { r with sigA := foldRow false r.sigA (c.vget d) }))

/-- locate() of R134: the segment, the offset within the table, and whether the key was clamped to the last point. -/
def tabLocate (x x0 : Int) (k w : Nat) : Nat × Nat × Bool :=
  let u := x - x0
  if u ≤ 0 then (0, 0, false)
  else if (2 : Int) ^ (k + w) ≤ u then (2 ^ k - 1, 2 ^ w, true)
  else (u.toNat / 2 ^ w, u.toNat, false)

/-- interp() of R134. -/
def tabInterp (y0 y1 : Int) (u w : Nat) : Int := y0 + rnd ((y1 - y0) * ((u % 2 ^ w : Nat) : Int)) w

/-- tlu() of R134 over values from an index on. -/
def tabLookup (h : List Int) (ys : List Int) (start : Nat) (x : Int) : Int :=
  let k := (nth 0 h 2).toNat
  let w := (nth 0 h 3).toNat
  let (i, u, last) := tabLocate x (nth 0 h 6) k w
  if last then nth 0 ys (start + 2 ^ k) else tabInterp (nth 0 ys (start + i)) (nth 0 ys (start + i + 1)) u w

/-- tlu2() of R134. -/
def tabLookup2 (h : List Int) (ys : List Int) (x z : Int) : Int :=
  let w := (nth 0 h 5).toNat
  let row := 2 ^ (nth 0 h 2).toNat + 1
  let (j, u, last) := tabLocate z (nth 0 h 7) (nth 0 h 4).toNat w
  let r0 := tabLookup h ys (j * row) x
  let r1 := tabLookup h ys ((j + 1) * row) x
  if last then r1 else tabInterp r0 r1 u w

/-- TLU: key and result are negated in pass B (R132, R134); an absent table supplies zeros, which no accepted image
reaches (R141). -/
def execTlu (rod stall d a tab : Nat) (s : State) : Host.Outcome State Fault Refusal :=
  rodRun rod (kT 0x22 d a 0 tab) 4 stall (fun im c =>
    let t := (im.table? (tab % 64)).getD ([], [])
    c.vput d fun i => c.data (tabLookup t.1 t.2 0 (c.data (c.vc a i)))) s

/-- TLU2: keys and result are negated in pass B (R132, R134). -/
def execTlu2 (rod stall d a b tab : Nat) (s : State) : Host.Outcome State Fault Refusal :=
  rodRun rod (kT 0x23 d a b tab) 6 stall (fun im c =>
    let t := (im.table? (tab % 64)).getD ([], [])
    c.vput d fun i => c.data (tabLookup2 t.1 t.2 (c.data (c.vc a i)) (c.data (c.vc b i)))) s

/-! ### The lane mask -/

/-- LMSET (R132). -/
def execLmset (rod stall imm : Nat) (s : State) : Host.Outcome State Fault Refusal :=
  rodRun rod (kI 0x24 0 (imm % 65536 : Nat)) 1 stall (fun _ c => { c with lm := BitVec.ofNat 16 imm }) s

/-- LMGET (R132). -/
def execLmget (rod stall d : Nat) (s : State) : Host.Outcome State Fault Refusal :=
  rodRun rod (kR 0x25 d 0 0 0 0) 1 stall (fun _ c => c.sxPut d (BitVec.ofNat 32 c.lm.toNat)) s

/-- LMLD (R132). -/
def execLmld (rod stall a : Nat) (s : State) : Host.Outcome State Fault Refusal :=
  rodRun rod (kR 0x26 0 a 0 0 0) 1 stall (fun _ c => { c with lm := BitVec.ofNat 16 (c.sx_ a).toNat }) s

/-- LMAND (R132). -/
def execLmand (rod stall a : Nat) (s : State) : Host.Outcome State Fault Refusal :=
  rodRun rod (kR 0x27 0 a 0 0 0) 1 stall (fun _ c => { c with lm := c.lm &&& BitVec.ofNat 16 (c.sx_ a).toNat }) s

/-! ### Control -/

/-- A condition of BR (R133). -/
def RodCtx.cond (c : RodCtx) (cc : Nat) : Bool :=
  let s8 := BitVec.ofNat 16 (c.sx_ 8).toNat
  match cc with
  | 0 => true
  | 1 => c.eq
  | 2 => !c.eq
  | 3 => c.lt
  | 4 => !c.lt
  | 5 => c.gt
  | 6 => !c.gt
  | 7 => decide (c.lm &&& s8 ≠ 0)
  | 8 => decide (c.lm &&& s8 = s8 ∧ (c.sx_ 8).toNat < 65536)
  | _ => decide (c.lm &&& s8 = 0)

/-- A relative transfer from the instruction issued last. -/
def RodCtx.relJump (c : RodCtx) (im : Image) (off : Int) : RodCtx := c.jump im ((c.pc : Int) - 1 + sx 16 (ux 16 off))

/-- BR (R132, R133). -/
def execBr (rod stall cc : Nat) (off : Int) (s : State) : Host.Outcome State Fault Refusal :=
  rodRun rod (kB 0x30 cc 0 off) 1 stall (fun im c =>
    if c.cond (cc % 16) then { c with passCycles := c.passCycles + 2 }.relJump im off else c) s

/-- LOOP (R132). -/
def execLoop (rod stall x : Nat) (off : Int) (s : State) : Host.Outcome State Fault Refusal :=
  rodRun rod (kB 0x31 0 x off) 1 stall (fun im c =>
    let c1 := c.sxPut x (c.sx_ x - 1)
    if c1.sx_ x ≠ 0 then { c1 with passCycles := c1.passCycles + 2 }.relJump im off else c1) s

/-- CALL: with 8 entries on the return stack it is STACK (R132, R145). -/
def execCall (rod stall : Nat) (off : Int) (s : State) : Host.Outcome State Fault Refusal :=
  rodRun rod (kB 0x32 0 0 off) 3 stall (fun im c =>
    if 8 ≤ c.stack.length then c.faults 6 else { c with stack := c.pc :: c.stack }.relJump im off) s

/-- RET: with none on the return stack it is STACK (R132, R145). -/
def execRet (rod stall : Nat) (s : State) : Host.Outcome State Fault Refusal :=
  rodRun rod (kR 0x33 0 0 0 0 0) 3 stall (fun im c =>
    match c.stack with
    | [] => c.faults 6
    | p :: r => { c with stack := r }.jump im p) s

/-- END: the pass ends; pass A is followed at once by pass B (R105, R132); a pass beyond its cycle limit is CYCLES. -/
def execEndPass (rod stall : Nat) (s : State) : Host.Outcome State Fault Refusal :=
  rodRun rod (kR 0x34 0 0 0 0 0) 1 stall (fun im c =>
    if c.maxCycles < c.passCycles then c.faults 5
    else if c.passB then { c with ended := true, cycles := c.cycles + c.passCycles, passCycles := 0 }
    else { c with cycles := c.cycles + c.passCycles }.begin im true) s

/-- KFENCE: the window is emptied and refilled from the next word (R147). -/
def execKfence (rod stall : Nat) (s : State) : Host.Outcome State Fault Refusal :=
  rodRun rod (kR 0x35 0 0 0 0 0) 3 stall (fun im c => c.fill im c.pc false) s

/-- CST: a code word goes to the overlay (R132, R148); CODE_WRITE without SELF_WRITE, outside the code section, misaligned
or at a 65th distinct address (R145). -/
def execCst (rod stall d x off : Nat) (s : State) : Host.Outcome State Fault Refusal :=
  rodRun rod (kM 0x36 d x off) 1 stall (fun im c =>
    let a := c.addr x off
    if !im.selfWrite ∨ a % 4 ≠ 0 ∨ im.code.length * 4 ≤ a ∨
        (64 ≤ c.overlay.length ∧ (tfind? c.overlay (a / 4)).isNone) then c.faults 3
    else { c with overlay := tput c.overlay (a / 4) (c.sx_ d) }) s

end Sys2Proof.Machine
end

