-- ==== Sys2Proof/Machine/Factory.lean ====
section
/-! DEFINITION. What the entries of the factory kernels compute: the cell model, the filter step, the limits, learning and the
ripple demodulation (R153, R156-R159, R164, R169, R172, R181; log entry 117). -/
namespace Sys2Proof.Machine
open Sys2Proof

/-! ### Constants (R181) -/

/-- The row of R181 that a factory KERNEL_ID takes: true for NMC. -/
def fkNmc (id : Nat) : Bool := decide (id = 2)
/-- r = σ_v², V². -/
def fkR : Rat := 1 / 4000000
/-- Q_NOCUR, 1/s. -/
def fkNoCur : Rat := 1 / 10000000
/-- Process noise per second of z, δ, h, v1, v2. -/
def fkNoise : List Rat := [1 / 100000000000, 1 / 1000000000, 1 / 1000000000, 1 / 1000000000, 1 / 1000000000]
/-- Initial variances of δ, h, v1, v2. -/
def fkStart (id : Nat) : List Rat :=
  [4 / 10000, if fkNmc id then 9 / 100 else 1 / 4, 25 / 1000000, 25 / 1000000]
/-- SIGMA_OCV. -/
def fkSigmaOcv (id : Nat) : Rat := if fkNmc id then 3 / 100 else 5 / 100
/-- OCV_SLOPE_MIN, V per unit SOC. -/
def fkSlopeMin (id : Nat) : Rat := if fkNmc id then 5 / 100 else 2 / 100
/-- η_c. -/
def fkEta (id : Nat) : Rat := if fkNmc id then 999 / 1000 else 9995 / 10000
/-- The discharge and charge voltage bounds of the state of power, V. -/
def fkBounds (id : Nat) : Rat × Rat := if fkNmc id then (3, 415 / 100) else (280 / 100, 355 / 100)

/-! ### Curves (R134, R144) -/

/-- A curve of a factory kernel at a SOC and a temperature; one along temperature alone takes it as its first key. -/
def fkCurve (im : Image) (n : Nat) (a b : Rat) : Rat :=
  let e := Config.factoryScale im.id n
  let t := (im.table? (Config.factoryTab im.id n)).getD ([], [])
  let x := q15Of a e.1
  q15Val (if nth 0 t.1 1 = 2 then tabLookup2 t.1 t.2 x (q15Of b e.2.1) else tabLookup t.1 t.2 0 x) e.2.2

/-- The open-circuit voltage at an integer SOC key and a temperature. -/
def fkOcvKey (im : Image) (x : Int) (t : Rat) : Int :=
  let tb := (im.table? (Config.factoryTab im.id 0)).getD ([], [])
  tabLookup2 tb.1 tb.2 x (q15Of t (Config.factoryScale im.id 0).2.1)

/-- The slope of the open-circuit voltage at a SOC, from the table's neighbouring points, V per unit SOC (R153). -/
def fkSlope (im : Image) (z t : Rat) : Rat :=
  let e := Config.factoryScale im.id 0
  let tb := (im.table? (Config.factoryTab im.id 0)).getD ([], [])
  let x0 := nth 0 tb.1 6
  let w := (nth 0 tb.1 3).toNat
  let seg := (tabLocate (q15Of z e.1) x0 (nth 0 tb.1 2).toNat w).1
  let x := x0 + (seg : Int) * 2 ^ w
  (q15Val (fkOcvKey im (x + 2 ^ w) t) e.2.2 - q15Val (fkOcvKey im x t) e.2.2) / q15Val (2 ^ w) e.1

/-- The least key between two at which a rising function reaches a value; fuel bounds the halvings. -/
def leastKey (f : Int → Int) (v : Int) : Nat → Int → Int → Int
  | 0, lo, _ => lo
  | n + 1, lo, hi =>
    if hi ≤ lo then lo
    else
      let m := (lo + hi) / 2
      if v ≤ f m then leastKey f v n lo m else leastKey f v n (m + 1) hi

/-- The inverse of the open-circuit voltage at a temperature: the least SOC key of the table's range at which it reaches the
voltage (R156, R172). -/
def fkOcvInverse (im : Image) (v t : Rat) : Rat :=
  let e := Config.factoryScale im.id 0
  let tb := (im.table? (Config.factoryTab im.id 0)).getD ([], [])
  let x0 := nth 0 tb.1 6
  q15Val (leastKey (fun x => fkOcvKey im x t) (q15Of v e.2.2) 20 x0 (x0 + 2 ^ (nth 0 tb.1 2 + nth 0 tb.1 3).toNat)) e.1

/-! ### Cells (R153-R158) -/

/-- What an invocation supplies of one cell (R140, R154, R173). -/
structure FkIn where
  /-- voltage, none when invalid, V. -/
  v : Option Rat
  /-- voltage at the previous update. -/
  vPrev : Option Rat
  /-- temperature, degC. -/
  t : Rat
  /-- current, none when invalid, A. -/
  i : Option Rat
  /-- current at the previous update. -/
  iPrev : Option Rat
  /-- DT, s. -/
  dt : Rat
  /-- learned capacity, Ah. -/
  q : Rat
  /-- learned ohmic resistance, Ω. -/
  r0 : Rat
  /-- learned diffusion constant, 1/s. -/
  d : Rat
  /-- self-discharge rate, 1/s. -/
  sd : Rat
  /-- I_RATED, A. -/
  rated : Rat
  /-- state words at their scales. -/
  word : List Rat
  /-- the string current fell inside the rest band within the last 10 min. -/
  band : Bool
  /-- the diffusion constant seen in the decay of the residual: open (R158). -/
  seen : Rat
deriving DecidableEq, Repr

/-- The filter of one cell: the state z, δ, h, v1, v2, the factors of its covariance, the running words. -/
structure FkCell where
  /-- z, δ, h, v1, v2. -/
  x : List Rat
  /-- rows of the unit upper triangular factor. -/
  u : List (List Rat)
  /-- diagonal factor. -/
  d : List Rat
  /-- word 7. -/
  nis : Rat
  /-- word 10. -/
  r0 : Rat
  /-- word 11. -/
  diff : Rat
  /-- word 12. -/
  rate : Rat
deriving DecidableEq, Repr

/-- Entry (i, j) of a matrix held by rows. -/
def ent (m : List (List Rat)) (i j : Nat) : Rat := nth 0 (nth [] m i) j

/-- The identity of size five. -/
def unit5 : List (List Rat) := (List.range 5).map (fun i => (List.range 5).map (fun j => if i = j then 1 else 0))

/-- The ten off-diagonal places of U in the order of words 22…31: row by row (DESIGN CHOICE, log entry 117). -/
def offDiag : List (Nat × Nat) := [(0, 1), (0, 2), (0, 3), (0, 4), (1, 2), (1, 3), (1, 4), (2, 3), (2, 4), (3, 4)]

/-- The number of an off-diagonal place. -/
def offIdx (i j : Nat) : Nat := offDiag.idxOf (i, j)

/-- The filter that a cell's words hold; with word 17 equal to 0 the cell is initialised (R156). -/
def FkIn.cell (c : FkIn) (im : Image) : FkCell :=
  let w (n : Nat) : Rat := nth 0 c.word n
  if w 17 = 0 then
    let fromOcv := decide (w 6 = 0)
    let z := if fromOcv then fkOcvInverse im (c.v.getD 0) c.t else w 0
    let sigma := if fromOcv then fkSigmaOcv im.id else w 6
    ⟨[z, 0, 0, 0, 0], unit5, sigma * sigma :: fkStart im.id, w 7, c.r0, c.d, w 12⟩
  else
    ⟨(List.range 5).map w,
     (List.range 5).map (fun i => (List.range 5).map (fun j => if i = j then 1 else if i < j then w (22 + offIdx i j) else 0)),
     (List.range 5).map (fun i => w (17 + i)), w 7, w 10, w 11, w 12⟩

/-- The cell model over an interval at a constant current (R153). -/
structure FkModel where
  /-- the state at its end. -/
  x : List Rat
  /-- the diagonal of the transition: 1, a_d, a_h, a_1, a_2. -/
  phi : List Rat
  /-- open-circuit voltage at z + δ. -/
  ocv : Rat
  /-- its slope. -/
  docv : Rat
  /-- hysteresis magnitude. -/
  m : Rat
  /-- predicted voltage. -/
  yHat : Rat
  /-- sensitivity of it to the current. -/
  s : Rat
deriving DecidableEq, Repr

/-- The state advanced over dt with the current i, and the predicted voltage (R153). Curves of the RC pairs and the resistance
factor are read at the state before the interval, OCV and M after it (DEDUCED, log entry 117). -/
def FkIn.model (c : FkIn) (im : Image) (f : FkCell) (dt i : Rat) : FkModel :=
  let x (n : Nat) : Rat := nth 0 f.x n
  let z0 := x 0
  let eta : Rat := if 0 ≤ i then 1 else fkEta im.id
  let aD := expNeg (c.d * dt)
  let a1 := expNeg (dt / fkCurve im 3 z0 c.t)
  let a2 := expNeg (dt / fkCurve im 5 z0 c.t)
  let aH := expNeg (Config.factoryKappa im.id * (if i < 0 then -i else i) * dt / (3600 * c.q))
  let cd := Config.factoryCd im.id
  let sign : Rat := if i < 0 then -1 else if i = 0 then 0 else 1
  let r0 := c.r0 * fkCurve im 8 c.t 0
  let r1 := fkCurve im 2 z0 c.t
  let r2 := fkCurve im 4 z0 c.t
  let z := z0 - eta * i * dt / (3600 * c.q) - c.sd * dt
  let delta := aD * x 1 - (1 - aD) * cd * i / (3600 * c.q * c.d)
  let h := aH * x 2 - (1 - aH) * sign
  let v1 := a1 * x 3 + r1 * (1 - a1) * i
  let v2 := a2 * x 4 + r2 * (1 - a2) * i
  let ocv := fkCurve im 0 (z + delta) c.t
  let docv := fkSlope im (z + delta) c.t
  let m := fkCurve im 1 z c.t
  ⟨[z, delta, h, v1, v2], [1, aD, aH, a1, a2], ocv, docv, m, ocv + m * h - v1 - v2 - r0 * i,
   -(r0 + r1 * (1 - a1) + r2 * (1 - a2)) - docv * (eta * dt + cd * (1 - aD) / c.d) / (3600 * c.q)⟩

/-! ### The filter step (R157) -/

/-- Σ over ten columns of products of two rows and the weights. -/
def wdot (a b dw : List Rat) : Rat := ((List.range 10).map (fun j => nth 0 a j * nth 0 b j * nth 0 dw j)).sum

/-- The modified weighted Gram-Schmidt time update of the factors (R157, step 1). -/
def timeUpdate (phi : List Rat) (f : FkCell) (noise : List Rat) : FkCell :=
  let w0 := (List.range 5).map (fun i => (List.range 10).map (fun j =>
    if j < 5 then nth 0 phi i * ent f.u i j else if j = i + 5 then 1 else 0))
  let dw := f.d ++ noise
  let out := [4, 3, 2, 1, 0].foldl (fun (a : List (List Rat) × List (List Rat) × List Rat) k =>
    let wk := nth [] a.1 k
    let dk := wdot wk wk dw
    let uik (i : Nat) : Rat := wdot (nth [] a.1 i) wk dw / dk
    ((List.range 5).map (fun i =>
       if i < k then (List.range 10).map (fun j => nth 0 (nth [] a.1 i) j - uik i * nth 0 wk j) else nth [] a.1 i),
     (List.range 5).map (fun i => if i < k then putNth (nth [] a.2.1 i) k (uik i) else nth [] a.2.1 i),
     putNth a.2.2 k dk)) (w0, unit5, [0, 0, 0, 0, 0])
  { f with u := out.2.1, d := out.2.2 }

/-- hrow, f = uᵀ hrow, g = d .* f, c = Σ f g (R157, step 2). -/
def outputVar (m : FkModel) (f : FkCell) : List Rat × List Rat × Rat :=
  let h := [m.docv, m.docv, m.m, -1, -1]
  let fs := (List.range 5).map (fun j => ((List.range 5).map (fun i => ent f.u i j * nth 0 h i)).sum)
  let g := (List.range 5).map (fun j => nth 0 f.d j * nth 0 fs j)
  (fs, g, ((List.range 5).map (fun j => nth 0 fs j * nth 0 g j)).sum)

/-- The Bierman measurement update (R157, step 4). -/
def bierman (f : FkCell) (fs g : List Rat) (rr e : Rat) : FkCell :=
  let out := (List.range 5).foldl (fun (a : Rat × FkCell × List Rat) j =>
    let fj := nth 0 fs j
    let gj := nth 0 g j
    let alpha := a.1 + fj * gj
    let lam := -fj / a.1
    let col (i : Nat) : Rat := ent a.2.1.u i j
    (alpha,
     { a.2.1 with d := putNth a.2.1.d j (nth 0 a.2.1.d j * a.1 / alpha),
                  u := (List.range 5).map (fun i =>
                    if i < j then putNth (nth [] a.2.1.u i) j (col i + nth 0 a.2.2 i * lam) else nth [] a.2.1.u i) },
     (List.range 5).map (fun i => if i < j then nth 0 a.2.2 i + col i * gj else if i = j then gj else 0)))
    (rr, f, [0, 0, 0, 0, 0])
  { out.2.1 with x := (List.range 5).map (fun i => nth 0 f.x i + nth 0 out.2.2 i * (e / out.1)) }

/-- A cell between its time update and its measurement update. -/
structure FkMid where
  /-- what was supplied. -/
  c : FkIn
  /-- the filter before the interval. -/
  old : FkCell
  /-- the filter after the time update. -/
  f : FkCell
  /-- the model over the interval. -/
  m : FkModel
  /-- f, g and c of step 2. -/
  out : List Rat × List Rat × Rat
  /-- the residual before the local correction. -/
  e : Rat
deriving DecidableEq, Repr

/-- Steps 1 and 2: without a valid current the coulomb terms are skipped and Q_NOCUR × Δt joins the SOC variance (R157, R160). -/
def FkIn.mid (c : FkIn) (im : Image) : FkMid :=
  let f0 := c.cell im
  let m := c.model im f0 c.dt (c.i.getD 0)
  let noise := (List.range 5).map (fun j => nth 0 fkNoise j * c.dt + (if j = 0 ∧ c.i.isNone then fkNoCur * c.dt else 0))
  let f := { timeUpdate m.phi f0 noise with x := m.x }
  ⟨c, f0, f, m, outputVar m f, c.v.getD 0 - m.yHat⟩

/-- s² / (c + r) of a cell. -/
def FkMid.weight (a : FkMid) : Rat := a.m.s * a.m.s / (a.out.2.2 + fkR)
/-- s e / (c + r) of a cell. -/
def FkMid.pull (a : FkMid) : Rat := a.m.s * a.e / (a.out.2.2 + fkR)

/-- The local correction of an invocation: di and n_l, none with fewer than 8 valid voltages (R157, step 3). -/
def localFix (cells : List FkMid) : Option (Rat × Rat) :=
  let ok := cells.filter (fun a => a.c.v.isSome)
  if 8 ≤ ok.length then
    let n := (ok.map FkMid.weight).sum
    some ((ok.map FkMid.pull).sum / n, n)
  else none

/-- The ohmic part of the voltage step from the previous update: the step less that of the other terms of the model, referred to
25 °C (R158, DEDUCED, log entry 117). -/
def FkMid.ohmic (a : FkMid) (im : Image) (di dv : Rat) : Rat :=
  let rest (x : List Rat) (ocv m : Rat) : Rat := ocv + m * nth 0 x 2 - nth 0 x 3 - nth 0 x 4
  let before := rest a.old.x (fkCurve im 0 (nth 0 a.old.x 0 + nth 0 a.old.x 1) a.c.t) (fkCurve im 1 (nth 0 a.old.x 0) a.c.t)
  let after := rest a.m.x a.m.ocv a.m.m
  (after - before - dv) / di / fkCurve im 8 a.c.t 0

/-- Words 10, 11 and 12 (R158). -/
def FkMid.adapt (a : FkMid) (im : Image) : Rat × Rat × Rat :=
  let r0 := match a.c.v, a.c.vPrev, a.c.i, a.c.iPrev with
    | some v, some w, some i, some j =>
      let di := i - j
      if a.c.rated / 10 ≤ (if di < 0 then -di else di) ∧ di ≠ 0 then a.old.r0 + (a.ohmic im di (v - w) - a.old.r0) / 100
      else a.old.r0
    | _, _, _, _ => a.old.r0
  let diff := if a.c.band then a.old.diff + (a.c.seen - a.old.diff) / 50 else a.old.diff
  let rate := match a.c.v, a.c.vPrev with
    | some v, some w =>
      if a.c.dt = 0 then a.old.rate
      else a.old.rate + ((v - w) * 60 / a.c.dt - a.old.rate) * clampR 0 1 (a.c.dt / 600)
    | _, _ => a.old.rate
  (r0, diff, rate)

/-- What an UPDATE leaves of a cell: its filter, the residual of word 5 and the deviation of word 6. -/
structure FkOut where
  /-- the filter with its running words. -/
  f : FkCell
  /-- word 5. -/
  e : Rat
  /-- word 6. -/
  sigma : Rat
  /-- words 8 and 9. -/
  limits : Rat × Rat
  /-- OCV(z + δ). -/
  ocv : Rat
  /-- R_eff over T_SOP. -/
  reff : Rat
deriving DecidableEq, Repr

/-- The cell's current limits held for T_SOP: within the current table, within the voltage bound as the model predicts it with the
hysteresis state held, not negative; and R_eff, the model's fall per ampere over T_SOP (R169, DEDUCED, log entry 117). -/
def FkIn.power (c : FkIn) (im : Image) (f : FkCell) (tSop : Rat) : Rat × Rat × Rat :=
  let rest := c.model im f tSop 0
  let dis := c.model im f tSop 1
  let chg := c.model im f tSop (-1)
  let b := fkBounds im.id
  let z := nth 0 f.x 0
  let lim (table y s : Rat) : Rat := if s = 0 then max 0 table else max 0 (min table (y / s))
  (lim (fkCurve im 6 z c.t) (rest.yHat - b.1) (-dis.s), lim (fkCurve im 7 z c.t) (b.2 - rest.yHat) (-chg.s), -dis.s)

/-- Steps 3 and 4 for a cell (R157, R158, R169). -/
def FkMid.finish (a : FkMid) (im : Image) (fix : Option (Rat × Rat)) (tSop : Rat) : FkOut :=
  let s := a.m.s
  let quarter := a.c.rated / 4
  let e := match fix with | some x => a.e - s * x.1 | none => a.e
  let rr := match fix with | some x => fkR + s * s / x.2 | none => fkR + s * s * quarter * quarter
  let var := a.out.2.2 + rr
  let nis := clampR 0 25 (e * e / var)
  let f := if a.c.v.isSome ∧ e * e ≤ 16 * var then bierman a.f a.out.1 a.out.2.1 rr e else a.f
  let (r0, diff, rate) := a.adapt im
  let f1 := { f with nis := a.old.nis + (nis - a.old.nis) * clampR 0 1 (a.c.dt / 10), r0 := r0, diff := diff, rate := rate }
  let sigma := sqrtR ((List.range 5).map (fun j => ent f1.u 0 j * ent f1.u 0 j * nth 0 f1.d j)).sum
  let p := a.c.power im f1 tSop
  ⟨f1, e, sigma, (p.1, p.2.1), fkCurve im 0 (nth 0 f1.x 0 + nth 0 f1.x 1) a.c.t, p.2.2⟩

/-- The state words an UPDATE writes, with their values (R154). -/
def FkOut.words (o : FkOut) : List (Nat × Rat) :=
  (List.range 5).map (fun i => (i, nth 0 o.f.x i)) ++
    [(5, o.e), (6, o.sigma), (7, o.f.nis), (8, o.limits.1), (9, o.limits.2), (10, o.f.r0), (11, o.f.diff), (12, o.f.rate)] ++
    (List.range 5).map (fun i => (17 + i, nth 0 o.f.d i)) ++
    (List.range 10).map (fun n => let p := nth (0, 0) offDiag n; (22 + n, ent o.f.u p.1 p.2))

/-- The eight invocation results (R159). -/
def fkResults (mids : List FkMid) (outs : List FkOut) : List Rat :=
  let ok := mids.filter (fun a => a.c.v.isSome)
  let abs (x : Rat) : Rat := if x < 0 then -x else x
  [(ok.map FkMid.pull).sum, (ok.map FkMid.weight).sum, (ok.length : Rat) / 32,
   minR 0 (outs.map (fun o => o.limits.1)), minR 0 (outs.map (fun o => o.limits.2)),
   (outs.map FkOut.ocv).sum, (outs.map FkOut.reff).sum, (outs.map (fun o => abs o.f.rate)).foldl max 0]

/-- UPDATE: the words of each cell and the results of the invocation (R157-R159). -/
def fkUpdate (im : Image) (tSop : Rat) (cells : List FkIn) : List (List (Nat × Rat)) × List Rat :=
  let mids := cells.map (·.mid im)
  let fix := localFix mids
  let outs := mids.map (fun a => a.finish im fix tSop)
  (outs.map FkOut.words, fkResults mids outs)

/-! ### LEARN and RIPPLE (R164, R172) -/

/-- LEARN: words 15 and 16 of a cell: the capacity in Ah and the self-discharge rate proposed, 0 where declined (R172). -/
def FkIn.learn (c : FkIn) (im : Image) (dz : Rat) (idle : Bool) : List (Nat × Rat) :=
  match c.v, c.vPrev, c.i with
  | some v2, some v1, some i =>
    let z1 := fkOcvInverse im v1 c.t
    let z2 := fkOcvInverse im v2 c.t
    let flat (z : Rat) : Bool := decide (fkSlope im z c.t < fkSlopeMin im.id)
    if flat z1 || flat z2 then [(15, 0), (16, 0)]
    else
      let ah := i * c.dt / 3600
      let diff := z1 - z2
      let cap := if dz ≤ (if diff < 0 then -diff else diff) then ah / (diff - c.sd * c.dt) else 0
      [(15, cap), (16, if idle then max 0 ((diff - ah / c.q) / c.dt) else 0)]
  | _, _, _ => [(15, 0), (16, 0)]

/-- RIPPLE: words 13 and 14 of a cell: peak amplitudes in V at 2 and 6 times the mains frequency; 0 for an invalid burst
(R164). -/
def rippleWords (c : Cell) : List (Nat × Rat) :=
  let amp (h : Nat) : Rat :=
    if c.burstOk then (demod h (c.burst.map Int.ofNat) : Rat) / 2 ^ 20 / 10000 else 0
  [(13, amp 2), (14, amp 6)]

/-! ### On a rod (R130, R138, R144) -/

/-- A word of a cell at its scale: 0 where the image declares no column for it. -/
def Image.wordOf (im : Image) (w : Tbl Int) (n : Nat) : Rat :=
  match im.stateCol? n with
  | some c => q15Val (tget (0 : Int) w n) (colScale c)
  | none => 0

/-- A cell's inputs as the invocation in progress on a rod loaded them; the decay that word 11 adapts to is a free value by the
cell's place (R140, R158, log entry 117). -/
def State.fkIn (s : State) (n j : Nat) : FkIn :=
  let c := (s.rod n).ctx
  let im := s.rodImage n
  let p := nth 0 (s.invCells c.string c.base) j
  let cell := s.cell p
  let x := nth (0xFFFF, -32768, none) c.ins j
  let volt (v : Nat) : Option Rat := (codeV? v).map (fun y => (y : Rat) / 10000)
  let lw (k : Nat) : Rat := s.learnedWord c.string p k
  let w := s.supply (s.rod n).img cell
  { v := if bit (BitVec.ofNat 16 (nth 0 c.masks 1)) j then volt x.1 else none,
    vPrev := (s.voltages c.entry p).2.map (fun y => (y : Rat) / 10000), t := (x.2.1 : Rat) / 100, i := x.2.2, iPrev := cell.lastAmps,
    dt := if c.entry = 2 then s.dtOf 2 c.string p else ((c.at_ - cell.at_.getD c.at_ : Nat) : Rat) / 200000000,
    q := lw 0, r0 := lw 1, d := lw 2, sd := lw 3, rated := lw 5, word := (List.range 32).map (im.wordOf w),
    band := match (s.str c.string).bandSince with | some b => decide (c.at_ < b + secs 600) | none => false,
    seen := (Config.free (s.fresh + j) : Rat) / 1000000 }

/-- The words and results that a factory entry leaves in bank A (R157-R159, R164, R172). -/
def State.fkEntry (s : State) (n : Nat) : List (List (Nat × Rat)) × List Rat :=
  let c := (s.rod n).ctx
  let im := s.rodImage n
  let idx := List.range c.n
  match c.entry with
  | 1 => fkUpdate im ((s.par 0x311B : Rat) / 1000) (idx.map (s.fkIn n))
  | 2 =>
    let idle := match (s.str c.string).learn with | some l => l.2 | none => false
    (idx.map (fun j => (s.fkIn n j).learn im (s.parPct 0x310C) idle), [])
  | 3 => ((s.invCells c.string c.base).map (fun p => rippleWords (s.cell p)), [])
  | _ => ([], [])

/-- The value of a word in a list of words. -/
def wordIn (l : List (Nat × Rat)) (n : Nat) : Option Rat := (l.find? (fun e => decide (e.1 = n))).map Prod.snd

/-- Bank A after a factory entry: its state and result columns hold the values of R153…R172, rounded once into the column's scale
(log entry 117). -/
def State.fkBank (s : State) (n : Nat) : Tbl (List Int) :=
  let c := (s.rod n).ctx
  let out := s.fkEntry n
  (s.rodImage n).columns.foldl (fun t col =>
    if colRole col = 2 then
      let row := tget (List.replicate 16 (0 : Int)) t (colRow col)
      tset (List.replicate 16 (0 : Int)) t (colRow col) (row16 ((List.range c.n).map (fun j =>
        match wordIn (nth [] out.1 j) (colIdx col) with
        | some v => q15Of v (colScale col)
        | none => nth 0 row j)))
    else if colRole col = 3 ∧ out.2 ≠ [] then
      tset (List.replicate 16 (0 : Int)) t (colRow col) (row16 [q15Of (nth 0 out.2 (colIdx col)) (colScale col)])
    else t) c.bankA

/-- A factory entry has run to its end on a rod without a fault: bank A holds what R153…R172 say (R144). -/
def State.fkRun (s : State) (n : Nat) : State :=
  let c := (s.rod n).ctx
  if (s.rodImage n).id < 0x10000 ∧ c.faultA = none then
    let bank := s.fkBank n
    ({ s with fresh := s.fresh + 16 }).modRod n fun r => { r with ctx := { r.ctx with bankA := bank } }
  else s

end Sys2Proof.Machine
end

