-- ==== Sys2Proof/Machine/Rods.lean ====
section
/-! DEFINITION. The rod scheduler: invocations, signature windows, quarantine, the heat budget and the sweep rate
(chapter 4). -/
namespace Sys2Proof.Machine
open Sys2Proof

/-! ### Rods and their loss (R111, R112) -/

/-- Numbers of the rods. -/
def rodNums : List Nat := List.range 128

/-- HEALTHY rods (R115, R124). -/
def State.healthyRods (s : State) : Nat := (rodNums.filter (fun n => decide ((s.rod n).state = .healthy))).length

/-- No rod is HEALTHY or RETRYING, and SHUTDOWN does not hold them (R112). -/
def State.noRods (s : State) : Bool :=
  !s.sched.shutdown && rodNums.all (fun n => decide ((s.rod n).state ≠ .healthy ∧ (s.rod n).state ≠ .retrying))

/-- A bank-level cause asks the guard for an ordinary disconnection (R223); its cause stays present until it is taken
back. -/
def State.askBank (s : State) (cause : Nat) : State :=
  s.onGuard fun g =>
    { g with present := insN cause g.present,
             reqs := g.reqs ++ [{ kind := 2, string := none, cause := cause, params := [], withId := false, logs := false, dir := 0 }] }

/-- A bank-level cause is no longer present (R237). -/
def State.causeGone (s : State) (cause : Nat) : State := s.onGuard fun g => { g with present := g.present.erase cause }

/-- A published cell record and its string's carry STALE until they are published again (R23, R152). -/
def State.markStale (s : State) (k p : Nat) : State :=
  (s.modCell p fun c => { c with pub := { c.pub with flags := putBit c.pub.flags 0 true } }).modStr k fun q =>
    { q with sflags := putBit q.sflags 3 true }

/-- ESTIMATION_LOST: no rod is HEALTHY or RETRYING: the event, STALE on every published estimate, an ordinary disconnection with
the cause estimation lost (R112). -/
def State.estimationLost (s : State) : State :=
  if s.noRods && !s.est.stale then
    let s1 := ((s.raise 0x0E0E []).onEst fun e => { e with stale := true }).askBank 0x0E0E
    forEach s1.est.configured (fun k t => forEach (t.str k).cells (fun p u => u.markStale k p) t) s1
  else s

/-- A rod works again: estimation is no longer lost (R112). -/
def State.estimationBack (s : State) : State :=
  if s.est.stale && !s.noRods then (s.onEst fun e => { e with stale := false }).causeGone 0x0E0E else s

/-- What a rod holds and has not released: the ended invocations of its window, those to be rerun, and the one in progress. -/
def Rod.open_ (r : Rod) : List Item :=
  r.items ++ r.redo ++
    (if r.ctx.entry = 0 then []
     else [⟨r.ctx.string, r.ctx.base, r.ctx.n, r.ctx.entry, r.ctx.gen, r.ctx.cls, [], [], 0, true, [], r.img⟩])

/-- A rod without its open window: nothing ended, nothing to rerun, nothing in progress. The window's number wseq stays, so that
the next window takes it, and its off, again (DESIGN CHOICE where a halt or a failed reload ends the window, log entry 113). -/
def Rod.dropped (r : Rod) : Rod :=
  { r with ctx := RodCtx.reset, items := [], redo := [], invs := 0, opened := none, tainted := false, forced := false,
           sigA := 0xFFFFFFFF, sigB := 0xFFFFFFFF }

/-- A rod enters QUARANTINED: its event, the recorded set in flash, and estimation lost where it was the last
(R107, R111, R112). -/
def State.quarantine (s : State) (n cause : Nat) : State :=
  ((((s.modRod n fun r => { r.dropped with state := .quarantined }).onSched fun q =>
    { q with recorded := insN n q.recorded }).commitCfg).raise 0x0E02 [n, cause]).estimationLost

/-- Results of invocations combined: sums of 0…2, 5, 6, least of 3, 4, greatest of 7 (R159, R169). -/
def combine (acc : List Rat) (first : Bool) (r : List (Option Rat)) : List Rat :=
  (List.range 8).map (fun j =>
    let a := nth 0 acc j
    match nth none r j with
    | none => a
    | some x =>
      if j = 3 ∨ j = 4 then (if first then x else if x < a then x else a)
      else if j = 7 then (if first then x else if a < x then x else a)
      else a + x)

/-- An UPDATE invocation of a generation has been published, with its results, or discarded, with none: the string's count and
results of the sweep; one older than the sweep in progress is not counted (R159, R161). -/
def Str.account (q : Str) (gen n : Nat) (res : Option (List (Option Rat))) : Str :=
  let fresh := decide (q.accGen ≠ some gen)
  if q.accGen.any (seqOlder gen) then q
  else
    let acc := if fresh then [] else q.acc
    { q with acc := match res with | some r => combine acc (decide (acc = [])) r | none => acc,
             accN := (if fresh then 0 else q.accN) + n, accGen := some gen }

/-- Nothing for the words that a RIPPLE or LEARN invocation delivers of some cells. -/
def sideNone (ps : List Nat) (t : Tbl (List (Option Rat))) : Tbl (List (Option Rat)) := ps.foldl (fun a p => tput a p [none, none]) t

/-- The results of an invocation are discarded: its cells keep their estimates, with STALE, and count for the sweep (R23, R161); a
cell whose update a kernel fault discarded counts it towards R167; a RIPPLE or LEARN delivers nothing for them. -/
def State.discardItem (s : State) (i : Item) (faulted : Bool) : State :=
  let ps := s.invCells i.string i.base
  if i.entry = 1 then
    (forEach ps (fun p u => (u.markStale i.string p).modCell p fun c =>
      { c with discards := if faulted then satN 3 (c.discards + 1) else c.discards }) s).modStr i.string (·.account i.gen ps.length none)
  else if i.entry = 2 then s.modStr i.string fun q => { q with learnAcc := sideNone ps q.learnAcc }
  else if i.entry = 3 then s.modStr i.string fun q => { q with ripAcc := sideNone ps q.ripAcc }
  else s

/-- The results of invocations are discarded (R23). -/
def State.discard (s : State) (items : List Item) (faulted : Bool) : State := forEach items (fun i t => t.discardItem i faulted) s

/-! ### Energy (R115, R116, R119) -/

/-- Energy charged to a class for a work item of a sweep generation on a rod, by the weight of the image the rod runs; the cost is
rounded down to whole eu for each item (R116; DESIGN CHOICE, log entry 111). -/
def State.charge (s : State) (n cls gen cycles : Nat) : State :=
  let eu := cycles * (s.rodImage n).weight / 256
  s.onSched fun q =>
    { q with spent := q.spent + eu, classAt := tset (0 : Nat) q.classAt cls s.clock, starved := q.starved.erase cls,
             eSweep := if cls ≤ 2 then tmod (0 : Nat) q.eSweep gen (· + eu) else q.eSweep,
             spends := ⟨s.clock, n, cls, cycles, eu⟩ :: q.spends.filter (fun e => decide (s.clock < e.at_ + secs 1)) }

/-- The budget factor in 1/1000 at a die temperature code, rounded upward to 0.1 K first (R115). -/
def budgetFactor (t : Int) : Nat :=
  let t10 := (t + 9) / 10
  if t10 ≤ 1000 then 1000 else (max 0 (1000 - 10 * (t10 - 1000))).toNat

/-- The energy budget of a beam slot at the exposed frequency, exactly: 1.6e9 cycles per second and healthy rod, times the factor
(R115). -/
def State.slotEu (s : State) : Rat :=
  (s.healthyRods * 100000000 * 65536 : Nat) / (max 1 s.beam.exposedFreq : Nat) * ((s.sched.factor : Rat) / 1000)

/-- The budget of a slot in whole eu, rounded down (DESIGN CHOICE, log entry 112). -/
def State.slotBudget (s : State) : Nat := floorN s.slotEu

/-! ### Invocations (R103-R108, R116) -/

/-- The results of an ended invocation by number, with the scale of their columns; results 0…2 are omitted with a NOSYNC
or SETTLING record (R138, R159). -/
def State.itemResults (s : State) (im : Image) (c : RodCtx) : List (Option Rat) :=
  let leaveOut := !c.settled || (s.invCells c.string c.base).any s.nosyncOf
  (List.range 8).map (fun j =>
    match im.resultCol? j with
    | some col =>
      if leaveOut ∧ j ≤ 2 then none
      else
        let v := q15Val (nth 0 (tget (List.replicate 16 0) c.bankA (colRow col)) 0) (colScale col)
        some (if j = 2 then v * 32 else v)
    | none => none)

/-- Words 13…16 of a cell from bank A at their scales: the side buffer of R165; none where the image does not declare the word with
its KIND (R154). -/
def sideWords (im : Image) (c : RodCtx) (i : Nat) : List (Option Rat) :=
  [(13, 1), (14, 1), (15, 7), (16, 8)].map (fun w =>
    match im.stateCol? w.1 with
    | some col =>
      if colKind col = (w.2 : Int) then some (q15Val (nth 0 (tget (List.replicate 16 0) c.bankA (colRow col)) i) (colScale col)) else none
    | none => none)

/-- The outputs of an UPDATE invocation go to each cell's other half: declared state columns from bank A, other words
copied (R104, R138). -/
def State.writeBack (s : State) (x : Nat) (im : Image) (c : RodCtx) : State :=
  let ps := s.invCells c.string c.base
  forEach (List.range ps.length) (fun i t =>
    t.modCell (nth 0 ps i) fun cell =>
      let base := t.supply x cell
      let words := (List.range 32).foldl (fun w j =>
        match im.stateCol? j with
        | some col => tset (0 : Int) w j (nth 0 (tget (List.replicate 16 0) c.bankA (colRow col)) i)
        | none => w) base
      if cell.half then { cell with half0 := words } else { cell with half1 := words }) s

/-- An invocation that has ended on a rod: its cost is charged, its outputs are written and it joins the open window; a factory
entry's outputs are those of R153…R172 (R104, R116, R144). -/
def State.endInvocation (s : State) (n : Nat) : State :=
  if (s.rod n).ctx.entry = 0 ∨ !(s.rod n).ctx.ended then s
  else
    let x := (s.rod n).img
    let im := s.rodImage n
    let s0 := s.fkRun n
    let c := (s0.rod n).ctx
    let s1 := s0.charge n c.cls c.gen c.cycles
    let s2 := if c.entry = 1 ∧ c.faultA.isNone then s1.writeBack x im c else s1
    let item : Item :=
      { string := c.string, base := c.base, n := c.n, entry := c.entry, gen := c.gen, cls := c.cls, results := s.itemResults im c,
        ins := c.ins, at_ := c.at_, settled := c.settled, side := (List.range c.n).map (sideWords im c), img := x }
    s2.modRod n fun r =>
      { r with items := r.items ++ [item], invs := r.invs + 1, ctx := RodCtx.reset }

/-- Cells of a sweep sampled before the last kernel exchange are still to be updated (R142). -/
def State.oldWaits (s : State) : Bool :=
  match s.sched.xAt with
  | none => false
  | some x => decide (s.sampleAt < x) && s.est.configured.any (fun k =>
      (s.ring (keyPort k)).closedAt.isSome && (s.str k).cells.any (fun p => decide ((s.cell p).taken ≠ some (s.ring (keyPort k)).gen)))

/-- The window of a rod is due to close: 256 invocations, 0.40 ms, a whole rerun, or a drained rod before a reload
(R21, R107, R142). -/
def State.windowDue (s : State) (n : Nat) : Bool :=
  let r := s.rod n
  decide (r.ctx.entry = 0 ∧ r.items ≠ []) &&
    (if r.state = .retrying then r.redo.isEmpty
     else decide (256 ≤ r.invs) || s.elapsed? r.opened 80000 || (r.reload && !s.oldWaits) || s.sched.suspended)

/-- The class of an invocation; one of 16 cells is class 1 where any of them is near a limit, so that the others come forward with
it (R117; DESIGN CHOICE, log entry 114). -/
def State.classOf (s : State) (entry k base : Nat) : Nat :=
  if entry = 1 then (if (s.invCells k base).any (s.nearLimit k) then 1 else 2) else entry + 1

/-- The clock at which the last record of an invocation's cells arrived, or the collection was over without some of them; none while
one may still come (R82, R117). -/
def State.arrivalOf (s : State) (k base : Nat) : Option Nat :=
  let r := s.ring (keyPort k)
  let ps := (s.invCells k base).map pointPos
  if ps.all (fun pos => (tfind? r.arrivedAt pos).isSome) then some ((ps.map (tget (0 : Nat) r.arrivedAt)).foldl max 0)
  else if r.collecting then none
  else r.closedAt

/-- A work item that stands in a class queue: the cells of a collected sweep not yet updated, the next invocation of a queued LEARN
or of a waiting burst, or diagnostics (R117). -/
def State.itemWaits (s : State) (k base entry : Nat) : Bool :=
  s.est.configured.contains k && decide (base % 16 = 0 ∧ base < (s.str k).cells.length) &&
    (match entry with
     | 1 => (s.arrivalOf k base).isSome &&
        (s.invCells k base).all (fun p => decide ((s.cell p).taken ≠ some (s.ring (keyPort k)).gen))
     | 2 => s.est.learnQueue.contains (k, (s.est.learnQueue.find? (fun e => decide (e.1 = k))).elim 0 (·.2.1), base)
     | 3 => s.sched.bursts.any (fun b => decide (b.1 = k ∧ b.2.2 = base))
     | _ => decide (entry = 4))

/-- The cells of a string by the first of each invocation. -/
def State.bases (s : State) (k : Nat) : List Nat := (List.range (((s.str k).cells.length + 15) / 16)).map (· * 16)

/-- Some invocation of the classes 1 to 4 that waits has a property of entry, string and first cell. -/
def State.someWaits (s : State) (p : Nat → Nat → Nat → Bool) : Bool :=
  s.est.configured.any (fun k => (s.bases k).any (fun b => [1, 2, 3].any (fun e => s.itemWaits k b e && p e k b)))

/-- The place of an item in its class queue: the arrival of its records, its LEARN's or its burst's place (R117). -/
def State.queuePlace (s : State) (entry k base : Nat) : Nat :=
  match entry with
  | 1 => (s.arrivalOf k base).getD 0
  | 2 => s.est.learnQueue.findIdx (fun e => decide (e.1 = k))
  | 3 => s.sched.bursts.findIdx (fun b => decide (b.1 = k))
  | _ => 0

/-- Of an invocation's class no item stands before it, and none of a lower class waits (R117, R119). -/
def State.nextInClass (s : State) (entry k base : Nat) : Bool :=
  let cls := s.classOf entry k base
  !s.someWaits (fun e l b => decide (s.classOf e l b < cls ∨ (s.classOf e l b = cls ∧ s.queuePlace e l b < s.queuePlace entry k base)))

/-- The scheduler may serve an item now: it comes next in its class, and classes 3 to 5 have budget left in the slot (R117, R119). -/
def State.mayServe (s : State) (entry k base : Nat) : Bool :=
  s.nextInClass entry k base && (decide (entry = 1) || decide (s.sched.spent < s.sched.budget))

/-- An item belongs to the image in service before the last kernel exchange: its sweep was sampled, its LEARN queued or its burst
complete before that firing (R142). -/
def State.oldItem (s : State) (k entry : Nat) : Bool :=
  match s.sched.xAt with
  | none => false
  | some x =>
    match entry with
    | 1 => decide (s.sampleAt < x)
    | 2 => s.est.learnQueue.any (fun e => decide (e.1 = k ∧ e.2.1 < x))
    | 3 => s.sched.bursts.any (fun b => decide (b.1 = k ∧ b.2.1 < x))
    | _ => false

/-- A rod's image is the one an item runs on: a rod that has still to reload takes the old items, any other the new ones; and the
image has the entry: UPDATE is required of every image (R137, R142). -/
def State.imageFits (s : State) (n k entry : Nat) : Bool :=
  ((s.rod n).reload == s.oldItem k entry) && (decide (entry = 1) || ((s.rodImage n).entry? entry).isSome)

/-- The item leaves its queue: its cells are taken for the sweep, or the next invocation of its LEARN or burst follows; the last one
takes that off the queue (R117). -/
def State.takeItem (s : State) (k base entry : Nat) : State :=
  let last := decide ((s.str k).cells.length ≤ base + 16)
  let on (l : List (Nat × Nat × Nat)) : List (Nat × Nat × Nat) :=
    if last then l.filter (fun b => decide (b.1 ≠ k)) else l.map (fun b => if b.1 = k then (b.1, b.2.1, base + 16) else b)
  match entry with
  | 1 => forEach (s.invCells k base) (fun p t => t.modCell p fun c => { c with taken := some (s.ring (keyPort k)).gen }) s
  | 2 => s.onEst fun e => { e with learnQueue := on e.learnQueue }
  | 3 => s.onSched fun q => { q with bursts := on q.bursts }
  | _ => s

/-- An invocation starts on an idle rod; the first of a window opens it with both signatures at their start (R107). -/
def State.startInvocation (s : State) (n k base entry cls : Nat) : State :=
  let c := s.loadCtx n k base entry cls
  s.modRod n fun r =>
    if r.items = [] then
      { r with ctx := c, sigA := 0xFFFFFFFF, sigB := 0xFFFFFFFF, opened := some s.clock, invs := 0 }
    else { r with ctx := c }

/-- A rod takes its next item: the rest of a rerun first, else an item that waits and is served next, on the image it belongs to; a
rod that is not HEALTHY, that has a window due, or a swap in progress takes none; none takes any in hold-up (R437, R107, R108, R113, R117, R119, R142). -/
def State.takeNext (s : State) (n : Nat) (next : Option (Nat × Nat × Nat × Nat)) : State :=
  let r := s.rod n
  if r.ctx.entry ≠ 0 ∨ s.sys.holdup = true then s
  else
    match r.redo with
    | i :: rest =>
      (s.modRod n fun r => { r with redo := rest }).startInvocation n i.string i.base i.entry i.cls
    | [] =>
      match next with
      | none => s
      | some (port, sid, base, entry) =>
        let k := strKey port sid
        if r.state = .healthy ∧ s.windowDue n = false ∧ s.imageFits n k entry = true ∧ s.sched.suspended = false ∧
            s.itemWaits k base entry = true ∧ s.mayServe entry k base = true then
          (s.takeItem k base entry).startInvocation n k base entry (s.classOf entry k base)
        else s

/-- INVOCATION_END: the invocation in progress has ended both passes: it is charged and written back, and the rod takes
the next item, named by port, string, first cell and entry (R103-R108, R116). -/
def execInvocationEnd (rod : Nat) (next : Option (Nat × Nat × Nat × Nat)) (s : State) : Host.Outcome State Fault Refusal :=
  onlyIf (!(s.rod rod).inPass) (fun s => (s.endInvocation rod).takeNext rod next) s

/-! ### Complete generations (R298) -/

/-- An UPDATE invocation of a sweep generation. -/
def Item.updates (i : Item) (g : Nat) : Bool := decide (i.entry = 1 ∧ i.gen = g)

/-- Something of a sweep generation is still to be published: a sweep not collected, cells not yet updated, invocations on a
rod, in a window or released. -/
def State.genPending (s : State) (g : Nat) : Bool :=
  s.sched.released.any (·.updates g) ||
    rodNums.any (fun n =>
      let r := s.rod n
      decide (r.ctx.entry = 1 ∧ r.ctx.gen = g) || r.items.any (·.updates g) || r.redo.any (·.updates g)) ||
    s.sweptPorts.any (fun p =>
      let r := s.ring p
      (decide (s.beam.sweepGen = g ∧ r.gen ≠ g)) || (decide (r.gen = g) && (r.collecting ||
        (s.stringsOf p).any (fun k => (s.bases k).any (fun b => s.itemWaits k b 1)))))

/-- The newest generation of which something has been published is complete once nothing of it is still to come (R298). -/
def State.settleGen (s : State) : State :=
  match s.est.partGen with
  | none => s
  | some g => if s.genPending g then s else s.onEst fun e => { e with pubGen := some g }

/-! ### Windows (R21, R23, R107, R109) -/

/-- WINDOW_CLOSE: the open window closes and its signatures are compared: released, rerun at the first mismatch
(WINDOW_RETRY), discarded with a quarantine at the second (ROD_QUARANTINE), or discarded for a kernel fault. -/
def execWindowClose (rod : Nat) (s : State) : Host.Outcome State Fault Refusal :=
  onlyIf (s.windowDue rod) (fun s => State.settleGen <|
    let r := s.rod rod
    let clear (q : Rod) : Rod :=
      { q with items := [], invs := 0, opened := none, tainted := false, forced := false, wseq := q.wseq + 1,
               windows := (q.windows + 1) % 2 ^ 32, sigA := 0xFFFFFFFF, sigB := 0xFFFFFFFF }
    if r.tainted then
      (s.discard r.items true).modRod rod fun q => { clear q with state := .healthy, redo := [], windows := q.windows }
    else if r.sigA = r.sigB ∧ r.forced = false then
      (s.modRod rod fun q => { clear q with state := .healthy }).onSched fun q => { q with released := q.released ++ r.items }
    else if r.state = .healthy then
      (s.modRod rod fun q => { clear q with state := .retrying, retries := sat16 (q.retries + 1), redo := r.items }).raise
        0x0E01 [rod, (r.wseq.toNat % 65536 : Nat)]
    else ((s.discard r.items false).modRod rod clear).quarantine rod 1) s

/-! ### Tables, tests, reloads (R110, R111, R142) -/

/-- Seconds bits [15:0] of a wall time; all ones before wall time was known. -/
def wallSecs16 (w : BitVec 64) : Nat := if w = BitVec.allOnes 64 then 65535 else w.toNat / 1000000000 % 65536

/-- TABLE_WALK: a walk of a rod's tables ends: good, or a table failed and was reloaded, or the reload failed (R110). A walk costs
1,024 cycles of class 5, and the rods take their turns (R117). A rod whose reload fails leaves its open window, whose results are
discarded with STALE (DESIGN CHOICE: the spec is silent on that window, log entry 115). -/
def execTableWalk (rod table : Nat) (good reloaded : Bool) (s : State) : Host.Outcome State Fault Refusal :=
  onlyIf (decide (rod < 128 ∧ rod = s.sched.walkTurn)) (fun s =>
    let s0 := (s.charge rod 5 0 1024).onSched fun q => { q with walkTurn := (rod + 1) % 128 }
    if good then s0.modRod rod fun r => { r with walked := s.wall }
    else
      let s1 := (s0.modRod rod fun r => { r with tableFaults := sat16 (r.tableFaults + 1) }).raise 0x0E04
        [rod, table, wallSecs16 (s.rod rod).walked]
      if reloaded then s1
      else if (s.rod rod).state = .quarantined then s1
      else (s1.discard (s.rod rod).open_ false).quarantine rod 2) s

/-- ROD_TEST_DONE: the built-in test ends with a signature: a pass makes the rod HEALTHY, a failure QUARANTINED; a rod of
the recorded set was released by command, whose answer it gives, any other tests at power-up (R111, R345). -/
def execRodTestDone (rod sig : Nat) (s : State) : Host.Outcome State Fault Refusal :=
  onlyIf (decide ((s.rod rod).state = .testing)) (fun s =>
    let released := s.sched.recorded.contains rod
    if sig = Config.rodTestGood then
      let s1 := (s.modRod rod fun r => { r with state := if s.sched.shutdown then .halted else .healthy }).estimationBack
      (s1.when released fun t => ((t.onSched fun q => { q with recorded := q.recorded.erase rod }).commitCfg).raise 0x0E03
        [rod]).giveHeld (heldKey 0x0E02 rod) (fun r t => t.respond { r with nv := true })
    else if released then
      (s.modRod rod fun r => { r with state := .quarantined }).giveHeld (heldKey 0x0E02 rod) (fun r t =>
        t.refuse r.rq r.opcode ⟨0x0E02, rod, sig % 2 ^ 32⟩)
    else s.quarantine rod 3) s

/-- ROD_RELOAD: a rod has loaded code and tables, after the firing of M3 at a start (R453), or drained of the old items after an exchange, once none of those
waits for it; after three loads whose tables fail the check it is quarantined (R110, R142). -/
def execRodReload (rod loads : Nat) (good : Bool) (s : State) : Host.Outcome State Fault Refusal :=
  let r := s.rod rod
  onlyIf (r.reload && s.guard.owed.isNone && !s.oldWaits && decide (r.ctx.entry = 0 ∧ r.items = [] ∧ r.redo = [])) (fun s =>
    let s1 := s.modRod rod fun q => { q with reload := false, img := s.sched.xgen }
    if good then s1
    else if loads < 3 then s
    else if r.state = .quarantined then s1
    else s1.quarantine rod 2) s

/-! ### Die temperature (R114) -/

/-- The other seven diodes with a valid code. -/
def otherDiodes (temps : List Int) (i : Nat) : List Int :=
  (((List.range 8).filter (fun j => decide (j ≠ i))).map (nth (-32768) temps)).filter (fun x => decide (x ≠ -32768))

/-- A diode with a valid code that lies more than 10 K off the median of the other seven; the median is taken over those of the seven
that are valid, and with none of them nothing is excluded (R114; DESIGN CHOICE, log entry 110). -/
def diodeOff (temps : List Int) (i : Nat) : Bool :=
  let t := nth (-32768) temps i
  let others := otherDiodes temps i
  decide (t ≠ -32768 ∧ others ≠ [] ∧ 1000 < (t - medianI others).natAbs)

/-- A valid diode: a valid code, not excluded (R114). -/
def diodeOk (temps : List Int) (i : Nat) : Bool := decide (nth (-32768) temps i ≠ -32768) && !diodeOff temps i

/-- A rod halts under SHUTDOWN: its open window is dropped; one being tested tests again afterwards (R114). -/
def Rod.halt (r : Rod) : Rod :=
  match r.state with
  | .quarantined => r
  | .halted => r
  | .testing => { r.dropped with state := .halted, testing := true }
  | _ => { r.dropped with state := .halted, testing := false }

/-- DIE_SHUTDOWN: every rod halts, open windows are discarded, and the guard is asked to disconnect with the cause die
over-temperature (R114). -/
def State.dieShutdown (s : State) (t : Int) : State :=
  let s1 := forEach rodNums (fun n u => (u.discard (u.rod n).open_ false).modRod n Rod.halt) s
  ((s1.onSched fun q => { q with shutdown := true }).raise 0x0E09 [t]).askBank 0x0E09

/-- A halted rod resumes (R114). -/
def Rod.resume (r : Rod) : Rod :=
  if r.state = .halted then { r with state := if r.testing then .testing else .healthy, testing := false } else r

/-- SHUTDOWN clears: the halted rods resume; with none to work estimation is lost from here (R112, R114). -/
def State.dieResume (s : State) : State :=
  ((forEach rodNums (fun n u => u.modRod n Rod.resume) (s.onSched fun q => { q with shutdown := false })).causeGone
    0x0E09).estimationLost

/-- DIE_TEMP_SAMPLE: the eight diodes give the die temperature and the levels follow (R114, R115). -/
def execDieTempSample (temps : List Int) (s : State) : Host.Outcome State Fault Refusal :=
  let ok := (List.range 8).filter (diodeOk temps)
  let off := (List.range 8).filter (diodeOff temps)
  let t := if ok.length < 4 then 11500 else maxI (-32767) (ok.map (nth 0 temps))
  let s1 := forEach (off.filter (fun i => !s.sched.excluded.contains i)) (fun i u =>
    u.raise 0x0E0F [i, nth 0 temps i, medianI (otherDiodes temps i)]) s
  let s2 := s1.onSched fun q => { q with dieT := t, diodeT := temps, diodes := ok.length, excluded := off, factor := budgetFactor t }
  let s3 := (s2.when (!s.sched.warn && decide (9500 ≤ t)) fun u => (u.onSched fun q => { q with warn := true }).raise 0x0E05 [t]).when
    (s.sched.warn && decide (t < 9000)) fun u => (u.onSched fun q => { q with warn := false }).raise 0x0E06 [t]
  let s4 := (s3.when (!s.sched.throttle && decide (10000 ≤ t)) fun u =>
    (u.onSched fun q => { q with throttle := true }).raise 0x0E07 [t]).when
    (s.sched.throttle && decide (t < 9500)) fun u => (u.onSched fun q => { q with throttle := false }).raise 0x0E08 [t]
  .next ((s4.when (!s.sched.shutdown && decide (11500 ≤ t)) (·.dieShutdown t)).when
    (s.sched.shutdown && decide (t < 11000)) (·.dieResume))

/-- BEAM_SLOT: a beam slot begins; unspent budget does not carry over (R115). -/
def execBeamSlot (s : State) : Host.Outcome State Fault Refusal :=
  .next (s.onSched fun q => { q with budget := s.slotBudget, spent := 0 })

/-! ### Starvation (R117, R119) -/

/-- Work waits in a class: LEARN items, bursts, the routine diagnostics (R117). -/
def State.classWaits (s : State) (cls : Nat) : Bool :=
  match cls with
  | 3 => !s.est.learnQueue.isEmpty
  | 4 => !s.sched.bursts.isEmpty
  | 5 => true
  | _ => false

/-- CLASS_STARVED: a class with work waiting has received no energy for 10 s; raised once until it receives some
(R119). -/
def execClassStarved (cls : Nat) (s : State) : Host.Outcome State Fault Refusal :=
  onlyIf (s.classWaits cls && !s.sched.starved.contains cls && s.elapsed (tget (0 : Nat) s.sched.classAt cls) (secs 10))
    (fun s => (s.onSched fun q => { q with starved := insN cls q.starved }).raise 0x0E0D [cls]) s

/-- BURST_ABANDONED: a burst not started within 10 s of its last sample is abandoned and its string is due for capture
again (R117). -/
def execBurstAbandoned (port sid : Nat) (s : State) : Host.Outcome State Fault Refusal :=
  let k := strKey port sid
  onlyIf (s.sched.bursts.any (fun b => decide (b.1 = k ∧ b.2.2 = 0) && s.elapsed b.2.1 (secs 10))) (fun s =>
    ((s.onSched fun q => { q with bursts := q.bursts.filter (fun b => decide (b.1 ≠ k)) }).modStr k fun q =>
      { q with lastBurst := none, burst := none }).raise 0x0E10 [port, sid]) s

/-! ### Kernel revert (R146) -/

/-- KERNEL_REVERT: 16 kernel faults within 10 s under one tenant-0 image: the exchange for the inactive image waits for
the next M3 firing, for which M3 is armed (R146, R456). -/
def execKernelRevert (s : State) : Host.Outcome State Fault Refusal :=
  onlyIf (decide (16 ≤ (s.sched.faults.filter (fun t => decide (s.clock < t + secs 10))).length ∧ 0x10000 ≤ s.image.id))
    (fun s => (s.onSched fun q => { q with revert := true }).armM3) s

/-! ### Sweep rate (R120, R121) -/

/-- The configured step of M0 (R51). -/
def Beam.confStep (b : Beam) : Nat := if b.sweepConf = 0 then b.sweepDefault else b.sweepConf.toNat
/-- The largest step not above 2 s at the nominal frequency. -/
def Beam.stepCap (b : Beam) : Nat := 2 * b.nominalFreq
/-- A step as milliseconds at the nominal frequency. -/
def Beam.stepMs (b : Beam) (step : Nat) : Nat := (2 * step * 1000 + b.nomDiv) / (2 * b.nomDiv)
/-- B_sw: the sum of the slot budgets over one sweep interval of a step, exactly (R121). -/
def State.sweepBudget (s : State) (step : Nat) : Rat := s.slotEu * (step : Rat) / 4096

/-- The last completed sweep: the newest generation with energy of which no update is still to be published (R121, R298). -/
def State.lastSwept (s : State) : Option Nat := s.est.pubGen.filter (fun g => (tfind? s.sched.eSweep g).isSome)

/-- E_sw: the class 1 and 2 energy of the last completed sweep (R121). -/
def State.sweepEnergy (s : State) : Nat :=
  match s.lastSwept with
  | some g => tget (0 : Nat) s.sched.eSweep g
  | none => s.sched.eLast

/-- The interval is doubled after two sweeps in a row above 90 % of the budget, or FLOOR_OVER sets at the longest interval
(R121). -/
def State.rateLower (s : State) (e step cap : Nat) (b : Rat) : State :=
  let ratio := if b = 0 then 65535 else sat16 (floorN (1000 * (e : Rat) / b))
  if 2 ≤ s.sched.overRun ∧ step < cap then
    let step1 := min (2 * step) cap
    (((s.modMark 0 (·.putStep s.clock (BitVec.ofNat 32 step1))).onSched fun q =>
      { q with lowered := true, overRun := 0, calmSince := none }).raise 0x0E0A [s.beam.stepMs step1, ratio])
  else if cap ≤ step ∧ b < (e : Rat) ∧ s.sched.floorOver = false then
    (s.onSched fun q => { q with floorOver := true }).raise 0x0E0C [s.beam.stepMs step, ratio]
  else s

/-- SWEEP_RATE_CONTROL: at each sweep, the class 1 and 2 energy of the last completed sweep against the budget
(R121); suspended during a swap (R113). -/
def State.rateControl (s : State) : State :=
  let e := s.sweepEnergy
  let s0 := s.onSched fun q =>
    { q with eLast := e, eSweep := match s.lastSwept with | some g => q.eSweep.filter (fun x => decide (x.1 = g) || !seqOlder x.1 g)
                                                          | none => q.eSweep }
  if s.sched.suspended then s0
  else
    let step := (s.mark 0).step.toNat
    let cap := s.beam.stepCap
    let b := s.sweepBudget step
    let run := if 9 * b < 10 * (e : Rat) then satN 3 (s.sched.overRun + 1) else 0
    let s2 := (s0.onSched fun q => { q with overRun := run }).rateLower e step cap b
    let shorter := max s.beam.confStep (step / 2)
    s2.onSched fun q =>
      { q with calmSince := if q.lowered ∧ 10 * (e : Rat) ≤ 6 * s.sweepBudget shorter then some (q.calmSince.getD s.clock) else none }

/-- SWEEP_RATE_RESTORE: the energy has stayed at or below 0.6 of the next shorter step's budget for 60 s: STEP is halved
towards the configured step and FLOOR_OVER clears; the event comes once the configured step is reached (R121). -/
def execSweepRateRestore (s : State) : Host.Outcome State Fault Refusal :=
  onlyIf (s.sched.lowered && !s.sched.suspended && s.elapsed? s.sched.calmSince (secs 60)) (fun s =>
    let step1 := max s.beam.confStep ((s.mark 0).step.toNat / 2)
    let s1 := (s.modMark 0 (·.putStep s.clock (BitVec.ofNat 32 step1))).onSched fun q =>
      { q with floorOver := false, calmSince := none }
    if step1 = s.beam.confStep then (s1.onSched fun q => { q with lowered := false }).raise 0x0E0B [s.beam.stepMs step1]
    else s1) s

end Sys2Proof.Machine
end

