-- ==== Sys2Proof/Machine/Defer.lean ====
section
/-! DEFINITION. Balancing at the node: frames, zero duties, deferral, the bus-current check (R86, R193, R199-R204). -/
namespace Sys2Proof.Machine
open Sys2Proof

/-- No duty and no direction. -/
def noDuty : List Nat × Nat := (List.replicate 32 0, 0)

/-- What a string's plan gives a node: duties, and DIR with bit 1 for a charged cell (R86, R197). -/
def Str.planAt (q : Str) (port pos : Nat) : List Nat × Nat :=
  let e (i : Nat) : Option (Nat × Nat × Bool) := q.plan.find? (fun x => decide (x.1 = cellPoint port pos i ∧ x.2.1 ≠ 0))
  ((List.range 32).map (fun i => match e i with | some x => x.2.1 | none => 0),
   maskOf ((List.range 32).filter (fun i => match e i with | some x => !x.2.2 | none => false)))

/-- A node is deferred or excluded (R193, R201, R203). -/
def BalNode.out (b : BalNode) : Bool := b.hot || b.board || b.excl.isSome

/-- What a node is due: its plan, or nothing while it is out or its string is quiet (R199, R201, R202). -/
def State.dutyDue (s : State) (k pos : Nat) : List Nat × Nat :=
  if (s.balNode (nodeKey (keyPort k) pos)).out || (s.str k).quiet then noDuty else (s.str k).planAt (keyPort k) pos

/-- A string's nodes whose duties differ from those last sent are owed a frame (R199). -/
def State.owePlan (s : State) (k : Nat) : State :=
  forEach (s.posOf k) (fun pos t =>
    t.modBal (nodeKey (keyPort k) pos) fun b => { b with owed := decide (s.dutyDue k pos ≠ b.sent) }) s

/-- A BALANCE frame with the duties a node is due is queued on its ring (R86, R199). -/
def State.sendBalance (s : State) (k pos : Nat) : State :=
  let port := keyPort k
  let d := s.dutyDue k pos
  (s.queueCmd port pos (.balance (s.par 0x330A).toNat (BitVec.ofNat 32 d.2) d.1) none).modBal (nodeKey port pos) fun b =>
    { b with sent := d, owed := false }

/-- A node must stop at once: zero duties ahead of waiting plan frames, and no bus-current check until the next replan
(R199, R203); a string that takes no frame now is served when it does. -/
def State.stopNode (s : State) (k pos : Nat) : State :=
  let key := nodeKey (keyPort k) pos
  let s1 := s.modBal key fun b => { b with suspend := 2 }
  if (s.balNode key).sent = noDuty then s1
  else if (s.str k).framesOk then
    (s1.queueStop (keyPort k) pos (.balance (s.par 0x330A).toNat 0 noDuty.1)).modBal key fun b =>
      { b with sent := noDuty, owed := false }
  else s1.modBal key fun b => { b with owed := true }

/-- COMMISSION or TRIPPED is entered: zero duties to every node with balancing active, RENEW clear (R204). -/
def State.stopBalancing (s : State) : State :=
  let s1 := forEach s.est.configured (fun k t =>
    forEach (t.posOf k) (fun pos u => u.stopNode k pos) (t.modStr k fun q => { q with plan := [] })) s
  forEach (s1.portsWhere (fun r => r.renew)) (fun p t => t.modRing p fun r => { r with renew := false }) s1

/-- A mode is entered, with what R204 asks for in COMMISSION and TRIPPED. -/
def State.enterMode (s : State) (m : Mode) (cause : Nat) : State :=
  if s.sys.mode = m then s
  else (s.setMode m cause).when (decide (m = .commission ∨ m = .tripped)) (·.stopBalancing)

/-- A sample instant passes for a node's duties: those in force until now were those of the interval that ends; those accepted
since the last instant come into force, and the check skips their sweep (R87, R155, R203). -/
def BalNode.atSample (b : BalNode) : BalNode :=
  { b with was := b.force, force := b.next.getD b.force, next := none,
           suspend := if b.next.isSome then max b.suspend 1 else b.suspend }

/-- A sample instant passes for the duties of every node (R87, R155, R203). -/
def State.applyDuties (s : State) : State := forEach (tkeys s.est.bal) (fun k t => t.modBal k BalNode.atSample) s

/-- The FPI conversions at the sample instant, for the measurement groups (R160). -/
def State.latchFpi (s : State) : State :=
  s.onEst fun e => { e with fpiAt := (List.range 16).foldl (fun t n => tset (0 : Int) t n (s.fpi n).val.toInt) [] }

/-- The bus current expected of a node in mA (R203). -/
def expectedMa (d : List Nat × Nat) : Rat :=
  ((List.range 32).foldl (fun (t : Int) i =>
    let v : Int := (nth 0 d.1 i : Nat)
    if d.2.testBit i then t - v else t + v) 0 : Int) * 2000 / 256

/-- The bus current of a record mismatches the lease (R203). -/
def busMismatch (d : List Nat × Nat) (busI : Int) : Bool :=
  let e := expectedMa d
  let abs (x : Rat) : Rat := if x < 0 then -x else x
  decide (abs e / 5 + 50 < abs ((busI : Rat) - e))

/-- BALANCING_DEFERRED: a node's cell temperatures and NODE_T against their deferral levels at a sweep, and the
bus-current check of its record (R193, R201, R203). -/
def State.deferNode (s : State) (k pos : Nat) : State :=
  let port := keyPort k
  let key := nodeKey port pos
  let b := s.balNode key
  let th := (s.str k).thermal
  match s.record? port pos with
  | none => s
  | some rec =>
    let lvl := th.warn - s.parStr 0x330B k
    let ts := (s.at_ port pos).cellsOn.map (fun c => s.cellTemp port pos c)
    let hot := levelNext b.hot (ts.any (fun t => decide (lvl ≤ t))) (ts.all (fun t => decide (t < lvl - th.hyst)))
    let nt := recNodeT rec
    let board := if nt = -32768 then b.board
      else levelNext b.board (decide (s.par 0x330C ≤ nt)) (decide (nt ≤ s.par 0x330C - 500))
    let gone := (recFlags rec).testBit 3 || (recFlags rec).testBit 1
    let mis := (recFlags rec).testBit 2 && decide (recBusI rec ≠ -32768) && busMismatch b.force (recBusI rec)
    let s1 := s.modBal key fun q =>
      { q with hot := hot, board := board, sent := if gone then noDuty else q.sent, force := if gone then noDuty else q.force,
               mism := if q.suspend ≠ 0 then q.mism else if mis then satN 3 (q.mism + 1) else 0,
               suspend := if q.suspend = 1 then 0 else q.suspend }
    let s2 := s1.when (hot && !b.hot) (·.raise 0x0318 [port, pos, 1])
    let s3 := s2.when (board && !b.board) (·.raise 0x0318 [port, pos, 2])
    s3.when ((hot && !b.hot) || (board && !b.board)) (·.stopNode k pos)

/-- A string's nodes after its sweep is complete: substituted inputs counted, deferral, check (R183, R193, R201, R203). -/
def State.deferString (s : State) (k : Nat) : State :=
  let port := keyPort k
  let n := ((s.posOf k).map (fun pos =>
    ((s.at_ port pos).tempsOn.filter (fun i => (s.tempIn (cellPoint port pos i)).subst)).length)).sum
  forEach (s.posOf k) (fun pos t => t.deferNode k pos) (s.modStr k fun q => { q with substN := satN 255 n })

end Sys2Proof.Machine
end

