-- ==== Sys2Proof/Machine/Regs.lean ====
section
/-! DEFINITION. The register words of the loop block and of the CAN block, with their Reset columns (R374-R376, R415, R417). -/
namespace Sys2Proof.Machine
open Sys2Proof

/-! ### CAN block (R415, R417) -/

/-- The word a CAN register holds at reset; filter elements hold 0 (R415, R417). -/
def canReset (off : Nat) : Word :=
  match off with
  | 0x000 => 0x01000001
  | 0x004 => 0x0300001E
  | 0x008 => 0x03800064
  | _ =>
    if 0x100 ≤ off ∧ off < 0x300 then
      match off % 0x40 with
      | 0x00 => 0x10000004
      | 0x04 => BitVec.ofNat 32 (1 * 2 ^ 26 + 127 * 2 ^ 17 + 32 * 2 ^ 9 + 32 * 2)
      | 0x08 => BitVec.ofNat 32 (1 * 2 ^ 27 + 29 * 2 ^ 16 + 10 * 2 ^ 8 + 10)
      | 0x0C => 0x100
      | _ => 0
    else 0

/-- A CAN register word. -/
def State.canReg (s : State) (off : Nat) : Word := tget (canReset off) s.can.regs off

/-- A table of words with one word set; a word equal to its value at reset is not listed. -/
def regSet (reset : Nat → Word) (t : Tbl Word) (off : Nat) (w : Word) : Tbl Word :=
  if w = reset off then tdel t off else tput t off w

/-- A CAN register word set. -/
def State.setCan (s : State) (off : Nat) (w : Word) : State := s.onCan fun c => { c with regs := regSet canReset c.regs off w }

/-- CAN_PCS.EN (R417). -/
def State.pcsEn (s : State) : Bool := bit (s.canReg 0) 31
/-- CAN_PCS.CH. -/
def State.pcsCh (s : State) : Nat := wfld (s.canReg 0) 30 28
/-- CAN_PCS.PCS_BASE. -/
def State.pcsBase (s : State) : Nat := wfld (s.canReg 0) 26 16
/-- CAN_PCS.NUNITS. -/
def State.pcsUnits (s : State) : Nat := wfld (s.canReg 0) 4 0
/-- CFG of controller n. -/
def State.canCfg (s : State) (n : Nat) : Word := s.canReg (0x100 + 0x40 * n)
/-- EN of controller n. -/
def State.canEn (s : State) (n : Nat) : Bool := bit (s.canCfg n) 0

/-! ### Loop block (R374-R376) -/

/-- The word a loop-block register holds at reset (R374-R376). -/
def loopReset (off : Nat) : Word :=
  if 0x1000 ≤ off ∧ off < 0x2000 then
    match off % 0x80 with
    | 0x00 => 0x20
    | 0x04 => 20
    | 0x0C => 8192
    | 0x10 => BitVec.ofNat 32 (32767 * 65536 + 32769)
    | 0x1C => 32768
    | 0x24 => 32768
    | 0x28 => BitVec.ofNat 32 (32767 * 65536 + 328)
    | 0x2C => BitVec.ofNat 32 (3277 * 65536)
    | 0x38 => 0x10000
    | 0x40 => 0x10000
    | _ => 0
  else if 0x2000 ≤ off ∧ off < 0x2400 then
    match off % 0x40 with
    | 0x00 => BitVec.ofNat 32 (20 * 65536 + 8 * 256)
    | 0x04 => BitVec.ofNat 32 (10 * 65536 + 200)
    | 0x20 => 0x80000001
    | 0x24 => 0x7FFFFFFF
    | 0x28 => 1000
    | 0x2C => 1000
    | 0x38 => BitVec.ofNat 32 (130 * 2 ^ 24 + 50 * 65536 + 500)
    | _ => 0
  else if 0x2600 ≤ off ∧ off < 0x2700 then
    if off % 0x10 = 0 then BitVec.ofNat 32 (100 * 65536 + 50 * 256) else 0
  else 0

/-- A loop-block register word. -/
def State.loopReg (s : State) (off : Nat) : Word := tget (loopReset off) s.loops.regs off

/-- A loop-block register word set. -/
def State.setLoop (s : State) (off : Nat) (w : Word) : State :=
  s.onLoops fun l => { l with regs := regSet loopReset l.regs off w }

/-- Register of loop n at an offset (R375). -/
def State.lreg (s : State) (n off : Nat) : Word := s.loopReg (0x1000 + 0x80 * n + off)
/-- Register of axis n at an offset (R376). -/
def State.axreg (s : State) (n off : Nat) : Word := s.loopReg (0x2000 + 0x40 * n + off)
/-- AIN_CFG of AINn. -/
def State.ainCfg (s : State) (n : Nat) : Word := s.loopReg (0x2400 + 0x10 * n)
/-- MODE of axis n (R351). -/
def State.axMode (s : State) (n : Nat) : Nat := wfld (s.axreg n 0) 2 0

end Sys2Proof.Machine
end

