-- ==== Sys2Proof/Machine/CanTx.lean ====
section
/-! DEFINITION. What a CAN controller sends: the order of its buffers and its queue, the frame in progress, the dedicated buffers
(R401, R407, R418). -/
namespace Sys2Proof.Machine
open Sys2Proof

/-- LISTEN of controller n. -/
def State.canListen (s : State) (n : Nat) : Bool := bit (s.canCfg n) 3

/-- A controller takes part on its bus: enabled, not bus-off, its transceiver fed (R403, R482). -/
def State.canLive (s : State) (n : Nat) : Bool := decide (n < 8) && s.canEn n && s.analogue && decide ((s.ctrl n).estate ≠ 2)

/-- The guard's engine works on a channel (R406). -/
def State.guardOn (s : State) (n : Nat) : Bool := s.pcsEn && decide (s.pcsCh = n)

/-- The order in which arbitration decides two frames: base identifier, standard before extended, the rest (R401). -/
def Frame.order (f : Frame) : Nat :=
  if f.xtd then f.id / 2 ^ 18 * 2 ^ 19 + 2 ^ 18 + f.id % 2 ^ 18 else f.id * 2 ^ 19

/-- The place in the queue of the message sent first: the lowest identifier, the earliest among equals (R401). -/
def firstMsg : List TxMsg → Option (Nat × TxMsg)
  | [] => none
  | m :: r =>
    match firstMsg r with
    | some (i, x) => if m.frame.order ≤ x.frame.order then some (0, m) else some (i + 1, x)
    | none => some (0, m)

/-- The frame a controller sends next from its buffers and its queue (R401). -/
def Ctrl.next (c : Ctrl) : Option Sent :=
  match (tkeys c.ded).head?, firstMsg c.queue with
  | some i, some (p, m) => if i * 2 ^ 19 ≤ m.frame.order then some (.buffer i false) else some (.message p)
  | some i, none => some (.buffer i false)
  | none, some (p, _) => some (.message p)
  | none, none => none

/-- A controller sends frames of its own: it takes part on its bus, neither ALONE nor only listening (R403, R404, R417). -/
def State.sends (s : State) (n : Nat) : Bool := s.canLive n && decide ((s.ctrl n).estate ≠ 3) && !s.canListen n

/-- The guard's frame, identifier 0x000, waits on a channel: no frame begins there that does not lose to it (R407, R408). -/
def State.guardWaits (s : State) (n : Nat) : Bool := s.guardOn n && s.analogue && s.can.guardTx.isSome

/-- A controller with no frame in progress begins the one its buffers and its queue give first among those of this tick; what comes
later waits for its end, however low its identifier (R401, R407, R418). -/
def State.startFrame (s : State) (n : Nat) : State :=
  s.when (s.sends n && !s.guardWaits n && ((s.ctrl n).onBus.isNone || decide ((s.ctrl n).busAt = s.clock)))
    (·.modCtrl n fun c => { c with onBus := c.next, busAt := s.clock })

/-- A frame in progress has ended or another node's frame has passed: what is sent next is chosen anew (R401). -/
def State.chooseAgain (s : State) (n : Nat) : State := (s.modCtrl n fun c => { c with onBus := none }).startFrame n

/-- A dedicated buffer takes a frame: an unsent older one is replaced, one in progress completes and the newer follows (R411,
R414, R418). -/
def Ctrl.place (c : Ctrl) (id : Nat) (f : List Byte) : Ctrl :=
  { c with ded := tput c.ded id f,
           onBus := c.onBus.map fun w => match w with
             | .buffer i r => .buffer i (r || decide (i = id))
             | .message p => .message p }

/-- A dedicated buffer is emptied (R406, R414). -/
def Ctrl.unplace (c : Ctrl) (id : Nat) : Ctrl :=
  { c with ded := tdel c.ded id,
           onBus := c.onBus.filter fun w => match w with
             | .buffer i _ => decide (i ≠ id)
             | .message _ => true }

end Sys2Proof.Machine
end

