-- ==== Sys2Proof/Machine/Estimator.lean ====
section
/-! DEFINITION. Published estimates, string current, rests and learning, ripple impedance, shorts and checkpoints
(chapter 6). -/
namespace Sys2Proof.Machine
open Sys2Proof

/-- A cell's state made cold with words 0 and 6 given; SOC_VALID is clear, and EREM invalid with it, until the next update
(R150, R151, R156). -/
def Cell.cold (c : Cell) (w0 w6 : Int) (x : Nat) : Cell :=
  let w := tset (0 : Int) (tset (0 : Int) [] 0 w0) 6 w6
  { c with half0 := if c.half then c.half0 else w, half1 := if c.half then w else c.half1, use := none, xgen := x,
           pub := { c.pub with flags := putBit c.pub.flags 7 false, erem := 0xFFFF } }

/-! ### Shorts (R176) -/

/-- INTERNAL_SHORT_SUSPICION: SHORT is latched on the cell and its string; the first on a string raises the event and asks
the guard to open the string (R176, R230). -/
def State.suspect (s : State) (k p kind : Nat) : State :=
  let had := bit (s.str k).sflags 4
  let s1 := (s.modCell p fun c => { c with pub := { c.pub with flags := putBit c.pub.flags 6 true } }).modStr k fun q =>
    { q with sflags := putBit q.sflags 4 true }
  if had then s1
  else
    (s1.raise 0x0306 [pointPort p, pointPos p, pointInput p, kind]).onGuard fun g =>
      { g with reqs := g.reqs ++ [{ kind := 4, string := some k, cause := 0x0609, params := [keyPort k, keyId k],
                                    withId := true, logs := true, dir := 0 }] }

/-! ### Health (R167, R168) -/

/-- The health conditions of a cell now: unhealthy, and recovered (R167). -/
def State.healthNow (s : State) (p : Nat) : Bool × Bool :=
  let c := s.cell p
  let sigma := (wordPhys (s.cellImage c) c.words 6 4).getD 0
  let bad := s.elapsed? c.nisSince (secs 30) || decide (s.parPct 0x3115 < sigma) || s.elapsed? c.invalidSince (secs 10) ||
    decide (2 ≤ c.discards)
  (bad, !bad && s.elapsed? c.goodSince (secs 120))

/-- CONF of a cell (R168). -/
def confOf (sigma : Rat) (idChanged never unhealthy : Bool) : Nat :=
  let q : Rat := if idChanged then 1 / 2 else if never then 4 / 5 else 1
  let c := floorN (100 * clampR 0 1 (1 - sigma * 10) * q)
  if unhealthy then min 50 c else c

/-- The unhealthy share of a string in %, with the event at a multiple of 10 % crossed (R167). -/
def State.shareHealth (s : State) (k : Nat) : State :=
  let cs := (s.str k).cells
  let n := (cs.filter (fun p => bit (s.cell p).pub.flags 3)).length
  let share := n * 100 / max 1 cs.length
  let was := (s.str k).unhealthy
  (s.modStr k fun q => { q with unhealthy := share }).when (decide (was / 10 ≠ share / 10)) (·.raise 0x0307
    [keyPort k, keyId k, share])

/-- UNHEALTHY of a cell follows its conditions (R167, R168). -/
def State.judgeHealth (s : State) (p : Nat) : State :=
  let (bad, good) := s.healthNow p
  let was := bit (s.cell p).pub.flags 3
  let now := if bad then true else if good then false else was
  if was = now then s
  else s.modCell p fun c =>
    { c with pub := { c.pub with flags := putBit c.pub.flags 3 now,
                                 conf := confOf ((wordPhys (s.cellImage c) c.words 6 4).getD 1) c.learned.idChanged
                                   c.learned.neverLearned now } }

/-- The string of a cell: the configured string whose cells hold it. -/
def State.stringOf? (s : State) (p : Nat) : Option Nat :=
  s.est.configured.find? (fun k => decide (keyPort k = pointPort p) && (s.str k).cells.contains p)

/-- ESTIMATOR_HEALTH: a cell's health condition has held for its time (R167). -/
def execEstimatorHealth (point : Nat) (s : State) : Host.Outcome State Fault Refusal :=
  let s1 := s.judgeHealth point
  .next (match s.stringOf? point with
    | some k => s1.shareHealth k
    | none => s1)

/-! ### Publishing cells (R150, R151, R154, R166) -/

/-- The charge efficiency the module uses: that of the NMC factory kernel, else the LFP one's (R166, R181). -/
def State.etaC (s : State) : Rat := fkEta s.image.id

/-- The window of usable SOC (R166). -/
def State.useWindow (s : State) : Rat := 1 - s.parPct 0x3106 - s.parPct 0x3107

/-- Usable SOC after an update (R166). -/
def State.usable (s : State) (k : Nat) (c : Cell) (z : Rat) (amps : Option Rat) (dt : Rat) : Rat :=
  let w := s.useWindow
  let target := clampR 0 1 ((z - s.parPct 0x3106) / w)
  match c.use with
  | none => target
  | some u0 =>
    let i := amps.getD 0
    let eta : Rat := if 0 ≤ i then 1 else s.etaC
    let q : Rat := (c.learned.cap : Rat) / 50
    let up := if c.learned.cap = 0 then u0 else u0 - eta * i * dt / (3600 * q * w)
    let lim := s.parPct 0x3108 * dt / 60
    let u := clampR 0 1 (up + clampR (-lim) lim (target - up))
    if bit c.pub.flags 3 ∧ (s.parStr 0x3109 k : Rat) / 100000 * (s.iRated k : Rat) / 1000 < i ∧ u0 < u then u0 else u

/-- A cell's published record after an update under an image (R130, R150, R151, R154). -/
def State.cellRecord (s : State) (im : Image) (k : Nat) (c : Cell) (w : Tbl Int) (v : Nat) (t : Int) (amps : Option Rat) (u : Rat)
    (gen : Nat) : CellRec :=
  let z := socOf im w
  let sig := wordPhys im w 6 4
  let unhealthy := bit c.pub.flags 3
  { c.pub with
    v := v, t := t, socInt := codeN 65535 (z * 65536), socUse := codeN 65535 (u * 65536),
    sigma := (sig.map (fun x => codeN 65535 (x * 65536))).getD 0xFFFF,
    conf := (sig.map (fun x => confOf x c.learned.idChanged c.learned.neverLearned unhealthy)).getD 0,
    flags := BitVec.ofNat 8 (128 + flag (bit c.pub.flags 6) 6 + flag c.learned.idChanged 5 + flag amps.isNone 4 +
      flag unhealthy 3 + flag (bit (s.str k).sflags 0) 2 + flag c.learned.neverLearned 1 + flag s.est.stale 0),
    idis := ((wordPhys im w 8 3).map currentCode).getD (-32768),
    ichg := ((wordPhys im w 9 3).map currentCode).getD (-32768),
    resid := ((wordPhys im w 5 1).map (fun x => tempCode (rround (x * 10000)))).getD (-32768), gen := gen }

/-- The published cell record of a point, 32 bytes (R150). -/
def State.cellBytes (s : State) (p : Nat) : List Byte :=
  let c := s.cell p
  let r := c.pub
  le 2 r.v ++ leI 2 r.t ++ le 2 r.socInt ++ le 2 r.socUse ++ le 2 r.sigma ++ le 1 r.conf ++ le 1 r.flags.toNat ++
    le 2 c.learned.cap ++ le 2 c.learned.r0 ++ le 2 r.zrel2 ++ le 2 r.zrel6 ++ leI 2 r.idis ++ leI 2 r.ichg ++ leI 2 r.resid ++
    le 2 r.erem ++ le 4 r.gen

/-- The record of a cell in a sweep generation: the one before the present where that is newer already (R298). -/
def State.cellBytesOf (s : State) (g p : Nat) : List Byte :=
  if seqOlder g (s.cell p).pub.gen ∧ (s.cell p).prevRec ≠ [] then (s.cell p).prevRec else s.cellBytes p

/-- Before a cell's next record is published, its record of every pinned generation joins that generation's snapshot
(R298). -/
def State.savePinned (s : State) (p : Nat) : State :=
  let gens := sortN (s.sys.cursors.filterMap (fun c => c.gen))
  let due := gens.filter (fun g => !s.sys.snaps.any (fun e => decide (e.1 = g ∧ e.2.1 = p)))
  s.onSys fun y => { y with snaps := y.snaps ++ due.map (fun g => (g, p, s.cellBytesOf g p)) }

/-- One cell of an UPDATE invocation is published: its other half becomes current, read with the columns of the image that wrote it
(R29, R104, R130, R150, R166, R167, R170). -/
def State.publishCell (s : State) (i : Item) (j : Nat) : State :=
  let p := nth 0 (s.invCells i.string i.base) j
  let im := s.imageAt i.img
  let (v, t, amps) := nth (0xFFFF, -32768, none) i.ins j
  (s.savePinned p).modCell p fun c =>
    let w := if c.half then c.half0 else c.half1
    let ticks := i.at_ - c.at_.getD i.at_
    let u := s.usable i.string c (socOf im w) amps ((ticks : Rat) / 200000000)
    let q := rround (amps.getD 0 * 1000 * (ticks : Rat))
    let nis := (wordPhys im w 7 9).getD 0
    let sig := (wordPhys im w 6 4).getD 0
    { c with half := !c.half, prevRec := s.cellBytes p, xgen := i.img, use := some u, at_ := some i.at_, lastAmps := amps,
             discards := 0, net := c.net + q, gross := c.gross + q.natAbs,
             nisSince := if (s.par 0x3114 : Rat) / 1000 < nis then some (c.nisSince.getD s.clock) else none,
             invalidSince := if v = 0xFFFF then some (c.invalidSince.getD s.clock) else none,
             goodSince := if nis < 4 ∧ sig < 1 / 20 ∧ v ≠ 0xFFFF then some (c.goodSince.getD s.clock) else none,
             pub := s.cellRecord im i.string c w v t amps u i.gen }

/-! ### String records (R152, R159, R166, R169) -/

/-- A string's power and energy after its last invocation of a sweep (R150, R152, R166, R169). -/
def State.stringPower (s : State) (k : Nat) : State :=
  let st := s.str k
  let r := st.results
  let cs := st.cells.map s.cell
  let ok := st.closed && cs.all (fun c => bit c.pub.flags 7)
  let iD := nth 0 r 3
  let iC := nth 0 r 4
  let ocv := nth 0 r 5
  let ref := nth 0 r 6
  let w := s.useWindow
  let left (c : Cell) : Rat := c.use.getD 0 * w * ((c.learned.cap : Rat) / 50)
  let head (c : Cell) : Rat := (1 - c.use.getD 0) * w * ((c.learned.cap : Rat) / 50)
  let mean := ocv / (max 1 st.cells.length : Nat)
  let s1 := s.modStr k fun q =>
    { q with pdis := if ok then floorN (iD * (ocv - iD * ref)) else 0, pchg := if ok then floorN (iC * (ocv + iC * ref)) else 0,
             euse := floorN (minR 0 (cs.map left) * ocv), ehead := floorN (minR 0 (cs.map head) * ocv),
             socUse := medianN (cs.map (fun c => c.pub.socUse)),
             sflags := putBit (putBit (putBit q.sflags 5 q.closed) 3 (s.est.stale || cs.any (fun c => bit c.pub.flags 0))) 4
               (cs.any (fun c => bit c.pub.flags 6)) }
  forEach st.cells (fun p t => t.modCell p fun c =>
    { c with pub := { c.pub with erem := if bit c.pub.flags 7 then codeN 0xFFFE (left c * mean * 10) else 0xFFFF } }) s1

/-- A string as it stood before a generation is kept for the readers of the one before (R298). -/
def State.keepBefore (s : State) (k gen : Nat) : State :=
  if (s.str k).doneGen = some gen ∨ (s.str k).evalGen = some gen then s
  else s.onEst fun e => { e with before := tput e.before k (s.str k) }

/-- A string is complete for a sweep: its results stand, and its record and health follow (R152, R161, R167, R192). -/
def State.finishString (s : State) (k gen : Nat) : State :=
  let s1 := (s.keepBefore k gen).modStr k fun q => { q with results := q.acc, doneGen := some gen, stepped := false }
  ((s1.stringPower k).shareHealth k).bankThermal

/-- A string's temperatures, flags, factors and deferrals for a sweep whose collection is over, once, whatever the rods have done
(R186, R190, R191, R193, R201). -/
def State.evalDue (s : State) (k : Nat) : State :=
  let r := s.ring (keyPort k)
  if r.closedAt.isNone ∨ r.collecting = true ∨ (s.str k).cells = [] ∨ (s.str k).evalGen = some r.gen then s
  else
    let s1 := forEach (s.posOf k) (fun pos t => t.judgeTemps (keyPort k) pos) s
    (((((s1.keepBefore k r.gen).evalThermal k).modStr k fun q => { q with evalGen := some r.gen }).bankThermal).deferString k)

/-- An UPDATE invocation is published (R22, R29, R186). -/
def State.publishUpdate (s : State) (i : Item) : State :=
  let k := i.string
  let ps := s.invCells k i.base
  let s0 := forEach (sortN (ps.map pointPos)) (fun pos t => t.judgeTemps (keyPort k) pos) s
  let s1 := forEach (List.range ps.length) (fun j t => t.publishCell i j) s0
  let s2 := forEach ps (fun p t => t.judgeHealth p) s1
  let s3 := s2.modStr k (·.account i.gen ps.length (some i.results))
  let newer := match s3.est.partGen with | some g => seqOlder g i.gen | none => true
  s3.when newer (·.onEst fun e => { e with partGen := some i.gen })

/-- A string whose invocations of a sweep have all been published or discarded is complete for it, once (R161). -/
def State.finishDue (s : State) (k : Nat) : State :=
  let q := s.str k
  match q.accGen with
  | some g => s.when (decide (q.cells ≠ [] ∧ q.cells.length ≤ q.accN ∧ q.doneGen ≠ some g)) (·.finishString k g)
  | none => s

/-! ### Ripple impedance (R164, R165) -/

/-- RIPPLE_RESULT: a burst of a string is complete: relative and absolute impedance, and the impedance suspicion
(R165, R176). -/
def State.rippleResult (s : State) (k : Nat) : State :=
  let st := s.str k
  let valid := st.cells.filter (fun p => (s.cell p).burstOk)
  let amp? (p h : Nat) : Option Rat := nth none (tget [] st.ripAcc p) h
  let amp (p h : Nat) : Rat := (amp? p h).getD 0
  let m2 := medianR (valid.filterMap (fun p => amp? p 0))
  let m6 := medianR (valid.filterMap (fun p => amp? p 1))
  let least : Rat := (s.par 0x3117 : Rat) / 1000000
  let rel (m a : Rat) (ok : Bool) : Nat := if ok ∧ valid ≠ [] ∧ least ≤ m then codeN 0xFFFE (4096 * a / m) else 0xFFFF
  let fpi : Bool := match s.groupOf? k with
    | some g => decide (g.2.length = 4 ∧ nth 0 g.2 0 = 1 ∧ st.fpiBurst.length = 384)
    | none => false
  let absOf (h : Nat) (a : Rat) (ok : Bool) : Nat :=
    let i := demod h st.fpiBurst
    if ok ∧ fpi ∧ 0 < i then codeN 0xFFFE (a * 1000000 * 1000 * 2 ^ 20 / (i : Nat)) else 0xFFFF
  let s1 := forEach st.cells (fun p t =>
    let ok := (t.cell p).burstOk && (amp? p 0).isSome
    let ok6 := (t.cell p).burstOk && (amp? p 1).isSome
    let z2 := rel m2 (amp p 0) ok
    let hist := (t.cell p).zHist
    let drop := decide (z2 ≠ 0xFFFF ∧ hist.length = 4) &&
      decide (((z2 : Nat) : Rat) < ((hist.sum : Nat) : Rat) / 4 * (1 - s.parPct 0x3119))
    let t1 := t.modCell p fun c =>
      { c with pub := { c.pub with zrel2 := z2, zrel6 := rel m6 (amp p 1) ok6 },
               zabs2 := absOf 2 (amp p 0) ok, zabs6 := absOf 6 (amp p 1) ok6,
               zHist := if z2 = 0xFFFF then c.zHist else (z2 :: c.zHist).take 4, burst := [] }
    t1.when drop (·.suspect k p 2)) s
  s1.modStr k fun q => { q with ripAcc := [], fpiBurst := [] }

/-! ### Checkpoints (R174, R177) -/

/-- The point addresses of every configured cell, ascending (R15, R423). -/
def State.cellPoints (s : State) : List Nat := sortN (s.est.configured.flatMap (fun k => (s.str k).cells))

/-- A learned checkpoint: words 10 and 11 enter the learned records within their bounds, and every record is stored
(R174, R177). -/
def State.learnedCheckpoint (s : State) : State :=
  let s1 := forEach s.est.configured (fun k u =>
    forEach ((u.str k).cells.filter (fun p => bit (u.cell p).pub.flags 7)) (fun p t =>
      let w := (t.cell p).words
      let im := s.cellImage (s.cell p)
      let r0 := (s.parStr 0x3503 k : Rat) / 1000000
      let ev (n : Nat) (x : State) := x.raise 0x0309 [pointPort p, pointPos p, pointInput p, n]
      let t1 := match wordPhys im w 10 5 with
        | some r =>
          if r0 / 4 ≤ r ∧ r ≤ r0 * 4 then t.modCell p fun c => { c with learned := { c.learned with r0 := codeN 65535 (r * 1000000) } }
          else ev 10 t
        | none => t
      match wordPhys im w 11 8 with
      | some d =>
        if 1 / 100000 ≤ d ∧ d ≤ 1 / 20 then
          t1.modCell p fun c => { c with learned := { c.learned with diff := codeN 65535 (d * 1000000) } }
        else ev 11 t1
      | none => t1) u) s
  let ps := s1.cellPoints
  let n := (tget (0 : Nat) s1.recs.ckSeq 2 + 1) % 2 ^ 32
  (((s1.onEst fun e => { e with ckAt := s.clock }).onSys fun y => { y with ckDue := false })).onRecs fun r =>
    { r with ckSeq := tset (0 : Nat) r.ckSeq 2 n,
             learnedPool := (⟨n, s.wall, s.est.pubGen.getD 0, r.cfgGen, ps, ps.map (fun p => (s1.cell p).learned)⟩ :: r.learnedPool).take 256 }

/-- An SOC checkpoint: word 0 of every cell as an SOC code, with the wall time, in the next slot of the pool (R177, R423). -/
def State.socCheckpoint (s : State) : State :=
  let ps := s.cellPoints
  let n := (tget (0 : Nat) s.recs.ckSeq 1 + 1) % 2 ^ 32
  let code (p : Nat) : Nat := codeN 65535 (socOf (s.cellImage (s.cell p)) (s.cell p).words * 65536)
  (s.onEst fun e => { e with socAt := s.clock }).onRecs fun r =>
    { r with ckSeq := tset (0 : Nat) r.ckSeq 1 n,
             socPool := (⟨n, s.wall, s.est.pubGen.getD 0, r.cfgGen, ps, ps.map code⟩ :: r.socPool).take 2048 }

/-- SOC_CHECKPOINT: 60 s have passed since the last one (R177). -/
def execSocCheckpoint (s : State) : Host.Outcome State Fault Refusal :=
  onlyIf (decide (s.sys.run = .running) && !s.sys.holdup && s.elapsed s.est.socAt (secs 60)) State.socCheckpoint s

/-- LEARNED_CHECKPOINT: LRN_CKPT has passed since the last one, or STANDBY has been entered since; a capacity update takes one at
once (R174, R177). -/
def execLearnedCheckpoint (s : State) : Host.Outcome State Fault Refusal :=
  onlyIf (decide (s.sys.run = .running) && !s.sys.holdup && (s.sys.ckDue || s.elapsed s.est.ckAt (ms (s.par 0x311A).toNat))) State.learnedCheckpoint s

/-! ### Learning results (R174, R176) -/

/-- A capacity proposal in Ah for a cell: accepted within its bounds (R174). -/
def State.capAccepted (s : State) (k p : Nat) (prop : Rat) : Bool :=
  let l := (s.cell p).learned
  let cap : Rat := (l.cap : Rat) / 50
  let np : Rat := (s.parStr 0x3502 k : Rat) / 1000
  let within (base frac : Rat) : Bool := decide (base - base * frac ≤ prop ∧ prop ≤ base + base * frac)
  decide (prop ≠ 0) && (if l.idChanged ∨ l.neverLearned then within np (3 / 10) else within cap (s.parPct 0x3112))

/-- LEARN_RESULT: the proposals of a string's cells are accepted or refused; a capacity update triggers a learned
checkpoint (R174, R176). -/
def State.learnResult (s : State) (k : Nat) : State :=
  let st := s.str k
  let cap (p : Nat) : Rat := (nth none (tget [] st.learnAcc p) 0).getD 0
  let sdr (p : Nat) : Rat := (nth none (tget [] st.learnAcc p) 1).getD 0
  let acc := st.cells.filter (fun p => s.capAccepted k p (cap p))
  let ref := st.cells.filter (fun p => decide (cap p ≠ 0) && !s.capAccepted k p (cap p))
  let limit : Rat := 10 * (s.par 0x3118 : Rat) / 100000000000
  let sAcc := st.cells.filter (fun p => decide (sdr p ≠ 0 ∧ sdr p < limit))
  let s1 := forEach acc (fun p t => t.modCell p fun c =>
    let l := c.learned
    let g : Rat := if l.idChanged ∨ l.neverLearned then 1 else (s.par 0x3111 : Rat) / 1000
    { c with learned := { l with cap := codeN 65535 ((l.cap : Rat) + g * (cap p * 50 - (l.cap : Rat))), idChanged := false,
                                 neverLearned := false, cnt := sat16 (l.cnt + 1),
                                 tag := (s.at_ (pointPort p) (pointPos p)).serial % 2 ^ 32 } }) s
  let s2 := forEach sAcc (fun p t => t.modCell p fun c =>
    { c with learned := { c.learned with
        sdr := codeN 65535 ((c.learned.sdr : Rat) + (s.par 0x3113 : Rat) / 1000 * (sdr p * 100000000000 - (c.learned.sdr : Rat))) } }) s1
  let med := medianN (st.cells.map (fun p => (s2.cell p).learned.sdr))
  let s3 := forEach (sAcc.filter (fun p => decide (((med : Nat) : Int) + s.par 0x3118 < (((s2.cell p).learned.sdr : Nat) : Int)))) (fun p t =>
    t.suspect k p 1) s2
  let s4 := s3.when (decide (acc ≠ [] ∨ ref ≠ [])) (·.raise 0x0302
    [keyPort k, keyId k, acc.length, ref.length, ((medianN (acc.map (fun p => (s2.cell p).learned.cap)) : Nat) : Int)])
  let s5 := (s4.modStr k fun q => { q with learnAcc := [], learn := none })
  let s6 := forEach st.cells (fun p t => t.modCell p fun c => { c with learn := none }) s5
  s6.when (decide (acc ≠ [])) (·.learnedCheckpoint)

/-! ### PUBLICATION (R22) -/

/-- The side buffer of a RIPPLE or LEARN invocation joins those of its string (R165). -/
def State.publishSide (s : State) (i : Item) : State :=
  let k := i.string
  let ps := s.invCells k i.base
  let add (from_ : Nat) (t : Tbl (List (Option Rat))) : Tbl (List (Option Rat)) :=
    (List.range ps.length).foldl (fun a j => tput a (nth 0 ps j) ((nth [] i.side j).drop from_ |>.take 2)) t
  if i.entry = 3 then s.modStr k fun q => { q with ripAcc := add 0 q.ripAcc }
  else if i.entry = 2 then s.modStr k fun q => { q with learnAcc := add 2 q.learnAcc }
  else s

/-- A side buffer holds something for every cell of a string. -/
def State.sideWhole (s : State) (k : Nat) (t : Tbl (List (Option Rat))) : Bool :=
  decide ((s.str k).cells ≠ []) && (s.str k).cells.all (fun p => (tfind? t p).isSome)

/-- The result of a burst or of a LEARN whose invocations have all been published or discarded (R165, R174). -/
def State.sideDue (s : State) (k : Nat) : State :=
  let s1 := s.when (s.sideWhole k (s.str k).ripAcc) (·.rippleResult k)
  s1.when (s1.sideWhole k (s1.str k).learnAcc) (·.learnResult k)

/-- PUBLICATION: the Reckoner publishes what the rods have compared and released, each invocation in the order released, and what
becomes complete with them; not while a swap holds the Reckoner, nor in hold-up (R22, R27, R28, R113, R161). -/
def execPublication (s : State) : Host.Outcome State Fault Refusal :=
  onlyIf (decide (s.sys.run = .running) && !s.sys.holdup) (fun s => State.settleGen <|
    let s1 := forEach s.sched.released (fun i t => if i.entry = 1 then t.publishUpdate i else t.publishSide i)
      (s.onSched fun q => { q with released := [] })
    forEach s1.est.configured (fun k t => ((t.finishDue k).evalDue k).sideDue k) s1) s

/-! ### String current (R160-R162) -/

/-- Increments of the throughput counters of a string and of the bank for a sweep, with 32 fractional bits (R433, R434). -/
def State.throughput (s : State) (k : Nat) (amps : Rat) (ticks : Nat) : State :=
  let mAh : Rat := amps * 1000 * (ticks : Rat) / 200000000 / 3600
  let stack := ((sortN ((s.str k).cells.map pointPos)).map (fun pos =>
    match s.record? (keyPort k) pos with
    | some r => if recStack r = 0xFFFF then 0 else recStack r
    | none => 0)).sum
  let wh : Rat := mAh / 1000 * ((stack : Rat) / 250)
  let one (v : Rat) : Nat := floorN ((if v < 0 then -v else v) * 4294967296)
  let side := if amps < 0 then 1 else 0
  s.onRecs fun r =>
    let add (t : Tbl Nat) (key n : Nat) : Tbl Nat := tmod (0 : Nat) t key (· + n)
    let f1 := add (add r.fractions (cntKey 2 k side) (one mAh)) (cntKey 2 k (2 + side)) (one wh)
    { r with fractions := add (add f1 (cntKey 1 0 side) (one mAh)) (cntKey 1 0 (2 + side)) (one wh) }

/-- The PCS reports zero current: there is a unit, and every one is fresh and at 0 (R170). -/
def State.pcsZero (s : State) : Bool :=
  s.pcsEn && decide (0 < s.pcsUnits) && (List.range s.pcsUnits).all (fun u => s.unitFresh u && decide ((s.unit u).iDc = 0))

/-- The string current of the record lies within the rest band, in mA against REST_BAND × I_RATED; none without a current (R170). -/
def State.currentRests (s : State) (k : Nat) : Option Bool :=
  let i := (s.str k).i
  if (s.str k).src = 0 ∨ i = -32768 then none
  else
    let band : Rat := (s.parStr 0x3109 k : Rat) / 100000 * (s.iRated k : Rat) / 1000
    some (decide (-band ≤ (i : Rat) / 20 ∧ (i : Rat) / 20 ≤ band))

/-- Rest detection works under an image: it declares word 12 as a voltage (R154). -/
def Image.ratesRest (im : Image) : Bool := im.columns.any (fun c => decide (colRole c = 2 ∧ colIdx c = 12 ∧ colKind c = 1))

/-- A string rests, by the current of its record and the rate of its cells (R154, R170). -/
def State.resting (s : State) (k : Nat) : Bool :=
  let slow := s.image.ratesRest && decide (nth 0 (s.str k).results 7 * 1000000 < (s.par 0x310A : Rat))
  match s.currentRests k with
  | some b => b && slow
  | none => slow && s.pcsZero && !(s.str k).closed

/-- The string's rest follows its record: while it rests its start stands, and the band's too; balancing that a rest had quieted
resumes when it ends (R158, R170, R202). -/
def State.judgeRest (s : State) (k : Nat) : State :=
  let rest := s.resting k
  let s1 := s.modStr k fun q =>
    { q with restSince := if rest then some (q.restSince.getD s.sampleAt) else none,
             bandSince := if s.currentRests k = some true then some (q.bandSince.getD s.sampleAt) else none,
             restPoints := if rest then q.restPoints else 0, keepFirst := q.keepFirst && rest, quiet := q.quiet && rest,
             sflags := putBit q.sflags 0 (bit q.sflags 0 && rest) }
  s1.when ((s.str k).quiet && !rest) (·.owePlan k)

/-- I_SIGMA of a variance in A², 50 mA, rounded up (R152, R161). -/
def sigmaCode (p : Rat) : Nat := min 65535 (rootUp 40 ((p * 400).ceil.toNat))

/-- The standard deviation of a measured current, 50 mA, rounded up: MEAS_SIGMA of I_RATED (R152, R161). -/
def State.measSigma (s : State) (k : Nat) : Nat :=
  let sig : Rat := (s.parGrp 0x3104 ((s.groupOf? k).map Prod.fst |>.getD 0) : Rat) / 100000 * (s.iRated k : Rat) / 1000
  min 65535 ((sig * 20).ceil.toNat)

/-- The current of a string's record for the sweep is published, with the throughput counters, the history of R198 and
the rest (R152, R160, R170, R434). -/
def State.publishCurrent (s : State) (k ticks : Nat) : State :=
  let st := s.str k
  let (src, amps) := s.source k
  let code := (amps.map currentCode).getD (-32768)
  let s1 := s.modStr k fun q =>
    { q with i := code, src := src, iSigma := if src = 0 then 65535 else if src = 2 then s.measSigma k else sigmaCode st.pVar,
             iHist := (s.sampleAt, code) :: q.iHist.filter (fun e => decide (s.sampleAt < e.1 + secs 60)),
             noCurrent := if src = 0 then q.noCurrent + ticks else q.noCurrent,
             sflags := putBit q.sflags 1 ((s.ring (keyPort k)).skewLimit && decide (s.parStr 0x3101 k ≠ 2)) }
  let s2 := s1.judgeRest k
  if (s.settled (keyPort k)) then s2.throughput k (amps.getD 0) ticks else s2

/-- OBSERVER_RUN: after a string's last invocation of the sweep, the current observer updates Î and P, or holds
(R161, R162); the current of a blended string is published with the blend. -/
def execObserverRun (port sid : Nat) (s : State) : Host.Outcome State Fault Refusal :=
  let k := strKey port sid
  let st := s.str k
  onlyIf (decide (st.doneGen ≠ none ∧ st.doneGen ≠ st.runGen)) (fun s =>
    let rated : Rat := (s.iRated k : Rat) / 1000
    let ticks := s.sampleAt - st.obsAt.getD s.sampleAt
    let cnt := floorN (nth 0 st.results 2)
    let enough := decide (s.par 0x3102 ≤ (cnt : Int))
    let restart := decide (st.obsAt = none) || (st.unavailable && enough)
    let i0 : Rat := if restart then 0 else st.iHat
    let p0 : Rat := if restart then rated * rated else st.pVar
    let pPre := p0 + (rated / 4) * (rated / 4) * ((ticks : Rat) / 200000000)
    let p1 : Rat := if pPre = 0 then 0 else 1 / (1 / pPre + nth 0 st.results 1)
    let s1 := s.modStr k fun q =>
      { q with pVar := if enough then p1 else pPre, iHat := if enough then i0 + p1 * nth 0 st.results 0 else i0,
               heldSince := if enough then none else some (q.heldSince.getD s.clock), nobs := sat16 cnt,
               unavailable := q.unavailable && !enough, stepped := true, stepTicks := ticks, runGen := st.doneGen, obsAt := some s.sampleAt,
               sflags := putBit q.sflags 2 (!enough) }
    let s2 := s1.when (st.unavailable && enough) (·.raise 0x0305 [port, sid])
    if (s2.source k).1 = 3 then s2 else s2.publishCurrent k ticks) s

/-- OBSERVER_BLEND: every string of a group has finished its voltage step, and the group's measured value is blended in: the FPI's
conversion at the sample instant or the unit's report; the strings' currents are then published (R160, R161). -/
def execObserverBlend (group : Nat) (s : State) : Host.Outcome State Fault Refusal :=
  let g := tget [] s.est.groups group
  let ks := g.drop 3
  let im := s.groupAmps? g
  onlyIf (decide (ks ≠ []) && ks.all (fun k => (s.str k).stepped && decide ((s.source k).1 = 3)) && im.isSome) (fun s =>
    let rated : Rat := ((ks.map s.iRated).sum : Rat) / 1000
    let rm := (s.parGrp 0x3104 group : Rat) / 100000 * rated
    let nu := im.getD 0 - (ks.map (fun k => (s.str k).iHat)).sum
    let sv := (ks.map (fun k => (s.str k).pVar)).sum + rm * rm
    let s1 := forEach ks (fun k t => t.modStr k fun q =>
      { q with stepped := false,
               iHat := if sv = 0 then q.iHat else q.iHat + q.pVar * nu / sv,
               pVar := if sv = 0 then q.pVar else q.pVar - q.pVar * q.pVar / sv }) s
    forEach ks (fun k t => t.publishCurrent k (s.str k).stepTicks) s1) s

/-- OBSERVER_UNAVAILABLE: the observer has been held longer than HOLD_MAX (R162). -/
def execObserverUnavailable (port sid : Nat) (s : State) : Host.Outcome State Fault Refusal :=
  let k := strKey port sid
  onlyIf (!(s.str k).unavailable && s.elapsed? (s.str k).heldSince (ms (s.par 0x3103).toNat)) (fun s =>
    (s.modStr k fun q => { q with unavailable := true }).raise 0x0304 [port, sid, (s.str k).nobs]) s

/-! ### Rest points and learning intervals (R170-R172) -/

/-- What a rest point records of a cell at a wall time (R170). -/
def Cell.point (c : Cell) (wall : BitVec 64) : RestPt := ⟨c.pub.v, c.pub.t, c.pub.socInt, c.net, c.gross, wall⟩

/-- The first failing test of an interval, 1…6 as in R171, or 0 (R171). -/
def State.intervalTest (s : State) (k : Nat) : Nat × Bool :=
  let st := s.str k
  let cs := st.cells.map s.cell
  let a := cs.filterMap Cell.first
  let b := cs.map (·.point s.wall)
  let since := (st.first.map Prod.fst).getD 0
  let dz := ((medianN (a.map RestPt.soc) : Nat) : Int) - ((medianN (b.map RestPt.soc) : Nat) : Int)
  let cell (i : Nat) : RestPt := (nth Cell.reset cs i).first.getD ((nth Cell.reset cs i).point s.wall)
  let net (i : Nat) : Nat := ((nth Cell.reset cs i).net - (cell i).net).natAbs
  let gross (i : Nat) : Nat := (nth Cell.reset cs i).gross - (cell i).gross
  let idx := List.range cs.length
  let idle := s.elapsed since (ms (s.par 0x3110).toNat) && idx.all (fun i =>
    decide ((net i : Rat) / 1000 / 200000000 / 3600 ≤ ((nth Cell.reset cs i).learned.cap : Rat) / 50 / 200))
  let old := s.elapsed since (ms (s.par 0x310D).toNat)
  let dt := (medianI (a.map RestPt.t) - medianI (b.map RestPt.t)).natAbs
  if !idle ∧ (dz.natAbs : Rat) / 65536 < s.parPct 0x310C then (1, idle)
  else if old then (2, idle)
  else if s.par 0x310E < (dt : Int) then (3, idle)
  else if !idle ∧ (s.par 0x310F : Rat) / 1000 * (((idx.map net).sum : Nat) : Rat) < (((idx.map gross).sum : Nat) : Rat) then (4, idle)
  else if secs 60 < st.noCurrent then (5, idle)
  else if st.spoiled then (6, idle)
  else (0, idle)

/-- The present points become the first point of the next interval. -/
def State.newFirst (s : State) (k : Nat) : State :=
  forEach (s.str k).cells (fun p t => t.modCell p fun c => { c with first := some (c.point s.wall) })
    (s.modStr k fun q => { q with first := some (s.clock, s.wall), noCurrent := 0, spoiled := false, keepFirst := false })

/-- LEARNING_INTERVAL: an interval is evaluated at its second point: kept, abandoned or queued as LEARN (R171, R172). -/
def State.evalInterval (s : State) (k : Nat) : State :=
  let (t, idle) := s.intervalTest k
  let since := ((s.str k).first.map Prod.fst).getD 0
  if t = 1 ∧ s.elapsed since (ms (s.par 0x310D).toNat) = false then s.modStr k fun q => { q with keepFirst := true }
  else if t = 0 then
    let s1 := forEach (s.str k).cells (fun p u => u.modCell p fun c => { c with learn := c.first.map (fun f => (f, c.point s.wall)) }) s
    ((s1.modStr k fun q => { q with learn := some (s.since since, idle), learnAcc := [] }).onEst fun e =>
      { e with learnQueue := e.learnQueue.filter (fun x => decide (x.1 ≠ k)) ++ [(k, s.clock, 0)] }).newFirst k
  else (s.when (decide (3 ≤ t)) (·.raise 0x0303 [keyPort k, keyId k, t])).newFirst k

/-- REST_POINT: a rest has lasted REST_HOLD, or once more: each cell's point is recorded, and the first point of a later
rest closes the learning interval (R170, R171). -/
def execRestPoint (port sid : Nat) (s : State) : Host.Outcome State Fault Refusal :=
  let k := strKey port sid
  let st := s.str k
  onlyIf (s.elapsed? st.restSince (ms (s.par 0x310B).toNat * (st.restPoints + 1))) (fun s =>
    let s1 := forEach st.cells (fun p t => t.modCell p fun c => { c with rest := some (c.point s.wall) })
      (s.modStr k fun q => { q with restPoints := q.restPoints + 1, sflags := putBit q.sflags 0 true })
    if st.first = none then s1.newFirst k
    else if st.restPoints = 0 then s1.evalInterval k
    else if st.keepFirst then s1
    else s1.newFirst k) s

/-! ### Ripple samples (R47, R49, R163) -/

/-- What R163 asks of a string while its burst is captured: closed contactors, the bank ONLINE, class 4 not starved. -/
def State.burstHolds (s : State) (k : Nat) : Bool :=
  (s.str k).closed && decide (s.sys.mode = .online) && !s.sched.starved.contains 4

/-- A capture stops before its last sample: its samples are dropped (R163). -/
def State.dropBurst (s : State) (k : Nat) : State :=
  forEach (s.str k).cells (fun p t => t.modCell p fun c => { c with burst := [] })
    (s.modStr k fun q => { q with burst := none, fpiBurst := [], merge := none })

/-- One sample of a string's burst; the 384th ends it (R47, R163, R165). -/
def State.burstSample (s : State) (k : Nat) (merged : Bool) (cells : List (Nat × Nat)) (ma : Int) : State :=
  let n := ((s.str k).burst.getD 0) + 1
  let t1 := forEach (s.str k).cells (fun p u => u.modCell p fun c =>
    { c with burst := c.burst ++ [if merged then 0xFFFF else ((cells.find? (fun e => decide (e.1 = p))).map Prod.snd).getD 0xFFFF],
             burstWall := if n = 1 then s.beam.eventWall else c.burstWall }) s
  let t2 := t1.modStr k fun q =>
    { q with fpiBurst := q.fpiBurst ++ [ma],
             merge := if merged then some (s.beam.sweepGen, n - 1) else q.merge,
             burst := if 384 ≤ n then none else some n, lastBurst := if 384 ≤ n then some s.clock else q.lastBurst,
             ripAcc := if 384 ≤ n then [] else q.ripAcc }
  t2.when (decide (384 ≤ n)) (·.onSched fun q => { q with bursts := q.bursts ++ [(k, s.clock, 0)] })

/-- RIPPLE_BURST_SAMPLE: M1 fires and a sample is taken on every string with a burst: cell codes by point address, invalid where
NOSYNC, and the FPI samples by string as conversions in 1/32,768 of the input's span; a capture whose conditions no longer hold
stops (R47, R163, R165, R209, R210). On a tick with a sweep the cells' sample is the sweep's, which its records bring (R49). -/
def execRippleBurstSample (cells : List (Nat × Nat)) (fpi : List (Nat × Int)) (s : State) : Host.Outcome State Fault Refusal :=
  onlyIf (s.markDue 1) (fun s =>
    let s1 := s.fireMark 1
    let merged := decide (s.beam.sweptAt = some s.clock)
    forEach (s.est.configured.filter (fun k => (s.str k).burst.isSome)) (fun k t =>
      let code := ((fpi.find? (fun e => decide (e.1 = k))).map Prod.snd).getD 0
      let ma := match t.groupOf? k with | some g => t.fpiValue (nth 0 g.2 1) (clampI (-32768) 32767 code) | none => 0
      if s.burstHolds k then t.burstSample k merged cells ma else t.dropBurst k) s1) s

end Sys2Proof.Machine
end

