-- ==== Sys2Proof/Machine/Pcs.lean ====
section
/-! DEFINITION. The guard's message on the PCS bus: ZERO, STOP, RELEASE and their repetition (R225, R409). -/
namespace Sys2Proof.Machine
open Sys2Proof

/-- The 8 data bytes of the guard's frame (R225). -/
def Guard.frame (g : Guard) : List Byte :=
  le 1 g.pcsCmd ++ le 2 g.pcsId.1 ++ le 2 g.pcsId.2 ++ le 1 g.pcsCount ++ [0, 0]

/-- The guard's message is transmitted: COUNT rises and the frame goes to the guard's engine; with CAN_PCS.EN clear
nothing goes over CAN; of a frame of the controller that became ready together with it the guard's is sent first (R225, R406,
R418). -/
def State.emitPcs (s : State) : State :=
  let s1 := s.onGuard fun g => { g with pcsAt := some s.clock }
  if s.pcsEn then
    let s2 := s1.onGuard fun g => { g with pcsCount := (g.pcsCount + 1) % 256 }
    (s2.onCan fun c => { c with guardTx := some s2.guard.frame, guardPass := c.guardPass || c.guardTx.isNone }).modCtrl s.pcsCh
      fun c => { c with onBus := if c.busAt = s.clock then none else c.onBus }
  else s1

/-- ZERO is sent and holds; while STOP holds it is not replaced (R225). -/
def State.sendZero (s : State) (id cause : Nat) : State :=
  if s.guard.pcsCmd = 2 then s
  else (s.onGuard fun g => { g with pcsCmd := 1, pcsId := (id, cause), releases := 0 }).emitPcs

/-- STOP is sent and holds (R225). -/
def State.sendStop (s : State) (id cause : Nat) : State :=
  (s.onGuard fun g => { g with pcsCmd := 2, pcsId := (id, cause), releases := 0 }).emitPcs

/-- RELEASE is sent, two more follow: ZERO and STOP are withdrawn together (R225). -/
def State.sendRelease (s : State) (id cause : Nat) : State :=
  (s.onGuard fun g => { g with pcsCmd := 3, pcsId := (id, cause), releases := 2 }).emitPcs

/-- ZERO or STOP holds at the PCS (R225, R265). -/
def State.zeroHeld (s : State) : Bool := decide (s.guard.pcsCmd = 1 ∨ s.guard.pcsCmd = 2)

/-- PCS_MESSAGE_REPEAT: ZERO and STOP every 50 ms while they hold, RELEASE every 10 ms for three sends (R225); 50 ms
after the third RELEASE its attempts end (R409). -/
def execPcsMessageRepeat (s : State) : Host.Outcome State Fault Refusal :=
  let g := s.guard
  if s.zeroHeld then onlyIf (s.elapsed? g.pcsAt (ms 50) && !g.failed) (·.emitPcs) s
  else if g.pcsCmd = 3 ∧ 0 < g.releases then
    onlyIf (s.elapsed? g.pcsAt (ms 10) && !g.failed) (fun s => (s.onGuard fun g => { g with releases := g.releases - 1 }).emitPcs) s
  else
    onlyIf (decide (g.pcsCmd = 3) && s.elapsed? g.pcsAt (ms 50)) (fun s =>
      (s.onGuard fun g => { g with pcsCmd := 0 }).onCan fun c => { c with guardTx := none }) s

end Sys2Proof.Machine
end

