-- ==== Sys2Proof/Machine/Tenants.lean ====
section
/-! DEFINITION. Virtual batteries and dispatch: the tick, limits, sharing, ledgers, bindings, bursts (chapter 9). -/
namespace Sys2Proof.Machine
open Sys2Proof

/-! ### Who takes part (R240, R242) -/

/-- A rated power, 0 while it is unset (R241). -/
def State.rated (s : State) (dis : Bool) : Nat := (max 0 (s.par (if dis then 0x5101 else 0x5102))).toNat

/-- A tenant's power allocation of a side; tenant 0's is what remains (R242). -/
def State.alloc (s : State) (t : Nat) (dis : Bool) : Nat :=
  let side (q : Tenant) : Nat := if dis then q.pDis else q.pChg
  if t = 0 then s.rated dis - (s.enabledTenants.map (fun u => side (s.tenant u))).sum
  else if (s.tenant t).exists_ && (s.tenant t).enabled then side (s.tenant t) else 0

/-- A tenant's stop bit is set (R259). -/
def State.stopped (s : State) (t : Nat) : Bool := s.guard.stops.contains t

/-- Ramps move and power is delivered: ONLINE, or SERVICE while connected (R249, R442). -/
def State.mayDispatch (s : State) : Bool :=
  decide (s.sys.mode = .online ∨ s.sys.mode = .service) && s.guard.connected

/-! ### Limits (R250) -/

/-- The sum of a figure over the configured strings. -/
def State.sumStr (s : State) (f : Str → Nat) : Nat := (s.est.configured.map (fun k => f (s.str k))).sum

/-- A string's power under its lower factor, derating or protection, in 1/1000 W (R250). -/
def limited (p : Nat) (f : Option Nat) (fp : Nat) : Nat := p * min (f.getD 0) (1000 * fp)

/-- The limits, the states of power and the protection limits as the bank record shows them (R250, R264). DESIGN CHOICE: the
summed limit is rounded down to whole watts once (log entry 123), and the protection factors are those the guard holds at the
tick (R228, log entry 124). -/
def State.formLimits (s : State) : State :=
  let dis := s.sumStr (fun q => limited q.pdis q.fDis q.fpDis) / 1000
  let chg := s.sumStr (fun q => limited q.pchg q.fChg q.fpChg) / 1000
  let cap (set : Bool) (r l : Nat) : Nat := if set then min r l else l
  let rd := s.par 0x5101 ≠ unsetOf 0x5101
  let rc := s.par 0x5102 ≠ unsetOf 0x5102
  s.onDisp fun d =>
    { d with lDis := cap rd (s.rated true) dis, lChg := cap rc (s.rated false) chg,
             sop := (s.sumStr (fun q => q.pdis), s.sumStr (fun q => q.pchg)),
             prot := (s.sumStr (fun q => q.fpDis * q.pdis), s.sumStr (fun q => q.fpChg * q.pchg)),
             bflags := putBit d.bflags 4 (decide ((rd ∧ s.rated true < dis) ∨ (rc ∧ s.rated false < chg))) }

/-! ### Ledgers (R255-R257) -/

/-- The strings' usable energy that tenant 0's remainder starts from, Wh (R256). -/
def State.euseSum (s : State) : Nat := s.sumStr (fun q => if q.locked.isSome then 0 else q.euse)

/-- Tenant 0's remainder e_0, mJ (R256). -/
def State.remainder (s : State) : Int :=
  (s.euseSum : Int) * 3600000 - (s.enabledTenants.map (fun t => (s.tenant t).mj)).sum

/-- The ledger a tenant's discharge is clipped at, mJ (R251, R256). -/
def State.held (s : State) (t : Nat) : Int := if t = 0 then s.remainder else (s.tenant t).mj

/-- The room a tenant's charge is clipped at, mJ (R251, R256). -/
def State.room (s : State) (t : Nat) : Int :=
  if t = 0 then (s.sumStr (fun q => q.ehead) : Int) * 3600000
  else ((s.tenant t).eAlloc : Int) * 3600000 - (s.tenant t).mj

/-- An entry of a ledger copy that holds nothing. -/
def ledger0 : List Int := [0, 0, 0, 0]
/-- A tenant's entry of a ledger copy: E_MJ, and its sums in whole mWh, 3,600 mJ each (R436). -/
def Tenant.ledger (q : Tenant) : List Int := [q.mj, q.disSum / 3600, q.chgSum / 3600, q.curtSum / 3600]

/-- A ledger copy is written to MRAM (R257, R436). -/
def State.copyLedgers (s : State) : State :=
  s.onRecs fun r =>
    { r with lseq := (r.lseq + 1) % 2 ^ 32, ledgerStamp := (s.disp.slot, s.disp.tick),
             ledgerCopy := s.disp.tenants.foldl (fun t e => tset ledger0 t e.1 (if e.1 = 0 then ledger0 else e.2.ledger)) [] }

/-! ### The external binding (R258) -/

/-- The bound input's latest value in its units, while it settles its last unflagged sample; none while it is faulty
(R41, R258). -/
def State.extInput (s : State) : Option Int :=
  let b := s.disp.binding
  match b.src with
  | 1 =>
    let st := tget (0 : BitVec 3) s.loops.ainStat b.ch
    if bit st 2 then some (tget 0 s.loops.ain b.ch)
    else if bit st 0 || bit st 1 then none
    else some (tget 0 s.loops.ain b.ch)
  | 2 =>
    match tfind? (s.axis b.ch).edgeAt 0 with
    | some t => if s.elapsed t (secs 1) then none else some (s.axis b.ch).speed
    | none => none
  | 3 => if s.beam.lost || !s.beam.lock then none else some (rdiv (s.beam.freq.toNat * 1000 : Nat) 65536)
  | _ => some 0

/-- The term an input value gives (R258). -/
def Binding.termOf (b : Binding) (x : Int) : Int :=
  let u := x - b.x0
  let u1 := if u.natAbs ≤ b.db then 0 else u - sgn u * b.db
  clampI (-b.pmax) b.pmax (b.gain * u1)

/-- The bound input is judged: a fault raises its event and applies FAILSAFE, a good input after it is reported (R258). -/
def State.judgeExt (s : State) : State :=
  let b := s.disp.binding
  if b.src = 0 then s
  else if s.extInput = none ∧ s.disp.extFault = false then
    (s.onDisp fun d =>
      { d with extFault := true, holdUntil := if b.failsafe = 1 then some (s.clock + secs 1) else none,
               term := if b.failsafe = 1 then d.term else 0 }).raise 0x0508 [b.src, b.ch]
  else if s.extInput ≠ none ∧ s.disp.extFault = true then
    (s.onDisp fun d => { d with extFault := false, holdUntil := none }).raise 0x0509 [b.src, b.ch]
  else s

/-- The hold of the last term ends at its clock (R258). -/
def Dispatch.endHold (d : Dispatch) (clock : Nat) : Dispatch :=
  match d.holdUntil with
  | some u => if u ≤ clock then { d with term := 0, holdUntil := none } else d
  | none => d

/-- The term joins those of the last ten ticks (R261). -/
def Dispatch.noteTerm (d : Dispatch) : Dispatch := { d with terms := (d.term :: d.terms).take 11 }

/-- The binding's term at a tick (R258, R261). -/
def State.takeTerm (s : State) : State :=
  let s1 := s.judgeExt
  let b := s1.disp.binding
  if b.src = 0 then s1
  else
    match s1.extInput with
    | none => s1.onDisp fun d => (d.endHold s1.clock).noteTerm
    | some x => s1.onDisp fun d => { d with input := x, term := b.termOf x }.noteTerm

/-- The term has changed by no more than 1 % of PMAX in the last ten ticks (R261). -/
def Dispatch.steady (d : Dispatch) : Bool :=
  decide ((maxI d.term d.terms - minI d.term d.terms) * 100 ≤ d.binding.pmax)

/-- EXTERNAL_SETPOINT_FAULT: the bound input becomes faulty (R258). -/
def execExternalSetpointFault (s : State) : Host.Outcome State Fault Refusal :=
  onlyIf (decide (s.disp.binding.src ≠ 0 ∧ s.extInput = none ∧ s.disp.extFault = false)) (·.judgeExt) s

/-- FAILSAFE_HOLD_EXPIRY: the hold of the last term has lasted 1 s (R258). -/
def execFailsafeHoldExpiry (s : State) : Host.Outcome State Fault Refusal :=
  onlyIf (s.elapsed? s.disp.holdUntil 0) (fun s => s.onDisp fun d => { d with term := 0, holdUntil := none }) s

/-! ### Slots, entries, ramps (R244-R248) -/

/-- M2 is programmed from the next cycle on: STEP and SUBDIV SLOT_CYC, its step begun at the slot's start (R244). -/
def State.programM2 (s : State) : State :=
  let c := max 1 s.disp.slotCyc
  let next := s.beam.extended + 1
  s.modMark 2 fun m =>
    { m with cmp := BitVec.ofNat 32 ((next - next % c) % 65536 * 65536), step := BitVec.ofNat 32 (c * 65536),
             stepNow := BitVec.ofNat 32 (c * 65536), stepWas := none, subdiv := BitVec.ofNat 6 c, k := next % c, count := 0,
             en := true, owed := none, done := false }

/-- SLOT_CHANGEOVER: the changeover cycle of a new SLOT_CYC has been reached (R245). -/
def State.changeover (s : State) : State :=
  match s.disp.slotNext with
  | some (v, c) =>
    if c ≤ s.beam.extended then
      let s1 := s.onDisp fun d => { d with slotCyc := v, slotNext := none }
      let n := s1.beam.extended
      s1.modMark 2 fun m =>
        { m with cmp := BitVec.ofNat 32 ((n - n % max 1 v) % 65536 * 65536), step := BitVec.ofNat 32 (v * 65536),
                 stepNow := BitVec.ofNat 32 (v * 65536), stepWas := none, subdiv := BitVec.ofNat 6 v, k := n % max 1 v + 1 }
    else s
  | none => s

/-- A new SLOT_CYC is accepted: pending entries are discarded with their events, and the changeover cycle is the first
multiple of the new value at or after the end of the slot in progress (R245). -/
def State.newSlotCyc (s : State) (v : Nat) : State :=
  let c := max 1 s.disp.slotCyc
  let e := (s.beam.extended / c + 1) * c
  let w := max 1 v
  let s1 := forEach s.tickTenants (fun t u =>
    let n := (u.tenant t).pending.length
    (u.modTenant t fun q => { q with pending := [] }).when (decide (0 < n)) (·.raise 0x050D [t, n])) s
  s1.onDisp fun d => { d with slotNext := some (w, (e + w - 1) / w * w) }

/-- The present slot number and tick (R244). -/
def State.numberSlot (s : State) : State :=
  let c := max 1 s.disp.slotCyc
  let n := s.beam.extended
  s.onDisp fun d =>
    { d with slot := n / c % 2 ^ 32, tick := n % c, slotWall := if n % c = 0 then s.beam.cycWall else d.slotWall }

/-- The entries whose slots have come: the last takes over, those it passes are dropped (R246, R247). -/
def Tenant.advance (q : Tenant) (slot : Nat) : Tenant :=
  match (q.pending.filter (fun e => decide (e.slot ≤ slot))).getLast? with
  | some e => { q with cur := some e, clipped := false, pending := q.pending.filter (fun e => decide (slot < e.slot)) }
  | none => q

/-- One step of a ramp state towards a target over a time in seconds (R248). -/
def rampStep (r : Rat) (target : Int) (ramp : Nat) (dt : Rat) : Rat :=
  if ramp = 0 then (target : Rat)
  else
    let step := (ramp : Rat) * dt
    let gap := (target : Rat) - r
    r + (if gap < -step then -step else if step < gap then step else gap)

/-- A time in ticks as seconds. -/
def secsOf (ticks : Nat) : Rat := (ticks : Rat) / 200000000

/-- Every tenant's entry and ramp state at a tick; ramps are held at 0 while nothing is dispatched (R248, R249). -/
def State.moveRamps (s : State) : State :=
  forEach s.tickTenants (fun t u => u.modTenant t fun q =>
    let q1 := q.advance s.disp.slot
    { q1 with ramp :=
        if !s.mayDispatch then 0
        else match q1.cur with
          | some e => rampStep q1.ramp e.target e.ramp (secsOf s.disp.dt)
          | none => rampStep q1.ramp 0 0 (secsOf s.disp.dt) }) s

/-! ### Requests (R251) -/

/-- A tenant's request before its ledger: the ramp state, tenant 0's binding, the allocation, the stop (R251, R258). -/
def State.wanted (s : State) (t : Nat) : Int × Int :=
  let r := rround (s.tenant t).ramp
  let b := s.disp.binding
  let a : Int := s.alloc t true
  let c : Int := s.alloc t false
  let p := if t = 0 ∧ b.src ≠ 0 then clampI (-c) a (if b.mode = 1 then s.disp.term else r + s.disp.term) else r
  (p, clampI (-c) a p)

/-- The ledger clip of R251 with whether it acted: floor(e × 3600 / dt) and floor((EALLOC - e) × 3600 / (dt × ETA_C)). -/
def State.ledgerClip (s : State) (t : Nat) (p : Int) : Int × Bool :=
  let dt : Int := max 1 s.disp.dt
  if 0 < p then
    let l := max 0 (Int.fdiv (s.held t * 200000) dt)
    (min p l, decide (l < p))
  else if p < 0 then
    let l := max 0 (Int.fdiv (s.room t * 200000000) (dt * s.etaMilli))
    (max p (-l), decide (p < -l))
  else (0, false)

/-- The request q_t of a tenant at a tick, with the schedule-clipped event once per entry (R243, R251). -/
def State.request (s : State) (t : Nat) : State :=
  let (p, c) := s.wanted t
  let q := s.tenant t
  let run := s.mayDispatch && !s.zeroHeld && !s.stopped t
  let (v, hit) := s.ledgerClip t (if run then c else 0)
  let s1 := s.modTenant t fun u =>
    { u with sched := p, req := v, empty := hit && decide (0 < c), full := hit && decide (c < 0),
             clipped := u.clipped || decide (p ≠ c) }
  s1.when (decide (p ≠ c) && !q.clipped && q.cur.isSome) (·.raise 0x0501
    [t, ((q.cur.map Entry.slot).getD 0 : Nat), (min 65535 ((p - c).natAbs / 1000) : Nat)])

/-! ### Sharing (R252) -/

/-- A requester: tenant, magnitude of its request, weight. -/
abbrev Share := Nat × Nat × Nat

/-- Insertion by rising magnitude per weight. -/
def insShare (x : Share) : List Share → List Share
  | [] => [x]
  | y :: r => if x.2.1 * y.2.2 ≤ y.2.1 * x.2.2 then x :: y :: r else y :: insShare x r

/-- The least level at which the capped requests reach the amount: requesters by rising ratio, the sum of those already
met in full, the weights left (R252). -/
def waterLevel (a : Nat) : List Share → Nat → Nat → Rat
  | [], _, _ => 0
  | (_, m, w) :: r, met, ws =>
    if a * w ≤ met * w + m * ws then ((a - met : Nat) : Rat) / ((max 1 ws : Nat) : Rat) else waterLevel a r (met + m) (ws - w)

/-- 1 W more to each requester below its request, in ascending tenant number, until the rest is given (R252). -/
def topUp : Nat → List (Nat × Nat × Nat) → List (Nat × Nat)
  | _, [] => []
  | n, (t, m, g) :: r => if 0 < n ∧ g < m then (t, g + 1) :: topUp (n - 1) r else (t, g) :: topUp n r

/-- The water-filling of step 2: what each of tenants 1…255 receives (R252). -/
def waterFill (a : Nat) (v : List Share) : List (Nat × Nat) :=
  if (v.map (fun x => x.2.1)).sum ≤ a then v.map (fun x => (x.1, x.2.1))
  else
    let lam := waterLevel a (v.foldr insShare []) 0 ((v.map (fun x => x.2.2)).sum)
    let g := v.map (fun x => (x.1, x.2.1, min x.2.1 ((lam * (x.2.2 : Rat)).floor.toNat)))
    topUp (a - (g.map (fun x => x.2.2)).sum) g

/-- share(side, a): what each requester of a side receives; tenant 0's slice first, its rest last (R252). -/
def shareOut (a res0 q0 : Nat) (v : List Share) : List (Nat × Nat) :=
  let g0 := min (min q0 res0) a
  let f := waterFill (a - g0) v
  let rest := a - g0 - (f.map Prod.snd).sum
  (0, g0 + min (q0 - g0) rest) :: f

/-- The requests of a side with their weights. -/
def State.requesters (s : State) (dis : Bool) : List Share :=
  (s.enabledTenants.filter (fun t => decide (if dis then 0 < (s.tenant t).req else (s.tenant t).req < 0))).map (fun t =>
    (t, (s.tenant t).req.natAbs, s.alloc t dis))

/-- The sum of the requests of a side, as a magnitude. -/
def State.sideSum (s : State) (dis : Bool) : Nat :=
  (s.tickTenants.map (fun t => let q := (s.tenant t).req; if dis then q.toNat else (-q).toNat)).sum

/-- The side that needs share() at a tick (R251): discharge, charge, or none. -/
def State.shortSide (s : State) : Option Bool :=
  let d : Int := s.sideSum true
  let c : Int := s.sideSum false
  if (s.disp.lDis : Int) < d - c then some true else if (s.disp.lChg : Int) < c - d then some false else none

/-- The delivered powers and the bank set-point (R251, R252); a tick counts for the curtailment events, a recomputation of one
does not (R254, R259). -/
def State.deliver (tick : Bool) (s : State) : State :=
  let short := s.shortSide
  let s1 := forEach s.tickTenants (fun t u => u.modTenant t fun q => { q with deliv := q.req }) s
  let s2 := match short with
    | none => s1
    | some dis =>
      let a := if dis then s.disp.lDis + s.sideSum false else s.disp.lChg + s.sideSum true
      let q0 := (s.tenant 0).req
      let mag0 := if dis then q0.toNat else (-q0).toNat
      let res0 := (max 0 (s.par (if dis then 0x5104 else 0x5105))).toNat
      let g := shareOut a res0 mag0 (s.requesters dis)
      forEach g (fun x u =>
        if x.1 = 0 ∧ mag0 = 0 then u
        else u.modTenant x.1 fun q => { q with deliv := if dis then (x.2 : Int) else -(x.2 : Int) }) s1
  let s3 := forEach s2.tickTenants (fun t u => u.modTenant t fun q => { q with curt := decide (q.deliv ≠ q.req) }) s2
  let need (side : Bool) (n : Nat) : Nat := if !tick then n else if short = some side then satN 10 (n + 1) else 0
  let free (side : Bool) (n : Nat) : Nat := if !tick then n else if short = some side then 0 else satN 10 (n + 1)
  s3.onDisp fun d =>
    { d with pBank := (s3.tickTenants.map (fun t => (s3.tenant t).deliv)).sum,
             pReq := (s3.tickTenants.map (fun t => (s3.tenant t).req)).sum,
             bflags := putBit (putBit (putBit d.bflags 0 s.guard.connected) 1 (decide (short = some true))) 2
               (decide (short = some false)),
             needRun := (need true d.needRun.1, need false d.needRun.2),
             freeRun := (free true d.freeRun.1, free false d.freeRun.2) }

/-- Ledger-empty and ledger-full of a tenant: once, until the ledger turns back (R265). -/
def State.ledgerEvents (s : State) (t : Nat) : State :=
  let q := s.tenant t
  let e := match q.emptyRef with
    | some r => if r < q.mj then none else some (min r q.mj)
    | none => none
  let f := match q.fullRef with
    | some r => if q.mj < r then none else some (max r q.mj)
    | none => none
  let s1 := s.modTenant t fun u =>
    { u with emptyRef := if q.empty then some (e.getD q.mj) else e, fullRef := if q.full then some (f.getD q.mj) else f }
  (s1.when (q.empty && e.isNone) (·.raise 0x0506 [t])).when (q.full && f.isNone) (·.raise 0x0507 [t])

/-- Ledger-deficit: e_0 below zero, once per 1 MWh of further fall (R256). -/
def State.deficitEvent (s : State) : State :=
  let e := s.remainder
  if s.est.pubGen.isNone then s
  else if 0 ≤ e then s.onDisp fun d => { d with deficit := none }
  else
    match s.disp.deficit with
    | some d => if e ≤ d - 3600000000000 then
        (s.onDisp fun d => { d with deficit := some e }).raise 0x0504 [clampI (-32768) 32767 (rdiv e 3600000000000)] else s
    | none => (s.onDisp fun d => { d with deficit := some e }).raise 0x0504 [clampI (-32768) 32767 (rdiv e 3600000000000)]

/-! ### The set-point (R253, R411) -/

/-- SFLAGS of the set-point frame (R411). -/
def State.sflags (s : State) : Nat :=
  flag s.guard.connected 0 + flag s.disp.held.isSome 1 + flag (bit s.disp.bflags 1 || bit s.disp.bflags 2) 2

/-- SETPOINT_FRAME: the set-point frame replaces an unsent older one in the PCS channel's dedicated buffer; the analogue
output follows (R253, R411). -/
def State.emitSetpoint (s : State) : State :=
  let p := s.disp.pBank
  let path := s.par 0x5109
  let f := watts p ++ le 1 s.disp.frameSeq ++ le 1 s.sflags ++ le 2 s.disp.tick
  let s1 := s.when (decide (path ≠ 1) && s.pcsEn && s.canEn s.pcsCh) fun t =>
    ((t.modCtrl t.pcsCh fun c => c.place t.pcsBase f).startFrame t.pcsCh).onDisp fun d =>
      { d with frameSeq := (d.frameSeq + 1) % 256 }
  if path = 0 then s1
  else s1.onDisp fun d =>
    { d with aout := clampI (-32767) 32767 (rdiv (p * 32768) (max 1 (s.rated (decide (0 ≤ p))))) }

/-- The powers of a tick computed from the ramp states and sent (R250-R254); a recomputation keeps the tick's term (R258,
R259). Every stop bit set so far is in it. -/
def State.computeTick (tick : Bool) (s : State) : State :=
  let s0 := s.formLimits.onDisp fun d => { d with stopSeen := s.guard.stopRings }
  let s1 := s0.when tick State.takeTerm
  let s2 := forEach s1.tickTenants (fun t u => u.request t) s1
  let s3 := s2.deliver tick
  let s4 := forEach s3.enabledTenants (fun t u => u.ledgerEvents t) s3
  s4.deficitEvent.emitSetpoint

/-- Dispatch resumes at the first tick of a new firmware: HELD clears with its event, the guard sends RELEASE (R265). -/
def State.resumeDispatch (s : State) : State :=
  match s.disp.held with
  | some n =>
    let s1 := (s.onDisp fun d => { d with held := none, settleAt := s.clock, bflags := putBit d.bflags 3 false }).raise 0x050B
      [s.disp.slot, (sat16 n : Nat)]
    let s2 := s1.onGuard fun g => { g with swapZero := false }
    if s.guard.swapZero ∧ s.guard.pcsCmd = 1 then s2.sendRelease 0 0x050B else s2
  | none => s

/-- DISPATCH_TICK: M2 fires at a tick (R244, R251); while the Reckoner does not run the tick is only counted (R265). -/
def execDispatchTick (s : State) : Host.Outcome State Fault Refusal :=
  onlyIf (s.markDue 2) (fun s =>
    let s1 := (s.fireMark 2).onDisp fun d =>
      { d with dt := (d.tickAt.map (fun t => max 1 (s.clock - t))).getD d.dt, tickAt := some s.clock }
    if s.sys.run ≠ .running then s1.numberSlot.onDisp fun d => { d with held := d.held.map (· + 1), settleAt := s.clock }
    else
      let s2 := s1.changeover.numberSlot.resumeDispatch.settle.moveRamps
      (s2.computeTick true).copyLedgers) s

/-- A stop bit was set after the powers in force were computed (R259). -/
def State.stopFresh (s : State) : Bool := s.guard.stops.any (fun t => decide (s.disp.stopSeen < tget 0 s.guard.stopAt t))

/-- STOP_RECOMPUTE: the tick is recomputed at once for a stop bit just set: ledgers move up to here, the new set-point is sent
(R259). -/
def execStopRecompute (s : State) : Host.Outcome State Fault Refusal :=
  onlyIf (decide (s.sys.run = .running) && s.disp.held.isNone && s.stopFresh) (fun s => s.settle.computeTick false) s

/-! ### Curtailment events (R254) -/

/-- A limit in MW, saturating. -/
def mw16 (w : Nat) : Nat := sat16 (w / 1000000)

/-- CURTAILMENT_STARTED: a side has needed share() for 10 consecutive ticks (R254). -/
def execCurtailmentStarted (s : State) : Host.Outcome State Fault Refusal :=
  let d := s.disp
  let a := decide (10 ≤ d.needRun.1) && d.curtDis.isNone
  let b := decide (10 ≤ d.needRun.2) && d.curtChg.isNone
  onlyIf (a || b) (fun s =>
    let s1 := s.when a fun t => (t.onDisp fun d => { d with curtDis := some t.clock }).raise 0x0502 [1, mw16 d.lDis]
    s1.when b fun t => (t.onDisp fun d => { d with curtChg := some t.clock }).raise 0x0502 [2, mw16 d.lChg]) s

/-- CURTAILMENT_ENDED: a curtailed side has needed no share() for 10 consecutive ticks (R254). -/
def execCurtailmentEnded (s : State) : Host.Outcome State Fault Refusal :=
  let d := s.disp
  let a := decide (10 ≤ d.freeRun.1) && d.curtDis.isSome
  let b := decide (10 ≤ d.freeRun.2) && d.curtChg.isSome
  onlyIf (a || b) (fun s =>
    let s1 := s.when a fun t =>
      (t.onDisp fun d => { d with curtDis := none }).raise 0x0503 [1, (sat16 (s.msSince (d.curtDis.getD 0) / 1000) : Nat)]
    s1.when b fun t =>
      (t.onDisp fun d => { d with curtChg := none }).raise 0x0503 [2, (sat16 (s.msSince (d.curtChg.getD 0) / 1000) : Nat)]) s

/-! ### Allocations at M3 (R243) -/

/-- A ledger in Wh, rounded half away from zero (R255). -/
def whOf (mj : Int) : Int := rdiv mj 3600000

/-- Three 16-bit pieces of a ledger figure. -/
def wh48 (v : Int) : List Int := [(ux 48 v % 65536 : Nat), (ux 48 v / 65536 % 65536 : Nat), (ux 48 v / 2 ^ 32 : Nat)]

/-- Accepted allocations take effect; a removal discards the schedule, leaves the ledger in its event and passes the
stored energy to tenant 0 (R243). -/
def State.applyAllocs (s : State) : State :=
  forEach ((tkeys s.disp.tenants).filter (fun t => (s.tenant t).nextAlloc.isSome)) (fun t u =>
    let q := u.tenant t
    match q.nextAlloc with
    | some (true, d, c, e) => u.modTenant t fun q =>
        { q with exists_ := true, enabled := true, pDis := d, pChg := c, eAlloc := e, nextAlloc := none }
    | some (false, _, _, _) => (u.modTenant t fun _ => Tenant.reset).raise 0x050C ((t : Int) :: wh48 (whOf q.mj))
    | none => u) s

/-! ### Placement (R260, R261) -/

/-- The planned target of a tenant at a slot: the last entry not after it (R260). -/
def Tenant.entryAt (q : Tenant) (slot : Nat) : Option Entry :=
  match (q.pending.filter (fun e => decide (e.slot ≤ slot))).getLast? with
  | some e => some e
  | none => q.cur

/-- The planned powers slot by slot: each tenant's ramp runs at its full rate towards the slot's entry; the bank's
planned set-point is clipped to its limits (R260). -/
def State.planSlots (s : State) (dt : Rat) : Nat → Nat → List (Nat × Rat) → List Int
  | 0, _, _ => []
  | n + 1, slot, rs =>
    let rs1 := rs.map (fun x =>
      match (s.tenant x.1).entryAt slot with
      | some e => (x.1, rampStep x.2 e.target e.ramp dt)
      | none => (x.1, 0))
    let p : Int := (rs1.map (fun x => clampI (-(s.alloc x.1 false : Int)) (s.alloc x.1 true : Int) (rround x.2))).sum
    clampI (-(s.disp.lChg : Int)) (s.disp.lDis : Int) p :: planSlots s dt n (slot + 1) rs1

/-- Strings the guard sees closed. -/
def State.closedStrings (s : State) : List Nat := s.est.configured.filter (fun k => (s.str k).closed)

/-- The length of a slot in seconds at the present frequency (R244). -/
def State.slotSecs (s : State) : Rat :=
  let hz : Rat := (s.beam.refFreq : Rat) / 65536
  (max 1 s.disp.slotCyc : Nat) / (if hz = 0 then 1 else hz)

/-- The slots that start within the next BAL_REPLAN (R260). -/
def State.slotsAhead (s : State) : Nat :=
  let units := max 1 s.disp.slotCyc * 65536
  let first := s.slotSecs * ((units - s.beamTime % units : Nat) : Rat) / (units : Rat)
  let span : Rat := (s.par 0x3308 : Rat) / 1000
  if span < first then 0 else ((span - first) / s.slotSecs).floor.toNat + 1

/-- The dispatch heat reservation p_disp, W, above a loss (R260). DESIGN CHOICE (log entry 123): a slot's planned power is the one its
ramps reach by its end, each slot giving them its whole length. -/
def State.reservation (s : State) (pLoss : Rat) : Rat :=
  let n := s.closedStrings.length
  let ps := if s.mayDispatch then
      s.planSlots s.slotSecs s.slotsAhead (s.disp.slot + 1) (s.tickTenants.map (fun t => (t, (s.tenant t).ramp))) else []
  let r6 : Rat := (s.closedStrings.map (fun k => nth 0 (s.str k).results 6)).sum
  let heat (p : Int) : Rat :=
    if s.guard.vbank = 0 ∨ n = 0 then 0
    else
      let i := (p : Rat) * 1000 / (s.guard.vbank : Rat) / (n : Rat)
      i * i * r6
  (ps.map (fun p => heat p - pLoss)).foldl (fun a b => if a < b then b else a) 0

/-- The cycle in which a burst started now begins: the next even one not before M0's next firing (R53). -/
def State.burstCycle (s : State) : Nat :=
  let c := ((s.mark 0).cmp.toNat + 65535) / 65536
  (if c % 2 = 0 then c else c + 1) % 65536

/-- The last cycle a burst started now covers, extended. -/
def State.burstEnd (s : State) : Nat :=
  s.beam.extended + (s.burstCycle + 65536 - s.beam.cycle.toNat) % 65536 + 16

/-- No ramp is in progress and no entry takes over before the end of a burst, over all tenants (R261). -/
def State.planSteady (s : State) : Bool :=
  let last := s.burstEnd / max 1 s.disp.slotCyc
  s.tickTenants.all (fun t =>
    let q := s.tenant t
    q.pending.all (fun e => decide (last < e.slot)) &&
      (match q.cur with
       | some e => decide (q.ramp = (e.target : Rat))
       | none => true))

/-- The conditions of R261 at a tick. -/
def State.burstMay (s : State) : Bool :=
  let d := s.disp
  let lim := if 0 ≤ d.pBank then d.lDis else d.lChg
  s.planSteady && !s.sched.warn && !bit d.bflags 1 && !bit d.bflags 2 &&
    decide (d.pBank.natAbs * 10 < 9 * lim) && (decide (d.binding.src = 0) || d.steady)

/-- M1 is free for a burst, or armed for one that has not begun. -/
def State.burstUnit (s : State) : Bool :=
  !(s.mark 1).en || (decide ((s.mark 1).fired = 0 ∧ (s.mark 1).k = 0) && !s.markDue 1)

/-- RIPPLE_BURST_START: a due burst on a string starts at a tick, after its powers are computed, that meets R163 and R261, and M1 is set for 384 firings,
24 to a cycle from angle 0 (R53). -/
def execRippleBurstStart (port sid : Nat) (s : State) : Host.Outcome State Fault Refusal :=
  let k := strKey port sid
  let due := match (s.str k).lastBurst with
    | some t => s.elapsed t (ms (s.parStr 0x3116 k).toNat)
    | none => true
  onlyIf (s.est.configured.contains k && (s.str k).closed && decide (s.sys.mode = .online ∧ s.sys.run = .running) &&
      !s.sched.starved.contains 4 && due && (s.stringsOf port).all (fun j => (s.str j).burst.isNone) && s.burstMay &&
      decide (s.disp.tickAt = some s.clock) &&
      s.burstUnit && (s.mark 0).en) (fun s =>
    let s1 := (s.modStr k fun q => { q with burst := some 0, fpiBurst := [] })
    let s2 := forEach (s.str k).cells (fun p t => t.modCell p fun c => { c with burst := [] }) s1
    if (s.mark 1).en then s2
    else (s2.modMark 1 fun m =>
      { m with cmp := BitVec.ofNat 32 (s.burstCycle * 65536), step := 0x10000, subdiv := 24, count := 384, k := 0 }).markEnable 1) s

end Sys2Proof.Machine
end

