-- ==== Sys2Proof/Machine/Balance.lean ====
section
/-! DEFINITION. Balancing plans, the heat allowance, the module's own temperature inputs and compensation (chapter 7). -/
namespace Sys2Proof.Machine
open Sys2Proof

/-! ### Eligibility (R195) -/

/-- The bank may balance as far as mode and settings go (R195). -/
def State.bankMayBalance (s : State) : Bool :=
  decide (s.sys.mode = .standby ∨ s.sys.mode = .connect ∨ s.sys.mode = .online ∨ s.sys.mode = .service) &&
    decide (s.par 0x330F ≠ unsetOf 0x330F)

/-- The bank conditions of R195. -/
def State.bankBalances (s : State) : Bool := s.bankMayBalance && decide (0 < s.est.balAllow)

/-- A node may balance, by its latest record (R195). -/
def State.nodeBalances (s : State) (port pos : Nat) : Bool :=
  let r := (s.staged port pos).2
  !(s.balNode (nodeKey port pos)).out &&
    (decide (r = []) || (!(recNstat r).testBit 1 && !(recFlags r).testBit 6 && !(recNstat r).testBit 2))

/-- A cell is eligible (R195). -/
def State.cellBalances (s : State) (p : Nat) : Bool :=
  let c := (s.cell p).pub
  s.nodeBalances (pointPort p) (pointPos p) && bit c.flags 7 && !bit c.flags 3 && !bit c.flags 0 &&
    decide ((c.sigma : Int) * 100000 ≤ s.par 0x3307 * 65536) && decide (c.v ≠ 0xFFFF)

/-- The eligible cells of a string. -/
def State.eligible (s : State) (k : Nat) : List Nat := (s.str k).cells.filter s.cellBalances

/-- A string may balance (R195). -/
def State.stringBalances (s : State) (k : Nat) : Bool :=
  decide ((s.ring (keyPort k)).state = .active) && !bit (s.str k).sflags 4 &&
    decide (9 * (s.str k).cells.length ≤ 10 * (s.eligible k).length ∧ (s.str k).cells ≠ [])

/-! ### Plans (R197) -/

/-- A planned cell: point, duty, discharge. -/
abbrev Duty := Nat × Nat × Bool

/-- The sum of the duties of a side. -/
def dutySum (pl : List Duty) (dis : Bool) : Nat := ((pl.filter (fun x => x.2.2 == dis)).map (fun x => x.2.1)).sum

/-- BAL_ETA as a fraction. -/
def State.balEta (s : State) : Rat := (s.par 0x3305 : Rat) / 1000

/-- balance(plan) of R197. -/
def balancePlan (eta : Rat) (pl : List Duty) : List Duty :=
  let d : Rat := dutySum pl true
  let c : Rat := dutySum pl false
  if eta * d < c then
    pl.map (fun x => if x.2.2 then x else (x.1, ((x.2.1 : Rat) * eta * d / c).floor.toNat, x.2.2))
  else if c < eta * d then
    pl.map (fun x => if x.2.2 then (x.1, ((x.2.1 : Rat) * c / (eta * d)).floor.toNat, x.2.2) else x)
  else pl

/-- The mean of a list. -/
def meanR (l : List Rat) : Rat := if l = [] then 0 else l.sum / (l.length : Rat)

/-- z, cap and x of an eligible cell: SOC_INT, learned CAP in Ah, the balancing quantity (R197). -/
def State.balQuantity (s : State) (k p : Nat) : Rat × Rat × Rat :=
  let z : Rat := ((s.cell p).pub.socInt : Rat) / 65536
  let cap : Rat := ((s.cell p).learned.cap : Rat) / 50
  if s.parStr 0x3301 k = 0 then (z, cap, (z - s.parPct 0x3106) * cap) else (z, cap, z * cap)

/-- The plan of a string before heat scaling, with its SPREAD (R197, R183). -/
def State.planString (s : State) (k : Nat) : List Duty × Nat :=
  let cs := (s.eligible k).map (fun p => (p, s.balQuantity k p))
  let xs := cs.map (fun c => c.2.2.2)
  let xm := meanR xs
  let zm := meanR (cs.map (fun c => c.2.1))
  let bottom := decide (s.parStr 0x3301 k = 0)
  let band : Rat := (s.parStr 0x3302 k : Rat) / 100000 * ((max 0 (s.parStr 0x3502 k) : Int) : Rat) / 1000
  let horizon : Rat := (s.par 0x3303 : Rat) / 3600000
  let duty (c : Nat × Rat × Rat × Rat) : Duty :=
    let e := if bottom then c.2.2.2 - xm else (c.2.1 - zm) * c.2.2.1
    let a := if e < 0 then -e else e
    (c.1, if a ≤ band then 0 else min (s.par 0x3304).toNat (rround (256 * a / (2 * horizon))).toNat, decide (0 < e))
  let pl := balancePlan s.balEta (cs.map duty)
  let spread := (xs.foldl (fun a b => if a < b then b else a) (xs.head?.getD 0)) - minR 0 xs
  (pl, if xs = [] then 0xFFFF else min 0xFFFE (rround (spread * 50)).toNat)

/-- The loss of a plan in W (R197). -/
def State.planLoss (s : State) (pl : List Duty) : Rat :=
  (s.par 0x3306 : Rat) / 1000 * ((pl.map (fun x => x.2.1)).sum : Rat) / 256

/-! ### The heat allowance (R198) -/

/-- The mean of the square of a string's current over the last 60 s, A² (R198). -/
def Str.meanSquare (q : Str) (now : Nat) : Rat :=
  let v := (q.iHist.filter (fun e => decide (now < e.1 + secs 60 ∧ e.2 ≠ -32768))).map (fun e => (e.2 : Rat) / 20)
  meanR (v.map (fun i => i * i))

/-- p_loss (R198). -/
def State.pLoss (s : State) : Rat :=
  (s.est.configured.map (fun k => (s.str k).meanSquare s.clock * nth 0 (s.str k).results 6)).sum + (s.par 0x3311 : Rat)

/-- The bank conditions on RENEW: they hold and every string of the ring was replanned within 3 × BAL_REPLAN (R199). -/
def State.ringConfirmed (s : State) (port : Nat) : Bool :=
  s.bankBalances && (s.stringsOf port).all (fun k =>
    match (s.str k).planned with
    | some t => !s.elapsed t (ms (3 * (s.par 0x3308).toNat) + 1)
    | none => false)

/-- The allowance for balancing, with what dispatch reserves (R198). -/
def State.allowance (s : State) : Rat × Rat :=
  let loss := s.pLoss
  let pd := s.reservation loss
  let cool : Rat := if s.par 0x330F = unsetOf 0x330F then 0 else (s.par 0x330F : Rat) * (1 - s.parPct 0x3310)
  let head := cool - loss - pd
  let cap : Rat := s.par 0x330E
  (if head < 0 then 0 else if cap < head then cap else head, pd)

/-- A string's plan no longer holds: the string or one of its nodes has lost eligibility, or BAL_TARGET has changed (R196). -/
def State.planBroken (s : State) (k : Nat) : Bool :=
  let q := s.str k
  q.planned.isSome && (decide (s.parStr 0x3301 k ≠ q.planTarget) || (!q.excluded && !s.stringBalances k) ||
    q.planNodes.any (fun pos => !s.nodeBalances (keyPort k) pos))

/-- A replan is due: BAL_REPLAN has passed, the allowance has fallen more than 10 % below the loss of the plans in service, or a
string's plan no longer holds (R196). -/
def State.replanDue (s : State) : Bool :=
  (match s.est.replanAt with
   | none => true
   | some t => s.elapsed t (ms (s.par 0x3308).toNat)) ||
    decide (10 * s.allowance.1 < 9 * (s.est.configured.map (fun k => s.planLoss (s.str k).plan)).sum) ||
    s.est.configured.any s.planBroken

/-- One string takes its new plan: its nodes whose duties changed are owed a frame (R199); quiet ends after a rest point
(R202). -/
def State.takePlan (s : State) (k : Nat) (ok : Bool) (pl : List Duty) (spread : Nat) (scaled : Bool) : State :=
  let port := keyPort k
  let s1 := s.modStr k fun q =>
    { q with plan := pl, spread := spread, excluded := !ok, heatLimited := scaled, planGen := s.beam.sweepGen,
             planned := some s.clock, planTarget := s.parStr 0x3301 k,
             planNodes := (s.posOf k).filter (s.nodeBalances port), quiet := q.quiet && decide (q.restPoints = 0) }
  forEach (s.posOf k) (fun pos t =>
    let key := nodeKey port pos
    let due := t.dutyDue k pos
    t.modBal key fun b => { b with owed := decide (due ≠ b.sent), suspend := if b.suspend = 2 then 0 else b.suspend }) s1

/-- BALANCING_REPLAN: a replan is due: every string is planned, the heat allowance and the dispatch reservation are recomputed
(R195-R198, R260). -/
def execBalancingReplan (s : State) : Host.Outcome State Fault Refusal :=
  onlyIf (decide (s.sys.run = .running) && s.replanDue) (fun s =>
    let (allow, pd) := s.allowance
    let s1 := (s.onDisp fun d => { d with pDisp := floorN pd }).onEst fun e => { e with balAllow := floorN allow, replanAt := some s.clock }
    let bank := s1.bankMayBalance && decide (0 < allow)
    let plans := s1.est.configured.map (fun k =>
      if bank && s1.stringBalances k then (k, true, s1.planString k) else (k, s1.stringBalances k, ([], 0xFFFF)))
    let req := (plans.map (fun x => s1.planLoss x.2.2.1)).sum
    let hot := decide (allow < req)
    let scale (pl : List Duty) : List Duty :=
      if hot then balancePlan s1.balEta (pl.map (fun x => (x.1, ((x.2.1 : Rat) * allow / req).floor.toNat, x.2.2))) else pl
    let s2 := s1.onEst fun e => { e with balReq := floorN req, heatReported := hot }
    let s3 := s2.when (hot && !s.est.heatReported) (·.raise 0x031A
      [(sat16 (floorN (allow / 1000)) : Nat), (sat16 (floorN (req / 1000)) : Nat)])
    forEach plans (fun x t => t.takePlan x.1 x.2.1 (scale x.2.2.1) x.2.2.2 (hot && x.2.2.1.any (fun y => decide (y.2.1 ≠ 0)))) s3) s

/-- A string's BSTATE (R200). -/
def State.bstate (s : State) (k : Nat) (q : Str) : Nat :=
  if !s.bankBalances then 0
  else if !s.stringBalances k then 1
  else if q.quiet then 2
  else if q.burst.isSome then 3
  else if q.heatLimited then 4
  else if q.plan.any (fun x => decide (x.2.1 ≠ 0)) then 5
  else 6

/-- BALANCING_QUIET: a string's rest reaches REST_HOLD less BAL_QUIET: its nodes are sent zero duties (R202). -/
def execBalancingQuiet (port sid : Nat) (s : State) : Host.Outcome State Fault Refusal :=
  let k := strKey port sid
  let q := s.str k
  onlyIf (s.elapsed? q.restSince (ms ((s.par 0x310B).toNat - (s.par 0x330D).toNat)) && decide (q.restPoints = 0) && !q.quiet) (fun s =>
    forEach (s.posOf k) (fun pos t => t.stopNode k pos) (s.modStr k fun q => { q with quiet := true })) s

/-- The string of a stored position. -/
def State.stringAt? (s : State) (port pos : Nat) : Option Nat :=
  ((s.ring port).config.find? (fun n => decide (n.pos = pos))).map (fun n => strKey port n.string)

/-- BALANCING_MISMATCH: a node's bus current has mismatched on 3 sweeps, or its record reports BUS_FAULT: it is excluded
for 1 h (R203). -/
def execBalancingMismatch (port pos : Nat) (s : State) : Host.Outcome State Fault Refusal :=
  let key := nodeKey port pos
  let b := s.balNode key
  let rec_ := (s.record? port pos).getD []
  let fault := (recNstat rec_).testBit 1
  onlyIf (b.excl.isNone && (decide (3 ≤ b.mism) || fault)) (fun s =>
    let s1 := (s.modBal key fun b => { b with excl := some s.clock, mism := 0 }).raise 0x0319
      [port, pos, rround (expectedMa b.force), recBusI rec_, (b2n fault : Nat)]
    match s.stringAt? port pos with
    | some k => s1.stopNode k pos
    | none => s1) s

/-- BALANCING_EXCLUSION_END: a node's exclusion has lasted 1 h (R203). -/
def execBalancingExclusionEnd (port pos : Nat) (s : State) : Host.Outcome State Fault Refusal :=
  let key := nodeKey port pos
  onlyIf (s.elapsed? (s.balNode key).excl (secs 3600)) (fun s => s.modBal key fun b => { b with excl := none }) s

/-- SENSOR_RESTORED: a substituted input has stayed within limits for 60 s (R186). -/
def execSensorRestored (port pos input : Nat) (s : State) : Host.Outcome State Fault Refusal :=
  let p := cellPoint port pos input
  let t := s.tempIn p
  onlyIf (t.subst && (match t.goodSince with | some g => decide (g + secs 60 ≤ s.sampleAt) | none => false)) (fun s =>
    (s.modTemp p fun t => { t with subst := false, used := t.raw, run := 0, goodSince := none }).raise 0x0316 [port, pos, input]) s

/-! ### The module's own temperature inputs (R206-R209) -/

/-- HIGH of a TIN. -/
def Tin.high (t : Tin) : Int := sx 16 (wfld t.lim 31 16)
/-- LOW of a TIN. -/
def Tin.low (t : Tin) : Int := sx 16 (wfld t.lim 15 0)

/-- ln of a positive rational by 24 terms of the series of artanh after halving into [2/3, 4/3]; fuel bounds the halvings. -/
def lnSeries (y : Rat) : Rat :=
  let z := (y - 1) / (y + 1)
  2 * ((List.range 24).foldl (fun (a : Rat × Rat) i => (a.1 + a.2 / ((2 * i + 1 : Nat) : Rat), a.2 * z * z)) (0, z)).1

/-- ln 2 and ln 10 to 30 places. -/
def ln2 : Rat := 693147180559945309417232121458 / 1000000000000000000000000000000
/-- ln 10. -/
def ln10 : Rat := 2302585092994045684017991454684 / 1000000000000000000000000000000

/-- ln of a positive rational. -/
def lnR : Nat → Rat → Rat
  | 0, y => lnSeries y
  | n + 1, y => if 4 / 3 < y then lnR n (y / 2) + ln2 else if y < 2 / 3 then lnR n (y * 2) - ln2 else lnSeries y

/-- Temperature of a remote diode in degC from its voltages in uV at 10 uA and 100 uA (R206). -/
def diodeTemp (par : Word) (a b : Nat) : Rat :=
  let dv : Rat := (((b : Int) - (a : Int) : Int) : Rat) / 1000000 - 9 / 100000 * ((wfld par 31 16 : Nat) : Rat) / 10
  let ideal : Rat := ((max 1 (wfld par 15 0) : Nat) : Rat) / 10000
  16021766340 / 1380649 * dv / (ideal * ln10) - 27315 / 100

/-- Resistance of an NTC in ohm from its divider voltage in uV: 10.0 kohm from 2.5 V (R206). -/
def ntcOhm (a : Nat) : Rat := if 2500000 ≤ a then 1000000000 else 10000 * (a : Rat) / (2500000 - (a : Rat))

/-- Temperature of an NTC in degC (R206). -/
def ntcTemp (par : Word) (r : Rat) : Rat :=
  let r25 : Rat := ((max 1 (wfld par 15 0) * 10 : Nat) : Rat)
  let beta : Rat := ((max 1 (wfld par 31 16) : Nat) : Rat)
  let inv := 100 / 29815 + lnR 64 (r / r25) / beta
  if inv ≤ 0 then 40000 else 1 / inv - 27315 / 100

/-- The electrical limits of a conversion: 0 good, 1 open or high, 2 short or low (R208). -/
def Tin.bad? (t : Tin) (a b : Nat) : Nat :=
  if t.type = 1 then
    if 900000 < a ∨ 900000 < b then 1 else if a < 200000 ∨ b < 200000 then 2 else 0
  else if 2000000 < ntcOhm a then 1 else if ntcOhm a < 50 then 2 else 0

/-- A good reading's alarms with 2 K of hysteresis (R208): the new alarm and the kinds of the events. -/
def Tin.alarmNext (t : Tin) (c : Int) : Nat × List Nat :=
  let held := (t.alarm = 1 ∧ t.high - 200 < c) ∨ (t.alarm = 2 ∧ c < t.low + 200)
  if held then (t.alarm, [])
  else
    let cleared := if t.alarm = 0 then [] else [3]
    if t.high ≤ c then (1, cleared ++ [1]) else if c ≤ t.low then (2, cleared ++ [2]) else (0, cleared)

/-- A good reading of an input that is not faulty: TEMP and its alarms (R208). -/
def State.tinReading (s : State) (input : Nat) (c : Int) : State :=
  let al := (s.tin input).alarmNext c
  forEach al.2 (fun k u => u.raise 0x031B [input, c, k]) (s.modTin input fun t =>
    { t with bad := 0, good := 0, val := BitVec.ofNat 32 (ux 16 c), last := c, alarm := al.1 })

/-- TIN_CONVERSION: an enabled input is converted, in uV: the diode's two forward voltages, or the NTC's divider
(R206, R208, R210). -/
def execTinConversion (input a b : Nat) (s : State) : Host.Outcome State Fault Refusal :=
  let t := s.tin input
  onlyIf (decide (t.type = 1 ∨ t.type = 2)) (fun s =>
    let g (v : Nat) : Nat := (s.referred v).toNat
    let bad := t.bad? (g a) (g b)
    if bad ≠ 0 then s.modTin input fun t => { t with bad := satN 3 (t.bad + 1), badKind := bad, good := 0 }
    else
      let c := tempCode (rround (100 * (if t.type = 1 then diodeTemp t.par (g a) (g b) else ntcTemp t.par (ntcOhm (g a)))))
      if t.faulty then s.modTin input fun t => { t with bad := 0, good := satN 10 (t.good + 1), next := c }
      else s.tinReading input c) s

/-- TIN_FAULT: a reading out of its electrical limits on 3 consecutive conversions (R208). -/
def execTinFault (input : Nat) (s : State) : Host.Outcome State Fault Refusal :=
  let t := s.tin input
  onlyIf (decide (3 ≤ t.bad) && !t.faulty) (fun s =>
    (s.modTin input fun t => { t with faulty := true, good := 0, val := 0x8000 }).raise 0x031C [input, t.badKind]) s

/-- TIN_RECOVERED: 10 consecutive good conversions of a faulty input: it reads the latest of them (R208). -/
def execTinRecovered (input : Nat) (s : State) : Host.Outcome State Fault Refusal :=
  let t := s.tin input
  onlyIf (t.faulty && decide (10 ≤ t.good)) (fun s =>
    (s.modTin input fun t => { t with faulty := false }).tinReading input t.next) s

/-! ### The two ASIC diodes (R210) -/

/-- The median of the rod-array diodes with a valid code; 25 degC where none has one. -/
def State.rodMedian (s : State) : Int :=
  let v := s.sched.diodeT.filter (fun t => decide (t ≠ -32768))
  if v = [] then 2500 else medianI v

/-- A compensation diode: the temperature used, and whether its reading is ignored (R210). -/
def State.diodeUsed (s : State) (t : Int) : Int × Bool :=
  let m := s.rodMedian
  if 1000 < (t - m).natAbs then (m, true) else (t, false)

/-- A fallback latched and reported while it begins (R210). -/
def State.fallback (s : State) (d : Nat) (t : Int) (on : Bool) : State :=
  let s1 := s.when (on && !s.est.fallback.contains d) (·.raise 0x031D [d, t, s.rodMedian])
  s1.onEst fun e => { e with fallback := if on then insN d e.fallback else e.fallback.erase d }

/-- COMPENSATION_UPDATE: every 10 ms from the REF and OSC diodes, temperature codes (R210). -/
def execCompensationUpdate (tRef tOsc : Int) (s : State) : Host.Outcome State Fault Refusal :=
  let r := s.diodeUsed tRef
  let o := s.diodeUsed tOsc
  let x : Rat := (r.1 : Rat) / 100 - 25
  let den := 1 + Config.refA.1 * x + Config.refA.2 * x * x
  let (b1, b3, t0) := Config.oscB
  let y : Rat := (o.1 : Rat) / 100 - t0
  let s1 := (s.fallback 1 tRef r.2).fallback 2 tOsc o.2
  .next (s1.onBeam fun b => { b with refGain := if den = 0 then 1 else 1 / den, oscCorr := b1 * y + b3 * y * y * y }.showFreq)

end Sys2Proof.Machine
end

