-- ==== Sys2Proof/Machine/Fields.lean ====
section
/-! DEFINITION. The bits of each register word that the register maps list; every other bit is reserved (R10, R58, R207, R216,
R219, R374-R376, R395, R415, R417). -/
namespace Sys2Proof.Machine
open Sys2Proof

/-- The bits that a 32-bit word has. -/
def wholeWord : Nat := 0xFFFFFFFF

/-- The listed bits of a beam register (R57, R58). -/
def beamBits (off : Nat) : Nat :=
  match off with
  | 0x000 => 0x8003FFF7
  | 0x004 => 0x7FFFFF03
  | 0x00C => 0x00FFFFFF
  | 0x010 | 0x024 | 0x038 | 0x048 => 0x0000FFFF
  | 0x014 => 0x000000FF
  | 0x018 => 0x00001FFF
  | 0x020 => 0x007FFFFF
  | 0x040 => 0xFFFF0003
  | 0x044 => 0x00FF07FF
  | _ => if off < 0x100 then wholeWord else if off % 16 = 8 then 0xFFFF3FF1 else if off % 16 = 12 then 0x0007FFFF else wholeWord

/-- The listed bits of a protection register (R216, R219). -/
def protBits (off : Nat) : Nat :=
  match off with
  | 0x000 => 0x00FF000F
  | 0x004 | 0x008 => 0x0000FFFF
  | _ =>
    match off % 0x20 with
    | 0x00 => 0xF0000F07
    | 0x04 => 0x000300FF
    | 0x08 => 0xFFFF007F
    | _ => wholeWord

/-- The listed bits of a thermal input register (R207). -/
def tinBits (off : Nat) : Nat :=
  match off % 0x10 with
  | 0x0 => 0xFFFF01FF
  | 0xC => 0x0000FFFF
  | _ => wholeWord

/-- The listed bits of a register of one loop (R375). -/
def loopUnitBits (r : Nat) : Nat :=
  match r with
  | 0x00 => 0xFFFFFFBD
  | 0x04 => 0x000FFFFF
  | 0x34 => 0x00001F0F
  | 0x38 => 0xE0FFFFFF
  | 0x40 => 0xFFFF0007
  | 0x44 => 0x00FFFFFF
  | 0x4C => 0x0000000F
  | _ => wholeWord

/-- The listed bits of a register of one axis (R376). -/
def axisBits (r : Nat) : Nat :=
  match r with
  | 0x00 => 0xFFFF0F7F
  | 0x14 => 0x000007FF
  | 0x18 => 0x0000000F
  | _ => wholeWord

/-- The listed bits of a loop block register (R374-R376). -/
def loopBits (off : Nat) : Nat :=
  if off = 8 then 0x000003FF
  else if 0x1000 ≤ off ∧ off < 0x2000 then loopUnitBits (off % 0x80)
  else if 0x2000 ≤ off ∧ off < 0x2400 then axisBits (off % 0x40)
  else if 0x2400 ≤ off ∧ off < 0x2480 then (if off % 0x10 = 0 then 3 else if off % 0x10 = 8 then 7 else wholeWord)
  else if 0x2500 ≤ off ∧ off < 0x2580 then (if off % 0x10 = 0 then 0xFFFF0003 else 1)
  else if 0x2600 ≤ off ∧ off < 0x2700 then (if off % 0x10 = 0 then 0xFFFFFF03 else 0x0000FFFF)
  else wholeWord

/-- The listed bits of a load block register (R395). -/
def loadBits (off : Nat) : Nat :=
  match off with
  | 0x00 | 0x04 | 0x08 | 0x0C => 0x00FFFFFF
  | 0x10 => 0xFFFF001F
  | 0x18 => 0x0000009F
  | 0x1C => 0x0000007F
  | _ => if off < 0x100 then wholeWord else if off % 0x10 = 0 then 0xFFFF00FA else if off % 0x10 = 8 then 0x00030FFF else wholeWord

/-- The listed bits of a register of one CAN controller (R417). -/
def ctrlBits (r : Nat) : Nat :=
  match r with
  | 0x00 => 0xFF00011D
  | 0x04 => 0xFFFFFFFE
  | 0x08 => 0xF81F1F1F
  | 0x0C => 0x000001FF
  | 0x10 => 0xFFFF03FE
  | 0x18 => 0x0000003F
  | 0x1C => 0xFFFF00FF
  | 0x20 => 0x00000001
  | _ => wholeWord

/-- The listed bits of a CAN block register (R415-R417). -/
def canBits (off : Nat) : Nat :=
  if off = 0 then 0xF7FF001F
  else if off = 4 then 0x07FF00FF
  else if off = 8 then 0xF7FFFFFF
  else if 0x100 ≤ off ∧ off < 0x300 then ctrlBits (off % 0x40)
  else if 0x1000 ≤ off ∧ off % 8 = 4 then 0x9FFFFFFF
  else if 0x400 ≤ off ∧ off < 0x800 ∧ off % 0x80 = 4 then 0x007FFFFF
  else wholeWord

/-- The listed bits of the registers that a register write reaches, by opcode (R323). -/
def regBits (op off : Nat) : Nat :=
  match op with
  | 0x0335 => tinBits off
  | 0x0601 => protBits off
  | 0x0701 => beamBits off
  | 0x0901 => loopBits off
  | 0x0A01 => loadBits off
  | 0x0B01 => canBits off
  | _ => wholeWord

/-- The reserved bits of byte b of a written word, as a mask of that byte. -/
def reservedOf (op off b : Nat) : Nat := 255 - regBits op off / 256 ^ b % 256

/-- The first byte of a register write's payload in which a reserved bit is not zero (R10, R323). -/
def reservedData? (op off : Nat) (data : List Nat) : Option Nat :=
  (List.range (4 * data.length)).findSome? (fun j =>
    if (nth 0 data (j / 4) / 256 ^ (j % 4)) &&& reservedOf op (off + 4 * (j / 4)) (j % 4) = 0 then none else some (8 + j))

end Sys2Proof.Machine
end

