-- ==== Sys2Proof/Machine/Channels.lean ====
section
/-! DEFINITION. Load channels: commands, conduction, turn-on and turn-off, the guard's ownership (chapter 13). -/
namespace Sys2Proof.Machine
open Sys2Proof

/-- LCH_CFG at reset: ILIM 100, SLEW 2 on CH22 and CH23 (R395). -/
def chanReset (n : Nat) : Word := if n = 22 ∨ n = 23 then 0x02640000 else 0x00640000
/-- LCH_CFG of a channel. -/
def State.chanCfg (s : State) (n : Nat) : Word := tget (chanReset n) s.load.cfg n
/-- PROFILE of a channel, 0 NONE (R381, R395). -/
def State.profile (s : State) (n : Nat) : Nat := wfld (s.chanCfg n) 7 4
/-- IN_EN of a channel. -/
def State.inEn (s : State) (n : Nat) : Bool := bit (s.chanCfg n) 3
/-- A heavy channel. -/
def heavyCh (n : Nat) : Bool := decide (n < 6)
/-- A light channel. -/
def lightCh (n : Nat) : Bool := decide (6 ≤ n ∧ n < 22)
/-- A soft channel. -/
def softCh (n : Nat) : Bool := decide (22 ≤ n)
/-- I_R in mA. -/
def chanRated (n : Nat) : Nat := if heavyCh n then 10000 else if lightCh n then 2500 else 6000
/-- Numbers of the channels. -/
def chanNums : List Nat := List.range 24

/-- A channel is guard-owned: the role map in service names it (R25, R231). -/
def State.owned (s : State) (n : Nat) : Bool := s.guard.table.roles.contains n

/-- A supply flag of LOAD_SUP: 0 UV, 1 DUMP, 2 REVERSE, 3 GND_LOST, 4 OVERLOAD. -/
def State.supFlag (s : State) (i : Nat) : Bool := bit s.load.sup i

/-- A channel's command: the guard's for a guard-owned channel, else CMD or an enabled IN pin (R379). -/
def State.chanCmd (s : State) (n : Nat) : Bool :=
  if s.owned n then bit s.guard.cmd n else bit s.load.cmd n || (s.inEn n && bit s.load.pins n)

/-- The supply and the module let channels conduct: neither UV, REVERSE nor GND_LOST, not in RECOVERY, not shut down
(R389, R393, R447). -/
def State.supplyLets (s : State) : Bool :=
  !s.supFlag 0 && !s.supFlag 2 && !s.supFlag 3 && !s.sys.shut && decide (s.sys.run ≠ .recovery)

/-- A channel may conduct: a profile, no latch, no cool-down, supply (R379). -/
def State.mayConduct (s : State) (n : Nat) : Bool :=
  decide (s.profile n ≠ 0) && !(s.chan n).oc && !(s.chan n).dtLatch && !(s.chan n).dtOff && s.supplyLets

/-- A channel conducts: commanded and free to (R379); all of them under reverse supply with VMAIN present (R389). -/
def State.conducts (s : State) (n : Nat) : Bool := s.load.reverseOn || (s.chanCmd n && s.mayConduct n)

/-- Minimum on and off time of a channel in ticks (R383). -/
def minTime (n : Nat) : Nat := if heavyCh n then us 200 else if lightCh n then us 100 else ms 10

/-- The channel's present on or off time has reached its minimum (R383). -/
def State.minDone (s : State) (n : Nat) : Bool :=
  match (if (s.chan n).on then (s.chan n).onAt else (s.chan n).offAt) with
  | some t => s.elapsed t (minTime n)
  | none => true

/-- A channel under its IN pin stands in an on or off time that is stretched to its minimum (R383). -/
def State.stretched (s : State) (n : Nat) : Bool := s.inEn n && !s.owned n && !s.minDone n

/-- The on-time of a channel since its open load was judged last (R387). -/
def Chan.onTime (c : Chan) (clock : Nat) : Nat := c.onAcc + (if c.on then clock - c.onFrom else 0)

/-- OC_LATCH and DT_LATCH clear; the count of thermal switch-offs begins anew, since DT_WIN reads 8 only on a latched
channel (R384, R386). -/
def Chan.unlatch (c : Chan) : Chan := { c with oc := false, dtLatch := false, dtAt := if c.dtLatch then [] else c.dtAt }

/-- CHANNEL_TURN_ON: off to on, and the inrush window or slew ramp opens (R381, R382). -/
def State.turnOn (s : State) (n : Nat) : State :=
  s.modChan n fun c => { c with on := true, onAt := some s.clock, onFrom := s.clock, inrush := true, clamp := false }

/-- On to off: the window closes, and an inductive load's current goes through the clamp (R385). -/
def State.turnOff (s : State) (n : Nat) : State :=
  s.modChan n fun c =>
    { c with on := false, offAt := some s.clock, onAcc := c.onAcc + (s.clock - c.onFrom), inrush := false, clamp := decide (0 < c.i), i := 0 }

/-- Channels follow their commands: those that may no longer conduct switch off; guard-owned ones switch on at once;
of several others, one switches on and the rest follow 1 ms apart, in ascending order (R379, R394); a command does not cut
short a minimum on or off time (R383). -/
def State.applyChannels (s : State) (ns : List Nat) : State :=
  let s1 := forEach (ns.filter (fun n => (s.chan n).on && !s.conducts n && !(s.stretched n && s.mayConduct n))) (fun n t => t.turnOff n) s
  let ups := ns.filter (fun n => !(s.chan n).on && s.conducts n && !s.stretched n)
  let s2 := forEach (ups.filter s.owned) (fun n t => t.turnOn n) s1
  match sortN (ups.filter (fun n => !s.owned n && !s.load.stagger.contains n)) with
  | [] => s2
  | n :: rest => (s2.turnOn n).onLoad fun l =>
      { l with stagger := sortN (l.stagger ++ rest), staggerAt := if rest = [] then l.staggerAt else some s.clock }

/-- The guard's command of a channel: its off-to-on transition clears the channel's latches (R391, R394); 0xFF names
none. -/
def State.guardSet (s : State) (n : Nat) (on : Bool) : State :=
  if 24 ≤ n then s
  else
    let up := on && !bit s.guard.cmd n
    let s1 := (s.onGuard fun g => { g with cmd := putBit g.cmd n on }).when up (·.modChan n Chan.unlatch)
    s1.applyChannels [n]

/-- Role channels of the table in service, ascending. -/
def State.roleChans (s : State) : List Nat := sortN (s.guard.table.roles.filter (fun n => decide (n < 24)))

/-- An action is requested of the guard for its next cycle (R215, R223): kind, string, CAUSE, parameters, whether the
record carries the TRIP_ID, whether the guard records it. -/
def State.ask (s : State) (kind : Nat) (string : Option Nat) (cause : Nat) (ps : List Int) (withId logs : Bool) : State :=
  s.onGuard fun g => { g with reqs := g.reqs ++ [⟨kind, string, cause, ps.map (ux 16), withId, logs, 3, false⟩] }

/-- GUARD_CHANNEL_DROPOUT: guard-owned channels commanded on stop conducting: the guard's command drops and it performs
an emergency bank action under the channels' own event, which it does not record again (R392). -/
def State.dropout (s : State) (ns : List Nat) (cause : Nat) (ps : List Int) : State :=
  let hit := ns.filter (fun n => s.owned n && bit s.guard.cmd n)
  if hit = [] then s
  else
    forEach hit (fun n t => t.onGuard fun g => { g with cmd := putBit g.cmd n false })
      (s.ask 1 none cause ps false false)

end Sys2Proof.Machine
end

