-- ==== Sys2Proof/Machine/Guard.lean ====
section
/-! DEFINITION. The guard: TRIP outputs, hardware actions, opening strings and contactors, the kinds of action of R223
(chapter 8). -/
namespace Sys2Proof.Machine
open Sys2Proof

/-- All ring ports. -/
def allPorts : List Nat := List.range 128

/-! ### TRIP outputs (R212, R221) -/

/-- MODE of TRIPn: 0 EMERGENCY, 1 PCS_ENABLE, 2 ANY. -/
def Guard.mode (g : Guard) (n : Nat) : Nat := wfld g.tripMode (2 * n + 1) (2 * n)

/-- TRIPMASK of an input. -/
def Fpi.mask (f : Fpi) : Nat := wfld f.act 7 0
/-- SCOPE of an input: 0 none, 1 BANK, 2 STRING. -/
def Fpi.scope (f : Fpi) : Nat := wfld f.act 17 16
/-- The target string of an input. -/
def Fpi.target (f : Fpi) : Nat := strKey (wfld f.tgt 6 0) (wfld f.tgt 31 16)
/-- A comparator that acts on nothing: SCOPE 0 and TRIPMASK 0 (R217). -/
def Fpi.eventOnly (f : Fpi) : Bool := decide (f.scope = 0 ∧ f.mask = 0)

/-- Numbers of the fast inputs. -/
def fpiNums : List Nat := List.range 16

/-- A string is LOCKED. -/
def State.isLocked (s : State) (k : Nat) : Bool := (s.str k).locked.isSome
/-- Some string is LOCKED. -/
def State.anyLocked (s : State) : Bool := s.est.configured.any s.isLocked

/-- TRIPn conducts: only while every condition of its mode holds (R212, R221, R222, R447, R448). -/
def State.tripConducts (s : State) (n : Nat) : Bool :=
  let g := s.guard
  s.power.pwrgd && !s.sys.shut && !g.failed && g.lastCycle.isSome && g.stopOk && !g.tripped && !bit g.hwMask n &&
    !fpiNums.any (fun i => decide ((s.fpi i).latched ≠ 0) && (s.fpi i).mask.testBit n) &&
    (decide (g.mode n ≠ 1) || (g.released && decide (s.sys.mode ≠ .commission))) &&
    (decide (g.mode n ≠ 2) || !s.anyLocked) && decide (g.mode n ≠ 3)

/-- TRIP_STATE of PROT_STATUS (R219). -/
def State.tripState (s : State) : Nat := maskOf ((List.range 8).filter s.tripConducts)

/-! ### TRIP_ID (R220) -/

/-- After 65,535 the counter continues at 1; it never takes 0 (R220). -/
def nextTripId (n : Nat) : Nat := if 65535 ≤ n then 1 else n + 1

/-- A protective action takes a TRIP_ID and is counted (R220, R433). -/
def State.takeId (s : State) : State := (s.onGuard fun g => { g with tripId := nextTripId g.tripId }).count 1 0 6 1

/-- A guard cycle takes at most one TRIP_ID, and the one of a hardware action that it completes serves it too (R220). -/
def State.cycleId (s : State) : State :=
  if s.guard.hwPending ∨ s.guard.idAt = some s.clock then s
  else s.takeId.onGuard fun g => { g with idAt := some s.clock }

/-! ### Contactors and strings -/

/-- The channel of a bank role, 1 BANK_POS, 2 BANK_NEG, 3 PRECHARGE, 4 DISCHARGE; 0xFF none (R231). -/
def SeqTable.chan (t : SeqTable) (role : Nat) : Nat := nth 0xFF t.roles (role - 1)

/-- A role's channel is commanded on. -/
def State.roleOn (s : State) (t : SeqTable) (role : Nat) : Bool :=
  decide (t.chan role < 24) && bit s.guard.cmd (t.chan role)

/-- BANK_POS and BANK_NEG have both been opened: the weld window begins with V_bank of that instant (R233). -/
def State.noteOpened (before s : State) (t : SeqTable) : State :=
  if (before.roleOn t 1 || before.roleOn t 2) && !s.roleOn t 1 && !s.roleOn t 2 then
    s.onGuard fun g => { g with openedAt := some (s.clock, s.guard.vbank), connected := false }
  else s

/-- Every contactor and pre-charge channel is switched off (R213, R214, R217, R223). -/
def State.contactorsOff (s : State) : State :=
  let t := s.guard.table
  s.noteOpened ((s.onGuard fun g => { g with cmd := 0, preSince := none }).applyChannels s.roleChans) t

/-- A SWITCH of the guard is queued on a ring ahead of the Reckoner's commands (R90, R91). -/
def State.queueGuard (s : State) (port dst : Nat) (out : BitVec 8) : State :=
  let guardCmd (c : LinkCmd) : Bool := match c.op with | .switch true _ => true | _ => false
  s.modRing port fun r =>
    { r with queue := r.queue.takeWhile guardCmd ++ [⟨dst, .switch true out, 0, false, false, 0, 0, none, false, none⟩] ++
                      r.queue.dropWhile guardCmd }

/-- The outputs of a string as the guard commands them go to its switch node; a close carries CLEAR (R90, R231). -/
def State.sendSwitch (s : State) (k : Nat) (clear : Bool) : State :=
  match s.switchPos? k with
  | some pos => s.queueGuard (keyPort k) pos (BitVec.ofNat 8 ((s.str k).sw % 8 + flag clear 7))
  | none => s

/-- After a STRING trip no BALANCE goes to a string until its contactors are closed again: those that wait are dropped, and the plan
is owed anew (R204). -/
def State.dropPlans (s : State) (k : Nat) : State :=
  let ps := s.posOf k
  let s1 := s.modRing (keyPort k) fun r => { r with queue := r.queue.filter (fun c => !c.plansOf ps) }
  forEach ps (fun pos t => t.modBal (nodeKey (keyPort k) pos) fun b => { b with sent := noDuty, owed := true }) s1

/-- A string's contactors are no longer closed; the weld window begins where they had been commanded closed (R204, R233). -/
def State.stringOff (s : State) (k : Nat) (hold : Bool) : State :=
  let was := decide ((s.str k).sw % 4 ≠ 0)
  ((s.when hold (·.dropPlans k)).modStr k fun q => { q with sw := 0, closed := false, tripHold := q.tripHold || hold }).when was (·.onGuard fun g =>
    { g with strOpened := tput g.strOpened k (s.clock, false, false) })

/-- A string is opened by SWITCH (R223). -/
def State.openString (s : State) (k : Nat) : State := (s.stringOff k false).sendSwitch k false

/-- A ring trip has reached a string's switch node: its outputs open (R93). -/
def State.tripStrings (s : State) (ks : List Nat) (hold : Bool) : State := forEach ks (fun k t => t.stringOff k hold) s

/-- MIN_STRINGS, a share of the configured strings rounded up (R234). -/
def State.minStrings (s : State) : Nat :=
  ((max 0 (s.par 0x6104)).toNat * s.est.configured.length + 99999) / 100000

/-- Closed strings that are not LOCKED (R223). -/
def State.goodClosed (s : State) : Nat := (s.closedStrings.filter (fun k => !s.isLocked k)).length

/-! ### TRIPPED (R223, R444) -/

/-- TRIPPED is latched with its cause; the mode follows from every mode of R444's row, and a later cause does not replace
the first. -/
def State.latchTripped (s : State) (cause : Nat) : State :=
  let s1 := s.onGuard fun g => { g with tripped := true, tripCause := if g.tripped then g.tripCause else cause, released := false }
  match s.sys.mode with
  | .commission | .standby | .connect | .online | .service => s1.enterMode .tripped cause
  | _ => s1

/-! ### Hardware actions (R213, R214, R217, R220) -/

/-- The hardware takes the TRIP_ID of its action at once; an action still waiting for its cycle keeps its own, and the
lower event code is its CAUSE (R220, R235). -/
def State.hwTake (s : State) (cause : Nat) (mask : BitVec 8) : State :=
  let s1 := if s.guard.hwPending then s else s.takeId
  s1.onGuard fun g =>
    { g with hwPending := true, hwCause := if g.hwPending then min g.hwCause cause else cause, hwTrip := true,
             hwMask := g.hwMask ||| mask }

/-- The bank-wide hardware action: contactors and pre-charge off, a BANK ring trip on every ring (R213, R214, R217). -/
def State.hwBankAction (s : State) (cause : Nat) (ps : List Int) : State :=
  let s1 := ((s.hwTake cause 0xFF).onGuard fun g => { g with hwBank := true }).contactorsOff
  ((s1.launchTrip allPorts 1 0xFFFF s1.guard.hwCause).tripStrings s.est.configured false).ask 1 none cause ps true true

/-- STOP_DEENERGISED: STOP has been de-energised for 50 us (R213). -/
def execStopDeenergised (heldUs : Nat) (s : State) : Host.Outcome State Fault Refusal :=
  onlyIf (s.power.pwrgd && s.guard.stopOk && decide (50 ≤ heldUs)) (fun s =>
    (s.onGuard fun g => { g with stopOk := false }).hwBankAction 0x0601 []) s

/-- STOP_ENERGISED: STOP has been energised again for 50 us (R213). -/
def execStopEnergised (heldUs : Nat) (s : State) : Host.Outcome State Fault Refusal :=
  onlyIf (s.power.pwrgd && decide (50 ≤ heldUs)) (fun s => s.onGuard fun g => { g with stopOk := true }) s

/-- The stop lane of a tenant acts: tenant 0's releases the outputs, opens the contactors and trips the rings; another's
sets its stop bit (R214, R259). -/
def State.stopLane (s : State) (t : Nat) : State :=
  if t = 0 then s.hwBankAction 0x060A []
  else s.onGuard fun g =>
    { g with stops := insN t g.stops, stopRings := g.stopRings + 1, stopAt := tset 0 g.stopAt t (g.stopRings + 1) }

/-- STOP_LANE_TENANT0 (R214). -/
def execStopLaneTenant0 (s : State) : Host.Outcome State Fault Refusal := onlyIf s.power.pwrgd (·.stopLane 0) s

/-- STOP_LANE_TENANT (R214, R259). -/
def execStopLaneTenant (tenant : Nat) (s : State) : Host.Outcome State Fault Refusal :=
  onlyIf (s.power.pwrgd && decide (tenant ≠ 0)) (·.stopLane tenant) s

/-- The event parameters of a crossing after the TRIP_ID (R239). -/
def State.crossPs (s : State) (n : Nat) : List Int := [n, ((s.fpi n).val.toNat % 65536 : Nat)]

/-- COMPARATOR_CROSSING: an input has stayed beyond a threshold for its filter time (R217): an event-only comparator
raises its event with TRIP_ID 0 and waits for its re-arming; every other latches, releases its outputs and acts at its
scope. -/
def execComparatorCrossing (fpi : Nat) (hi : Bool) (heldNs : Nat) (s : State) : Host.Outcome State Fault Refusal :=
  let f := s.fpi fpi
  let cause := if hi then 0x0602 else 0x0603
  let on := s.power.pwrgd && s.analogue && bit f.cfg (if hi then 0 else 1) && decide (wfld f.cfg 31 28 * 20 ≤ heldNs)
  let s0 := s.modFpi fpi fun f => { f with beyond := true }
  if !on then .next s
  else if f.eventOnly then
    .next (if f.fired then s0 else (s0.modFpi fpi fun f => { f with fired := true }).raise cause (0 :: s.crossPs fpi))
  else if f.latched ≠ 0 then .next s0
  else
    let s1 := s0.modFpi fpi fun f => { f with latched := if hi then 1 else 2 }
    if f.scope = 1 then .next (s1.hwBankAction cause (s.crossPs fpi))
    else
      let s2 := s1.hwTake cause 0
      if f.scope = 2 then
        .next (((s2.launchTrip [keyPort f.target] 2 (keyId f.target) cause).tripStrings [f.target] true).ask 3 (some f.target) cause (s.crossPs fpi) true true)
      else .next (s2.ask 6 none cause (s.crossPs fpi) true true)

/-- COMPARATOR_REARM: an event-only comparator's input is back inside by the hysteresis (R217, R507). -/
def execComparatorRearm (fpi : Nat) (s : State) : Host.Outcome State Fault Refusal :=
  .next (s.modFpi fpi fun f => { f with fired := false, beyond := false })

/-! ### Kinds of action (R223) -/

/-- EMERGENCY_BANK_ACTION (R223): contactors off, a BANK ring trip, STOP on the PCS bus, TRIPPED. -/
def State.emergencyBank (s : State) (id cause : Nat) : State :=
  let s1 := ((s.contactorsOff.launchTrip allPorts 1 0xFFFF cause).tripStrings s.est.configured false).onGuard fun g =>
    { g with seq := none, strDisc := none, released := false, connected := false }
  (((s1.sendStop id cause).latchTripped cause).raise 0x0611 [1, 0])

/-- A string becomes LOCKED by an action; a string already LOCKED keeps its record (R235, R236, R238). -/
def State.lockString (s : State) (k id cause origin : Nat) : State :=
  s.modStr k fun q =>
    { q with locked := if q.locked.isSome then q.locked else some (cause, id), causes := insN origin q.causes }

/-- A bank contactor or the pre-charge is commanded closed (R223). -/
def State.bankLive (s : State) : Bool :=
  s.guard.connected || [1, 2, 3].any (fun r => s.roleOn s.guard.table r)

/-- Too few strings are left closed by LOCKED ones: an ordinary bank disconnection is asked for (R223). -/
def State.fewStrings (s : State) : State :=
  if s.bankLive && decide (s.goodClosed < s.minStrings) then
    (s.raise 0x0617 [s.goodClosed, s.minStrings]).ask 2 none 0x0617 [] false false
  else s

/-- EMERGENCY_STRING_ACTION (R223): a STRING ring trip opens the string, and it is LOCKED. -/
def State.emergencyString (s : State) (k cause : Nat) : State :=
  (((s.launchTrip [keyPort k] 2 (keyId k) cause).stringOff k true).raise 0x0611 [3, 0]).fewStrings

/-- An ordinary disconnection of strings begins with a ZERO that carries its TRIP_ID and CAUSE; strings that join one under way open
with it (R220, R223, R225, R450). -/
def State.beginStringDisc (s : State) (ks : List Nat) (id cause : Nat) (lock : Bool) : State :=
  if ks = [] then s
  else
    (s.sendZero id cause).onGuard fun g =>
      { g with strDisc := match g.strDisc with
                 | some (old, at_, l) => some (sortN (old ++ ks), at_, l || lock)
                 | none => some (sortN ks, s.clock, lock) }

/-- DERATE (R223): the protection factor of a string is 0 in the directions given, 1 charge, 2 discharge, 3 both. -/
def State.derate (s : State) (k dir : Nat) : State :=
  s.modStr k fun q =>
    { q with derated := q.derated ||| dir, fpChg := if dir % 2 = 1 then 0 else q.fpChg, fpDis := if 2 ≤ dir then 0 else q.fpDis }

/-- A sequence begins under the table in service (R231). -/
def State.newRun (s : State) (section_ cause : Nat) (trips : Bool) : SeqRun :=
  { section_ := section_, step := 0, acted := false, since := s.clock, start := s.clock, table := s.guard.table, runs := [],
    joined := 0, left := 0, vref := s.guard.vbank, cause := cause, trips := trips, zeroAt := none, half := false }

/-- Something of the bank is connected or being connected. -/
def State.bankUp (s : State) : Bool :=
  s.guard.seq.isSome || decide (s.guard.cmd ≠ 0) || s.est.configured.any (fun k => decide ((s.str k).sw ≠ 0))

/-- ORDINARY_BANK_DISCONNECTION (R223, R224, R445): a BALANCE ring trip first where one of its three causes is among those of the
cycle; the disconnect table
runs, and where nothing is connected a trip cause only latches TRIPPED. -/
def State.ordinaryBank (s : State) (cause : Nat) (trips untrusted : Bool) : State :=
  let s1 := s.when untrusted (·.launchTrip allPorts 3 0xFFFF cause)
  let s2 := s1.onGuard fun g => { g with released := false, strDisc := none }
  if !s2.bankUp then s2.when trips (·.latchTripped cause)
  else
    match s2.guard.seq with
    | some q =>
      if q.section_ = 3 then
        s2.onGuard fun g => { g with seq := some { q with trips := q.trips || trips, cause := if trips && !q.trips then cause else q.cause } }
      else s2.onGuard fun g => { g with seq := some (s2.newRun 3 cause trips) }
    | none => s2.onGuard fun g => { g with seq := some (s2.newRun 3 cause trips) }

/-- A request that adds no action: a string kind on a string already LOCKED (R235), or a record alone. -/
def State.moot (s : State) (r : Req) : Bool :=
  decide (r.kind = 6) || (match r.string with | some k => s.isLocked k | none => false)

/-- The record of a cause, with the TRIP_ID first where R239 has it so. -/
def State.logReq (s : State) (r : Req) (id : Nat) : State :=
  s.when r.logs (·.raise r.cause ((if r.withId then [(id : Int)] else []) ++ r.params.map Int.ofNat))

/-- The origin of a lock: a comparator's number, or its event code (R236). -/
def Req.origin (r : Req) : Nat := if r.cause = 0x0602 ∨ r.cause = 0x0603 then 65536 + nth 0 r.params 0 else r.cause

/-- The actions asked for since the last cycle (R220, R223, R235): the first kind in the table's order at every scope that
any request names; one TRIP_ID for all, 0 where no action takes one; the lowest event code is the CAUSE; every cause is
recorded. -/
def State.act (s : State) : State :=
  let rs := s.guard.reqs
  let live := rs.filter (fun r => !s.moot r)
  let emg := live.any (fun r => decide (r.kind = 1 ∨ r.kind = 3))
  let ord := live.any (fun r => decide (r.kind = 2 ∨ r.kind = 4))
  let bank := live.any (fun r => r.string.isNone)
  let keys := sortN (live.filterMap Req.string)
  let cause := ((live.map Req.cause).head?.map (fun c => (live.map Req.cause).foldl min c)).getD 0
  let some_ := emg || ord || s.guard.hwPending
  let s1 := (s.when (emg || ord) State.cycleId).onGuard fun g =>
    { g with reqs := [], hwPending := false, idAt := if some_ then some s.clock else g.idAt }
  let id := if some_ then s1.guard.tripId else 0
  let s2 := forEach rs (fun r t => t.logReq r id) s1
  let s3 := s2.when (live.any (fun r => decide (r.cause = 0x060E))) (·.onGuard fun g => { g with weld := some id })
  let causeOf (k : Nat) : Nat :=
    let cs := (live.filter (fun r => r.string == some k)).map Req.cause
    cs.foldl min (cs.head?.getD 0)
  let lockAll (t : State) : State :=
    forEach rs (fun r t => match r.string with
      | some k => if keys.contains k then t.lockString k id (causeOf k) r.origin else t
      | none => t) t
  if emg then
    let s4 := if bank then s3.emergencyBank id cause else s3
    (forEach keys (fun k t => t.emergencyString k (causeOf k)) (lockAll s4)).wake 0
  else if ord then
    let standby := live.all (fun r => r.string.isSome || r.standby)
    let s4 := lockAll s3
    let s5 := if bank then s4.ordinaryBank cause (!standby) (live.any (fun r => decide (r.cause = 0x060B ∨ r.cause = 0x0E0E ∨ r.cause = 0x0E09))) else (s4.beginStringDisc keys id cause true).fewStrings
    s5.wake 0
  else forEach live (fun r t => match r.string with | some k => t.derate k r.dir | none => t) s3

/-- GUARD_FAULT (R222): a rerun mismatched again, or the watchdog acted: the hardware releases the outputs, opens the
contactors and trips every ring; only a power cycle restarts the guard. -/
def State.guardFault (s : State) (xor : Nat) : State :=
  let s1 := (if s.guard.hwPending then s else s.takeId).contactorsOff
  let s2 := ((s1.launchTrip allPorts 1 0xFFFF 0x060D).tripStrings s.est.configured false).onGuard fun g =>
    { g with failed := true, guardOk := false, hwMask := 0xFF, hwBank := true, seq := none, strDisc := none, reqs := [],
             hwPending := false, released := false, connected := false, cycles := 0 }
  ((s2.raise 0x060D [s2.guard.tripId, (xor % 65536 : Nat)]).latchTripped 0x060D).wake 0

/-- GUARD_WATCHDOG: no matching cycle has completed for 1 ms (R222). -/
def execGuardWatchdog (s : State) : Host.Outcome State Fault Refusal :=
  onlyIf (s.power.pwrgd && !s.guard.failed && !s.sys.shut && s.elapsed? s.guard.lastCycle (ms 1)) (·.guardFault 0) s

/-! ### The heartbeat (R20) -/

/-- The Reckoner's heartbeat reaches the guard: the 1 s timeout applies from the first on, the boot has succeeded and the
update floor is no longer suspended (R20, R113, R471). -/
def State.heartbeat (s : State) : State :=
  let s1 := s.onGuard fun g => { g with beatAt := some s.clock, beatMs := 1000, silent := false }
  (((s1.causeGone 0x060B).onSys fun y => { y with bootFails := 0 }).onUpd fun u => { u with handAt := none }).onSched fun q =>
    { q with suspended := false }

/-- HEARTBEAT (R20). -/
def execHeartbeat (s : State) : Host.Outcome State Fault Refusal := onlyIf (decide (s.sys.run = .running)) (·.heartbeat) s

/-- HEARTBEAT_TIMEOUT: the timeout in force has passed since the last heartbeat (R20, R224, R230). -/
def execHeartbeatTimeout (s : State) : Host.Outcome State Fault Refusal :=
  onlyIf (s.power.pwrgd && !s.guard.failed && !s.guard.silent && s.elapsed? s.guard.beatAt (ms s.guard.beatMs)) (fun s =>
    (s.onGuard fun g => { g with silent := true, present := insN 0x060B g.present }).ask 2 none 0x060B [] true true) s

end Sys2Proof.Machine
end

