-- ==== Sys2Proof/Machine/Sequences.lean ====
section
/-! DEFINITION. The guard's sequences: conditions, steps, strings one per ring at a time, disconnection of strings
(R231-R234, R223, R450, R452). -/
namespace Sys2Proof.Machine
open Sys2Proof

/-! ### Voltages and currents of the bank (R231) -/

/-- The FPI of a role (R216). -/
def State.fpiRole? (s : State) (role : Nat) : Option Nat := fpiNums.find? (fun n => decide ((s.fpi n).role = role))

/-- Positions of a string that hold its cells. -/
def State.cellPos (s : State) (k : Nat) : List Nat := sortN ((s.str k).cells.map pointPos)

/-- A string's voltage in mV: the sum of its nodes' STACK values; none while one is missing or invalid (R231). -/
def State.stringMv? (s : State) (k : Nat) : Option Nat :=
  let vs := (s.cellPos k).map (fun pos => (s.staged (keyPort k) pos).2)
  if vs = [] ∨ vs.any (fun r => decide (r = [] ∨ recStack r = 0xFFFF)) then none else some (4 * (vs.map recStack).sum)

/-- V_bank: the median voltage of the closed strings, mV (R231). -/
def State.bankMv (s : State) : Nat :=
  let vs := s.closedStrings.filterMap s.stringMv?
  if vs = [] then 0 else medianN vs

/-- Sum of I_RATED over the configured strings, mA. -/
def State.ratedSum (s : State) : Nat := (s.est.configured.map s.iRated).sum

/-- I_bank can be formed: a ROLE 2 FPI, or the Reckoner's string records (R231). -/
def State.ibankKnown (s : State) : Bool := (s.fpiRole? 2).isSome || !s.guard.silent

/-- I_bank in mA: the ROLE 2 FPI, otherwise the sum of the string records' I (R231). -/
def State.bankMa (s : State) : Int :=
  match s.fpiRole? 2 with
  | some n => (s.fpi n).val.toInt
  | none => (s.est.configured.map (fun k => if (s.str k).i = -32768 then 0 else (s.str k).i * 50)).sum

/-- The PCS reports ready: every unit READY and none stale (R412). -/
def State.pcsReady (s : State) : Bool :=
  s.pcsEn && (List.range s.pcsUnits).all (fun u => s.unitFresh u && bit (s.unit u).state 0)

/-- The AUX contact of a string role in the latest record of its switch node, if that record is of a later sweep than the
step's begin (R231, R234). -/
def State.aux? (s : State) (k role gen : Nat) : Option Bool :=
  match s.switchPos? k with
  | none => none
  | some pos =>
    let r := s.staged (keyPort k) pos
    if r.2 = [] ∨ r.1 = gen ∨ role < 5 then none else some ((recSwitch r.2).testBit (role - 1))

/-- A step's condition holds (R231); the string's key, and the GEN at the step's begin, serve the AUX conditions. -/
def State.condHolds (s : State) (st : SeqStep) (k gen : Nat) : Bool :=
  let g := s.guard
  match st.cond with
  | 1 => (s.fpiRole? 3).isSome && decide ((st.val : Int) * g.vbank ≤ g.vlink * 1000)
  | 2 => (s.fpiRole? 3).isSome && decide (g.vlink * 1000 ≤ (st.val : Int) * g.vbank)
  | 3 => decide (s.aux? k st.role gen = some true)
  | 4 => decide (s.aux? k st.role gen = some false)
  | 5 => s.ibankKnown && decide (g.ibank.natAbs * 1000 ≤ st.val * s.ratedSum)
  | 6 => !s.beam.st 1
  | 7 => !s.beam.st 2
  | 8 => !g.silent && decide (s.sys.run = .running) && s.pcsReady
  | _ => false

/-! ### The sequence in progress -/

/-- The sequence in progress changed. -/
def State.onSeq (s : State) (f : SeqRun → SeqRun) : State := s.onGuard fun g => { g with seq := g.seq.map f }

/-- A section of the table; a step past its end counts as END (R231). -/
def SeqTable.section_ (t : SeqTable) (n : Nat) : List SeqStep :=
  match n with
  | 1 => t.connect
  | 2 => t.string
  | _ => t.disconnect

/-- The END step. -/
def SeqStep.end_ : SeqStep := ⟨0, 0, 0, 0, 0, 1, 1⟩

/-- The bank step in progress. -/
def SeqRun.now (q : SeqRun) : SeqStep := nth SeqStep.end_ (q.table.section_ q.section_) q.step

/-- The string step in progress. -/
def SeqRun.nowOf (q : SeqRun) (r : StrRun) : SeqStep := nth SeqStep.end_ q.table.string r.step

/-- The next step begins. -/
def State.nextStep (s : State) : State := s.onSeq fun q => { q with step := q.step + 1, acted := false, since := s.clock, half := false }

/-- A string run begins on the first of a ring's strings. -/
def State.mkRun (s : State) (ks : List Nat) : List StrRun :=
  match ks with
  | [] => []
  | k :: rest => [⟨k, rest, 0, false, s.clock, (s.ring (keyPort k)).gen⟩]

/-- String runs on every ring at once, one string at a time, ascending (R234). -/
def State.mkRuns (s : State) (ks : List Nat) : List StrRun :=
  allPorts.flatMap (fun p => s.mkRun (ks.filter (fun k => decide (keyPort k = p))))

/-- A string's run is replaced by its next state, or by the ring's next string. -/
def State.putRun (s : State) (r : StrRun) (next : List StrRun) : State :=
  s.onSeq fun q => { q with runs := q.runs.flatMap (fun x => if x.string = r.string then next else [x]) }

/-- A string is left open and excluded, with its event (R232, R234, R239). -/
def State.leaveOut (s : State) (vref k : Nat) : State :=
  (s.modStr k fun q => { q with notJoined := true }).raise 0x0615
    [keyPort k, keyId k, rdiv (((s.stringMv? k).getD 0 : Int) - vref) 100]

/-- A string's section fails: the string is opened and excluded (R234). -/
def State.failRun (s : State) (r : StrRun) : State :=
  let s1 := (s.openString r.string).leaveOut ((s.guard.seq.map SeqRun.vref).getD 0) r.string
  (s1.putRun r (s1.mkRun r.rest)).onSeq fun q => { q with left := q.left + 1 }

/-- A string's section is complete: its contactors are closed (R234, R433, R204). -/
def State.doneRun (s : State) (r : StrRun) : State :=
  let s1 := (s.modStr r.string fun q =>
    { q with closed := true, closedGen := (s.ring (keyPort r.string)).gen, tripHold := false, notJoined := false }).count 2 r.string 4 1
  (s1.putRun r (s1.mkRun r.rest)).onSeq fun q => { q with joined := q.joined + 1 }

/-- The next step of a string's section begins. -/
def State.nextRunStep (s : State) (r : StrRun) : State :=
  s.putRun r [{ r with step := r.step + 1, acted := false, since := s.clock }]

/-- A string may be closed: its ring is ACTIVE, it is not LOCKED, it has a switch node, the mode is not COMMISSION
(R236, R448, R449). -/
def State.mayClose (s : State) (k : Nat) : Bool :=
  decide ((s.ring (keyPort k)).state = .active ∧ s.sys.mode ≠ .commission) && !s.isLocked k && (s.switchPos? k).isSome

/-- A node of a string has been lost (R229, R452). -/
def State.lostNode (s : State) (k : Nat) : Bool :=
  (s.posOf k).any (fun pos => decide (4 ≤ tget (0 : Nat) (s.ring (keyPort k)).missRun pos))

/-- Main closing is allowed: V_bank and V_link within MAIN_DV (R232). -/
def State.mainOk (s : State) : Bool :=
  (s.fpiRole? 3).isSome &&
    decide (((s.guard.vbank : Int) - s.guard.vlink).natAbs * 100000 ≤ (max 0 (s.par 0x6101)).toNat * s.guard.vbank)

/-- Pre-charge attempts within the last 10 min (R232). -/
def State.tries (s : State) : List Nat := s.guard.preTries.filter (fun t => decide (s.clock < t + secs 600))

/-- What forbids a bank role's closing at run time: the CAUSE with which the step fails (R232, R448). -/
def State.closeBar (s : State) (role : Nat) : Option Nat :=
  if s.sys.mode = .commission then some 0x060F
  else if role = 1 ∧ s.mainOk = false then some 0x060F
  else if role = 3 ∧ 3 ≤ s.tries.length then some 0x0616
  else none

/-- The record of a close that the pre-charge limit forbids (R232). -/
def State.barred (s : State) (cause : Nat) : State :=
  s.when (decide (cause = 0x0616)) (·.raise 0x0616 [s.tries.length, (s.guard.preSince.map s.msSince).getD 0])

/-- A bank role's channel closes, counted (R231-R233, R433). -/
def State.closeRole (s : State) (t : SeqTable) (role : Nat) : State :=
  let s1 := s.guardSet (t.chan role) true
  if role = 1 then s1.count 1 0 4 1
  else if role = 3 then (s1.onGuard fun g => { g with preTries := s.tries ++ [s.clock], preSince := some s.clock }).count 1 0 5 1
  else s1

/-- A bank role's channel opens (R231, R233). -/
def State.openRole (s : State) (t : SeqTable) (role : Nat) : State :=
  s.noteOpened ((s.guardSet (t.chan role) false).when (decide (role = 3)) (·.onGuard fun g => { g with preSince := none })) t

/-- A string step acts: a close carries CLEAR; a bank role's channel acts as in a bank section (R231, R232). -/
def State.actRun (s : State) (q : SeqRun) (r : StrRun) : State :=
  let st := q.nowOf r
  let k := r.string
  let s1 := s.putRun r [{ r with acted := true, since := s.clock, gen := (s.ring (keyPort k)).gen }]
  match st.op with
  | 0 => s.doneRun r
  | 1 =>
    if st.role < 5 then
      match s.closeBar st.role with
      | some c => (s.barred c).failRun r
      | none => s1.closeRole q.table st.role
    else if s.mayClose k then
      (s1.modStr k fun x => { x with sw := x.sw ||| 2 ^ (st.role - 5) % 8 }).sendSwitch k true
    else s.failRun r
  | 2 =>
    if st.role < 5 then s1.openRole q.table st.role
    else (s1.modStr k fun x => { x with sw := x.sw &&& (7 - 2 ^ (st.role - 5)) }).sendSwitch k false
  | 4 => if st.arg = 1 then s1.sendZero 0 0 else s1.sendRelease 0 0
  | _ => s1

/-- A string's section in one guard cycle (R231, R235, R452). -/
def State.cycleRun (s : State) (r : StrRun) : State :=
  match s.guard.seq with
  | none => s
  | some q =>
    let k := r.string
    if s.isLocked k ∨ (s.ring (keyPort k)).state ≠ .active ∨ (r.step = 0 ∧ r.acted = false ∧ s.lostNode k) then s.failRun r
    else if !r.acted then s.actRun q r
    else if s.condHolds (q.nowOf r) k r.gen then s.nextRunStep r
    else s

/-- All string runs in one guard cycle. -/
def State.cycleRuns (s : State) : State :=
  match s.guard.seq with
  | none => s
  | some q => forEach q.runs (fun r t => t.cycleRun r) s

/-! ### Bank steps (R231-R234) -/

/-- The TRIP_ID and CAUSE that the sequence's PCS frames carry (R225). -/
def State.pcsCause (s : State) (q : SeqRun) : Nat × Nat :=
  if q.section_ = 3 ∧ q.cause ≠ 0 then (s.guard.tripId, q.cause) else (0, 0)

/-- A failed connect sequence is recorded, opens PRECHARGE and runs DISCONNECT, which returns the module to STANDBY
(R232, R234, R445); a step that fails in DISCONNECT is recorded and the section goes on. -/
def State.failSeq (s : State) (q : SeqRun) (cause : Nat) : State :=
  let s1 := s.raise 0x060F [q.section_, q.step + 1, q.now.cond]
  if q.section_ = 1 then
    let s2 := (s1.cycleId.guardSet (q.table.chan 3) false).onGuard fun g => { g with preSince := none }
    s2.onGuard fun g => { g with seq := some (s2.newRun 3 cause false), released := false }
  else s1.nextStep

/-- Strings that may enter STRING_CONNECT (R234, R236, R449). -/
def State.joinable (s : State) : List Nat := s.est.configured.filter (fun k => s.mayClose k && !(s.str k).closed)

/-- A string lies within STR_DV of V_ref (R232). -/
def State.inBand (s : State) (vref k : Nat) : Bool :=
  match s.stringMv? k with
  | some v => decide (((v : Int) - vref).natAbs * 100000 ≤ (max 0 (s.par 0x6103)).toNat * vref)
  | none => false

/-- Strings begin to join: those in band run STRING_CONNECT, the others are left out (R232, R234, R452). -/
def State.beginJoin (s : State) (ks : List Nat) (vref : Nat) : State :=
  let inb := ks.filter (s.inBand vref)
  let out := ks.filter (fun k => !s.inBand vref k)
  let s1 := forEach out (fun k t => t.leaveOut vref k) s
  s1.onSeq fun q => { q with runs := q.runs ++ s1.mkRuns inb, left := q.left + out.length, vref := vref }

/-- The STRINGS step begins (R231, R232, R234). -/
def State.actStrings (s : State) : State :=
  let ks := s.joinable
  let vs := ks.filterMap s.stringMv?
  let s1 := forEach s.est.configured (fun k t => t.modStr k fun q => { q with notJoined := false }) s
  s1.beginJoin ks (if vs = [] then 0 else medianN vs)

/-- A bank CLOSE step acts; a run-time rule that fails stops the sequence (R231, R232, R448). -/
def State.actClose (s : State) (q : SeqRun) (role : Nat) : State :=
  match s.closeBar role with
  | some c => (s.barred c).failSeq q c
  | none => (s.onSeq fun q => { q with acted := true, since := s.clock }).closeRole q.table role

/-- A bank OPEN step acts. -/
def State.actOpen (s : State) (q : SeqRun) (role : Nat) : State :=
  (s.onSeq fun q => { q with acted := true, since := s.clock }).openRole q.table role

/-- A completed section (R231, R444, R445). -/
def State.endSeq (s : State) (q : SeqRun) : State :=
  let s1 := s.onGuard fun g => { g with seq := none }
  if q.section_ = 1 then
    let s2 := ((s1.onGuard fun g => { g with connected := s.roleOn q.table 1 && s.roleOn q.table 2 }).raise 0x0610
      [1, s.closedStrings.length]).count 1 0 7 1
    (s2.setMode .online 0x0610).followRings 0x0610
  else
    let s2 := s1.raise 0x0611 [2, min 65535 (s.msSince q.start)]
    if q.trips then s2.latchTripped q.cause
    else
      match s.sys.mode with
      | .connect | .online | .standby | .service => s2.setMode s2.restMode (if q.cause = 0 then 0x0104 else q.cause)
      | _ => s2

/-- A bank step acts (R231). -/
def State.actStep (s : State) (q : SeqRun) : State :=
  let st := q.now
  let s1 := s.onSeq fun q => { q with acted := true, since := s.clock }
  let id := s.pcsCause q
  match st.op with
  | 0 => s.endSeq q
  | 1 => s.actClose q st.role
  | 2 => s.actOpen q st.role
  | 4 =>
    if st.arg = 1 then (s1.sendZero id.1 id.2).onSeq fun q => { q with zeroAt := some s.clock }
    else (s1.sendRelease id.1 id.2).onGuard fun g => { g with released := g.released || decide (q.section_ = 1) }
  | 5 => s1.actStrings
  | 6 => forEach (s.est.configured.filter (fun k => decide ((s.str k).sw ≠ 0))) (fun k t => t.openString k) s1
  | _ => s1

/-- STRINGS has run: every ring has finished; the bank goes on while MIN_STRINGS holds (R234). -/
def State.stringsRun (s : State) (q : SeqRun) : State :=
  if s.goodClosed < s.minStrings then (s.raise 0x0617 [s.goodClosed, s.minStrings]).failSeq q 0x060F
  else s.onSeq fun q => { q with since := s.clock }

/-- PRECHARGE has been closed for PRE_MAX: it opens, and a connect sequence in progress fails (R232). -/
def State.preLimit (s : State) : State :=
  match s.guard.preSince with
  | none => s
  | some t =>
    if (max 0 (s.par 0x6102)).toNat ≤ s.msSince t then
      let s1 := s.raise 0x0616 [s.tries.length, min 65535 (s.msSince t)]
      match s.guard.seq with
      | some q => if q.section_ = 1 then s1.failSeq q 0x0616 else s1.openRole q.table 3
      | none => s1.openRole s.guard.table 3
    else s

/-- Strings rejoin or join one by one: the section is over when no run is left; a rejoined ring raises its event
(R452). -/
def State.endJoin (s : State) (q : SeqRun) : State :=
  let s1 := s.onGuard fun g => { g with seq := none }
  s1.when (decide (0 < q.cause)) (·.raise 0x0106 [(q.cause : Int) - 1, q.joined, q.left])

/-- The step is a pre-charge whose half-way mark is judged (R232). -/
def SeqStep.preHalf (st : SeqStep) : Bool := decide (st.op = 1 ∧ st.role = 3 ∧ st.cond = 1)

/-- V_link reaches half of the pre-charge condition within half of the step's TIMEOUT (R232). -/
def State.noteHalf (s : State) : State :=
  s.onSeq fun q =>
    { q with half := q.half || (q.acted && q.now.preHalf && decide (s.clock ≤ q.since + ms q.now.timeout / 2) &&
               decide ((q.now.val : Int) * s.guard.vbank ≤ s.guard.vlink * 2000)) }

/-- SEQUENCE_STEP: the sequence in progress in one guard cycle (R222, R231). -/
def State.seqCycle (s : State) : State :=
  match s.noteHalf.guard.seq with
  | none => s
  | some q =>
    let s := s.noteHalf
    if q.section_ = 2 then if q.runs = [] then s.endJoin q else s.cycleRuns
    else if !q.acted then s.actStep q
    else if q.now.op = 5 ∧ q.runs ≠ [] then
      let s1 := s.cycleRuns
      match s1.guard.seq with
      | some q1 => if q1.runs = [] then s1.stringsRun q1 else s1
      | none => s1
    else if q.now.op = 5 ∧ s.goodClosed < s.minStrings then s.stringsRun q
    else if s.condHolds q.now 0 0 then s.nextStep
    else s

/-- Strings are to join a connected bank: a section 2 run begins, or the one in progress takes them too (R236, R452). -/
def State.joinStrings (s : State) (ks : List Nat) (cause : Nat) : State :=
  match s.guard.seq with
  | none => (s.onGuard fun g => { g with seq := some (s.newRun 2 cause false) }).beginJoin ks s.guard.vbank
  | some q => if q.section_ = 2 then s.beginJoin ks q.vref else s

/-! ### Disconnection of strings (R223, R450) -/

/-- A disconnection runs (R346). -/
def State.disconnecting (s : State) : Bool :=
  match s.guard.seq with
  | some q => decide (q.section_ = 3)
  | none => false

/-- The wait of an ordinary string disconnection: the condition of the disconnect table's ZERO step, its TIMEOUT and never
more than 200 ms (R223, R231). -/
def State.waitOver (s : State) (at_ : Nat) : Bool :=
  let st := nth SeqStep.end_ s.guard.table.disconnect 0
  s.condHolds st 0 0 || decide (min st.timeout 200 ≤ s.msSince at_)

/-- Something else holds the PCS at ZERO or STOP: a STOP in force, a bank disconnection, a swap (R223, R225, R265). -/
def State.zeroWanted (s : State) : Bool :=
  decide (s.guard.pcsCmd = 2) || s.guard.swapZero || s.disconnecting

/-- The strings of a disconnection open, and RELEASE follows; DESIGN CHOICE (log entry 119): none is sent while a STOP, a bank
disconnection or a swap still wants the PCS held, since it would withdraw those too (R223, R225). -/
def State.openDisc (s : State) (ks : List Nat) (at_ : Nat) : State :=
  let s1 := forEach ks (fun k t => t.openString k) (s.onGuard fun g => { g with strDisc := none })
  (s1.when (!s.zeroWanted) (·.sendRelease s.guard.pcsId.1 s.guard.pcsId.2)).raise 0x0611 [4, min 65535 (s.msSince at_)]

/-- ORDINARY_STRING_DISCONNECTION in one guard cycle (R223). -/
def State.discCycle (s : State) : State :=
  match s.guard.strDisc with
  | some (ks, at_, _) => if s.waitOver at_ then s.openDisc ks at_ else s
  | none => s

/-! ### Rows of the sequences -/

/-- ON_FAIL 2: the step trips: an emergency bank action under the sequence's event (R231). -/
def State.askSeqTrip (s : State) (section_ step cond : Nat) : State := s.ask 1 none 0x060F [section_, step + 1, cond] false true

/-- A bank step's TIMEOUT has passed (R231). -/
def State.bankTimeout (s : State) (q : SeqRun) : State :=
  let st := q.now
  if st.cond = 0 ∨ s.condHolds st 0 0 then s.nextStep
  else if st.onFail = 1 then s.nextStep
  else if st.onFail = 2 then (s.askSeqTrip q.section_ q.step st.cond).nextStep
  else s.failSeq q 0x060F

/-- A string step's TIMEOUT has passed (R231). -/
def State.runTimeout (s : State) (q : SeqRun) (r : StrRun) : State :=
  let st := q.nowOf r
  if st.cond = 0 ∨ s.condHolds st r.string r.gen then s.nextRunStep r
  else if st.onFail = 1 then s.nextRunStep r
  else if st.onFail = 2 then (s.askSeqTrip 2 r.step st.cond).nextRunStep r
  else s.failRun r

/-- STEP_TIMEOUT: the TIMEOUT of the bank step (no port), or of the string step running on a ring, has passed (R231). -/
def execStepTimeout (port : Option Nat) (s : State) : Host.Outcome State Fault Refusal :=
  match s.guard.seq with
  | none => .next s
  | some q =>
    match port with
    | none =>
      onlyIf (q.acted && decide (q.section_ ≠ 2) && decide (q.runs = []) && s.elapsed q.since (ms q.now.timeout)) (·.bankTimeout q) s
    | some p =>
      match q.runs.find? (fun r => decide (keyPort r.string = p)) with
      | some r => onlyIf (r.acted && s.elapsed r.since (ms (q.nowOf r).timeout)) (·.runTimeout q r) s
      | none => .next s

/-- PRECHARGE_HALF_CHECK: half of the PRECHARGE step's TIMEOUT has passed and V_link has not reached half of its condition value:
a short on the link is assumed (R232). -/
def execPrechargeHalfCheck (s : State) : Host.Outcome State Fault Refusal :=
  match s.guard.seq with
  | none => .next s
  | some q =>
    let st := q.now
    onlyIf (q.acted && decide (q.section_ = 1) && st.preHalf && s.elapsed q.since (ms st.timeout / 2) && !q.half &&
        decide (s.guard.vlink * 2000 < (st.val : Int) * s.guard.vbank))
      (·.askSeqTrip 1 q.step st.cond) s

/-- CONTACTOR_OPEN_DEADLINE: 200 ms after ZERO the guard opens BANK_POS and BANK_NEG and cuts the wait short (R232). -/
def execContactorOpenDeadline (s : State) : Host.Outcome State Fault Refusal :=
  match s.guard.seq with
  | none => .next s
  | some q =>
    onlyIf (decide (q.section_ = 3) && s.elapsed? q.zeroAt (ms 200) && (s.roleOn q.table 1 || s.roleOn q.table 2)) (fun s =>
      let s1 := (s.guardSet (q.table.chan 1) false).guardSet (q.table.chan 2) false
      (s.noteOpened s1 q.table).when q.acted (·.nextStep)) s

end Sys2Proof.Machine
end

