-- ==== Sys2Proof/Machine/Conf.lean ====
section
/-! DEFINITION. What NV-class writes commit and the next sweep takes into force (R321), and a ring's configured strings. -/
namespace Sys2Proof.Machine
open Sys2Proof

/-! ### Committed words (R207, R216, R321) -/

/-- TIN_CFG, TIN_PAR, TIN_LIM at reset (R207). -/
def tinWords : List Nat := [0, 0x0D6B03E8, 0x2EE0F060]
/-- FPI_CFG, ACT, TGT, THR, SCALE at reset (R216). -/
def fpiWords : List Nat := [0xA0000000, 0, 0xFFFF0000, 0x7FFF8001, 0]

/-- The committed words of a thermal input. -/
def State.tinConf (s : State) (n : Nat) : List Nat := tget tinWords s.sys.conf.tins n
/-- The committed words of a fast input. -/
def State.fpiConf (s : State) (n : Nat) : List Nat := tget fpiWords s.sys.conf.fpi n
/-- The committed registers changed. -/
def State.onConf (s : State) (f : Conf → Conf) : State := s.onSys fun y => { y with conf := f y.conf }
/-- A committed word of a thermal input set. -/
def State.setTinConf (s : State) (n i v : Nat) : State :=
  s.onConf fun c => { c with tins := tmod tinWords c.tins n (fun l => putNth l i v) }
/-- A committed word of a fast input set. -/
def State.setFpiConf (s : State) (n i v : Nat) : State :=
  s.onConf fun c => { c with fpi := tmod fpiWords c.fpi n (fun l => putNth l i v) }

/-- A thermal input takes its committed words; an input that is off or changes its type reads invalid (R207). -/
def Tin.take (t : Tin) (w : List Nat) : Tin :=
  let cfg : Word := BitVec.ofNat 32 (nth 0 w 0)
  let same := decide (wfld cfg 1 0 = wfld t.cfg 1 0)
  { t with cfg := cfg, par := BitVec.ofNat 32 (nth 0 w 1), lim := BitVec.ofNat 32 (nth 0 w 2),
           val := if same then t.val else 0x8000, bad := if same then t.bad else 0, good := if same then t.good else 0,
           faulty := same && t.faulty, alarm := if same then t.alarm else 0 }

/-- A fast input takes its committed words (R216). -/
def Fpi.take (f : Fpi) (w : List Nat) : Fpi :=
  { f with cfg := BitVec.ofNat 32 (nth 0 w 0), act := BitVec.ofNat 32 (nth 0 w 1), tgt := BitVec.ofNat 32 (nth 0 w 2),
           thr := BitVec.ofNat 32 (nth 0 w 3), scale := BitVec.ofNat 32 (nth 0 w 4) }

/-- The nodes whose temperature map is set or committed. -/
def State.mapNodes (s : State) : List Nat :=
  sortN (tkeys s.sys.conf.maps ++ (s.est.bal.filter (fun e => e.2.map.isSome)).map Prod.fst)

/-- Everything committed comes into force (R321). -/
def State.applyConf (s : State) : State :=
  let c := s.sys.conf
  let s1 := (forEach (List.range 16) (fun n t => (t.modTin n (·.take (t.tinConf n))).modFpi n (·.take (t.fpiConf n))) s)
  let s2 := forEach s.mapNodes (fun k t => t.modBal k fun b => { b with map := tfind? c.maps k }) s1
  let s3 := (s2.onEst fun e => { e with live := e.params, groups := c.groups }).onDisp fun d =>
    if d.binding = c.binding then d
    else { d with binding := c.binding, term := 0, terms := [], extFault := false, holdUntil := none }
  let s4 := s3.onGuard fun g => { g with tripMode := BitVec.ofNat 16 c.tripMode, alarms := c.alarms }
  let s5 := forEach ((tkeys s.can.alarms).filter (fun k => (tfind? c.alarms k).isNone)) (fun k t => t.modAlarm k fun _ => Alarm.reset) s4
  let s6 := forEach ((tkeys c.alarms).filter (fun k => (tfind? s.guard.alarms k).isNone)) (fun k t => t.modAlarm k fun a =>
    { a with at_ := some t.clock }) s5
  s6.onRecs fun r => { r with wakeSev := c.sev.1, notifySev := c.sev.2 }

/-- Settings committed since the last sweep come into force at the first sweep after their response (R321). -/
def State.takeSettings (s : State) : State :=
  if s.sys.pages.any (fun e => e.2.waiting.any Resp.nv) then s else s.applyConf

/-- The configuration region still takes commits: an NV-class command is otherwise answered NV_FAULT (R424). -/
def State.nvOk (s : State) : Bool := !s.recs.nvFailed.contains 3

/-- An NV-class write: judged, checked, its value committed, then answered (R319, R321). -/
def nvWrite (rq : Rq) (op : Nat) (w : Who) (modes : List Mode) (checks : State → List (Bool × Refuse))
    (effect : State → State) (s : State) : Host.Outcome State Fault Refusal :=
  .next (mailbox rq op w modes (fun s =>
    checked rq op (checks s ++ [(s.nvOk, nvFault)]) (fun s => (effect s).okNv rq op) s) s)

/-- A read: judged, checked, answered with its record (R319). -/
def readCmd (rq : Rq) (op : Nat) (w : Who) (checks : State → List (Bool × Refuse)) (answer : State → List Byte)
    (s : State) : Host.Outcome State Fault Refusal :=
  .next (mailbox rq op w allModes (fun s => checked rq op (checks s) (fun s => s.ok rq op (answer s)) s) s)

/-- A command without a commit: judged, checked, its effect, an empty answer. -/
def plainCmd (rq : Rq) (op : Nat) (w : Who) (modes : List Mode) (checks : State → List (Bool × Refuse))
    (effect : State → State) (s : State) : Host.Outcome State Fault Refusal :=
  .next (mailbox rq op w modes (fun s => checked rq op (checks s) (fun s => (effect s).ok rq op []) s) s)

/-! ### Configured strings (R68, R103, R433) -/

/-- The cells of a string in string order: ring position first, cell input second, as its nodes enable them (R103). -/
def State.stringCells (s : State) (k : Nat) : List Nat :=
  (s.posOf k).flatMap (fun pos => ((s.at_ (keyPort k) pos).cellsOn).map (fun i => cellPoint (keyPort k) pos i))

/-- The strings that a ring's stored identity names. -/
def Ring.stringIds (r : Ring) : List Nat := sortN ((r.config.map NodeId.string).filter (fun x => decide (x ≠ 0xFFFF)))

/-- A ring's strings as its stored identity and its nodes give them. -/
def State.buildStrings (s : State) (port : Nat) : State :=
  let ks := (s.ring port).stringIds.map (strKey port)
  let s1 := s.onEst fun e => { e with configured := sortN (e.configured.filter (fun k => decide (keyPort k ≠ port)) ++ ks) }
  forEach ks (fun k t => t.modStr k fun q => { q with cells := t.stringCells k }) s1

/-- A setting of a string has been set. -/
def State.strSet (s : State) (code k : Nat) : Bool := decide (s.parStrC code k ≠ unsetOf code)
/-- I_RATED and the chemistry settings of a string are all set (R180, R330). -/
def State.chemistrySet (s : State) (k : Nat) : Bool := [0x3501, 0x3502, 0x3503, 0x3504, 0x3505].all (fun c => s.strSet c k)

/-- The learned record of a cell from its string's chemistry settings: CAP at NPCAP in 0.02 Ah, R0 in uOhm, DIFF in 1e-6,
SDR in 1e-11 per second; ID_CHANGED is the caller's (R173, R175). -/
def State.nameplate (s : State) (k : Nat) (l : Learned) : Learned :=
  { l with cap := codeN 65535 ((s.parStrC 0x3502 k : Rat) / 20), r0 := codeN 65535 (s.parStrC 0x3503 k : Rat),
           diff := codeN 65535 ((s.parStrC 0x3504 k : Rat) / 100000), sdr := codeN 65535 (s.parStrC 0x3505 k : Rat),
           neverLearned := true, cnt := 0 }

end Sys2Proof.Machine
end

