-- ==== Sys2Proof/Machine/Protection.lean ====
section
/-! DEFINITION. The guard cycle: inputs, limit levels, clearing, welds, and the sweep mark (R222, R226-R229, R233,
R236, R237, R50). -/
namespace Sys2Proof.Machine
open Sys2Proof

/-! ### Inputs of a cycle (R216, R209, R210) -/

/-- The input lies beyond an enabled threshold. -/
def Fpi.isBeyond (f : Fpi) (code : Int) : Bool :=
  (bit f.cfg 0 && decide (sx 16 (wfld f.thr 31 16) < code)) || (bit f.cfg 1 && decide (code < sx 16 (wfld f.thr 15 0)))

/-- The snapshot of a guard cycle: every FPI's conversion, V_link, I_bank and V_bank (R222, R231). -/
def State.takeInputs (s : State) (convs : List Int) : State :=
  let s1 := forEach (fpiNums.take convs.length) (fun n t =>
    let c := clampI (-32768) 32767 (nth 0 convs n)
    t.modFpi n fun f => { f with val := BitVec.ofNat 32 (ux 32 (s.fpiValue n c)), beyond := f.isBeyond c }) s
  s1.onGuard fun g =>
    { g with vlink := match s1.fpiRole? 3 with | some n => (s1.fpi n).val.toInt | none => 0,
             ibank := s1.bankMa, vbank := s1.bankMv }

/-! ### Limit levels (R226-R229) -/

/-- The newest sweep of a string is screened: its ring is ACTIVE, and each of its records has arrived or the collection is over
(R82, R229). -/
def State.sweepWhole (s : State) (k : Nat) : Bool :=
  let r := s.ring (keyPort k)
  decide (r.state = .active) && (!r.collecting || (s.posOf k).all (fun pos => (s.record? (keyPort k) pos).isSome))

/-- Good records of a string's newest sweep: position and record; none until it is screened (R229). -/
def State.goodRecs (s : State) (k : Nat) : List (Nat × List Byte) :=
  if s.sweepWhole k then
    ((s.posOf k).filterMap (fun pos => (s.record? (keyPort k) pos).map (fun r => (pos, r)))).filter (fun e => !(recFlags e.2).testBit 6)
  else []

/-- Raw cell voltage codes of a string. -/
def State.rawVolts (s : State) (k : Nat) : List Int :=
  (s.goodRecs k).flatMap (fun e => (List.range 32).filterMap (fun i =>
    if recCell e.2 i = 0xFFFF then none else some (Int.ofNat (recCell e.2 i))))

/-- An input counts as substituted for the guard: as last judged, and never while the Reckoner is silent (R229). -/
def State.guardSubst (s : State) (p : Nat) : Bool := !s.guard.silent && (s.tempIn p).subst

/-- Raw temperature codes of a string by point address, of inputs substituted or not (R229). -/
def State.rawTemps (s : State) (k : Nat) (subst : Bool) : List (Nat × Int) :=
  (s.goodRecs k).flatMap (fun e => (List.range 8).filterMap (fun i =>
    let p := cellPoint (keyPort k) e.1 i
    if recTemp e.2 i = -32768 ∨ s.guardSubst p ≠ subst then none else some (p, recTemp e.2 i)))

/-- The basis of the current levels: mA, the rated mA it is judged against, and whether it is an FPI conversion (R229). -/
def State.ocBasis (s : State) (k : Nat) : Option (Int × Nat × Bool) :=
  let own : Option (Int × Nat × Bool) :=
    if s.guard.silent ∨ (s.str k).i = -32768 then none else some ((s.str k).i * 50, s.iRated k, false)
  match s.groupOf? k with
  | none => own
  | some g =>
    let isFpi := decide (nth 0 g.2 0 = 1)
    if g.2.length = 4 then if isFpi then some ((s.fpi (nth 0 g.2 1)).val.toInt, s.iRated k, true) else own
    else (s.groupAmps? g.2).map (fun a => (rround (a * 1000), ((g.2.drop 3).map s.iRated).sum, isFpi))

/-- What a level sees: beyond it, back inside it by its hysteresis, and the extreme (R226, R227). -/
structure Level where
  /-- beyond the level. -/
  beyond : Bool
  /-- inside by the hysteresis. -/
  inside : Bool
  /-- the extreme, as the event shows it. -/
  extreme : Int
deriving DecidableEq, Repr

/-- A level's condition on a string now, none without a basis: 0…2 OV, 3…5 UV, 6, 7 OC, 8 OT1, 9 OT2 (R226, R229). -/
def State.levelNow (s : State) (k level : Nat) : Option Level :=
  let q := s.str k
  let l := q.limits
  let th := q.thermal
  if level < 6 then
    let vs := s.rawVolts k
    let lim : Int := (nth 0 l.volts level : Nat)
    if vs = [] then none
    else if level < 3 then
      let v := maxI 0 vs
      some ⟨decide (lim < v), decide (v ≤ lim - l.vHyst), v⟩
    else
      let v := minI 65535 vs
      some ⟨decide (v < lim), decide (lim + l.vHyst ≤ v), v⟩
  else if level < 8 then
    (s.ocBasis k).map (fun b =>
      let lim : Int := (nth 0 l.oc (level - 6) * b.2.1 : Nat)
      let a : Int := b.1.natAbs * 1000
      ⟨decide (lim < a), decide (a ≤ lim - (l.iHyst : Int) * b.2.1 / 100), tempCode (rdiv b.1 50)⟩)
  else
    let ts := (s.rawTemps k false).map Prod.snd
    let lim := if level = 8 then th.sd else th.sd + l.ot2
    if ts = [] then none
    else
      let t := maxI (-32767) ts
      some ⟨decide (lim < t), decide (t ≤ lim - th.hyst), t⟩

/-- A level is judged on FPI conversions, in guard cycles instead of sweeps (R227). -/
def State.byFpi (s : State) (k level : Nat) : Bool :=
  decide (level = 6 ∨ level = 7) && (match s.ocBasis k with | some b => b.2.2 | none => false)

/-- A level's timer in one guard cycle: it starts at the sample instant of the first sweep beyond, or at the cycle, and
resets inside by the hysteresis (R227). -/
def State.timeLevel (s : State) (k level : Nat) : State :=
  match s.levelNow k level with
  | none => s
  | some v =>
    if v.beyond then
      if (s.str k).timers.any (fun e => decide (e.1 = level)) then s
      else s.modStr k fun q => { q with timers := q.timers ++ [(level, if s.byFpi k level then s.clock else s.sampleAt)] }
    else if v.inside then
      s.modStr k fun q => { q with timers := q.timers.filter (fun e => decide (e.1 ≠ level)), crossed := q.crossed.erase level }
    else s

/-- The level is timing. -/
def Str.timing (q : Str) (level : Nat) : Bool := q.timers.any (fun e => decide (e.1 = level))

/-- The protection factors: 0 on charge while OV1 or OC1 on charge is timing, 0 on discharge while UV1 or OC1 on discharge
is timing, and 0 where derated (R223, R228). -/
def State.factors (s : State) (k : Nat) : State :=
  let q := s.str k
  let amps := (s.ocBasis k).map Prod.fst
  let neg := match amps with | some a => decide (a < 0) | none => false
  let oc := q.timing 6
  s.modStr k fun q =>
    { q with fpChg := if q.timing 0 || (oc && neg) || decide (q.derated % 2 = 1) then 0 else 1,
             fpDis := if q.timing 3 || (oc && !neg) || decide (2 ≤ q.derated) then 0 else 1 }

/-- Since when a substituted input of a string has been beyond OT1 (R229). -/
def State.substTimers (s : State) (k : Nat) : State :=
  let th := (s.str k).thermal
  let s1 := forEach (s.rawTemps k true) (fun e t => t.onGuard fun g =>
    { g with substSince := if th.sd < e.2 then (if (tfind? g.substSince e.1).isSome then g.substSince else tput g.substSince e.1 s.clock)
                           else if e.2 ≤ th.sd - th.hyst then tdel g.substSince e.1 else g.substSince }) s
  forEach (s.rawTemps k false) (fun e t => t.onGuard fun g => { g with substSince := tdel g.substSince e.1 }) s1

/-- A string whose latest record shows a main contact open, at a sweep after its closing, is not closed (R152). -/
def State.seeOpen (s : State) (k : Nat) : State :=
  let opened (role : Nat) : Bool := decide (s.aux? k role (s.str k).closedGen = some false)
  if (s.str k).closed && (opened 5 || opened 6) then s.modStr k fun q => { q with closed := false } else s

/-- The guard checks of a string in one cycle (R226-R229). -/
def State.checkString (s : State) (k : Nat) : State :=
  ((forEach (List.range 10) (fun l t => t.timeLevel k l) (s.substTimers k)).factors k).seeOpen k

/-- A substituted input of the string has been beyond OT1 for 30 s (R229). -/
def State.substOver (s : State) (k : Nat) : Bool :=
  s.guard.substSince.any (fun e => decide (pointPort e.1 = keyPort k) && (s.posOf k).contains (pointPos e.1) && s.elapsed e.2 (secs 30))

/-- A string's records of the newest sweep are screened (R227). -/
def State.sweepIn (s : State) (k : Nat) : Bool :=
  s.sweepWhole k && decide ((s.ring (keyPort k)).gen = s.beam.sweepGen) && decide (s.goodRecs k ≠ [])

/-- A level has been timing for its time at this sweep, or this cycle (R227, R229). -/
def State.levelDue (s : State) (k level : Nat) : Bool :=
  let q := s.str k
  let l := q.limits
  let at_ := ((q.timers.find? (fun e => decide (e.1 = level))).map Prod.snd).getD 0
  if level = 8 then s.sweepIn k && ((q.timing 8 && decide (at_ < s.sampleAt)) || s.substOver k)
  else
    let t := if level = 9 then l.tOt2 else nth 0 l.times level
    q.timing level && (if s.byFpi k level then s.elapsed at_ (ms t) else s.sweepIn k && decide (at_ + ms t ≤ s.sampleAt))

/-- The event code of a level (R239). -/
def levelCause (level : Nat) : Nat := if level < 3 then 0x0604 else if level < 6 then 0x0605 else if level < 8 then 0x0606 else 0x0607

/-- The number of a level in its event: 1, 2 or 3. -/
def levelNum (level : Nat) : Nat := if level < 6 then level % 3 + 1 else level % 2 + 1

/-- The action of a level: an ordinary string disconnection for OV1, UV1, OC1 and OT1, an emergency one else (R226). -/
def levelKind (level : Nat) : Nat := if level = 0 ∨ level = 3 ∨ level = 6 ∨ level = 8 then 4 else 3

/-- The extreme of a level for its record; a substituted input's own code where it alone is beyond (R239). -/
def State.levelExtreme (s : State) (k level : Nat) : Int :=
  if level = 8 ∧ (s.str k).timing 8 = false then maxI (-32767) ((s.rawTemps k true).map Prod.snd)
  else ((s.levelNow k level).map Level.extreme).getD 0

/-- A level crosses: its action is asked for (R226, R227). -/
def State.cross (s : State) (k level : Nat) : State :=
  (s.modStr k fun q => { q with crossed := insN level q.crossed }).ask (levelKind level) (some k) (levelCause level)
    [keyPort k, keyId k, levelNum level, s.levelExtreme k level] true true

/-- LIMIT_LEVEL_CROSSED: a level's condition has held for its time; an OT2 timer running when OT1 crosses crosses with it
(R226, R227, R229). -/
def execLimitLevelCrossed (port sid level : Nat) (s : State) : Host.Outcome State Fault Refusal :=
  let k := strKey port sid
  onlyIf (s.est.configured.contains k && !(s.str k).crossed.contains level && s.levelDue k level) (fun s =>
    let s1 := s.cross k level
    s1.when (decide (level = 8) && (s.str k).timing 9 && !(s.str k).crossed.contains 9) (·.cross k 9)) s

/-- NODE_LOSS: four consecutive records of a node are missing: ordinary for a cell node, emergency for a string-switch
node; a rejoining ring's string counts once it is closed (R229, R452). -/
def execNodeLoss (port pos : Nat) (s : State) : Host.Outcome State Fault Refusal :=
  let r := s.ring port
  match r.config.find? (fun n => decide (n.pos = pos)) with
  | none => .next s
  | some n =>
    let k := strKey port n.string
    let rejoining := (r.rejoinPending || (match s.guard.seq with
      | some q => decide (q.section_ = 2) && q.runs.any (fun x => decide (keyPort x.string = port))
      | none => false)) && !(s.str k).closed
    onlyIf (decide (r.state = .active ∧ 4 ≤ tget (0 : Nat) r.missRun pos) && s.est.configured.contains k && !rejoining) (·.ask
      (if n.type = 2 then 3 else 4) (some k) 0x0608 [port, pos, n.type] true true) s

/-! ### Welds (R233) -/

/-- V_link has fallen to WELD_RATIO of V_bank at the opening; without a ROLE 3 input it is not judged (R233). -/
def State.linkFell (s : State) (v0 : Nat) : Bool :=
  (s.fpiRole? 3).isNone || decide (s.guard.vlink * 100000 ≤ (max 0 (s.par 0x6105)) * v0)

/-- Both main contacts of an opened string read open (R233). -/
def State.auxOpen (s : State) (k : Nat) : Bool :=
  match s.switchPos? k with
  | none => true
  | some pos =>
    let r := (s.staged (keyPort k) pos).2
    decide (r ≠ []) && !(recSwitch r).testBit 4 && !(recSwitch r).testBit 5

/-- A string's own current, mA: its FPI where it is alone in a group with one, else the string record's (R229, R233). -/
def State.ownAmps (s : State) (k : Nat) : Option Int :=
  let rec_ : Option Int := if s.guard.silent ∨ (s.str k).i = -32768 then none else some ((s.str k).i * 50)
  match s.groupOf? k with
  | some g => if g.2.length = 4 then (s.ocBasis k).map Prod.fst else rec_
  | none => rec_

/-- An opened string's current has fallen within I_HYST (R233). -/
def State.currentFell (s : State) (k : Nat) : Bool :=
  match s.ownAmps k with
  | some a => decide (a.natAbs * 100000 ≤ (s.str k).limits.iHyst * s.iRated k)
  | none => true

/-- WELD_T in ticks. -/
def State.weldT (s : State) : Nat := ms (max 0 (s.par 0x6106)).toNat

/-- What an opened string's watch shows: its contacts read open within 200 ms, its current fallen within 500 ms (R233). -/
def State.weldSeen (s : State) (k : Nat) (w : Nat × Bool × Bool) : Nat × Bool × Bool :=
  (w.1, w.2.1 || (s.auxOpen k && decide (s.clock ≤ w.1 + ms 200)), w.2.2 || (s.currentFell k && decide (s.clock ≤ w.1 + ms 500)))

/-- A string's weld watch in one guard cycle: it ends when both have been met in time (R233). -/
def State.watchString (s : State) (k : Nat) : State :=
  match tfind? s.guard.strOpened k with
  | none => s
  | some w =>
    let v := s.weldSeen k w
    s.onGuard fun g => { g with strOpened := if v.2.1 && v.2.2 then tdel g.strOpened k else tput g.strOpened k v }

/-- Weld windows that have been met in time close (R233). -/
def State.weldsMet (s : State) : State :=
  let s1 := match s.guard.openedAt with
    | some (at_, v0) => s.when ((s.fpiRole? 3).isSome && s.linkFell v0 && decide (s.clock ≤ at_ + s.weldT)) (·.onGuard fun g =>
        { g with openedAt := none })
    | none => s
  forEach (tkeys s.guard.strOpened) (fun k t => t.watchString k) s1

/-- WELD_CHECK: the weld window of the bank (port 255) or of a string has passed: a weld where the voltage, a contact or
the current has not followed, an emergency bank action (R233). -/
def execWeldCheck (port sid : Nat) (s : State) : Host.Outcome State Fault Refusal :=
  let g := s.guard
  let volts : Int := g.vlink / 1000
  if port = 255 then
    match g.openedAt with
    | none => .next s
    | some (at_, v0) =>
      onlyIf (s.elapsed at_ s.weldT) (fun s =>
        let s1 := s.onGuard fun g => { g with openedAt := none }
        if s.linkFell v0 && decide (s.clock ≤ at_ + s.weldT) || (s.fpiRole? 3).isNone then s1 else s1.ask 1 none 0x060E [0xFF, 0, volts] true true) s
  else
    let k := strKey port sid
    match tfind? g.strOpened k with
    | none => .next s
    | some w =>
      let v := s.weldSeen k w
      let at_ := w.1
      let late := (s.elapsed at_ (ms 200) && !v.2.1) || (s.elapsed at_ (ms 500) && !v.2.2)
      if late then
        .next (((s.onGuard fun g => { g with strOpened := tdel g.strOpened k }).modStr k fun q => { q with welded := true }).ask
          1 none 0x060E [port, sid, volts] true true)
      else onlyIf (s.elapsed at_ (ms 500)) (·.onGuard fun g => { g with strOpened := tdel g.strOpened k }) s

/-! ### Clearing (R236, R237) -/

/-- An alarm source mapped to a kind of the bank is in alarm, device fault or silence (R237, R413). -/
def State.bankAlarm (s : State) : Bool :=
  s.guard.alarms.any (fun e => decide (1 ≤ nth 0 e.2 0 ∧ nth 0 e.2 0 ≤ 2) &&
    (decide (2 ≤ (s.alarm e.1).state) || (s.alarm e.1).silent))

/-- A bank-level cause of the trip is still present (R237). -/
def State.bankCause (s : State) : Bool :=
  let c := s.guard.tripCause
  decide (s.guard.present ≠ []) || s.bankAlarm || (decide (c = 0x0A05) && s.supFlag 0) || (decide (c = 0x0A08) && s.supFlag 2) ||
    (decide (c = 0x0A09) && s.supFlag 3) ||
    (decide (c = 0x0617) && decide ((s.est.configured.filter (fun k => !s.isLocked k)).length < s.minStrings))

/-- The failing conditions of R237, one bit per condition, in order. -/
def State.clearMask (s : State) : Nat :=
  let g := s.guard
  flag (!g.stopOk || fpiNums.any (fun n => (s.fpi n).beyond && !(s.fpi n).eventOnly)) 0 + flag s.bankCause 1 + flag g.weld.isSome 2 +
    flag (g.silent || g.beatAt.isNone || s.sched.shutdown) 3 + flag (decide (g.cycles < 100)) 4

/-- A TRIP is cleared: latches reset, STANDBY, then the mode follows the rings (R237, R444). -/
def State.clearTrip (s : State) : State :=
  let s1 := forEach fpiNums (fun n t => t.modFpi n fun f => { f with latched := 0, fired := false }) s
  let s2 := s1.onGuard fun g => { g with tripped := false, tripCause := 0, hwTrip := false, hwMask := 0, hwBank := false }
  (s2.raise 0x0612 [s.guard.tripId]).enterMode .standby 0x0603

/-- The event code of a cause that still holds a string (R236). -/
def State.stillCaused (s : State) (k : Nat) : Option Nat :=
  let q := s.str k
  let holds (c : Nat) : Bool :=
    if 65536 ≤ c then (s.fpi (c - 65536)).beyond
    else match c with
      | 0x0604 => q.crossed.any (fun l => decide (l < 3))
      | 0x0605 => q.crossed.any (fun l => decide (3 ≤ l ∧ l < 6))
      | 0x0606 => q.crossed.any (fun l => decide (l = 6 ∨ l = 7))
      | 0x0607 => q.crossed.any (fun l => decide (8 ≤ l)) || s.substOver k
      | 0x0608 => s.lostNode k
      | 0x0609 => bit q.sflags 4
      | 0x060C => s.guard.alarms.any (fun e => decide (3 ≤ nth 0 e.2 0) &&
          decide (nth 0 e.2 1 = 255 ∨ strKey (nth 0 e.2 1) (nth 0 e.2 2) = k) &&
          (decide (2 ≤ (s.alarm e.1).state) || (s.alarm e.1).silent))
      | _ => false
  (q.causes.filter holds).head?.map (fun c =>
    if 65536 ≤ c then (if (s.fpi (c - 65536)).latched = 2 then 0x0603 else 0x0602) else c)

/-- HW_TRIP is held by nothing more: no latched crossing, STOP or stop-lane trip (R236). -/
def State.hwHeld (s : State) : Bool := s.guard.hwBank || !s.guard.stopOk || fpiNums.any (fun n => decide ((s.fpi n).latched ≠ 0))

/-- A string is cleared: its comparator's crossing resets, HW_TRIP with it where nothing else holds it; in ONLINE the
string joins (R236). -/
def State.clearString (s : State) (k : Nat) : State :=
  let q := s.str k
  let s1 := forEach (q.causes.filter (fun c => decide (65536 ≤ c))) (fun c t => t.modFpi (c - 65536) fun f => { f with latched := 0 }) s
  let s2 := s1.onGuard fun g => { g with hwTrip := g.hwTrip && s1.hwHeld }
  let s3 := (s2.modStr k fun q => { q with locked := none, causes := [], derated := 0 }).raise 0x0618 [keyPort k, keyId k]
  s3.when (decide (s.sys.mode = .online) && s.guard.connected && s3.mayClose k) (·.joinStrings [k] 0)

/-- One clear command, judged in the guard's cycle (R236, R237, R339). -/
def State.judgeClear (s : State) (c : Rq × Nat × Nat) : State :=
  let (rq, op, v) := c
  if op = 0x0603 then
    if v ≠ s.guard.tripId then s.refuse rq op ⟨0x0602, 0, s.guard.tripId⟩
    else if s.clearMask ≠ 0 then (s.raise 0x0613 [s.clearMask]).refuse rq op ⟨0x0601, 0, s.clearMask⟩
    else (s.clearTrip.ok rq op []).followRings 0x0603
  else
    match s.stillCaused v with
    | some e => s.refuse rq op ⟨0x0603, 0, e⟩
    | none => if s.isLocked v then (s.clearString v).ok rq op [] else s.ok rq op []

/-- The clear commands that wait for a cycle (R236, R237). -/
def State.clears (s : State) : State :=
  forEach s.guard.clears (fun c t => t.judgeClear c) (s.onGuard fun g => { g with clears := [] })

/-! ### Ring states (R449, R450) -/

/-- A ring's state changes, with its event; its strings report no power while it is not ACTIVE, and an ACTIVE ring begins
with a ring resync (R449, R82, R452). -/
def State.changeRing (s : State) (port : Nat) (st : RingState) : State :=
  let old := (s.ring port).state
  if old = st then s
  else
    let s1 := s.modRing port fun r =>
      { r with state := st, goal := none, unflagged := 0, rejoinPending := decide (st = .active) && s.guard.connected,
               resync := r.resync || decide (st = .active), missRun := [], renew := false }
    let s2 := forEach (s.stringsOf port) (fun k t => t.modStr k fun q => { q with pdis := 0, pchg := 0 }) s1
    s2.raise 0x0102 [port, ringCode old, ringCode st]

/-- Every string-switch node of a ring reports its outputs open (R450). -/
def State.ringOpen (s : State) (port : Nat) : Bool :=
  ((s.ring port).config.filter (fun n => decide (n.type = 2))).all (fun n =>
    let r := (s.staged port n.pos).2
    decide (r = []) || decide (recSwitch r % 8 = 0)) && (s.stringsOf port).all (fun k => decide ((s.str k).sw = 0))

/-- Deferred responses of a kind that have come due are posted (R321, R332, R341). -/
def State.postHeld (s : State) (key : Nat) : State :=
  let hits := s.sys.held.filter (fun e => decide (e.1 = key))
  forEach hits (fun e t => t.respond e.2) (s.onSys fun y => { y with held := y.held.filter (fun e => decide (e.1 ≠ key)) })

/-- The key under which a ring's SET_RING_STATE response is held. -/
def ringHeldKey (port : Nat) : Nat := 0x1000 + port

/-- A ring that waits to leave ACTIVE does so once its outputs are reported open and no disconnection is under way
(R450). -/
def State.finishRing (s : State) (port : Nat) : State :=
  match (s.ring port).goal with
  | none => s
  | some st =>
    if s.ringOpen port && s.guard.strDisc.isNone then
      (((s.changeRing port st).modRing port fun r => { r with busy := 0 }).followRings 0x0801).postHeld (ringHeldKey port)
    else s

/-- RING_LEAVE_ACTIVE (R450, R445): the ring's closed strings open together, or the bank disconnects where fewer than
MIN_STRINGS would stay closed; the ring changes once its outputs are open. -/
def State.leaveRing (s : State) (port : Nat) (st : RingState) : State :=
  let ks := s.closedStrings.filter (fun k => decide (keyPort k = port))
  if ks = [] then ((s.changeRing port st).modRing port fun r => { r with busy := 0 }).followRings 0x0801
  else
    let s1 := s.modRing port fun r => { r with goal := some st, busy := 0x0801 }
    let left := s.closedStrings.length - ks.length
    if s.guard.connected && decide (left < s.minStrings) then
      let r : Req := ⟨2, none, 0x0617, [], false, false, 0, true⟩
      (s1.raise 0x0617 [left, s.minStrings]).onGuard fun g => { g with reqs := g.reqs ++ [r] }
    else s1.beginStringDisc ks 0 0 false

/-! ### The cycle (R222) -/

/-- The bookkeeping of a matching cycle: GUARD_OK, the count of compared cycles, the heartbeat's start at the first, and
an open STOP chain found then (R20, R222, R453, R454). -/
def State.cycleDone (s : State) (mismatch : Bool) : State :=
  let first := s.guard.lastCycle.isNone
  let s1 := s.onGuard fun g =>
    { g with guardOk := true, lastCycle := some s.clock, cycles := if mismatch then 0 else satN 100 (g.cycles + 1),
             beatAt := if first then some s.clock else g.beatAt, beatMs := if first then 10000 else g.beatMs }
  let s2 := s1.when (decide (s.power.stage = 1)) (·.onPower fun p => { p with stage := 2 })
  s2.when (first && !s.guard.stopOk && decide (s.guard.reqs = [])) (·.ask 1 none 0x0601 [] true true)

/-- One matching guard cycle: inputs, checks, clears, actions, sequence, rings that leave (R222, R223). -/
def State.guardCycle (s : State) (convs : List Int) (mismatch : Bool) : State :=
  let s1 := forEach s.est.configured (fun k t => t.checkString k) (s.takeInputs convs)
  let s2 := s1.weldsMet.act.clears
  let s3 := s2.preLimit.seqCycle.discCycle
  (forEach (s3.portsWhere (fun r => r.goal.isSome)) (fun p t => t.finishRing p) s3).cycleDone mismatch

/-- A guard cycle is due: 100 us have passed since the last, or none has run yet (R222). -/
def State.cycleDue (s : State) : Bool := s.guard.lastCycle.isNone || s.elapsed? s.guard.lastCycle (us 100)

/-- GUARD_CYCLE: every 100 us the guard runs its cycle twice and compares the signatures: a first mismatch reruns it, a
second is a guard fault (R222). -/
def execGuardCycle (convs : List Int) (firstMismatch rerunMismatch : Bool) (xor : Nat) (s : State) :
    Host.Outcome State Fault Refusal :=
  onlyIf (s.power.pwrgd && !s.guard.failed && !s.sys.shut && s.cycleDue) (fun s =>
    if firstMismatch && rerunMismatch then s.guardFault xor else s.guardCycle convs firstMismatch) s

/-! ### The sweep mark (R50, R121, R434) -/

/-- Whole units of the accumulated throughput go to the carry counters (R434). -/
def State.commitCounters (s : State) : State :=
  forEach s.recs.fractions (fun e t =>
    let n := e.2 / 2 ^ 32
    if n = 0 then t
    else
      let key := e.1 / 8
      (t.onRecs fun r => { r with fractions := tset (0 : Nat) r.fractions e.1 (e.2 % 2 ^ 32) }).count (key / 2 ^ 24) (key % 2 ^ 24) (e.1 % 8) n) s

/-- Nodes of a ring that a plan frame is owed to, in ascending position, at most BAL_FRAMES a sweep (R199). -/
def State.sendOwed (s : State) (port : Nat) : State :=
  let all := (s.stringsOf port).flatMap (fun k => if (s.str k).framesOk then
    ((s.posOf k).filter (fun pos => (s.balNode (nodeKey port pos)).owed)).map (fun pos => (k, pos)) else [])
  let owed := (sortN (all.map Prod.snd)).filterMap (fun pos => all.find? (fun e => decide (e.2 = pos)))
  forEach (owed.take (max 0 (s.par 0x3309)).toNat) (fun e t => t.sendBalance e.1 e.2) s

/-- A sweep is counted and sampled: its generation, the duties that its sample instant brings into force, and while the Reckoner
runs the settings, plan frames and RENEW of each ring (R77, R87, R88, R199, R321). -/
def State.takeSweep (s : State) : State :=
  let s1 := (s.onBeam fun b => { b with sweepGen := (b.sweepGen + 1) % 2 ^ 32, sweptAt := some s.clock }).latchFpi.applyDuties
  s1.when (decide (s.sys.run = .running)) fun t =>
    let t1 := forEach t.activePorts (fun p u => u.sendOwed p) t.takeSettings
    forEach t1.activePorts (fun p u => u.modRing p fun r => { r with renew := t1.ringConfirmed p }) t1

/-- SWEEP_SKIPPED: M0's firing shows that its sweep is skipped (R50). -/
def State.showSkip (s : State) : State :=
  (s.modMark 0 fun m => { m with skipped := true, newStat := noteBits s.clock m.newStat (2 ^ 18) }).beamEv 12 0x070D

/-- SWEEP_LAUNCH: SYNC is launched at both ends of every ACTIVE ring, or the sweep is skipped, which its firing shows (R50, R73);
after a firing that came first the sweep is taken, or shown skipped, at its late launch. -/
def execSweepLaunch (s : State) : Host.Outcome State Fault Refusal :=
  onlyIf s.launchDue (fun s =>
    let late := s.beam.launchOwed
    let s1 := s.onBeam fun b => { b with launchOwed := false, launched := if late then b.launched else some s.clock }
    if s.tooSoon then (if late then s1.showSkip else s1.onBeam fun b => { b with skip := true })
    else
      let s2 := (s1.onBeam fun b => { b with lastSweep := some (s.clock + leadTicks), skip := false }).launchSync
        ((s.beam.sweepGen + 1) % 2 ^ 32)
      s2.when late State.takeSweep) s

/-- SWEEP_MARK: M0 fires: its sweep is counted unless it was skipped at its launch or waits for it; heartbeat, rate control and
counters follow while the Reckoner runs (R20, R35, R50, R73, R121, R434). -/
def execSweepMark (s : State) : Host.Outcome State Fault Refusal :=
  onlyIf (s.markDue 0) (fun s =>
    let s1 := s.fireM0.onBeam fun b => { b with launched := none, skip := false }
    let s2 :=
      if s.beam.skip then s1.showSkip
      else if s.beam.launched.isSome then s1.takeSweep
      else s1.onBeam fun b => { b with launchOwed := true }
    s2.when (decide (s.sys.run = .running)) (fun t => t.heartbeat.rateControl.commitCounters)) s

/-! ### Rejoining rings (R452) -/

/-- RING_REJOIN_CONNECT: a ring that became ACTIVE on a connected bank has published three sweeps not flagged SETTLING:
its strings connect one at a time (R452). -/
def execRingRejoinConnect (port : Nat) (s : State) : Host.Outcome State Fault Refusal :=
  let r := s.ring port
  onlyIf (r.rejoinPending && decide (r.state = .active ∧ 3 ≤ r.unflagged) && s.guard.connected && s.guard.seq.isNone &&
      decide (s.sys.run = .running)) (fun s =>
    let ks := (s.stringsOf port).filter (fun k => !s.isLocked k && !(s.str k).closed)
    (s.modRing port fun r => { r with rejoinPending := false }).joinStrings ks (port + 1)) s

end Sys2Proof.Machine
end

