-- ==== Sys2Proof/Machine/Sha.lean ====
section
/-! DEFINITION. HMAC-SHA-256 (RFC 2104, FIPS 180-4), the MAC of a mailbox datagram (R287), and SHA-384, the digest of an image
(R460). -/
namespace Sys2Proof.Machine
open Sys2Proof

/-- The 64 round constants of FIPS 180-4. -/
def shaK : List Word :=
  [0x428a2f98, 0x71374491, 0xb5c0fbcf, 0xe9b5dba5, 0x3956c25b, 0x59f111f1, 0x923f82a4, 0xab1c5ed5] ++
  [0xd807aa98, 0x12835b01, 0x243185be, 0x550c7dc3, 0x72be5d74, 0x80deb1fe, 0x9bdc06a7, 0xc19bf174] ++
  [0xe49b69c1, 0xefbe4786, 0x0fc19dc6, 0x240ca1cc, 0x2de92c6f, 0x4a7484aa, 0x5cb0a9dc, 0x76f988da] ++
  [0x983e5152, 0xa831c66d, 0xb00327c8, 0xbf597fc7, 0xc6e00bf3, 0xd5a79147, 0x06ca6351, 0x14292967] ++
  [0x27b70a85, 0x2e1b2138, 0x4d2c6dfc, 0x53380d13, 0x650a7354, 0x766a0abb, 0x81c2c92e, 0x92722c85] ++
  [0xa2bfe8a1, 0xa81a664b, 0xc24b8b70, 0xc76c51a3, 0xd192e819, 0xd6990624, 0xf40e3585, 0x106aa070] ++
  [0x19a4c116, 0x1e376c08, 0x2748774c, 0x34b0bcb5, 0x391c0cb3, 0x4ed8aa4a, 0x5b9cca4f, 0x682e6ff3] ++
  [0x748f82ee, 0x78a5636f, 0x84c87814, 0x8cc70208, 0x90befffa, 0xa4506ceb, 0xbef9a3f7, 0xc67178f2]

/-- The initial hash value of FIPS 180-4. -/
def shaInit : List Word := [0x6a09e667, 0xbb67ae85, 0x3c6ef372, 0xa54ff53a, 0x510e527f, 0x9b05688c, 0x1f83d9ab, 0x5be0cd19]

/-- A word of a list. -/
def shaAt (l : List Word) (i : Nat) : Word := l.getD i 0

/-- One word of the message schedule from the 16 before it, newest first. -/
def shaNext (w : List Word) : Word :=
  let a := shaAt w 1
  let b := shaAt w 14
  ((a.rotateRight 17) ^^^ (a.rotateRight 19) ^^^ (a >>> 10)) + shaAt w 6 +
    ((b.rotateRight 7) ^^^ (b.rotateRight 18) ^^^ (b >>> 3)) + shaAt w 15

/-- The message schedule, newest first. -/
def shaExpand : Nat → List Word → List Word
  | 0, w => w
  | n + 1, w => shaExpand n (shaNext w :: w)

/-- One round on the eight working variables. -/
def shaRound (v : List Word) (kw : Word) : List Word :=
  let a := shaAt v 0
  let e := shaAt v 4
  let s1 := (e.rotateRight 6) ^^^ (e.rotateRight 11) ^^^ (e.rotateRight 25)
  let ch := (e &&& shaAt v 5) ^^^ ((~~~ e) &&& shaAt v 6)
  let t1 := shaAt v 7 + s1 + ch + kw
  let s0 := (a.rotateRight 2) ^^^ (a.rotateRight 13) ^^^ (a.rotateRight 22)
  let maj := (a &&& shaAt v 1) ^^^ (a &&& shaAt v 2) ^^^ (shaAt v 1 &&& shaAt v 2)
  [t1 + s0 + maj, a, shaAt v 1, shaAt v 2, shaAt v 3 + t1, e, shaAt v 5, shaAt v 6]

/-- The hash value after one block of 16 words. -/
def shaBlock (h : List Word) (m : List Word) : List Word :=
  let w := (shaExpand 48 m.reverse).reverse
  let v := (shaK.zip w).foldl (fun v kw => shaRound v (kw.1 + kw.2)) h
  (h.zip v).map (fun p => p.1 + p.2)

/-- The 16 words of a block of bytes, most significant byte first. -/
def shaWords (b : List Byte) : List Word :=
  (List.range 16).map (fun i => BitVec.ofNat 32 (unle ((b.drop (4 * i)).take 4).reverse))

/-- Padding of FIPS 180-4. -/
def shaPad (m : List Byte) : List Byte :=
  m ++ [0x80] ++ List.replicate ((119 - m.length % 64) % 64) 0 ++ (le 8 (8 * m.length)).reverse

/-- The blocks hashed in order. -/
def shaBlocks : Nat → List Word → List Byte → List Word
  | 0, h, _ => h
  | n + 1, h, b => shaBlocks n (shaBlock h (shaWords (b.take 64))) (b.drop 64)

/-- SHA-256 of a byte string. -/
def sha256 (m : List Byte) : List Byte :=
  let p := shaPad m
  (shaBlocks (p.length / 64) shaInit p).flatMap (fun w => (leW w).reverse)

/-- HMAC-SHA-256 with a 32-byte key. -/
def hmac (key m : List Byte) : List Byte :=
  let k := padTo 64 0 key
  sha256 (k.map (· ^^^ 0x5c) ++ sha256 (k.map (· ^^^ 0x36) ++ m))

/-! ### SHA-384, the digest of an image (R460, R465) -/

/-- The 80 round constants of FIPS 180-4 for 64-bit words. -/
def shaLK : List (BitVec 64) :=
  [0x428a2f98d728ae22, 0x7137449123ef65cd, 0xb5c0fbcfec4d3b2f, 0xe9b5dba58189dbbc, 0x3956c25bf348b538] ++
  [0x59f111f1b605d019, 0x923f82a4af194f9b, 0xab1c5ed5da6d8118, 0xd807aa98a3030242, 0x12835b0145706fbe] ++
  [0x243185be4ee4b28c, 0x550c7dc3d5ffb4e2, 0x72be5d74f27b896f, 0x80deb1fe3b1696b1, 0x9bdc06a725c71235] ++
  [0xc19bf174cf692694, 0xe49b69c19ef14ad2, 0xefbe4786384f25e3, 0x0fc19dc68b8cd5b5, 0x240ca1cc77ac9c65] ++
  [0x2de92c6f592b0275, 0x4a7484aa6ea6e483, 0x5cb0a9dcbd41fbd4, 0x76f988da831153b5, 0x983e5152ee66dfab] ++
  [0xa831c66d2db43210, 0xb00327c898fb213f, 0xbf597fc7beef0ee4, 0xc6e00bf33da88fc2, 0xd5a79147930aa725] ++
  [0x06ca6351e003826f, 0x142929670a0e6e70, 0x27b70a8546d22ffc, 0x2e1b21385c26c926, 0x4d2c6dfc5ac42aed] ++
  [0x53380d139d95b3df, 0x650a73548baf63de, 0x766a0abb3c77b2a8, 0x81c2c92e47edaee6, 0x92722c851482353b] ++
  [0xa2bfe8a14cf10364, 0xa81a664bbc423001, 0xc24b8b70d0f89791, 0xc76c51a30654be30, 0xd192e819d6ef5218] ++
  [0xd69906245565a910, 0xf40e35855771202a, 0x106aa07032bbd1b8, 0x19a4c116b8d2d0c8, 0x1e376c085141ab53] ++
  [0x2748774cdf8eeb99, 0x34b0bcb5e19b48a8, 0x391c0cb3c5c95a63, 0x4ed8aa4ae3418acb, 0x5b9cca4f7763e373] ++
  [0x682e6ff3d6b2b8a3, 0x748f82ee5defb2fc, 0x78a5636f43172f60, 0x84c87814a1f0ab72, 0x8cc702081a6439ec] ++
  [0x90befffa23631e28, 0xa4506cebde82bde9, 0xbef9a3f7b2c67915, 0xc67178f2e372532b, 0xca273eceea26619c] ++
  [0xd186b8c721c0c207, 0xeada7dd6cde0eb1e, 0xf57d4f7fee6ed178, 0x06f067aa72176fba, 0x0a637dc5a2c898a6] ++
  [0x113f9804bef90dae, 0x1b710b35131c471b, 0x28db77f523047d84, 0x32caab7b40c72493, 0x3c9ebe0a15c9bebc] ++
  [0x431d67c49c100d4c, 0x4cc5d4becb3e42b6, 0x597f299cfc657e2a, 0x5fcb6fab3ad6faec, 0x6c44198c4a475817]

/-- The initial hash value of SHA-384. -/
def shaLInit : List (BitVec 64) :=
  [0xcbbb9d5dc1059ed8, 0x629a292a367cd507, 0x9159015a3070dd17, 0x152fecd8f70e5939] ++
  [0x67332667ffc00b31, 0x8eb44a8768581511, 0xdb0c2e0d64f98fa7, 0x47b5481dbefa4fa4]

/-- A 64-bit word of a list. -/
def shaLAt (l : List (BitVec 64)) (i : Nat) : BitVec 64 := l.getD i 0

/-- The message schedule, newest first: n words more, each from the 16 before it. -/
def shaLExpand : Nat → List (BitVec 64) → List (BitVec 64)
  | 0, w => w
  | n + 1, w =>
    let near := shaLAt w 1
    let far := shaLAt w 14
    let s1 := (near.rotateRight 19) ^^^ (near.rotateRight 61) ^^^ (near >>> 6)
    let s0 := (far.rotateRight 1) ^^^ (far.rotateRight 8) ^^^ (far >>> 7)
    shaLExpand n ((s1 + shaLAt w 6 + s0 + shaLAt w 15) :: w)

/-- One round on the eight working variables. -/
def shaLRound (v : List (BitVec 64)) (kw : BitVec 64) : List (BitVec 64) :=
  let e := shaLAt v 4
  let f := shaLAt v 5
  let t := shaLAt v 7 + ((e.rotateRight 14) ^^^ (e.rotateRight 18) ^^^ (e.rotateRight 41)) +
    ((e &&& f) ^^^ ((~~~ e) &&& shaLAt v 6)) + kw
  let a := shaLAt v 0
  let b := shaLAt v 1
  let c := shaLAt v 2
  let u := ((a.rotateRight 28) ^^^ (a.rotateRight 34) ^^^ (a.rotateRight 39)) + ((a &&& b) ^^^ (a &&& c) ^^^ (b &&& c))
  [t + u, a, b, c, shaLAt v 3 + t, e, f, shaLAt v 6]

/-- The hash value after one block of 128 bytes. -/
def shaLBlock (h : List (BitVec 64)) (b : List Byte) : List (BitVec 64) :=
  let m := (List.range 16).map fun i => BitVec.ofNat 64 (unle ((b.drop (8 * i)).take 8).reverse)
  let w := (shaLExpand 64 m.reverse).reverse
  (h.zip ((shaLK.zip w).foldl (fun v k => shaLRound v (k.1 + k.2)) h)).map fun p => p.1 + p.2

/-- n blocks hashed in order. -/
def shaLBlocks : Nat → List (BitVec 64) → List Byte → List (BitVec 64)
  | 0, h, _ => h
  | n + 1, h, b => shaLBlocks n (shaLBlock h (b.take 128)) (b.drop 128)

/-- SHA-384 of a byte string: the first six of the eight words. -/
def sha384 (m : List Byte) : List Byte :=
  let p := m ++ [0x80] ++ List.replicate ((239 - m.length % 128) % 128) 0 ++ (le 16 (8 * m.length)).reverse
  ((shaLBlocks (p.length / 128) shaLInit p).take 6).flatMap fun w => (le 8 w.toNat).reverse

end Sys2Proof.Machine
end

