-- ==== Sys2Proof/Machine/Mailbox.lean ====
section
/-! DEFINITION. Mailbox transport and host links: fetching and checking requests, posting responses, Ethernet, PCI
Express, PTP (chapter 10). -/
namespace Sys2Proof.Machine
open Sys2Proof

/-! ### Request layouts (R317, R318, R323, R324, R332-R345) -/

/-- How the length of a request's payload is fixed: a number, a layout whose own fields fix it, or a range. -/
inductive LenRule where
  | exact (n : Nat)
  | regWrite
  | upTo (n : Nat)
  | entries
  | strings
  | steps
  | nodeData
  | canData
  | bulkWrite
deriving DecidableEq, Repr

/-- The opcodes of a request of the catalogue with their length rules: groups 0x01 to 0x03. -/
def lens1 : List (Nat × LenRule) :=
  [(0x0100, .exact 0), (0x0101, .exact 0), (0x0102, .exact 4), (0x0103, .exact 0), (0x0104, .exact 0), (0x0105, .exact 0),
   (0x0110, .exact 16), (0x0111, .exact 8), (0x0200, .exact 0), (0x0201, .exact 32), (0x0202, .exact 4),
   (0x0203, .exact 36)] ++
  [(0x0300, .exact 4), (0x0301, .exact 4), (0x0302, .exact 4), (0x0303, .exact 4), (0x0304, .exact 0), (0x0305, .exact 4),
   (0x0306, .exact 4), (0x0310, .exact 16), (0x0311, .exact 8), (0x0320, .exact 24), (0x0321, .exact 24),
   (0x0322, .exact 24), (0x0323, .exact 24), (0x0324, .exact 24)] ++
  [(0x0330, .exact 20), (0x0331, .exact 4), (0x0332, .exact 20), (0x0333, .exact 8), (0x0334, .exact 8), (0x0335, .regWrite),
   (0x0340, .strings), (0x0341, .exact 4), (0x0350, .exact 8), (0x0351, .exact 4)]

/-- Groups 0x04 to 0x07. -/
def lens2 : List (Nat × LenRule) :=
  [(0x0400, .exact 0), (0x0401, .bulkWrite), (0x0402, .exact 4), (0x0403, .exact 4), (0x0404, .exact 24), (0x0500, .entries),
   (0x0501, .exact 8), (0x0502, .exact 4), (0x0503, .exact 0), (0x0504, .exact 4), (0x0505, .exact 16), (0x0506, .exact 24),
   (0x0507, .exact 0), (0x0510, .exact 16), (0x0511, .exact 8)] ++
  [(0x0600, .exact 8), (0x0601, .regWrite), (0x0602, .exact 4), (0x0603, .exact 4), (0x0604, .exact 4), (0x0605, .exact 4),
   (0x0606, .exact 8), (0x0610, .exact 16), (0x0611, .exact 8), (0x0620, .exact 52), (0x0621, .exact 8), (0x0622, .steps),
   (0x0623, .exact 4), (0x0700, .exact 8), (0x0701, .regWrite), (0x0702, .exact 4), (0x0703, .exact 0)]

/-- Groups 0x08 to 0x0E. -/
def lens3 : List (Nat × LenRule) :=
  [(0x0800, .exact 4), (0x0801, .exact 4), (0x0802, .exact 4), (0x0803, .exact 4), (0x0804, .exact 8), (0x0805, .nodeData),
   (0x0806, .exact 4), (0x0807, .exact 24), (0x0900, .exact 8), (0x0901, .regWrite), (0x0902, .exact 8), (0x0903, .exact 24),
   (0x0A00, .exact 8), (0x0A01, .regWrite), (0x0A02, .exact 8), (0x0A03, .exact 0), (0x0A04, .exact 4)] ++
  [(0x0B00, .exact 8), (0x0B01, .regWrite), (0x0B02, .canData), (0x0B03, .exact 0), (0x0C00, .exact 0), (0x0C01, .exact 24),
   (0x0C02, .exact 8), (0x0C03, .exact 4), (0x0C04, .exact 4), (0x0D00, .exact 0), (0x0D01, .exact 12), (0x0D02, .bulkWrite),
   (0x0D03, .exact 0), (0x0D04, .exact 8), (0x0D05, .exact 0), (0x0D06, .exact 0), (0x0D07, .exact 8), (0x0D08, .exact 4)] ++
  [(0x0E00, .exact 4), (0x0E01, .exact 0), (0x0E02, .exact 4), (0x0E03, .exact 0), (0x0E04, .upTo 240)]

/-- The length rule of an opcode; none where the catalogue does not list it as a request (R317). -/
def lenRule? (op : Nat) : Option LenRule := ((lens1 ++ lens2 ++ lens3).find? (fun e => decide (e.1 = op))).map Prod.snd

/-- A payload has the length its layout fixes (R318); a bulk write over Ethernet carries its data behind the selector
(R301, log entry 20). -/
def LenRule.fits (r : LenRule) (eth : Bool) (p : List Byte) : Bool :=
  let n := p.length
  match r with
  | .exact k => decide (n = k)
  | .regWrite => decide (8 ≤ n ∧ n = 8 + 4 * rdle p 4 2)
  | .upTo k => decide (n ≤ k)
  | .entries => decide (n % 16 = 0 ∧ 16 ≤ n ∧ n ≤ 240)
  | .strings => decide (8 ≤ n ∧ n = 8 + 4 * rdle p 4 1)
  | .steps => decide (4 ≤ n ∧ n = 4 + (if rdle p 0 1 = 0 then 4 else 16 * rdle p 2 1))
  | .nodeData => decide (8 ≤ n ∧ n = 8 + rdle p 6 2)
  | .canData => decide (8 ≤ n ∧ n = 8 + rdle p 2 1)
  | .bulkWrite => decide (24 ≤ n ∧ (eth = false → n = 24))

/-- Reserved bytes of a payload, as offset and size, by opcode (R322-R345). -/
def reservedBytes (op : Nat) (p : List Byte) : List (Nat × Nat) :=
  match op with
  | 0x0102 => [(1, 3)]
  | 0x0110 | 0x0310 | 0x0510 | 0x0610 | 0x0111 | 0x0311 | 0x0511 | 0x0611 => [(3, 1), (6, 2)]
  | 0x0201 => [(2, 2), (0x0C, 4)]
  | 0x0202 | 0x0341 | 0x0402 | 0x0403 | 0x0502 | 0x0504 | 0x0800 | 0x0802 | 0x0803 | 0x0806 | 0x0D08 | 0x0E02 => [(1, 3)]
  | 0x0203 => [(2, 2)]
  | 0x0302 | 0x0303 | 0x0351 | 0x0602 | 0x0604 | 0x0C04 => [(1, 1)]
  | 0x0330 | 0x0331 | 0x0804 | 0x0805 => [(1, 1)]
  | 0x0332 => [(1, 1), (18, 2)]
  | 0x0333 | 0x0621 => [(1, 1), (5, 3)]
  | 0x0334 | 0x0335 | 0x0600 | 0x0601 | 0x0700 | 0x0701 | 0x0900 | 0x0901 | 0x0A00 | 0x0A01 | 0x0B00 | 0x0B01 => [(6, 2)]
  | 0x0340 => (5, 3) :: (List.range (rdle p 4 1)).map (fun i => (9 + 4 * i, 1))
  | 0x0350 => [(5, 3)]
  | 0x0320 | 0x0321 | 0x0322 | 0x0323 | 0x0324 | 0x0401 | 0x0404 | 0x0807 | 0x0903 | 0x0C01 | 0x0D02 => [(0x11, 1)]
  | 0x0500 => (List.range (p.length / 16)).map (fun i => (16 * i + 14, 2))
  | 0x0501 | 0x0902 => [(1, 3)]
  | 0x0505 => [(1, 7)]
  | 0x0506 => [(0x14, 4)]
  | 0x0603 | 0x0605 | 0x0801 | 0x0C03 | 0x0E00 => [(2, 2)]
  | 0x0606 => [(3, 1), (5, 1)]
  | 0x0620 => [(1, 1), (26, 2), (46, 6)]
  | 0x0622 => (3, 1) :: (if rdle p 0 1 = 0 then [] else
      (List.range (rdle p 2 1)).flatMap (fun i => [(4 + 16 * i + 5, 1), (4 + 16 * i + 13, 3)]))
  | 0x0B02 => [(3, 1)]
  | 0x0C02 => [(5, 3)]
  | 0x0D01 => [(1, 3)]
  | _ => []

/-- Reserved bits within bytes of a payload: offset and mask (R15, R240, R246, R323, R337, R343). -/
def reservedBits (op : Nat) (p : List Byte) : List (Nat × Nat) :=
  match op with
  | 0x0300 | 0x0301 | 0x0305 | 0x0306 => [(3, 0x70)]
  | 0x0335 | 0x0601 | 0x0701 | 0x0901 | 0x0A01 | 0x0B01 =>
    (List.range (p.length - 8)).map (fun j => (8 + j, reservedOf op (rdle p 0 4 + 4 * (j / 4)) (j % 4)))
  | 0x0201 => [(1, 0xFE)]
  | 0x0402 | 0x0403 => [(0, 0xF0)]
  | 0x0500 => (List.range (p.length / 16)).flatMap (fun i => [(16 * i + 12, 0xFE), (16 * i + 13, 0xFF)])
  | 0x0B02 => [(1, 0xF8)]
  | _ => []

/-- The first reserved byte of a payload that is not zero (R10, R272). -/
def firstReserved? (op : Nat) (p : List Byte) : Option Nat :=
  let bad (i : Nat) : Bool := (reservedBytes op p).any (fun r => decide (r.1 ≤ i ∧ i < r.1 + r.2 ∧ rdle p i 1 ≠ 0)) ||
    (reservedBits op p).any (fun r => decide (r.1 = i ∧ rdle p i 1 &&& r.2 ≠ 0))
  (List.range p.length).find? bad

/-! ### The header (R268, R269) -/

/-- A request header's fields. -/
structure Hdr where
  /-- OPCODE. -/
  op : Nat
  /-- TAG. -/
  tag : Nat
  /-- EPOCH. -/
  epoch : Nat
  /-- LEN. -/
  len : Nat
  /-- FLAGS. -/
  flags : Nat
  /-- TENANT. -/
  tenant : Nat
  /-- byte 9, reserved. -/
  rsv : Nat
  /-- STATUS. -/
  status : Nat
  /-- SEQ. -/
  seq : Nat
deriving DecidableEq, Repr

/-- The header that the first 16 bytes of a request spell (R268). -/
def Hdr.of (b : List Byte) : Hdr :=
  ⟨rdle b 0 2, rdle b 2 1, rdle b 3 1, rdle b 4 2, rdle b 6 2, rdle b 8 1, rdle b 9 1, rdle b 0xA 2, rdle b 0xC 4⟩

/-- The request of a header. -/
def Hdr.rq (h : Hdr) (eth : Bool) : Rq := ⟨h.tenant, h.tag, h.epoch, h.flags % 256, eth, if eth then fld h.flags 4 4 else 0⟩

/-- The transport checks of R272 on a request: MALFORMED in its header, then its length and its reserved bytes, then
UNKNOWN_OPCODE, then WRONG_TENANT (page tenant t). -/
def Hdr.check (h : Hdr) (eth : Bool) (t : Nat) (p : List Byte) : Option Refuse :=
  if 240 < h.len then some (malformed 4)
  else if fld h.flags 7 5 ≠ 0 then some (malformed 6)
  else if fld h.flags 15 8 ≠ 0 then some (malformed 7)
  else if h.rsv ≠ 0 then some (malformed 9)
  else if h.status ≠ 0 then some (malformed 0xA)
  else
    match lenRule? h.op with
    | none => some ⟨0x0002, 0, 0⟩
    | some r =>
      if !r.fits eth p then some (malformed 4)
      else
        match firstReserved? h.op p with
        | some o => some (malformed o)
        | none => if h.tenant ≠ t then some ⟨0x0003, 0, t⟩ else none

/-! ### Page registers (R277-R281) -/

/-- (head - tail) mod 65,536 of free-running indices. -/
def ringFill (a b : Nat) : Nat := (a + 65536 - b) % 65536
/-- The response ring is full: RS_FULL (R280). -/
def Page.rsFull (p : Page) : Bool := decide (64 ≤ ringFill p.rsHead p.rsTail)

/-- CNT_B as it stands. -/
def Page.cntB (p : Page) : Nat := p.cntStray * 65536 + p.cntFault
/-- CNT_B is about to count (R9). -/
def Page.markB (p : Page) (clock : Nat) : Page := { p with cntBOld := noteOld clock p.cntBOld p.cntB }

/-- A ring fault: RQ_FAULT, its count and its event (R281). -/
def State.ringFault (s : State) (t : Nat) : State :=
  let p := s.page t
  if p.rqFault then s
  else
    (s.modPage t fun p => { p.markB s.clock with rqFault := true, cntFault := sat16 (p.cntFault + 1) }).raise 0x0145 [t, p.rqHead, p.rqTail]

/-- The host may write the registers of the endpoint: the link is up and the function is not in D3hot (R303). -/
def State.hostWrites (s : State) : Bool := s.sys.pcieUp && !s.sys.d3

/-- RQ_TAIL is written; more than 64 slots ahead is a ring fault (R278, R281). -/
def State.setRqTail (s : State) (t v : Nat) : State :=
  let s1 := s.modPage t fun p => { p with rqTail := v % 65536 }
  let p := s1.page t
  s1.when (p.rqEn && decide (64 < ringFill p.rqTail p.rqHead)) (·.ringFault t)

/-- RS_TAIL is written; a ring more than full is a ring fault (R278, R281). -/
def State.setRsTail (s : State) (t v : Nat) : State :=
  let s1 := s.modPage t fun p => { p with rsTail := v % 65536 }
  let p := s1.page t
  s1.when (p.rsEn && decide (64 < ringFill p.rsHead p.rsTail)) (·.ringFault t)

/-- The current epoch changes: outstanding tags and stored responses belong to the old one (R273, R291). -/
def State.setEpoch (s : State) (t v : Nat) : State :=
  s.modPage t fun p => if p.epoch = v % 256 then p else { p with epoch := v % 256, outstanding := [], stored := [] }

/-- RQ_EN is set (R278). -/
def Page.enableRq (p : Page) : Page := if p.rqEn then p else { p with rqEn := true, rqHead := 0, rqTail := 0, rqFault := false }
/-- RS_EN is set (R278). -/
def Page.enableRs (p : Page) : Page := if p.rsEn then p else { p with rsEn := true, rsHead := 0, rsTail := 0, seq := 0 }

/-- TEN_CTL is written (R278). -/
def Page.setCtl (p : Page) (v : Nat) : Page :=
  let p1 := if v.testBit 0 then p.enableRq else { p with rqEn := false }
  if v.testBit 1 then p1.enableRs else { p1 with rsEn := false }

/-- IRQ_MOD is written: COUNT outside 1…64 leaves the field unchanged (R278). -/
def irqModWrite (old : BitVec 32) (v : Nat) : BitVec 32 :=
  let c := if 1 ≤ fld v 22 16 ∧ fld v 22 16 ≤ 64 then fld v 22 16 else wfld old 22 16
  BitVec.ofNat 32 (flag (v.testBit 31) 31 + c * 65536 + fld v 15 0)

/-- The vector's message is sent (R282). -/
def Page.message (p : Page) : Page := { p with irqs := p.irqs + 1, irqPend := 0, irqSince := none }

/-- The message goes out as soon as COUNT responses are pending and it is enabled (R282). -/
def Page.signal (p : Page) : Page :=
  if bit p.irqMod 31 && decide (0 < p.irqPend ∧ wfld p.irqMod 22 16 ≤ p.irqPend) then p.message else p

/-- RQ_TAIL: the doorbell (R280). -/
def execRqTail (tenant value : Nat) (s : State) : Host.Outcome State Fault Refusal :=
  onlyIf s.hostWrites (·.setRqTail tenant value) s

/-- RS_TAIL: the host frees response slots (R280). -/
def execRsTail (tenant value : Nat) (s : State) : Host.Outcome State Fault Refusal :=
  onlyIf s.hostWrites (·.setRsTail tenant value) s

/-- EPOCH: the host writes the current epoch (R273). -/
def execEpoch (tenant value : Nat) (s : State) : Host.Outcome State Fault Refusal :=
  onlyIf s.hostWrites (·.setEpoch tenant value) s

/-- RQ_EN: the request ring is enabled (R278). -/
def execRqEn (tenant : Nat) (s : State) : Host.Outcome State Fault Refusal :=
  onlyIf s.hostWrites (·.modPage tenant Page.enableRq) s

/-- RS_EN: the response ring is enabled (R278). -/
def execRsEn (tenant : Nat) (s : State) : Host.Outcome State Fault Refusal :=
  onlyIf s.hostWrites (·.modPage tenant Page.enableRs) s

/-- A register of the endpoint is written: RO and RC registers and reserved offsets take no effect; the doorbell of a
stop lane acts only with its value (R8, R277-R279, R284). -/
def State.registerWrite (s : State) (t off v : Nat) : State :=
  match off with
  | 0x004 => s.modPage t (·.setCtl v)
  | 0x008 => s.modPage t fun p => if p.rqEn then p else { p with rqBase := BitVec.ofNat 64 (setFld p.rqBase.toNat 31 0 v) }
  | 0x00C => s.modPage t fun p => if p.rqEn then p else { p with rqBase := BitVec.ofNat 64 (setFld p.rqBase.toNat 63 32 v) }
  | 0x010 => s.modPage t fun p => if p.rsEn then p else { p with rsBase := BitVec.ofNat 64 (setFld p.rsBase.toNat 31 0 v) }
  | 0x014 => s.modPage t fun p => if p.rsEn then p else { p with rsBase := BitVec.ofNat 64 (setFld p.rsBase.toNat 63 32 v) }
  | 0x018 => s.setRqTail t v
  | 0x024 => s.setRsTail t v
  | 0x028 => s.setEpoch t v
  | 0x02C => s.modPage t fun p => { p with irqMod := irqModWrite p.irqMod v }.signal
  | 0x030 =>
    if v = 0x53544F50 then s.when s.power.pwrgd (·.stopLane t)
    else s.modPage t fun p => { p.markB s.clock with cntStray := sat16 (p.cntStray + 1) }
  | 0x804 => s.when (decide (t = 0)) (·.onSys fun y =>
      let w := w1c s.clock y.wakeNew y.wakeCause (BitVec.ofNat 7 v)
      { y with wakeCause := w, wakeOpen := y.wakeOpen && decide (w ≠ 0) })
  | 0x808 => s.when (decide (t = 0)) (·.onSys fun y => { y with wakeEn := BitVec.ofNat 7 v })
  | _ => s

/-- A tenant has an enabled allocation; tenant 0 always counts as enabled (R278, R240). -/
def State.tenEnabled (s : State) (t : Nat) : Bool := decide (t = 0) || ((s.tenant t).exists_ && (s.tenant t).enabled)

/-- A register of the mailbox window as it reads (R277-R279). -/
def State.registerRead (s : State) (t off : Nat) : Nat :=
  let p := s.page t
  match off with
  | 0x000 => flag (s.tenEnabled t) 8 + t
  | 0x004 => flag p.rsEn 1 + flag p.rqEn 0
  | 0x008 => wfld p.rqBase 31 0
  | 0x00C => wfld p.rqBase 63 32
  | 0x010 => wfld p.rsBase 31 0
  | 0x014 => wfld p.rsBase 63 32
  | 0x018 => p.rqTail
  | 0x01C => p.rqHead
  | 0x020 => p.rsHead
  | 0x024 => p.rsTail
  | 0x028 => p.epoch
  | 0x02C => p.irqMod.toNat
  | 0x034 => flag (s.stopped t) 3 + flag p.rsFull 2 + flag (decide (s.sys.run = .restarting)) 1 + flag p.rqFault 0
  | 0x038 => rcShown s.clock p.cntAOld p.cntA
  | 0x03C => rcShown s.clock p.cntBOld p.cntB
  | 0x800 => if t = 0 then flag s.sys.holdup 9 + flag s.sys.ptpLock 8 + runCode s.sys.run * 64 + modeCode s.sys.mode else 0
  | 0x804 => if t = 0 then s.sys.wakeCause.toNat else 0
  | 0x808 => if t = 0 then s.sys.wakeEn.toNat else 0
  | 0x80C => if t = 0 then rcShown s.clock s.sys.pmeOld s.sys.pmeCount else 0
  | 0x810 => if t = 0 then s.sys.mbLoad else 0
  | 0x814 => if t = 0 then flag (decide (s.sys.run = .recovery)) 4 + flag s.sys.recovPin 3 + s.sys.bootFails else 0
  | _ => 0

/-- What a read of a register of the mailbox window does: the RC fields clear, but for what was counted in that clock (R8, R9). -/
def State.registerAfter (s : State) (t off : Nat) : State :=
  match off with
  | 0x038 => s.modPage t fun p =>
      let w := rcLeft s.clock p.cntAOld p.cntA
      { p with cntStale := w / 65536, cntLate := w % 65536, cntAOld := rcNote s.clock p.cntAOld }
  | 0x03C => s.modPage t fun p =>
      let w := rcLeft s.clock p.cntBOld p.cntB
      { p with cntStray := w / 65536, cntFault := w % 65536, cntBOld := rcNote s.clock p.cntBOld }
  | 0x80C => s.when (decide (t = 0)) (·.onSys fun y =>
      { y with pmeCount := rcLeft s.clock y.pmeOld y.pmeCount, pmeOld := rcNote s.clock y.pmeOld })
  | _ => s

/-- REGISTER_WRITE: the host accesses a register of the mailbox window: it writes a value, or reads the register, for which the
table has no row of its own (R8, log entry 93). -/
def execRegisterWrite (tenant offset : Nat) (value : Option Nat) (s : State) : Host.Outcome State Fault Refusal :=
  onlyIf s.hostWrites (fun s =>
    match value with
    | some v => s.registerWrite tenant offset v
    | none => s.registerAfter tenant offset) s

/-! ### Fetching and starting requests (R273, R280, R307, R308, R312, R313) -/

/-- A request is discarded under R273 and counted. -/
def State.staleRequest (s : State) (t : Nat) : State :=
  (s.modPage t fun p => { p with cntStale := sat16 (p.cntStale + 1), cntAOld := noteOld s.clock p.cntAOld p.cntA }).onSys fun y => { y with staleReq := (y.staleReq + 1) % 2 ^ 32 }

/-- A request that has passed the epoch and tag rules: answered RESTARTING while the Reckoner restarts, refused by the
transport checks, or started: its tag is outstanding until its response is posted (R272, R273, R312). -/
def State.takeIn (s : State) (t : Nat) (h : Hdr) (eth : Bool) (p : List Byte) : State :=
  let rq := { h.rq eth with tenant := t }
  if s.sys.run = .restarting then s.refuse rq h.op (restarting 0)
  else
    match h.check eth t p with
    | some r => s.refuse rq h.op r
    | none => s.modPage t fun q => { q with outstanding := q.outstanding ++ [(h.tag, eth, s.guard.stopRings)] }

/-- The tag of a request is still outstanding in the present epoch (R273). -/
def Page.busyTag (p : Page) (tag : Nat) : Bool :=
  p.outstanding.any (fun o => decide (o.1 = tag)) || p.arrived.any (fun b => decide ((Hdr.of b).epoch = p.epoch ∧ (Hdr.of b).tag = tag))

/-- Requests of a tenant that one service round starts at most (R307). -/
def roundShare (t : Nat) : Nat := if t = 0 then 2 else 1

/-- A tenant's share of the present round is used up (R307). -/
def State.shareUsed (s : State) (t : Nat) : Bool := decide (roundShare t ≤ tget (0 : Nat) s.sys.round t)

/-- A tenant's next slot may be fetched, but for its turn (R280, R281, R303, R313). -/
def State.fetchable (s : State) (t : Nat) : Bool :=
  let p := s.page t
  s.hostWrites && !s.sys.holdup && p.rqEn && !p.rqFault && decide (p.rqTail ≠ p.rqHead) && !p.rsFull &&
    s.serving

/-- Another tenant has a request that the present round still starts (R307). -/
def State.othersWait (s : State) (t : Nat) : Bool :=
  (tkeys s.sys.pages).any (fun u => decide (u ≠ t) && !s.shareUsed u && (s.fetchable u || !(s.page u).arrived.isEmpty))

/-- It is a tenant's turn: its share of the round is left, or the round is over for the others too (R307). -/
def State.inTurn (s : State) (t : Nat) : Bool := !s.shareUsed t || !s.othersWait t

/-- A request of a tenant starts: it counts in its round, which a used share ends (R307). -/
def State.startTurn (s : State) (t : Nat) : State :=
  s.onSys fun y => { y with round := tput (if s.shareUsed t then [] else y.round) t ((if s.shareUsed t then 0 else tget (0 : Nat) y.round t) + 1) }

/-- A datagram that waited starts, unless its epoch has passed or the Reckoner restarts (R273, R307, R312). -/
def State.startArrived (s : State) (t : Nat) : State :=
  match (s.page t).arrived with
  | [] => s
  | b :: rest =>
    let s1 := (s.startTurn t).modPage t fun p => { p with arrived := rest }
    let h := Hdr.of b
    if h.epoch ≠ (s.page t).epoch then s1.staleRequest t
    else if s.sys.run = .restarting then s1.refuse { h.rq true with tenant := t } h.op (restarting 1)
    else s1.takeIn t h true (b.drop 16)

/-- The first tenant whose waiting datagram may start (R307). -/
def State.arrivedTurn? (s : State) : Option Nat := (tkeys s.sys.pages).find? (fun t => !(s.page t).arrived.isEmpty && s.inTurn t)

/-- The waiting datagrams start as far as the rounds let them; n bounds their number (R307). -/
def State.serveArrived : Nat → State → State
  | 0, s => s
  | n + 1, s =>
    match s.arrivedTurn? with
    | some t => State.serveArrived n (s.startArrived t)
    | none => s

/-- After a start, the datagrams whose turn has come (R307). -/
def State.serveRounds (s : State) : State := State.serveArrived ((s.sys.pages.map (fun e => e.2.arrived.length)).sum) s

/-- REQUEST_FETCH: in the tenant's turn, the slot at RQ_HEAD is fetched and its request checked and started (R273, R280, R307); an
error completion is a ring fault (R281). -/
def execRequestFetch (tenant : Nat) (slot : List Byte) (accessOk : Bool) (s : State) : Host.Outcome State Fault Refusal :=
  onlyIf (s.fetchable tenant && s.inTurn tenant) (fun s =>
    if !accessOk then s.ringFault tenant
    else
      let h := Hdr.of slot
      let s1 := s.modPage tenant fun p => { p with rqHead := (p.rqHead + 1) % 65536 }
      if h.epoch ≠ (s.page tenant).epoch ∨ (s.page tenant).busyTag h.tag then s1.staleRequest tenant
      else ((s1.startTurn tenant).takeIn tenant h false ((slot.drop 16).take (min h.len 240))).serveRounds) s

/-! ### Posting (R268, R273, R280, R282, R294) -/

/-- The number after a response number (R268). -/
def nextSeqNo (n : Nat) : Nat := if 0xFFFFFFFF ≤ n then 1 else n + 1

/-- A response that answers nothing outstanding any more, or whose epoch has passed, is dropped (R273). -/
def State.dropLate (s : State) (t : Nat) : State :=
  (s.modPage t (·.late s.clock)).onSys fun y => { y with lateDrop := (y.lateDrop + 1) % 2 ^ 32 }

/-- A posting counts towards the tenant's interrupt (R282). -/
def Page.pend (p : Page) (clock : Nat) : Page :=
  { p with irqPend := p.irqPend + 1, irqSince := some (p.irqSince.getD clock) }.signal

/-- FLAGS of a response: those of its request, NOTIFY, MORE (R269). -/
def Resp.flags (r : Resp) : Nat := r.rq.flags % 256 + flag r.notify 8 + flag r.more 9

/-- The payload a response carries: behind the error block where STATUS is not OK (R270). -/
def Resp.body (r : Resp) : List Byte :=
  if r.status = 0 then r.payload else le 2 r.detail ++ le 2 0 ++ le 4 r.param ++ r.payload

/-- A header with its payload: OPCODE, TAG, EPOCH, LEN, FLAGS, TENANT, STATUS, SEQ (R268). -/
def Resp.unit (r : Resp) (flags status seq : Nat) (payload : List Byte) : List Byte :=
  le 2 r.opcode ++ le 1 r.rq.tag ++ le 1 r.rq.epoch ++ le 2 payload.length ++ le 2 flags ++ le 1 r.rq.tenant ++ le 1 0 ++
    le 2 status ++ le 4 seq ++ payload

/-- The bytes of a response or notification under a response number (R268-R270). -/
def Resp.bytes (r : Resp) (seq : Nat) : List Byte := r.unit r.flags r.status seq r.body

/-- One BULKDATA chunk: its place in the call's buffer and its data (R301). -/
def Resp.chunk (r : Resp) (seq off : Nat) (d : List Byte) : List Byte :=
  r.unit (r.rq.flags % 256 + flag true 10) 0 seq (le 4 off ++ le 4 0 ++ d)

/-- A response is placed in the response ring with the next SEQ (R280). -/
def Page.place (p : Page) (r : Resp) (clock : Nat) : Page :=
  let n := nextSeqNo p.seq
  ({ p with seq := n, rsHead := (p.rsHead + 1) % 65536, posted := ((n, r) :: p.posted).take 64, wire := [r.bytes n] }).pend clock

/-- The datagram of a unit: its bytes and their MAC, with the key of the tenant's most recent authenticated request (R287, R288). -/
def Page.datagram (p : Page) (b : List Byte) : List Byte := b ++ hmac (le 32 (tget (0 : Nat) p.keys p.lastSlot)) b

/-- The BULKDATA chunks of a bulk read's data, from an offset on, each with the next SEQ (R301); n bounds their number. -/
def Page.sendChunks (r : Resp) : Nat → Nat → List Byte → Page → Page
  | 0, _, _, p => p
  | n + 1, off, d, p =>
    if d = [] then p
    else
      let k := nextSeqNo p.ethSeq
      Page.sendChunks r n (off + 1024) (d.drop 1024)
        { p with ethSeq := k, wire := p.wire ++ [p.datagram (r.chunk k off (d.take 1024))] }

/-- A response is sent over Ethernet with the next SEQ of that transport, a bulk read's data before it (R268, R301). -/
def Page.send (p : Page) (r : Resp) : Page :=
  let q := Page.sendChunks r ((r.bulk.length + 1023) / 1024) 0 r.bulk { p with wire := [] }
  let n := nextSeqNo q.ethSeq
  { q with ethSeq := n, posted := ((n, r) :: q.posted).take 64, wire := q.wire ++ [q.datagram (r.bytes n)] }

/-- A request is complete: its tag is free, and the response is stored for a retry (R273, R291). -/
def Page.complete (p : Page) (r : Resp) : Page :=
  { p with outstanding := p.outstanding.filter (fun o => decide (o.1 ≠ r.rq.tag)), stored := tput p.stored r.rq.tag r }

/-- The WAKE notification (R293, R304). -/
def State.wakeNote (s : State) (wall : BitVec 64) : Resp :=
  ⟨0x01F0, ⟨0, 0, (s.page 0).epoch, 0, false, 0⟩, 0, 0, 0,
   le 4 s.sys.wakeCause.toNat ++ le 2 s.sys.pmeCount ++ le 2 0 ++ le 8 wall.toNat, [], false, true, false⟩

/-- The oldest response waiting for a transport. -/
def Page.waitingFor? (p : Page) (eth : Bool) : Option Resp := p.waiting.find? (fun r => r.rq.eth == eth)

/-- A response is posted over PCI Express: WAKE ahead of every other for tenant 0, then the oldest waiting response, then
the oldest notification; with RS_EN clear it is dropped and counted (R280, R293, R294, R304). -/
def State.postPcie (s : State) (t : Nat) (accessOk : Bool) : State :=
  let p := s.page t
  if p.rsEn ∧ (p.rsFull = true ∨ accessOk = false) then s.when (!accessOk) (·.ringFault t)
  else
    match (if t = 0 ∧ p.rsEn then s.sys.wakeDue else none) with
    | some w =>
      ((s.modPage 0 fun q => (q.place (s.wakeNote w) s.clock).noteEth (s.wakeNote w)).onSys fun y => { y with wakeDue := none })
    | none =>
      match p.waitingFor? false with
      | some r =>
        let s1 := s.modPage t fun q => { q with waiting := q.waiting.erase r }
        if r.rq.epoch ≠ p.epoch ∨ p.rsEn = false then
          (s1.modPage t fun q => if r.rq.epoch = q.epoch then q.complete r else q).dropLate t
        else s1.modPage t fun q => (q.complete r).place r s.clock
      | none =>
        match p.notes with
        | [] => s
        | r :: rest =>
          let s1 := s.modPage t fun q => { q with notes := rest }
          if p.rsEn then s1.modPage t fun q => q.place r s.clock else s1.dropLate t

/-- A response is sent over Ethernet, else the oldest notification that waits for it (R273, R293). -/
def State.postEth (s : State) (t : Nat) : State :=
  let p := s.page t
  match p.waitingFor? true with
  | some r =>
    let s1 := s.modPage t fun q => { q with waiting := q.waiting.erase r }
    if r.rq.epoch ≠ p.epoch then s1.dropLate t else s1.modPage t fun q => (q.complete r).send r
  | none =>
    match p.ethNotes with
    | [] => s
    | r :: rest => s.modPage t fun q => ({ q with ethNotes := rest }).send r

/-- RESPONSE_POST: the next response or notification of a tenant is posted on a transport (R280, R273). -/
def execResponsePost (tenant : Nat) (eth accessOk : Bool) (s : State) : Host.Outcome State Fault Refusal :=
  if eth then onlyIf (s.sys.eth0 || s.sys.eth1) (·.postEth tenant) s
  else onlyIf (!s.sys.d3) (·.postPcie tenant accessOk) s

/-- IRQ_TIMEOUT: TIMEOUT us have passed since the first pending response (R282). -/
def execIrqTimeout (tenant : Nat) (s : State) : Host.Outcome State Fault Refusal :=
  let p := s.page tenant
  onlyIf (bit p.irqMod 31 && decide (wfld p.irqMod 15 0 ≠ 0) && s.elapsed? p.irqSince (us (wfld p.irqMod 15 0)))
    (·.modPage tenant Page.message) s

/-! ### PCI Express link and power states (R283, R303, R304, R316) -/

/-- The function returns to D0: PME is withdrawn, the wake is counted once and its event raised (R304). -/
def State.toD0 (s : State) : State :=
  let s1 := s.onSys fun y => { y with d3 := false }
  if s.sys.pme then
    let s2 := s1.onSys fun y => { y with pme := false, pmeCount := sat16 (y.pmeCount + 1), pmeOld := noteOld s.clock y.pmeOld y.pmeCount }
    s2.raise 0x0149 [(s2.sys.wakeCause.toNat : Int), (s2.sys.pmeCount : Int)]
  else s1

/-- The mailbox transport of a tenant after a reset of the endpoint: every register but EPOCH clear, responses not yet
posted dropped (R283). -/
def Page.pcieReset (p : Page) : Page :=
  { p with rqEn := false, rsEn := false, rqBase := 0, rsBase := 0, rqTail := 0, rqHead := 0, rsHead := 0, rsTail := 0,
           irqMod := 0x80010000, rqFault := false, cntStale := 0, cntLate := 0, cntStray := 0, cntFault := 0, cntAOld := (0, 0), cntBOld := (0, 0),
           seq := 0,
           irqPend := 0, irqSince := none, waiting := p.waiting.filter (fun r => r.rq.eth) }

/-- PERST#, hot reset, FLR or link loss resets the endpoint and the mailbox transport (R283); the link stays
up through a function-level reset. -/
def State.endpointReset (s : State) (linkStays : Bool) : State :=
  let s1 := forEach (tkeys s.sys.pages) (fun t u => u.modPage t Page.pcieReset) s
  let s2 := s1.toD0.onSys fun y => { y with pcieUp := linkStays && y.pcieUp }
  s2.raise 0x0141 [(b2n s2.sys.pcieUp : Int), (s.sys.pcieMode.1 : Int), (s.sys.pcieMode.2 : Int)]

/-- PCIE_RESET (R283). -/
def execPcieReset (linkStays : Bool) (s : State) : Host.Outcome State Fault Refusal := .next (s.endpointReset linkStays)

/-- PCIE_LINK_UP: the link has trained at a width and a rate (R316). -/
def execPcieLinkUp (width rate : Nat) (s : State) : Host.Outcome State Fault Refusal :=
  onlyIf (!s.sys.pcieUp && s.power.pwrgd) (fun s =>
    (s.onSys fun y => { y with pcieUp := true, pcieMode := (width, rate) }).raise 0x0141 [1, width, rate]) s

/-- D3HOT_ENTRY (R303). -/
def execD3hotEntry (s : State) : Host.Outcome State Fault Refusal :=
  onlyIf s.sys.pcieUp (·.onSys fun y => { y with d3 := true }) s

/-- D0_RESUME (R304). -/
def execD0Resume (s : State) : Host.Outcome State Fault Refusal := onlyIf s.sys.d3 State.toD0 s

/-- WAKE_CAUSE: a wake cause arises (R279, R303). -/
def execWakeCause (cause : Nat) (s : State) : Host.Outcome State Fault Refusal := onlyIf (decide (cause < 7)) (·.wake cause) s

/-! ### Ethernet (R285-R292, R316) -/

/-- A datagram fails its length or its MAC: AUTH_DROP, with its event at most once a minute (R287, R290, R316). -/
def State.authFail (s : State) (port : Nat) : State :=
  let s1 := s.onSys fun y => { y with authDrop := (y.authDrop + 1) % 2 ^ 32 }
  let n := (s1.sys.authDrop + 2 ^ 32 - (s.sys.authAt.map Prod.snd).getD 0) % 2 ^ 32
  match s.sys.authAt with
  | some (t, _) =>
    if s.elapsed t (secs 60) then
      (s1.onSys fun y => { y with authAt := some (s.clock, y.authDrop) }).raise 0x0143 [port, (sat16 n : Int)]
    else s1
  | none => (s1.onSys fun y => { y with authAt := some (s.clock, y.authDrop) }).raise 0x0143 [port, (sat16 n : Int)]

/-- A datagram fails the replay check: REPLAY_DROP, with its event at most once a minute (R290, R316). -/
def State.replayFail (s : State) (tenant : Nat) : State :=
  let s1 := s.onSys fun y => { y with replayDrop := (y.replayDrop + 1) % 2 ^ 32 }
  let n := (s1.sys.replayDrop + 2 ^ 32 - (s.sys.replayAt.map Prod.snd).getD 0) % 2 ^ 32
  match s.sys.replayAt with
  | some (t, _) =>
    if s.elapsed t (secs 60) then
      (s1.onSys fun y => { y with replayAt := some (s.clock, y.replayDrop) }).raise 0x0144 [tenant, (sat16 n : Int)]
    else s1
  | none => (s1.onSys fun y => { y with replayAt := some (s.clock, y.replayDrop) }).raise 0x0144 [tenant, (sat16 n : Int)]

/-- A SEQ is accepted by the replay window i of a tenant: above H, or within the 64 values up to H and not seen (R290). -/
def Page.fresh (p : Page) (i seq : Nat) : Bool :=
  let h := tget (0 : Nat) p.replay i
  decide (seq ≠ 0) && (decide (h < seq) || (decide (h < seq + 64) && !(tget [] p.windows i).contains seq))

/-- An accepted SEQ is recorded (R290). -/
def Page.accept (p : Page) (i seq : Nat) : Page :=
  let h := max seq (tget (0 : Nat) p.replay i)
  { p with replay := tset 0 p.replay i h,
           windows := tset [] p.windows i ((seq :: tget [] p.windows i).filter (fun x => decide (h < x + 64))) }

/-- The port an Ethernet unit arrives on is up and enabled (R286, R331). -/
def State.ethOpen (s : State) (port : Nat) : Bool :=
  (if port = 0 then s.sys.eth0 else s.sys.eth1) && decide (port = 0 ∨ (port = 1 ∧ s.parC 0x1106 ≠ 0))

/-- The MAC of a datagram fits the tenant's key in the slot (R287, R288). -/
def State.macOk (s : State) (t slot : Nat) (body mac : List Byte) : Bool :=
  match tfind? (s.page t).keys slot with
  | some k => decide (hmac (le 32 k) body = mac)
  | none => false

/-- The first key-install of R289: tenant 0 has no key and no request over Ethernet yet, the module is in COMMISSION, the request came on ETH0 from its
subnet. -/
def State.firstKey (s : State) (port : Nat) (h : Hdr) (p : List Byte) (sameNet : Bool) : Bool :=
  (s.page 0).keys.isEmpty && !(s.page 0).outstanding.any (fun o => o.2.1) && (s.page 0).arrived.isEmpty && decide (s.sys.mode = .commission ∧ port = 0 ∧ h.tenant = 0 ∧ h.op = 0x0203) && sameNet &&
    decide (rdle p 0 1 = 0 ∧ rdle p 1 1 = 0)

/-- An authenticated request over Ethernet: EPOCH_SET, the epoch rule, retries, the limit of 64, then as any request, which
waits while the round keeps it from starting (R273, R291, R292, R307, R312). -/
def State.ethRequest (s : State) (h : Hdr) (body : List Byte) : State :=
  let t := h.tenant
  let i := fld h.flags 4 4
  let set := h.flags.testBit 2 && decide (tget (0 : Nat) (s.page t).epochSeq i < h.seq)
  let s1 := s.when set fun u =>
    (u.setEpoch t h.epoch).modPage t fun q => { q with epochSeq := tset 0 q.epochSeq i h.seq }
  let q := s1.page t
  if h.epoch ≠ q.epoch then s1.staleRequest t
  else if h.flags.testBit 1 ∧ q.busyTag h.tag then s1
  else if q.busyTag h.tag then s1.staleRequest t
  else
    match (if h.flags.testBit 1 then tfind? q.stored h.tag else none) with
    | some r => s1.respond { r with rq := { r.rq with eth := true, slot := i } }
    | none =>
      if 64 ≤ (q.outstanding.filter (fun o => o.2.1)).length + q.arrived.length then s1.refuse (h.rq true) h.op ⟨0x0007, 0, 64⟩
      else if s1.sys.run = .restarting then s1.takeIn t h true (body.drop 16)
      else (s1.modPage t fun q => { q with arrived := q.arrived ++ [body] }).serveRounds

/-- MAILBOX_DATAGRAM: a datagram arrives on MB_PORT of a port: its length, its MAC, its replay counter, then the request
(R287-R292); during hold-up and before the ROM's handover none is taken (R313). -/
def execMailboxDatagram (port : Nat) (bytes : List Byte) (sameNet : Bool) (s : State) : Host.Outcome State Fault Refusal :=
  let h := Hdr.of bytes
  let body := bytes.take (16 + h.len)
  let p := body.drop 16
  let i := fld h.flags 4 4
  onlyIf (s.ethOpen port && !s.sys.holdup && s.serving) (fun s =>
    if bytes.length ≠ 48 + h.len then s.authFail port
    else if s.firstKey port h p sameNet then
      (s.modPage 0 fun q => { q with ethPeer := true }).ethRequest h body
    else if !s.macOk h.tenant i body (bytes.drop (16 + h.len)) then s.authFail port
    else if !(s.page h.tenant).fresh i h.seq then s.replayFail h.tenant
    else (s.modPage h.tenant fun q => { q.accept i h.seq with lastSlot := i, ethPeer := true }).ethRequest h body) s

/-- STOP_DATAGRAM: a stop datagram is checked by the port hardware and passed to the stop-lane logic; it is answered
with OPCODE 0 and STATUS 0 (R285); it wakes a sleeping host (R279). -/
def execStopDatagram (port : Nat) (bytes : List Byte) (s : State) : Host.Outcome State Fault Refusal :=
  let h := Hdr.of bytes
  let i := fld h.flags 4 4
  onlyIf (s.ethOpen port && s.power.pwrgd && decide (h.op = 0 ∧ h.tag = 0 ∧ h.len = 0 ∧ h.flags - fld h.flags 4 4 * 16 = 0))
    (fun s =>
      if bytes.length ≠ 48 then s.authFail port
      else if !s.macOk h.tenant i (bytes.take 16) (bytes.drop 16) then s.authFail port
      else if !(s.page h.tenant).fresh (2 + i) h.seq then s.replayFail h.tenant
      else
        let r : Resp := ⟨0, h.rq true, 0, 0, 0, [], [], false, false, false⟩
        ((s.modPage h.tenant fun q => q.accept (2 + i) h.seq).stopLane h.tenant).modPage h.tenant (·.send r) |>.wake 1) s

/-- ETHERNET_LINK: a port changes link state; ETH1 without an address is disabled (R316, R331, R279). -/
def execEthernetLink (port : Nat) (up : Bool) (s : State) : Host.Outcome State Fault Refusal :=
  let now := if port = 0 then s.sys.eth0 else s.sys.eth1
  onlyIf (decide (now ≠ up ∧ (up = true → port = 0 ∨ s.parC 0x1106 ≠ 0))) (fun s =>
    (((s.onSys fun y => if port = 0 then { y with eth0 := up } else { y with eth1 := up }).raise 0x0142
      [port, (b2n up : Int)])).wake 6) s

/-! ### Cursors (R298-R300) -/

/-- Snapshots still pinned by an open cursor. -/
def Sys.freeSnaps (y : Sys) : Sys :=
  { y with snaps := y.snaps.filter (fun e => y.cursors.any (fun c => decide (c.gen = some e.1))) }

/-- CURSOR_EXPIRY: 10 s after its creation a cursor is released (R299). -/
def execCursorExpiry (cursor : Nat) (s : State) : Host.Outcome State Fault Refusal :=
  match s.sys.cursors.find? (fun c => decide (c.id = cursor)) with
  | none => .next s
  | some c =>
    onlyIf (s.elapsed c.since (secs 10)) (·.onSys fun y =>
      ({ y with cursors := y.cursors.filter (fun d => decide (d.id ≠ cursor)),
                expired := tput y.expired cursor c.tenant }).freeSnaps) s

/-! ### PTP and wall time (R305, R306) -/

/-- PTP_MESSAGE: a message of the master on the selected port and domain gives the master's time at this instant: the
servo steps beyond 1 ms, else slews; wall time becomes valid after 16 consecutive intervals within 1 us (R305, R306). -/
def execPtpMessage (port domain : Nat) (master : BitVec 64) (s : State) : Host.Outcome State Fault Refusal :=
  onlyIf (decide (port = s.sys.ptpPort ∧ (domain : Int) = s.parC 0x110B)) (fun s =>
    let off : Int := (s.sys.wall.toNat : Int) - master.toNat
    let s1 := s.onSys fun y => { y with ptpOffset := clampI (-2147483648) 2147483647 off }
    if 1000000 < off.natAbs then
      (s1.onSys fun y => { y with wall := master, ptpSlew := 0, ptpGood := 0 }).raise 0x0148
        [clampI (-32768) 32767 (Int.tdiv (-off) 1000000)]
    else
      let good := if off.natAbs ≤ 1000 then satN 16 (s.sys.ptpGood + 1) else 0
      let lock := decide (good = 16) && (!s.sys.ptpLock || s.sys.holdover)
      let s2 := s1.onSys fun y => { y with ptpSlew := -off, ptpGood := good, ptpLock := y.ptpLock || decide (good = 16),
                                           holdover := y.holdover && !decide (good = 16) }
      s2.when lock (·.raise 0x0146 [port, domain])) s

/-- ANNOUNCE_TIMEOUT: the selected port's announces have stopped: PTP moves to the other port if announces arrive there,
else a valid wall time goes into holdover (R305, R306). -/
def execAnnounceTimeout (otherAnnounces : Bool) (s : State) : Host.Outcome State Fault Refusal :=
  .next (
    if otherAnnounces then s.onSys fun y => { y with ptpPort := 1 - y.ptpPort, ptpGood := 0 }
    else
      let s1 := s.onSys fun y => { y with ptpGood := 0, ptpSlew := 0, holdover := y.ptpLock }
      s1.when (s.sys.ptpLock && !s.sys.holdover) (·.raise 0x0147 [s.sys.ptpPort]))

/-! ### Notification marks (R52, R293) -/

/-- NOTIFICATION_MARK: a unit of tenant 0 fires and its MARK notification is placed (R52, R293). -/
def execNotificationMark (unit : Nat) (s : State) : Host.Outcome State Fault Refusal :=
  onlyIf (decide (4 ≤ unit ∧ unit ≤ 14) && s.markDue unit) (fun s =>
    let s1 := s.fireMark unit
    s1.notify 0 0x07F0 (le 1 unit ++ le 1 0 ++ le 2 (s1.mark unit).fires.toNat ++ le 8 s.beamTime)) s

end Sys2Proof.Machine
end

