-- ==== Sys2Proof/Machine/Rings.lean ====
section
/-! DEFINITION. Ring commands: activation checks, enumeration, calibration, node registers, stored identity (chapters 3,
11 and 16). -/
namespace Sys2Proof.Machine
open Sys2Proof

/-! ### What a ring answers (R70, R519) -/

/-- The facts of a ring that a command meets: its port, how many nodes are on it, and the places that do not answer. -/
structure RingFacts where
  /-- the port. -/
  port : Nat
  /-- nodes on the ring, by place from the A end. -/
  count : Nat
  /-- places whose nodes do not answer. -/
  mute : List Nat
deriving DecidableEq, Repr

/-- The places of the nodes that answer. -/
def RingFacts.places (f : RingFacts) : List Nat := ((List.range f.count).map (· + 1)).filter (fun i => !f.mute.contains i)

/-- The node that answers at a position. -/
def State.answerAt? (s : State) (f : RingFacts) (pos : Nat) : Option Node :=
  (f.places.map (fun i => s.node (nodeKey f.port i))).find? (fun n => decide (n.pos = pos ∧ pos ≠ 0))

/-! ### The checks of R451 -/

/-- A failed check: its event, the position and the kind of mismatch (R451). -/
structure Misfit where
  /-- event code. -/
  code : Nat
  /-- position, 0 for a check on the whole ring. -/
  pos : Nat
  /-- kind of mismatch, 0 for the timing. -/
  kind : Nat
  /-- the figure that the timing events show, us. -/
  figure : Nat
deriving DecidableEq, Repr

/-- The answer of a failed check (R451). -/
def Misfit.refuse (m : Misfit) : Refuse := ⟨0x0801, m.code, m.pos + m.kind * 65536⟩

/-- The event of a failed check (R101). -/
def Misfit.params (m : Misfit) (port : Nat) : List Int :=
  if m.code = 0x0808 then [port, m.pos, m.kind] else [port, (sat16 m.figure : Nat)]

/-- The first stored position whose node fails a test. -/
def State.firstBad (s : State) (f : RingFacts) (bad : NodeId → Option Node → Bool) : Option Nat :=
  ((s.ring f.port).config.find? (fun c => bad c (s.answerAt? f c.pos))).map NodeId.pos

/-- The identity check (R70, R451): the census, then the reads of the stored positions. -/
def State.identityMisfit (s : State) (f : RingFacts) : Option Misfit :=
  let high := s.censusOf f.port f.count
  let top := ((s.ring f.port).config.map NodeId.pos).foldl max 0
  if high = 0xFFFF then some ⟨0x0808, 0, 1, 0⟩
  else
    match s.firstBad f (fun _ n => n.isNone) with
    | some p => some ⟨0x0808, p, 2, 0⟩
    | none =>
      if top < high then some ⟨0x0808, high, 3, 0⟩
      else
        match s.firstBad f (fun c n => decide (n.map Node.type ≠ some c.type)) with
        | some p => some ⟨0x0808, p, 4, 0⟩
        | none => (s.firstBad f (fun c n => decide (n.map Node.string ≠ some c.string))).map (fun p => ⟨0x0808, p, 5, 0⟩)

/-- The calibration check: a calibration is stored and every node's COMP values equal it (R451). -/
def State.calibMisfit (s : State) (f : RingFacts) : Option Misfit :=
  let cal := (s.ring f.port).calib
  if cal = [] then some ⟨0x0808, 0, 6, 0⟩
  else
    (s.firstBad f (fun c n => !cal.any (fun e => decide (e.1 = c.pos ∧ n.map Node.compA = some e.2.1 ∧ n.map Node.compB = some e.2.2)))).map
      (fun p => ⟨0x0808, p, 6, 0⟩)

/-- The string settings and the size of the bank (R180, R330, R433, R451). -/
def State.stringMisfit (s : State) (f : RingFacts) : Option Misfit :=
  let ks := (s.ring f.port).stringIds.map (strKey f.port)
  let others := s.est.configured.filter (fun k => decide (keyPort k ≠ f.port))
  if ks.any (fun k => !s.chemistrySet k) then some ⟨0x0808, 0, 7, 0⟩
  else if 16384 < others.length + ks.length then some ⟨0x0808, 0, 8, 0⟩
  else none

/-- C of R99 in ns. -/
def Ring.collectNs (r : Ring) : Nat := 150000 + r.fCal + r.config.length * 8000 + 2400

/-- The timing check (R99): the round trip, then the fit of the collection. DESIGN CHOICE (log entry 107): the sweep interval
judged is the configured one, also while the rate control has lengthened STEP of M0, so that its return to the configured
interval fits. -/
def State.timingMisfit (s : State) (port : Nat) : Option Misfit :=
  let r := s.ring port
  if 2000000 < r.fCal + r.rCal then some ⟨0x0806, 0, 0, (r.fCal + r.rCal) / 1000⟩
  else if s.beam.nsAtNominal s.beam.confStep < r.collectNs + 1000000 then some ⟨0x0807, 0, 0, r.collectNs / 1000⟩
  else none

/-- RING_IDENTITY_CHECK: every check of R451 in order: the first that fails. -/
def State.ringMisfit (s : State) (f : RingFacts) : Option Misfit :=
  (s.identityMisfit f).or ((s.calibMisfit f).or ((s.stringMisfit f).or (s.timingMisfit f.port)))

/-! ### Becoming ACTIVE (R175, R191, R449, R451) -/

/-- The SERIAL that the ring last accepted at a position. -/
def Ring.acceptedSerial (r : Ring) (c : NodeId) : Nat := (tfind? r.serials c.pos).getD c.serial

/-- MODULE_IDENTITY_CHANGED: a node is accepted with a new SERIAL: each of its cells is cold and ID_CHANGED (R175). -/
def State.newIdentity (s : State) (port : Nat) (n : Node) : State :=
  forEach (n.cellsOn.map (cellPoint port n.pos)) (fun p t =>
    (t.modCell p fun c => { (c.cold 0 0 t.sched.xgen) with learned := { c.learned with idChanged := true } }).raise 0x0301
      [port, n.pos, (n.serial % 65536 : Nat)]) s

/-- The serials of a ring are taken as accepted, with the consequences of new ones (R70, R175). -/
def State.acceptSerials (s : State) (f : RingFacts) : State :=
  forEach (s.ring f.port).config (fun c t =>
    match s.answerAt? f c.pos with
    | none => t
    | some n =>
      (t.when (decide (n.serial ≠ (s.ring f.port).acceptedSerial c)) (·.newIdentity f.port n)).modRing f.port fun r =>
        { r with serials := tput r.serials c.pos n.serial }) s

/-- Cells of a ring that were never learned and hold no capacity take their string's chemistry settings (R175, R180). -/
def State.seedLearned (s : State) (port : Nat) : State :=
  forEach (s.stringsOf port) (fun k t =>
    forEach (t.str k).cells (fun p u =>
      u.when (decide ((u.cell p).learned.cap = 0) && (u.cell p).learned.neverLearned) (·.modCell p fun c =>
        { c with learned := u.nameplate k c.learned })) t) s

/-- A ring that has passed its checks becomes ACTIVE (R449, R451). -/
def State.activateRing (s : State) (f : RingFacts) : State :=
  let s1 := ((s.acceptSerials f).buildStrings f.port).seedLearned f.port
  let s2 := forEach (s1.stringsOf f.port) (fun k t => t.modStr k fun q => { q with fDis := none, fChg := none }) s1
  (s2.changeRing f.port .active).modRing f.port fun r => { r with bresync := true }

/-- A ring is taken towards ACTIVE: it becomes ACTIVE, or the first failing check is raised and it is left in SERVICE
(R70, R451). -/
def State.tryActivate (s : State) (f : RingFacts) : State :=
  let s1 := s.modRing f.port fun r => { r with census := some (s.censusOf f.port f.count) }
  match s1.ringMisfit f with
  | none => s1.activateRing f
  | some m => (s1.raise m.code (m.params f.port)).changeRing f.port .service

/-! ### Commands of group 0x08 (R341) -/

/-- RING_STATE: the ring is in a state that refuses the command (R326). -/
def ringState (st : RingState) : Refuse := ⟨0x0802, 0, ringCode st⟩

/-- The ring state record (R342). -/
def State.ringRecord (s : State) (port : Nat) : List Byte :=
  let r := s.ring port
  le 1 port ++ le 1 (ringCode r.state) ++
    le 1 (flag r.split 0 + flag r.skewLimit 1 + flag (decide (r.calib ≠ [])) 2 + flag (decide (r.config ≠ [])) 3) ++ le 1 0 ++
    le 2 r.nodes ++ le 2 r.skew ++ le 4 r.fCal ++ le 4 r.rCal ++ le 4 r.missing ++ le 4 0

/-- RING_STATUS (R341, R342). -/
def execRingStatus (rq : Rq) (port : Nat) (s : State) : Host.Outcome State Fault Refusal :=
  readCmd rq 0x0800 .zero (fun _ => [(decide (port < 128), outOfRange 0)]) (·.ringRecord port) s

/-- The ring state that a STATE field names (R341). -/
def ringStateOf (v : Nat) : RingState := match v with | 0 => .active | 1 => .service | _ => .isolated

/-- A ring leaves ISOLATED or SERVICE for the other: the census and the comparison are made too, and a mismatch is raised; it does
not keep the ring from ISOLATED (R70, log entry 109). -/
def State.surveyRing (s : State) (f : RingFacts) : State :=
  let s1 := s.modRing f.port fun r => { r with census := some (s.censusOf f.port f.count) }
  match s1.identityMisfit f with
  | some m => s1.raise m.code (m.params f.port)
  | none => s1.acceptSerials f

/-- A ring is taken from one state to another at a SET_RING_STATE (R70, R449-R451). -/
def State.setRingState (s : State) (rq : Rq) (f : RingFacts) (st : RingState) : State :=
  let op := 0x0801
  let old := (s.ring f.port).state
  if old = st then s.ok rq op []
  else if st = .active then
    let m := s.ringMisfit f
    let s1 := (s.tryActivate f).followRings 0x0801
    match m with
    | none => s1.ok rq op []
    | some e => s1.refuse rq op e.refuse
  else if old = .active then
    let s1 := s.leaveRing f.port st
    if (s1.ring f.port).goal.isSome then
      s1.onSys fun y => { y with held := y.held ++ [(ringHeldKey f.port, ⟨op, rq, 0, 0, 0, [], [], false, false, false⟩)] }
    else s1.ok rq op []
  else (((s.surveyRing f).changeRing f.port st).followRings 0x0801).ok rq op []

/-- SET_RING_STATE: a ring's state changes, after disconnection or the activation checks; the operands after STATE are the
ring's facts (R341, R346, R449-R451). -/
def execSetRingState (rq : Rq) (port state count : Nat) (mute : List Nat) (s : State) : Host.Outcome State Fault Refusal :=
  .next (mailbox rq 0x0801 .zero csovt (fun s =>
    checked rq 0x0801
      [(decide (port < 128), outOfRange 0), (decide (state < 3), outOfRange 1),
       (decide ((s.ring port).busy = 0), busyWith (s.ring port).busy)]
      (fun s => s.setRingState rq ⟨port, count, mute⟩ (ringStateOf state)) s) s)

/-- The checks of a command that needs its ring in SERVICE with no command in progress (R341, R346). -/
def State.serviceChecks (s : State) (port : Nat) : List (Bool × Refuse) :=
  [(decide (port < 128), outOfRange 0), (decide ((s.ring port).busy = 0), busyWith (s.ring port).busy),
   (decide ((s.ring port).state = .service), ringState (s.ring port).state)]

/-- ENUMERATE: ENUM is launched on a ring of `count` nodes; NODES is the position of the last (R69, R341). -/
def execEnumerate (rq : Rq) (port count : Nat) (s : State) : Host.Outcome State Fault Refusal :=
  .next (mailbox rq 0x0802 .zero csovt (fun s =>
    checked rq 0x0802 (s.serviceChecks port) (fun s =>
      let tooMany := (enumPass port count 1 1 s).2.2
      let s1 := s.enumerate port count
      if tooMany then s1.refuse rq 0x0802 ⟨0x0801, 0x0809, 0⟩
      else s1.ok rq 0x0802 (le 2 (s1.ring port).nodes ++ le 2 0)) s) s)

/-- The round trip of a position from an end: the median of the last sixteen trials less T_TURN (R71, R72). DESIGN CHOICE (log
entry 108): of the even number of trials it is the mean of the middle two, rounded half away from zero as R186 has it; R72 does
not say. -/
def Ring.rtt? (r : Ring) (pos endB : Nat) : Option Int :=
  let l := (r.echoes.filter (fun e => decide (e.1 = pos ∧ e.2.1 = endB))).map (fun e => e.2.2)
  if l.length < 16 then none else some (medianI ((l.drop (l.length - 16)).map Int.ofNat) - 4000)

/-- COMP_A and COMP_B of a position from its round trips, F and R (R72). -/
def compOf (rttA rttB f r : Int) : Nat × Nat :=
  let da := rdiv (rttA * f) (f + r)
  let db := rdiv (rttB * r) (f + r)
  ((clampI 0 2000000 (2000000 - da)).toNat, (clampI 0 2000000 (2000000 - db)).toNat)

/-- The places of a ring's addressed nodes. -/
def State.addressed (s : State) (port : Nat) : List Nat :=
  (s.places port).filter (fun i => decide ((s.node (nodeKey port i)).pos ≠ 0))

/-- The calibration of a ring: position, COMP_A, COMP_B of each of its nodes; none where an echo is missing (R72). -/
def State.calibration (s : State) (port f r : Nat) : List (Nat × Nat × Nat) :=
  (s.addressed port).filterMap (fun i =>
    let pos := (s.node (nodeKey port i)).pos
    match (s.ring port).rtt? pos 0, (s.ring port).rtt? pos 1 with
    | some a, some b => some (pos, compOf a b f r)
    | _, _ => none)

/-- The measured calibration is written to the nodes and stored in flash; new COMP values are a ring resync (R72, R82). -/
def State.storeCalibration (s : State) (port f r : Nat) : State :=
  let cal := s.calibration port f r
  let s1 := forEach (s.addressed port) (fun i t => t.modNode (nodeKey port i) fun n =>
    match cal.find? (fun e => decide (e.1 = n.pos)) with
    | some e => { n with compA := e.2.1, compB := e.2.2 }
    | none => n) s
  (s1.modRing port fun q =>
    { q with calib := cal, fCal := f, rCal := r, fNow := f, skew := sat16 (skewFigure f r f), skewRun := 0, skewLimit := false,
             resync := true }).commitCfg

/-- The positions of a ring for which an echo is missing. -/
def State.unheard (s : State) (port : Nat) : List Nat :=
  ((s.addressed port).map (fun i => (s.node (nodeKey port i)).pos)).filter (fun pos =>
    ((s.ring port).rtt? pos 0).isNone || ((s.ring port).rtt? pos 1).isNone)

/-- CALIBRATE: the ring must be closed; with the echoes recorded and the propagations F and R measured, the COMP values are
derived, written and stored (R72, R99, R210, R341). -/
def execCalibrate (rq : Rq) (port f r : Nat) (s : State) : Host.Outcome State Fault Refusal :=
  .next (mailbox rq 0x0803 .zero csovt (fun s =>
    let f := s.portNs f
    let r := s.portNs r
    let quiet := s.wrappedPos port ++ s.unheard port
    checked rq 0x0803
      (s.serviceChecks port ++ [(decide (quiet = []), nodeTimeout port (quiet.headD 0)),
        (decide (0 < f + r ∧ f + r ≤ 2000000), ⟨0x0801, 0x0806, (f + r) / 1000⟩)])
      (fun s =>
        let s1 := s.storeCalibration port f r
        s1.ok rq 0x0803 (le 4 f ++ le 4 r ++ le 2 (s1.ring port).skew ++ le 2 0)) s) s)

/-- NODE_READ: a READ is queued on the ring; its answer is the response's (R84, R341). -/
def execNodeRead (rq : Rq) (port pos addr count : Nat) (s : State) : Host.Outcome State Fault Refusal :=
  .next (mailbox rq 0x0804 .zero allModes (fun s =>
    checked rq 0x0804
      [(decide (port < 128), outOfRange 0), (decide (1 ≤ pos ∧ pos ≤ 65534), outOfRange 2),
       (decide (1 ≤ count ∧ count ≤ 240), outOfRange 6),
       (decide ((s.ring port).state ≠ .isolated), ringState (s.ring port).state)]
      (fun s => s.queueCmd port pos (.read addr count) (some (rq, 0x0804))) s) s)

/-- NODE_WRITE: a WRITE is queued on the ring, to a node or to all; the identity and compensation registers are closed on an
ACTIVE ring (R67, R341). -/
def execNodeWrite (rq : Rq) (port pos addr : Nat) (data : List Byte) (s : State) : Host.Outcome State Fault Refusal :=
  .next (mailbox rq 0x0805 .zero csovt (fun s =>
    let st := (s.ring port).state
    let guarded := decide (addr ≤ 0x23 ∧ 0x12 < addr + data.length)
    checked rq 0x0805
      [(decide (port < 128), outOfRange 0), (decide (1 ≤ pos ∧ pos ≤ 65535), outOfRange 2),
       (decide (1 ≤ data.length ∧ data.length ≤ 232), outOfRange 6),
       (decide (st ≠ .isolated) && !(decide (st = .active) && guarded), ringState st)]
      (fun s => s.queueCmd port pos (.write addr data) (some (rq, 0x0805))) s) s)

/-- The identity that STORE_CONFIG stores: SERIAL, NODE_TYPE, HW_REV and STRING_ID of every node at its position (R341). -/
def State.identity (s : State) (port : Nat) : List NodeId :=
  (s.addressed port).map (fun i =>
    let n := s.node (nodeKey port i)
    ⟨n.pos, n.type, n.hwRev, n.string, n.serial⟩)

/-- STORE_CONFIG: the ring's identity is stored; the places that do not answer end it (R341). -/
def execStoreConfig (rq : Rq) (port : Nat) (mute : List Nat) (s : State) : Host.Outcome State Fault Refusal :=
  .next (mailbox rq 0x0806 .zero csovt (fun s =>
    let lost := ((s.addressed port).filter mute.contains).map (fun i => (s.node (nodeKey port i)).pos)
    checked rq 0x0806 (s.serviceChecks port ++ [(decide (lost = []), nodeTimeout port (lost.headD 0)), (s.nvOk, nvFault)])
      (fun s =>
        let ids := s.identity port
        let s1 := ((s.modRing port fun r => { r with config := ids }).buildStrings port).commitCfg
        s1.respond ⟨0x0806, rq, 0, 0, 0, le 2 ids.length ++ le 2 0, [], false, false, true⟩) s) s)

end Sys2Proof.Machine
end

