-- ==== Sys2Proof/Machine/Bulk.lean ====
section
/-! DEFINITION. Bulk transfers: the bulk block, cursors, reads in whole items, writes (R295-R302, R324). -/
namespace Sys2Proof.Machine
open Sys2Proof

/-! ### The bulk block and its checks (R272, R295) -/

/-- BAD_BUFFER with the offset of its field (R272). -/
def badBuffer (off : Nat) : Refuse := ⟨0x0008, off, 0⟩

/-- CLOSE of a request (R269). -/
def closes (rq : Rq) : Bool := rq.flags.testBit 3

/-- The checks of BUF_ADDR, BUF_LEN and CLOSE (R295). -/
def bufferChecks (rq : Rq) (b : Bulk) : List (Bool × Refuse) :=
  let top := if rq.eth = true ∨ b.addr = 0 then 262144 else 67108864
  [(rq.eth || decide (b.addr % 4096 = 0), badBuffer 0),
   (decide (4096 ≤ b.len ∧ b.len ≤ top ∧ b.len % 4096 = 0), badBuffer 8),
   (!(closes rq && decide (b.cursor = 0)), badBuffer 0xC)]

/-- The open cursor of a call: its number and its tenant match (R295, R300). -/
def State.openCursor? (s : State) (rq : Rq) (id : Nat) : Option Cursor :=
  s.sys.cursors.find? (fun c => decide (c.id = id ∧ c.tenant = rq.tenant))

/-- The call's cursor has passed its 10 s (R299). -/
def State.cursorOld (s : State) (rq : Rq) (id : Nat) : Bool :=
  decide (tfind? s.sys.expired id = some rq.tenant) || (match s.openCursor? rq id with | some c => s.elapsed c.since (secs 10) | none => false)

/-- A cursor is released with the snapshots nothing else pins (R295, R298). -/
def State.releaseCursor (s : State) (id : Nat) : State :=
  s.onSys fun y =>
    ({ y with cursors := y.cursors.filter (fun c => decide (c.id ≠ id)), expired := tdel y.expired id }).freeSnaps

/-- The newest published generation, 0 before the first. -/
def State.newestGen (s : State) : Nat := s.est.pubGen.getD 0

/-- CURSOR_EXPIRED (R299). -/
def State.expiredAnswer (s : State) : Refuse := ⟨0x0009, 0, s.newestGen⟩

/-- The checks of a call on an open cursor: it is the tenant's, of this command, with the same selector (R300, R324). -/
def State.cursorChecks (s : State) (rq : Rq) (op : Nat) (b : Bulk) : List (Bool × Refuse) :=
  match s.openCursor? rq b.cursor with
  | none => [(decide (b.cursor = 0), ⟨0x000A, 0, 0⟩)]
  | some c =>
    [(decide (c.opcode = op), badBuffer 0xC), (decide (c.sel.1 = b.port), badBuffer 0x10),
     (decide (c.sel.2.1 = b.string), badBuffer 0x12), (decide (c.sel.2.2 = b.arg), badBuffer 0x14)]

/-- Cursors a tenant holds open. -/
def State.cursorsOf (s : State) (t : Nat) : Nat := (s.sys.cursors.filter (fun c => decide (c.tenant = t))).length

/-- A new cursor would stay within 16 cursors, 4 of its tenant, and 8 pinned generations (R300). -/
def State.cursorFits (s : State) (t : Nat) (gen : Option Nat) : Bool :=
  let gens := sortN (gen.toList ++ s.sys.cursors.filterMap (fun c => c.gen))
  decide (s.sys.cursors.length < 16 ∧ s.cursorsOf t < 4 ∧ gens.length ≤ 8)

/-- The block of R296. -/
def bulkBlock (cursor gen bytes items remaining : Nat) : List Byte :=
  le 4 cursor ++ le 4 gen ++ le 4 bytes ++ le 4 items ++ le 4 remaining ++ le 4 0

/-- A bulk call is answered: the data it delivers stand with it, MORE while a cursor is open (R296). -/
def State.bulkAnswer (s : State) (rq : Rq) (op cursor gen items remaining bytes : Nat) (data : List Byte) : State :=
  s.respond ⟨op, rq, 0, 0, 0, bulkBlock cursor gen bytes items remaining, data, decide (cursor ≠ 0), false, false⟩

/-- The number after a cursor number; 0 starts a transfer (R295). -/
def nextCursorNo (n : Nat) : Nat := if 0xFFFFFFFF ≤ n then 1 else n + 1

/-- A cursor is kept open with what it has left: under its number when it is open, under the next when it is new. -/
def State.keepCursor (s : State) (c : Cursor) : State :=
  if s.sys.cursors.any (fun d => decide (d.id = c.id)) then
    s.onSys fun y => { y with cursors := y.cursors.map (fun d => if d.id = c.id then c else d) }
  else s.onSys fun y => { y with cursors := y.cursors ++ [c], nextCursor := nextCursorNo y.nextCursor }

/-- A cursor as a start creates it (R298, R299). -/
def State.newCursor (s : State) (rq : Rq) (op : Nat) (b : Bulk) (gen : Option Nat) (items : List (List Byte)) : Cursor :=
  ⟨s.sys.nextCursor, rq.tenant, op, (b.port, b.string, b.arg), gen, items, b.arg, [], s.clock⟩

/-- A bulk command: no call starts during hold-up; the block, the cursor, the selector of a start and its limits are
checked, CLOSE releases, and a call runs on its cursor (R295-R300, R313, R319). -/
def bulkCmd (rq : Rq) (op : Nat) (w : Who) (modes : List Mode) (b : Bulk) (start : State → List (Bool × Refuse))
    (fresh : State → Cursor) (call : Cursor → State → State) (s : State) : Host.Outcome State Fault Refusal :=
  .next (
    if s.sys.holdup then s
    else mailbox rq op w modes (fun s => checked rq op (bufferChecks rq b) (fun s =>
      if s.cursorOld rq b.cursor then (s.releaseCursor b.cursor).refuse rq op s.expiredAnswer
      else checked rq op (s.cursorChecks rq op b) (fun s =>
        match s.openCursor? rq b.cursor with
        | some c =>
          if closes rq then (s.releaseCursor c.id).bulkAnswer rq op 0 (c.gen.getD 0) 0 0 0 [] else call c s
        | none =>
          let c := fresh s
          checked rq op (start s ++ [(s.cursorFits rq.tenant c.gen, ⟨0x000B, 0, s.cursorsOf rq.tenant⟩)]) (call c) s) s) s) s)

/-! ### Reads -/

/-- An item of a cursor as it is delivered: a cell's record comes from the snapshot of its pinned generation when it was
saved there, else as published (R298). -/
def State.bulkItem (s : State) (c : Cursor) (i : List Byte) : List Byte :=
  if c.opcode = 0x0320 then
    match s.sys.snaps.find? (fun e => decide (c.gen = some e.1 ∧ e.2.1 = unle i)) with
    | some e => e.2.2
    | none => (match c.gen with | some g => s.cellBytesOf g (unle i) | none => s.cellBytes (unle i))
  else i

/-- Data go to the tenant's aperture when the buffer address is 0 (R302). -/
def State.toAperture (s : State) (rq : Rq) (b : Bulk) (data : List Byte) : State :=
  if rq.eth = false ∧ b.addr = 0 then
    s.onSys fun y => { y with apertures := tmod [] y.apertures rq.tenant (fun old => data ++ old.drop data.length) }
  else s

/-- One call of a bulk read: as many whole items as the buffer holds; an error completion answers DMA_FAULT and leaves the
cursor where it was (R272, R296, R297, R302). -/
def State.bulkDeliver (s : State) (rq : Rq) (op : Nat) (b : Bulk) (dma : Option Nat) (c : Cursor) : State :=
  match (if rq.eth = true ∨ b.addr = 0 then none else dma) with
  | some n => s.refuse rq op ⟨0x000C, 0, n⟩
  | none =>
    let size := max 1 (s.bulkItem c (c.items.headD [])).length
    let now := c.items.take (b.len / size)
    let rest := c.items.drop (b.len / size)
    let data := now.flatMap (s.bulkItem c)
    let s1 := s.toAperture rq b data
    if rest = [] then (s1.releaseCursor c.id).bulkAnswer rq op 0 (c.gen.getD 0) now.length 0 data.length data
    else (s1.keepCursor { c with items := rest }).bulkAnswer rq op c.id (c.gen.getD 0) now.length rest.length data.length data

/-- A bulk read of tenant 0 in any mode: the generation it pins and its items (R298). -/
def bulkRead (rq : Rq) (op : Nat) (b : Bulk) (dma : Option Nat) (start : State → List (Bool × Refuse))
    (gen : State → Option Nat) (items : State → List (List Byte)) (s : State) : Host.Outcome State Fault Refusal :=
  bulkCmd rq op .zero allModes b start (fun s => s.newCursor rq op b (gen s) (items s)) (fun c s => s.bulkDeliver rq op b dma c) s

/-- The strings a bulk selector names (R324). -/
def State.bulkStrings (s : State) (b : Bulk) : List Nat :=
  s.est.configured.filter (fun k => decide ((b.port = 255 ∨ keyPort k = b.port) ∧ (b.string = 65535 ∨ keyId k = b.string)))

/-- The checks of a selector of strings; ARG is 0 (R322, R324). -/
def State.bulkSelChecks (s : State) (b : Bulk) : List (Bool × Refuse) :=
  [(decide (b.port < 128 ∨ b.port = 255), outOfRange 0x10), (decide (b.arg = 0), outOfRange 0x14),
   (decide (b.port = 255 ∧ b.string = 65535) || decide (s.bulkStrings b ≠ []), unknownObject 0x10)]

/-- The checks of a bulk command whose selector must name everything (R324, R336). -/
def bulkAllChecks (b : Bulk) : List (Bool × Refuse) :=
  [(decide (b.port = 255), outOfRange 0x10), (decide (b.string = 65535), outOfRange 0x12)]

/-! ### Writes (R301, R302, R324) -/

/-- The bytes a call of a bulk write brings: of its request over Ethernet, of the aperture, or of the host's buffer. -/
def State.bulkSource (s : State) (rq : Rq) (b : Bulk) (data : List Byte) (owed : Nat) : List Byte :=
  if rq.eth then data.take owed
  else padTo (min b.len owed) 0 (if b.addr = 0 then tget [] s.sys.apertures rq.tenant else data)

/-- What the host has stored in its buffer before a call stands in its aperture where that is the buffer (R276, R302). -/
def State.hostStores (s : State) (rq : Rq) (b : Bulk) (data : List Byte) : State := s.toAperture rq b data

/-- One call of a bulk write: min(BUF_LEN, bytes still owed) bytes are taken; the last call has its effect (R324). -/
def State.bulkTake (s : State) (rq : Rq) (op : Nat) (b : Bulk) (dma : Option Nat) (data : List Byte) (need : Nat)
    (finish : List Byte → Nat → State → State) (c : Cursor) : State :=
  let s := s.hostStores rq b data
  match (if rq.eth = true ∨ b.addr = 0 then none else dma) with
  | some n => s.refuse rq op ⟨0x000C, 0, n⟩
  | none =>
    let now := s.bulkSource rq b data (need - c.data.length)
    let got := c.data ++ now
    if got.length < need then
      (s.keepCursor { c with data := got }).bulkAnswer rq op c.id 0 0 (need - got.length) now.length []
    else finish got now.length (s.releaseCursor c.id)

end Sys2Proof.Machine
end

