-- ==== Sys2Proof/Machine/Settings.lean ====
section
/-! DEFINITION. SET_PARAM and GET_PARAM of every group (R160, R241, R242, R327-R331). -/
namespace Sys2Proof.Machine
open Sys2Proof

/-- The table numbers a group's commands reach (R328). -/
def groupTables (op : Nat) : List Nat :=
  match op / 256 with
  | 0x01 => [0x11]
  | 0x03 => [0x31, 0x32, 0x33, 0x34, 0x35]
  | 0x05 => [0x51]
  | 0x06 => [0x61]
  | _ => []

/-- The row a command's PARAM names within its group (R327). -/
def rowFor? (op param : Nat) : Option ParamRow :=
  if (groupTables op).contains (param / 256) then paramRow? param else none

/-- The default of a row: SLOT_CYC's follows the nominal frequency (R241); a setting with none shows MIN - 1 (R327). -/
def State.rowDefault (s : State) (r : ParamRow) : Int :=
  if r.code = 0x5106 then s.beam.slotCycDefault else r.unset

/-- The greatest value of a row: the reserves of tenant 0 end at the rated powers (R241). -/
def State.rowMax (s : State) (r : ParamRow) : Int :=
  if r.code = 0x5104 then s.parC 0x5101 else if r.code = 0x5105 then s.parC 0x5102 else r.hi

/-- The strings a string scope names: one configured string, or all of them (R322, R327). -/
def State.scopeStrings (s : State) (port string : Nat) : List Nat :=
  if port = 255 ∧ string = 65535 then s.est.configured
  else s.est.configured.filter (fun k => decide (k = strKey port string ∧ port < 128))

/-- SCOPE fits a row and names something that exists; a read of every string names none (R322, R327). -/
def State.scopeOk (s : State) (r : ParamRow) (port string : Nat) (reading : Bool) : Bool :=
  match r.scope with
  | .bank => decide (port = 255 ∧ string = 65535)
  | .group => decide (port = 254 ∧ string < 64) && (tfind? s.sys.conf.groups string).isSome
  | .string =>
    if port = 255 ∧ string = 65535 then !reading
    else decide (port < 128) && s.est.configured.contains (strKey port string)

/-- The key of a row at a scope. -/
def ParamRow.key (r : ParamRow) (port string : Nat) : Nat :=
  match r.scope with
  | .bank => pkBank r.code
  | .group => pkGrp r.code string
  | .string => pkStr r.code (strKey port string)

/-- The keys a write of a row at a scope sets. -/
def State.rowKeys (s : State) (r : ParamRow) (port string : Nat) : List Nat :=
  match r.scope with
  | .string => (s.scopeStrings port string).map (pkStr r.code)
  | _ => [r.key port string]

/-- The committed value of a row at a scope; SLOT_CYC's default follows the nominal frequency. -/
def State.rowValue (s : State) (r : ParamRow) (port string : Nat) : Int :=
  match tfind? s.est.params (r.key port string) with
  | some v => v
  | none => s.rowDefault r

/-! ### Rules of single settings -/

/-- The committed group of a string: its number and record (R335). -/
def State.confGroup? (s : State) (k : Nat) : Option (Nat × List Nat) :=
  s.sys.conf.groups.find? (fun g => (g.2.drop 3).contains k)

/-- Why a string cannot have a CSRC (R160): DETAIL 1 MEASURED on a shared group, 2 fewer than 8 cells, 3 no group. -/
def State.csrcRefuse (s : State) (v : Int) (k : Nat) : Option Nat :=
  if (v = 1 ∨ v = 3) ∧ (s.str k).cells.length < 8 then some 2
  else if v = 1 then none
  else
    match s.confGroup? k with
    | none => some 3
    | some g => if v = 2 ∧ 4 < g.2.length then some 1 else none

/-- GROUP_REFUSED of the first string that cannot take a CSRC. -/
def State.csrcFailure (s : State) (v : Int) (ks : List Nat) : Option Refuse :=
  (ks.find? (fun k => (s.csrcRefuse v k).isSome)).map (fun k => ⟨0x0301, (s.csrcRefuse v k).getD 0, k⟩)

/-- An allocation as accepted: the one that waits for M3, else the one in force; none for a tenant without one or whose
removal has been accepted (R243, R320). -/
def State.accepted? (s : State) (t : Nat) : Option (Nat × Nat × Nat) :=
  let q := s.tenant t
  match q.nextAlloc with
  | some (true, d, c, e) => some (d, c, e)
  | some (false, _, _, _) => none
  | none => if q.exists_ ∧ q.enabled then some (q.pDis, q.pChg, q.eAlloc) else none

/-- A sum over the accepted allocations of the tenants 1…255 but one. -/
def State.sumAccepted (s : State) (but : Nat) (f : Nat × Nat × Nat → Nat) : Nat :=
  ((tkeys s.disp.tenants).map (fun t => if t = 0 ∨ t = but then 0 else ((s.accepted? t).map f).getD 0)).sum

/-- The sums of R242 hold with a bank setting at a new value. -/
def State.sumsHold (s : State) (code : Nat) (v : Int) : Bool :=
  let now (c : Nat) : Int := if c = code then v else s.parC c
  let has (c : Nat) : Bool := decide (c = code) || s.parSet c
  let d := s.sumAccepted 0 (fun a => a.1)
  let c := s.sumAccepted 0 (fun a => a.2.1)
  let e := s.sumAccepted 0 (fun a => a.2.2)
  (!has 0x5101 || decide (now 0x5104 + d ≤ now 0x5101)) && (!has 0x5102 || decide (now 0x5105 + c ≤ now 0x5102)) &&
    (!has 0x5103 || decide ((e : Int) ≤ now 0x5103))

/-- An IPv4 address that names one host: not 0, below the multicast range (R331). -/
def unicast (v : Int) : Bool := decide (0 < v ∧ v < 0xE0000000)

/-- A value that its row's own rule refuses as out of range: fixed settings, addresses, the sums of R242. -/
def State.valueOk (s : State) (r : ParamRow) (v : Int) : Bool :=
  decide (r.lo ≤ v ∧ v ≤ s.rowMax r) && decide (r.lo < r.hi) &&
    (match r.code with
     | 0x1102 => unicast v
     | 0x1106 => decide (v = 0) || unicast v
     | 0x5101 | 0x5102 | 0x5103 | 0x5104 | 0x5105 => s.sumsHold r.code v
     | _ => true)

/-! ### The commands -/

/-- A setting is stored at every key of its scope (R321, R327). -/
def State.storeParam (s : State) (r : ParamRow) (keys : List Nat) (v : Int) : State :=
  s.onEst fun e => { e with params := keys.foldl (fun t k => if r.code = 0x5106 then tput t k v else tset r.unset t k v) e.params }

/-- What follows at once from a setting: the PTP port (R305), a new SLOT_CYC (R245). -/
def State.paramFollows (s : State) (r : ParamRow) (v : Int) : State :=
  if r.code = 0x110A then s.onSys fun y => { y with ptpPort := v.toNat, ptpGood := if y.ptpPort = v.toNat then y.ptpGood else 0 }
  else if r.code = 0x5106 then s.newSlotCyc v.toNat
  else s

/-- The checks of SET_PARAM in ascending offset, then the setting's own rule (R319, R327). -/
def State.setParamChecks (s : State) (op param port string : Nat) (v : Int) : List (Bool × Refuse) :=
  match rowFor? op param with
  | none => [(false, unknownObject 0)]
  | some r =>
    let csrc := if param = 0x3101 then s.csrcFailure v (s.scopeStrings port string) else none
    [(s.scopeOk r port string false, unknownObject 2), (s.valueOk r v, outOfRange 8), (csrc.isNone, csrc.getD denied)]

/-- SET_PARAM of a group (R327). -/
def setParam (rq : Rq) (op param port string : Nat) (value : Int) (s : State) : Host.Outcome State Fault Refusal :=
  nvWrite rq op .zero csovt (fun s => s.setParamChecks op param port string value) (fun s =>
    match rowFor? op param with
    | some r => (s.storeParam r (s.rowKeys r port string) value).paramFollows r value
    | none => s) s

/-- The record of GET_PARAM: VALUE, DEFAULT, MIN, MAX (R327). -/
def State.paramRecord (s : State) (op param port string : Nat) : List Byte :=
  match rowFor? op param with
  | some r => leI 8 (s.rowValue r port string) ++ leI 8 (s.rowDefault r) ++ leI 8 r.lo ++ leI 8 (s.rowMax r)
  | none => []

/-- GET_PARAM of a group (R327). -/
def getParam (rq : Rq) (op param port string : Nat) (s : State) : Host.Outcome State Fault Refusal :=
  readCmd rq op .zero (fun s =>
    match rowFor? op param with
    | none => [(false, unknownObject 0)]
    | some r => [(s.scopeOk r port string true, unknownObject 2)]) (·.paramRecord op param port string) s

/-- SET_PARAM of the system group (R331). -/
def execSetParam (rq : Rq) (param port string : Nat) (value : Int) (s : State) : Host.Outcome State Fault Refusal :=
  setParam rq 0x0110 param port string value s
/-- GET_PARAM of the system group. -/
def execGetParam (rq : Rq) (param port string : Nat) (s : State) : Host.Outcome State Fault Refusal :=
  getParam rq 0x0111 param port string s
/-- SET_PARAM of the cell data group (R180, R186, R205, R118, R330). -/
def execCellSetParam (rq : Rq) (param port string : Nat) (value : Int) (s : State) : Host.Outcome State Fault Refusal :=
  setParam rq 0x0310 param port string value s
/-- GET_PARAM of the cell data group. -/
def execCellGetParam (rq : Rq) (param port string : Nat) (s : State) : Host.Outcome State Fault Refusal :=
  getParam rq 0x0311 param port string s
/-- SET_PARAM of the dispatch group (R241). -/
def execDispatchSetParam (rq : Rq) (param port string : Nat) (value : Int) (s : State) : Host.Outcome State Fault Refusal :=
  setParam rq 0x0510 param port string value s
/-- GET_PARAM of the dispatch group. -/
def execDispatchGetParam (rq : Rq) (param port string : Nat) (s : State) : Host.Outcome State Fault Refusal :=
  getParam rq 0x0511 param port string s
/-- SET_PARAM of the protection group (R234). -/
def execProtSetParam (rq : Rq) (param port string : Nat) (value : Int) (s : State) : Host.Outcome State Fault Refusal :=
  setParam rq 0x0610 param port string value s
/-- GET_PARAM of the protection group. -/
def execProtGetParam (rq : Rq) (param port string : Nat) (s : State) : Host.Outcome State Fault Refusal :=
  getParam rq 0x0611 param port string s

end Sys2Proof.Machine
end

