-- ==== Sys2Proof/Machine/System.lean ====
section
/-! DEFINITION. System and tenant commands: identity, status, modes, shutdown, allocations, keys, link status, echo
(groups 0x01, 0x02 and two of 0x0E; R315, R332, R333, R444-R448). -/
namespace Sys2Proof.Machine
open Sys2Proof

/-! ### Records (R315, R333) -/

/-- Bytes of an ASCII string held at n bytes with zeros. -/
def ascii (n : Nat) (s : String) : List Byte := padTo n 0 (s.toList.map (fun c => BitVec.ofNat 8 c.toNat))

/-- The identity record (R1, R2, R333). -/
def State.identityRecord (s : State) : List Byte :=
  ascii 16 (if Config.gradeX then "KZ-9128-XC" else "KZ-9128-EA") ++ le 8 Config.serial ++ ascii 1 "B" ++
    ascii 1 (if Config.gradeX then "X" else "E") ++ le 2 0 ++ le 4 s.upd.active.ver ++ le 4 Config.romVer ++ le 4 s.image.id ++
    le 4 s.image.ver ++ le 4 s.recs.cfgGen

/-- The sequence number of the newest event record, one below the next where the log holds none (R432, R333). -/
def Records.newest (r : Records) : Nat :=
  match r.tail.getLast?, r.flash.getLast? with
  | some e, _ => e.seq
  | none, some e => e.seq
  | none, none => r.nextSeq - 1

/-- SFLAGS of the status record (R333). -/
def State.statusFlags (s : State) : Nat :=
  flag s.sys.ptpLock 0 + flag s.beam.lost 1 + flag s.beam.lock 2 + flag s.sys.holdup 3 + flag s.sched.floorOver 4 +
    flag (bit s.disp.bflags 1) 5 + flag (bit s.disp.bflags 2) 6 + flag s.guard.weld.isSome 7

/-- The status record (R333). -/
def State.statusRecord (s : State) : List Byte :=
  let rings (st : RingState) : List Byte := le 1 (s.portsWhere (fun r => decide (r.state = st))).length
  le 1 (modeCode s.sys.mode) ++ le 1 (runCode s.sys.run) ++ le 2 s.statusFlags ++ le 2 s.guard.tripId ++
    le 2 (if s.guard.tripped then s.guard.tripCause else 0) ++ le 8 s.wall.toNat ++ le 8 s.beamTime ++ le 4 s.newestGen ++
    le 4 s.recs.newest ++ rings .active ++ rings .service ++ rings .isolated ++ le 1 s.healthyRods ++ le 4 0

/-- IDENTITY (R332, R333). -/
def execIdentity (rq : Rq) (s : State) : Host.Outcome State Fault Refusal :=
  readCmd rq 0x0100 .any (fun _ => []) State.identityRecord s

/-- STATUS (R332, R333). -/
def execStatus (rq : Rq) (s : State) : Host.Outcome State Fault Refusal :=
  readCmd rq 0x0101 .any (fun _ => []) State.statusRecord s

/-- The host link status record (R315). -/
def State.linkRecord (s : State) : List Byte :=
  let y := s.sys
  le 1 (flag y.pcieUp 0 + y.pcieMode.1 * 2 + y.pcieMode.2 * 8 + flag y.d3 6) ++
    le 1 (flag y.eth0 0 + flag y.eth1 1 + flag y.ptpLock 2 + flag y.holdover 3 + flag (decide (y.ptpPort = 1)) 4) ++
    le 2 y.mbLoad ++ le 4 y.authDrop ++ le 4 y.replayDrop ++ le 4 y.lateDrop ++ le 4 y.staleReq ++ le 2 y.cursors.length ++
    le 2 y.notifDrop ++ leI 4 y.ptpOffset ++ le 4 0

/-- LINK_STATUS (R315, R345). -/
def execLinkStatus (rq : Rq) (s : State) : Host.Outcome State Fault Refusal :=
  readCmd rq 0x0E03 .zero (fun _ => []) State.linkRecord s

/-- ECHO (R345). -/
def execEcho (rq : Rq) (payload : List Byte) (s : State) : Host.Outcome State Fault Refusal :=
  readCmd rq 0x0E04 .any (fun _ => []) (fun _ => payload) s

/-! ### Modes (R444-R448) -/

/-- The steps of a section before its first END (R339). -/
def SeqTable.liveSteps (l : List SeqStep) : List SeqStep := l.takeWhile (fun st => decide (st.op ≠ 0))

/-- BANK_CONNECT holds a PCS step or COND 0x08 (R446). -/
def SeqTable.needsPcs (t : SeqTable) : Bool := (SeqTable.liveSteps t.connect).any (fun st => decide (st.op = 4 ∨ st.cond = 8))

/-- The failing conditions of R446 for CONNECT. -/
def State.connectMask (s : State) : Nat :=
  let t := s.guard.table
  let fit := (s.est.configured.filter (fun k => decide ((s.ring (keyPort k)).state = .active) && !s.isLocked k)).length
  flag (!s.guard.stopOk) 0 + flag (decide (s.guard.cycles < 100)) 1 + flag (decide (fit < s.minStrings)) 2 +
    flag (decide (24 ≤ t.chan 1 ∨ 24 ≤ t.chan 2)) 3 + flag s.sys.exchange.isSome 4 +
    flag (decide (s.healthyRods = 0) || s.sched.shutdown) 5 + flag (!s.pcsEn && t.needsPcs) 9

/-- The failing conditions of R446 for SET_MODE to a target: 3 STANDBY, 2 COMMISSION (R444). -/
def State.modeMask (s : State) (target : Nat) : Nat :=
  let four := flag s.sys.exchange.isSome 4
  if target = 3 then
    four + flag s.anyService 6 + flag (decide (s.activePorts = [])) 7 + flag (s.activePorts.any (fun p => decide ((s.ring p).config = []))) 8
  else four

/-- TRANSITION_REFUSED with its event (R326, R446, R459). -/
def State.refuseTransition (s : State) (rq : Rq) (op target mask : Nat) : State :=
  (s.raise 0x0103 [target, (mask % 65536 : Nat)]).refuse rq op ⟨0x0101, target, mask⟩

/-- SET_MODE: between COMMISSION and STANDBY; the stored mode follows (R444, R446, R448). -/
def execSetMode (rq : Rq) (target : Nat) (s : State) : Host.Outcome State Fault Refusal :=
  .next (mailbox rq 0x0102 .zero [.commission, .standby] (fun s =>
    checked rq 0x0102 [(decide (target = 2 ∨ target = 3), outOfRange 0)] (fun s =>
      let m : Mode := if target = 2 then .commission else .standby
      if s.sys.mode = m then s.ok rq 0x0102 []
      else if s.modeMask target ≠ 0 then s.refuseTransition rq 0x0102 target (s.modeMask target)
      else if !s.nvOk then s.refuse rq 0x0102 nvFault
      else ((s.enterMode m 0x0102).onSys fun y => { y with storedCommission := decide (target = 2) }).okNv rq 0x0102) s) s)

/-- CONNECT: judged in the order of R446; the sequence starts and the mode is CONNECT (R332, R346, R444, R446). -/
def execConnect (rq : Rq) (s : State) : Host.Outcome State Fault Refusal :=
  .next (mailbox rq 0x0103 .zero [.standby] (fun s =>
    checked rq 0x0103
      [(!s.disconnecting, wrongMode (modeCode s.sys.mode)), (s.bankSet, notReady 3),
       (s.guard.weld.isNone, ⟨0x0102, 0, s.guard.weld.getD 0⟩)]
      (fun s =>
        if s.connectMask ≠ 0 then s.refuseTransition rq 0x0103 4 s.connectMask
        else ((s.onGuard fun g => { g with seq := some (s.newRun 1 0 false) }).enterMode .connect 0x0103).ok rq 0x0103 []) s) s)

/-- DISCONNECT: an ordinary bank disconnection that ends in STANDBY begins (R332, R346, R445). -/
def execDisconnect (rq : Rq) (s : State) : Host.Outcome State Fault Refusal :=
  plainCmd rq 0x0104 .zero [.connect, .online, .service]
    (fun s => [(!s.disconnecting && s.bankUp, wrongMode (modeCode s.sys.mode))]) (·.ordinaryBank 0 false false) s

/-- The module stops in OFF: outputs released, channels and loops off, the ports idle (R447). -/
def State.shutDown (s : State) : State :=
  let s1 := s.setMode .off 0x0105
  let s2 := s1.onSys fun y => { y with shut := true, run := .rom }
  let s3 := s2.onGuard fun g => { g with cmd := 0, seq := none, strDisc := none, reqs := [], released := false, connected := false, guardOk := false }
  let s4 := s3.onLoops fun l => { l with started := false, out := [] }
  (s4.onLoad fun l => { l with stagger := [] }).applyChannels chanNums

/-- SHUTDOWN: the final checkpoints, the response and its event, then OFF while powered (R177, R346, R447). -/
def execShutdown (rq : Rq) (s : State) : Host.Outcome State Fault Refusal :=
  .next (mailbox rq 0x0105 .zero [.commission, .standby, .tripped] (fun s =>
    checked rq 0x0105 [(s.sys.exchange.isNone, busyWith 0x0402), (s.nvOk, nvFault)] (fun s =>
      ((s.learnedCheckpoint.socCheckpoint.raise 0x0105 []).respond ⟨0x0105, rq, 0, 0, 0, [], [], false, false, true⟩).shutDown) s) s)

/-! ### Tenants (R240-R243, R288, R332) -/

/-- WHOAMI (R332). -/
def execWhoami (rq : Rq) (s : State) : Host.Outcome State Fault Refusal :=
  readCmd rq 0x0200 .any (fun _ => []) (fun s =>
    let p := s.page rq.tenant
    le 1 rq.tenant ++ le 1 (b2n (s.tenEnabled rq.tenant)) ++ le 1 p.epoch ++
      le 1 (flag (tfind? p.keys 0).isSome 0 + flag (tfind? p.keys 1).isSome 1 + flag (rq.eth && decide (rq.slot = 1)) 2)) s

/-- ALLOC_EXCEEDED of the first rule of R242 that an allocation breaks, with its limit. -/
def State.allocExceeds (s : State) (t dis chg e : Nat) : Option Refuse :=
  let room (rated reserve : Nat) (f : Nat × Nat × Nat → Nat) : Nat := rated - reserve - s.sumAccepted t f
  let nat (c : Nat) : Nat := (max 0 (s.parC c)).toNat
  let d := room (nat 0x5101) (nat 0x5104) (fun a => a.1)
  let c := room (nat 0x5102) (nat 0x5105) (fun a => a.2.1)
  let w := room (nat 0x5103) 0 (fun a => a.2.2)
  let sat (v : Nat) : Nat := satN 0xFFFFFFFF v
  if d < dis then some ⟨0x0201, 1, sat d⟩
  else if c < chg then some ⟨0x0201, 2, sat c⟩
  else if w < e then some ⟨0x0201, 3, sat w⟩
  else if (e : Int) * 3600000 < (s.tenant t).mj then some ⟨0x0201, 4, sat (max 0 (whOf (s.tenant t).mj)).toNat⟩
  else none

/-- SET_ALLOC accepted: the allocation waits for M3; a new tenant's ledger starts at E_INIT (R240, R243). -/
def State.setAlloc (s : State) (t : Nat) (en : Bool) (dis chg e init : Nat) : State :=
  (s.modTenant t fun q =>
    { q with nextAlloc := some (en, dis, chg, e), mj := if q.exists_ ∨ q.nextAlloc.isSome then q.mj else (init : Int) * 3600000 }).armM3

/-- SET_ALLOC: creates, changes or removes an allocation (R240-R243, R346). -/
def execSetAlloc (rq : Rq) (tenant : Nat) (enabled : Bool) (dis chg e init : Nat) (s : State) :
    Host.Outcome State Fault Refusal :=
  nvWrite rq 0x0201 .zero csovt (fun s =>
    let had := (s.accepted? tenant).isSome
    let beyond := if enabled then s.allocExceeds tenant dis chg e else none
    [(decide (tenant ≠ 0), outOfRange 0), (decide (1 ≤ e ∧ e ≤ 2 ^ 62), outOfRange 0x10), (had || decide (init ≤ e), outOfRange 0x18),
     (enabled || had, unknownObject 0), (!enabled || s.bankSet, notReady 3), (beyond.isNone, beyond.getD denied),
     (enabled || decide ((s.tenant tenant).deliv = 0), ⟨0x0202, 0, ux 32 (s.tenant tenant).deliv⟩)])
    (·.setAlloc tenant enabled dis chg e init) s

/-- GET_ALLOC: the allocation record with the present ledger in E_INIT (R240, R332). -/
def execGetAlloc (rq : Rq) (tenant : Nat) (s : State) : Host.Outcome State Fault Refusal :=
  readCmd rq 0x0202 (.own tenant) (fun s => [((s.accepted? tenant).isSome, unknownObject 0)]) (fun s =>
    let a := (s.accepted? tenant).getD (0, 0, 0)
    le 1 tenant ++ le 1 1 ++ le 2 0 ++ le 4 a.1 ++ le 4 a.2.1 ++ le 4 0 ++ le 8 a.2.2 ++ leI 8 (whOf (s.tenant tenant).mj)) s

/-- A key is installed: its replay counter and the response numbers start again (R288, R290). -/
def State.installKey (s : State) (t slot key : Nat) : State :=
  s.modPage t fun p =>
    { p with keys := tput p.keys slot key, replay := tset 0 p.replay slot 0, windows := tset [] p.windows slot [], ethSeq := 0,
             epochSeq := tset 0 p.epochSeq slot 0 }

/-- INSTALL_KEY: not in the slot that the request of a tenant 1…255 itself uses; the first key of tenant 0 has its event
(R288, R289, R333). -/
def execInstallKey (rq : Rq) (tenant slot key : Nat) (s : State) : Host.Outcome State Fault Refusal :=
  nvWrite rq 0x0203 (.own tenant) allModes (fun _ =>
    [(decide (slot < 2), outOfRange 1), (!(decide (rq.tenant ≠ 0) && rq.eth && decide (rq.slot = slot)), ⟨0x0203, slot, 0⟩)])
    (fun s => (s.installKey tenant slot key).when (rq.eth && decide (tenant = 0) && (s.page 0).keys.isEmpty) (·.raise 0x014B [0])) s

end Sys2Proof.Machine
end

