-- ==== Sys2Proof/Machine/Words.lean ====
section
/-! DEFINITION. Register access through the mailbox: the layout that the beam, protection, thermal-input, loop, load and CAN
blocks share (R323), and the string selectors of R322. -/
namespace Sys2Proof.Machine
open Sys2Proof

/-! ### String selectors (R322) -/

/-- A selector names one configured string. -/
def State.oneString (s : State) (port string : Nat) : Bool := decide (port < 128) && s.est.configured.contains (strKey port string)

/-- A selector names one configured string or every string. -/
def State.someString (s : State) (port string : Nat) : Bool := decide (port = 255 ∧ string = 65535) || s.oneString port string

/-! ### Register words (R323) -/

/-- The offsets of an access: one for each word. -/
def wordOffsets (off count : Nat) : List Nat := (List.range count).map (fun i => off + 4 * i)

/-- The range checks of an access: OFFSET a multiple of 4, COUNT 1…56, every offset in the block's map (R323). -/
def wordChecks (known : Nat → Bool) (off count : Nat) : List (Bool × Refuse) :=
  [(decide (off % 4 = 0), outOfRange 0), (decide (1 ≤ count ∧ count ≤ 56), outOfRange 4),
   ((wordOffsets off count).all known, unknownObject 0)]

/-- The checks of a register write: no reserved bit is written with 1, then the range checks (R10, R323). -/
def writeChecks (op : Nat) (known : Nat → Bool) (off : Nat) (data : List Nat) : List (Bool × Refuse) :=
  ((reservedData? op off data).isNone, malformed ((reservedData? op off data).getD 0)) :: wordChecks known off data.length

/-- Words read in order: each value, then what reading it does. -/
def readWords (value : State → Nat → Word) (after : State → Nat → State) : List Nat → State → List Byte × State
  | [], s => ([], s)
  | o :: r, s =>
    let (bytes, t) := readWords value after r (after s o)
    (leW (value s o) ++ bytes, t)

/-- Words written in order, each judged against the block as the words before it leave it: the first refusal, if any, and
the block after them all. -/
def writeWords (judge : State → Nat → Nat → Option Refuse) (put : State → Nat → Nat → State) :
    List (Nat × Nat) → State → Option Refuse × State
  | [], s => (none, s)
  | (o, w) :: r, s =>
    match judge s o w with
    | some e => (some e, s)
    | none => writeWords judge put r (put s o w)

/-- A register read of tenant 0 in any mode (R323). -/
def regRead (rq : Rq) (op off count : Nat) (known : Nat → Bool) (value : State → Nat → Word) (after : State → Nat → State)
    (s : State) : Host.Outcome State Fault Refusal :=
  .next (mailbox rq op .zero allModes (fun s => checked rq op (wordChecks known off count) (fun s =>
    let (bytes, t) := readWords value after (wordOffsets off count) s
    t.ok rq op bytes) s) s)

/-- A register write of tenant 0: every word is judged, on the block as the whole write leaves it, before any is written;
an NV-class block commits (R321, R323). -/
def regWrite (rq : Rq) (op off : Nat) (data : List Nat) (modes : List Mode) (nv : Bool) (known : Nat → Bool)
    (judge : State → Nat → Nat → Option Refuse) (put : State → Nat → Nat → State) (s : State) :
    Host.Outcome State Fault Refusal :=
  .next (mailbox rq op .zero modes (fun s => checked rq op (writeChecks op known off data) (fun s =>
    let l := (wordOffsets off data.length).zip data
    let t := l.foldl (fun t e => put t e.1 e.2) s
    match l.findSome? (fun e => judge t e.1 e.2) with
    | some e => s.refuse rq op e
    | none => if !nv then t.ok rq op [] else if s.nvOk then t.okNv rq op else s.refuse rq op nvFault) s) s)

/-- A register write of tenant 0 whose words are judged one after another, each on the block as the words before it leave
it (R323). -/
def regWriteSeq (rq : Rq) (op off : Nat) (data : List Nat) (modes : List Mode) (known : Nat → Bool)
    (judge : State → Nat → Nat → Option Refuse) (put : State → Nat → Nat → State) (s : State) :
    Host.Outcome State Fault Refusal :=
  .next (mailbox rq op .zero modes (fun s => checked rq op (writeChecks op known off data) (fun s =>
    match writeWords judge put ((wordOffsets off data.length).zip data) s with
    | (some e, _) => s.refuse rq op e
    | (none, t) => t.ok rq op []) s) s)

end Sys2Proof.Machine
end

