-- ==== Sys2Proof/Machine/CellData.lean ====
section
/-! DEFINITION. Cell data commands: records of cells, strings and temperatures, thermal tables, temperature maps, thermal
inputs, measurement groups, learned data (group 0x03; R150-R184, R334, R335). -/
namespace Sys2Proof.Machine
open Sys2Proof

/-! ### Points (R15, R325) -/

/-- The node of a stored position. -/
def State.stored (s : State) (port pos : Nat) : Bool := (s.ring port).config.any (fun n => decide (n.pos = pos))

/-- A point address names a cell input that is configured (R15, R325). -/
def State.cellKnown (s : State) (p : Nat) : Bool :=
  pointOk p && !pointTemp p && s.stored (pointPort p) (pointPos p) && bit (s.at_ (pointPort p) (pointPos p)).cellEn (pointInput p)

/-- A point address names a temperature input of a configured node. -/
def State.tempKnown (s : State) (p : Nat) : Bool := pointOk p && pointTemp p && s.stored (pointPort p) (pointPos p)

/-- A generation has been published (R325). -/
def State.published (s : State) : Bool × Refuse := (s.est.pubGen.isSome, notReady 1)

/-! ### Records -/

/-- The temperature record of a point (R334). -/
def State.tempRecord (s : State) (p : Nat) : List Byte :=
  let port := pointPort p
  let pos := pointPos p
  let on := bit (s.at_ port pos).tempEn (pointInput p)
  let t := s.tempIn (cellPoint port pos (pointInput p))
  let st := if !on then 2 else if t.subst then 1 else if t.unjudged then 3 else 0
  leI 2 (if on then t.raw else -32768) ++ leI 2 (if on then t.used else -32768) ++ le 1 st ++ le 3 0 ++ le 4 t.gen

/-- The string record (R152). -/
def stringRecord (k : Nat) (q : Str) : List Byte :=
  le 1 (keyPort k) ++ le 1 q.sflags.toNat ++ le 2 (keyId k) ++ leI 2 q.i ++ le 2 q.iSigma ++ le 2 q.nobs ++ le 1 q.src ++ le 1 0 ++
    le4U q.pdis ++ le4U q.pchg ++ le4U q.euse ++ le4U q.ehead ++ le 2 q.socUse ++ le 2 0

/-- Cells of a plan with a duty in one direction (R183). -/
def dutyCount (pl : List Duty) (dis : Bool) : Nat := (pl.filter (fun x => decide (x.2.1 ≠ 0) && (x.2.2 == dis))).length

/-- The string thermal record (R183). -/
def State.thermalRecord (s : State) (k : Nat) (q : Str) : List Byte :=
  le 1 (keyPort k) ++ le 1 q.tflags.toNat ++ le 2 (keyId k) ++ leI 2 q.tHot ++ leI 2 q.tCold ++ le 2 q.hotCell ++
    le 2 (q.fDis.getD 0) ++ le 2 (q.fChg.getD 0) ++ le 1 (s.bstate k q) ++ le 1 q.substN ++ le 2 q.spread ++
    le 2 (sat16 (rround (s.planLoss q.plan * 100)).toNat) ++ le 2 (dutyCount q.plan true) ++ le 2 (dutyCount q.plan false) ++
    le 4 q.planGen ++ le 4 0

/-- The bank thermal record (R184). -/
def State.bankThermalRecord (s : State) : List Byte :=
  le4U s.est.pthDis ++ le4U s.est.pthChg ++ watts s.est.balAllow ++ watts s.est.balReq

/-- The learned record with its CRC (R173); NPCAP and IRATED of its string, 0 while unset. -/
def State.learnedRecord (s : State) (p : Nat) : List Byte :=
  let l := (s.cell p).learned
  let set (code : Nat) : Rat :=
    match s.stringOf? p with
    | some k => if s.strSet code k then (s.parStrC code k : Rat) else 0
    | none => 0
  let body := le 2 l.cap ++ le 2 l.r0 ++ le 2 l.diff ++ le 2 l.sdr ++ le 2 (codeN 65535 (set 0x3502 / 20)) ++
    le 2 (codeN 65535 (set 0x3501 / 50)) ++ le 2 (flag l.idChanged 0 + flag l.neverLearned 1) ++ le 2 l.cnt ++ le 4 l.tag ++ le 8 0
  body ++ le 4 (crc32c body)

/-- The impedance record (R335). -/
def State.impedanceRecord (s : State) (p : Nat) : List Byte :=
  let c := s.cell p
  le 2 c.pub.zrel2 ++ le 2 c.pub.zrel6 ++ le 2 c.zabs2 ++ le 2 c.zabs6 ++ le 8 c.burstWall.toNat

/-- READ_CELL (R150, R334). -/
def execReadCell (rq : Rq) (point : Nat) (s : State) : Host.Outcome State Fault Refusal :=
  readCmd rq 0x0300 .zero (fun s => [(pointClear point, malformed 3), (s.cellKnown point, unknownPoint point), s.published]) (·.cellBytes point) s

/-- READ_TEMP (R334). -/
def execReadTemp (rq : Rq) (point : Nat) (s : State) : Host.Outcome State Fault Refusal :=
  readCmd rq 0x0301 .zero (fun s => [(pointClear point, malformed 3), (s.tempKnown point, unknownPoint point)]) (·.tempRecord point) s

/-- READ_STRING (R152, R334). -/
def execReadString (rq : Rq) (port string : Nat) (s : State) : Host.Outcome State Fault Refusal :=
  readCmd rq 0x0302 .zero (fun s => [(s.oneString port string, unknownObject 0), s.published]) (fun s => stringRecord (strKey port string) (s.str (strKey port string))) s

/-- READ_STRING_THERMAL (R183, R334). -/
def execReadStringThermal (rq : Rq) (port string : Nat) (s : State) : Host.Outcome State Fault Refusal :=
  readCmd rq 0x0303 .zero (fun s => [(s.oneString port string, unknownObject 0), s.published])
    (fun s => s.thermalRecord (strKey port string) (s.str (strKey port string))) s

/-- READ_BANK_THERMAL (R184, R334). -/
def execReadBankThermal (rq : Rq) (s : State) : Host.Outcome State Fault Refusal :=
  readCmd rq 0x0304 .zero (fun s => [s.published]) State.bankThermalRecord s

/-- READ_LEARNED (R173, R334). -/
def execReadLearned (rq : Rq) (point : Nat) (s : State) : Host.Outcome State Fault Refusal :=
  readCmd rq 0x0305 .zero (fun s => [(pointClear point, malformed 3), (s.cellKnown point, unknownPoint point)]) (·.learnedRecord point) s

/-- READ_IMPEDANCE (R334, R335). -/
def execReadImpedance (rq : Rq) (point : Nat) (s : State) : Host.Outcome State Fault Refusal :=
  readCmd rq 0x0306 .zero (fun s => [(pointClear point, malformed 3), (s.cellKnown point, unknownPoint point)]) (·.impedanceRecord point) s

/-! ### Bulk reads (R298, R324, R334) -/

/-- The cells of the selected strings in point-address order. -/
def State.bulkPoints (s : State) (b : Bulk) : List Nat := sortN ((s.bulkStrings b).flatMap (fun k => (s.str k).cells))

/-- A string as it stands in the newest complete generation (R298). -/
def State.strPinned (s : State) (k : Nat) : Str :=
  let q := s.str k
  match s.est.pubGen with
  | some g => if q.doneGen.any (seqOlder g) ∨ q.evalGen.any (seqOlder g) then tget q s.est.before k else q
  | none => q

/-- BULK_CELLS: records of the pinned generation (R298, R334). -/
def execBulkCells (rq : Rq) (b : Bulk) (dma : Option Nat) (s : State) : Host.Outcome State Fault Refusal :=
  bulkRead rq 0x0320 b dma (fun s => s.bulkSelChecks b ++ [s.published]) (fun s => s.est.pubGen)
    (fun s => (s.bulkPoints b).map (le 4)) s

/-- BULK_STRINGS (R298, R334). -/
def execBulkStrings (rq : Rq) (b : Bulk) (dma : Option Nat) (s : State) : Host.Outcome State Fault Refusal :=
  bulkRead rq 0x0321 b dma (fun s => s.bulkSelChecks b ++ [s.published]) (fun s => s.est.pubGen)
    (fun s => (s.bulkStrings b).map (fun k => stringRecord k (s.strPinned k))) s

/-- BULK_STRING_THERMAL (R298, R334). -/
def execBulkStringThermal (rq : Rq) (b : Bulk) (dma : Option Nat) (s : State) : Host.Outcome State Fault Refusal :=
  bulkRead rq 0x0322 b dma (fun s => s.bulkSelChecks b ++ [s.published]) (fun s => s.est.pubGen)
    (fun s => (s.bulkStrings b).map (fun k => s.thermalRecord k (s.strPinned k))) s

/-- BULK_LEARNED (R334). -/
def execBulkLearned (rq : Rq) (b : Bulk) (dma : Option Nat) (s : State) : Host.Outcome State Fault Refusal :=
  bulkRead rq 0x0323 b dma (fun s => s.bulkSelChecks b) (fun _ => none) (fun s => (s.bulkPoints b).map s.learnedRecord) s

/-- BULK_IMPEDANCE (R334). -/
def execBulkImpedance (rq : Rq) (b : Bulk) (dma : Option Nat) (s : State) : Host.Outcome State Fault Refusal :=
  bulkRead rq 0x0324 b dma (fun s => s.bulkSelChecks b) (fun _ => none) (fun s => (s.bulkPoints b).map s.impedanceRecord) s

/-! ### Temperature maps (R185) -/

/-- The checks of a node's PORT and POS at offsets 0 and 2. -/
def State.nodeChecks (s : State) (port pos : Nat) : List (Bool × Refuse) :=
  [(decide (port < 128), outOfRange 0), (decide (1 ≤ pos ∧ pos ≤ 65534), outOfRange 2), (s.stored port pos, unknownObject 2)]

/-- The first map entry that R185 refuses. -/
def State.mapRefuse (s : State) (port pos : Nat) (map : List Nat) : Option Refuse :=
  let n := s.at_ port pos
  let bad (i : Nat) : Bool :=
    let e := nth 0xF map i
    decide (8 ≤ e ∧ e ≤ 14) || (decide (e < 8) && bit n.cellEn i && !bit n.tempEn e)
  ((List.range 32).find? bad).map (fun i => ⟨0x0302, i, nth 0xF map i⟩)

/-- SET_TEMP_MAP (R185, R334). -/
def execSetTempMap (rq : Rq) (port pos : Nat) (map : List Nat) (s : State) : Host.Outcome State Fault Refusal :=
  nvWrite rq 0x0330 .zero csovt (fun s =>
    s.nodeChecks port pos ++ [((s.mapRefuse port pos map).isNone, (s.mapRefuse port pos map).getD denied)])
    (·.onConf fun c => { c with maps := tput c.maps (nodeKey port pos) map }) s

/-- The map of a node: the one set, or the default map; the default gives no entry for a cell input that is not enabled,
or for a node without temperature inputs: there the entry is the value given (R185). -/
def State.mapOf (s : State) (port pos free : Nat) : List Nat :=
  match tfind? s.sys.conf.maps (nodeKey port pos) with
  | some m => m
  | none =>
    let n := s.at_ port pos
    let on := n.cellsOn
    let ts := n.tempsOn
    (List.range 32).map (fun i =>
      if bit n.cellEn i ∧ ts ≠ [] then nth 0 ts ((on.filter (fun c => decide (c < i))).length * ts.length / on.length)
      else free / 16 ^ i % 16)

/-- Nibbles as bytes, the low nibble first. -/
def nibbles : List Nat → List Byte
  | a :: b :: r => BitVec.ofNat 8 (a + 16 * b) :: nibbles r
  | _ => []

/-- GET_TEMP_MAP (R185, R334). -/
def execGetTempMap (rq : Rq) (port pos : Nat) (s : State) : Host.Outcome State Fault Refusal :=
  .next (mailbox rq 0x0331 .zero allModes (fun s => checked rq 0x0331 (s.nodeChecks port pos) (fun s =>
    let (v, t) := s.free
    t.ok rq 0x0331 (nibbles (s.mapOf port pos (ux 128 v)))) s) s)

/-! ### Thermal tables (R189, R337, R346) -/

/-- A thermal table as its seven fields. -/
def Thermal.fields (t : Thermal) : List Int := [t.warn, t.thr, t.sd, t.lwarn, t.lthr, t.lsd, t.hyst]

/-- A thermal table from its seven fields. -/
def Thermal.ofFields (l : List Int) : Thermal := ⟨nth 0 l 0, nth 0 l 1, nth 0 l 2, nth 0 l 3, nth 0 l 4, nth 0 l 5, nth 0 l 6⟩

/-- The ranges of the fields (R189). -/
def thermalRanges : List (Int × Int) :=
  [(2000, 7000), (2000, 7500), (2500, 8000), (-3000, 3000), (-3000, 3000), (-4000, 2500), (50, 1000)]

/-- The range checks of a table's fields at their payload offsets. -/
def thermalChecks (l : List Int) : List (Bool × Refuse) :=
  (List.range 7).map (fun i =>
    let r := nth (0, 0) thermalRanges i
    (decide (r.1 ≤ nth 0 l i ∧ nth 0 l i ≤ r.2), outOfRange (4 + 2 * i)))

/-- The staged buffers are frozen while an EXCHANGE awaits M3 (R346). -/
def State.notFrozen (s : State) : Bool × Refuse := (s.sys.exchange.isNone, busyWith 0x0402)

/-- A string's thermal table of a buffer: 0 in service, 1 staged (R334, R337). -/
def State.thermalOf (s : State) (k buf : Nat) : Thermal :=
  if buf = 0 then (s.str k).thermal else ((s.est.thermalStaged.bind (fun t => tfind? t k)).getD (s.str k).thermal)

/-- WRITE_THERMAL: the table is staged for one string or for every string (R189, R322, R337). -/
def execWriteThermal (rq : Rq) (port string : Nat) (levels : List Int) (s : State) : Host.Outcome State Fault Refusal :=
  plainCmd rq 0x0332 .zero csovt (fun s => (s.someString port string, unknownObject 0) :: thermalChecks levels ++ [s.notFrozen])
    (fun s => s.onEst fun e =>
      { e with thermalStaged := some ((s.scopeStrings port string).foldl (fun t k => tput t k (Thermal.ofFields levels))
                                        (e.thermalStaged.getD [])) }) s

/-- READ_THERMAL (R334, R335). -/
def execReadThermal (rq : Rq) (port string buf : Nat) (s : State) : Host.Outcome State Fault Refusal :=
  readCmd rq 0x0333 .zero (fun s => [(s.oneString port string, unknownObject 0), (decide (buf < 2), outOfRange 4)])
    (fun s => (s.thermalOf (strKey port string) buf).fields.flatMap (leI 2) ++ le 2 0) s

/-! ### Thermal inputs (R207, R209) -/

/-- An offset of the thermal input block (R207). -/
def tinKnown (off : Nat) : Bool := decide (off < 0x100 ∧ off % 4 = 0)

/-- A register of the thermal input block: its committed word, or the reading (R207, R320). -/
def State.tinValue (s : State) (off : Nat) : Word :=
  if off % 16 = 12 then (s.tin (off / 16)).val else BitVec.ofNat 32 (nth 0 (s.tinConf (off / 16)) (off % 16 / 4))

/-- TIN_READ (R323, R334). -/
def execTinRead (rq : Rq) (off count : Nat) (s : State) : Host.Outcome State Fault Refusal :=
  regRead rq 0x0334 off count tinKnown State.tinValue (fun s _ => s) s

/-- The input other than n that compensates a target (R209). -/
def State.tinTaken? (s : State) (n target : Nat) : Option Nat :=
  (List.range 16).find? (fun m => decide (m ≠ n ∧ fld (nth 0 (s.tinConf m) 0) 3 2 = 1 ∧ fld (nth 0 (s.tinConf m) 0) 8 4 = target))

/-- A word that R207 or R209 refuses. -/
def State.tinJudge (s : State) (off w : Nat) : Option Refuse :=
  let n := off / 16
  match off % 16 with
  | 0 =>
    if fld w 31 16 = 0x8000 ∨ 23 < fld w 8 4 ∨ 1 < fld w 3 2 ∨ fld w 1 0 = 3 then some (outOfRange off)
    else if fld w 3 2 = 1 then (s.tinTaken? n (fld w 8 4)).map (fun m => ⟨0x0303, fld w 8 4, m⟩)
    else none
  | 4 =>
    let ok := if fld (nth 0 (s.tinConf n) 0) 1 0 = 1 then decide (fld w 31 16 ≤ 1000 ∧ 9500 ≤ fld w 15 0 ∧ fld w 15 0 ≤ 10500)
      else decide (1000 ≤ fld w 31 16 ∧ fld w 31 16 ≤ 10000 ∧ 10 ≤ fld w 15 0)
    if ok then none else some (outOfRange off)
  | 8 => if fld w 15 0 ≠ 0x8000 ∧ sx 16 (fld w 15 0) < sx 16 (fld w 31 16) - 400 then none else some (outOfRange off)
  | _ => none

/-- A word is committed; writing TYPE = 1 loads the diode defaults; the reading cannot be written (R207). -/
def State.tinPut (s : State) (off w : Nat) : State :=
  let n := off / 16
  match off % 16 with
  | 0 => (s.setTinConf n 0 (setFld w 15 9 0)).when (decide (fld w 1 0 = 1)) (·.setTinConf n 1 10080)
  | 4 => s.setTinConf n 1 w
  | 8 => s.setTinConf n 2 w
  | _ => s

/-- TIN_WRITE (R207, R209, R323). -/
def execTinWrite (rq : Rq) (off : Nat) (data : List Nat) (s : State) : Host.Outcome State Fault Refusal :=
  regWrite rq 0x0335 off data csovt true tinKnown State.tinJudge State.tinPut s

/-! ### Measurement groups (R160, R335) -/

/-- The CH and UNIT of a group fit its SOURCE: an FPI of ROLE 1 or 2, or a CAN controller and a unit (R335). -/
def State.groupSource (s : State) (source ch unit : Nat) : List (Bool × Refuse) :=
  match source with
  | 0 => []
  | 1 => [(decide (ch < 16) && [1, 2].contains (fld (nth 0 (s.fpiConf ch) 0) 11 8), outOfRange 2), (decide (unit = 0), outOfRange 3)]
  | _ => [(decide (ch < 8), outOfRange 2), (decide (unit < 16), outOfRange 3)]

/-- A string of a group that no configured string has: its payload offset. -/
def State.groupUnknown (s : State) (strings : List (Nat × Nat)) : Option Refuse :=
  ((List.range strings.length).find? (fun i => let x := nth (0, 0) strings i; !s.oneString x.1 x.2)).map
    (fun i => unknownObject (8 + 4 * i))

/-- A rule of groups that a new contents breaks (R160, R326, R335). -/
def State.groupRefuse (s : State) (group : Nat) (keys : List Nat) : Option Refuse :=
  let csrc (k : Nat) : Int := s.parStrC 0x3101 k
  let old := ((tfind? s.sys.conf.groups group).getD []).drop 3
  match keys.find? (fun k => decide (((s.confGroup? k).map Prod.fst).getD group ≠ group)) with
  | some k => some ⟨0x0301, 4, k⟩
  | none =>
    match keys.find? (fun k => decide (csrc k = 2 ∧ 1 < keys.length)) with
    | some k => some ⟨0x0301, 1, k⟩
    | none => (old.find? (fun k => decide (csrc k = 2 ∨ csrc k = 3) && !keys.contains k)).map (fun k => ⟨0x0301, 3, k⟩)

/-- SET_GROUP: creates, changes or deletes a group; a string belongs to at most one (R160, R335). -/
def execSetGroup (rq : Rq) (group source ch unit : Nat) (strings : List (Nat × Nat)) (s : State) :
    Host.Outcome State Fault Refusal :=
  let keys := if source = 0 then [] else (strings.map (fun x => strKey x.1 x.2)).eraseDups
  nvWrite rq 0x0340 .zero [.commission, .standby, .tripped] (fun s =>
    [(decide (group < 64), outOfRange 0), (decide (source < 3), outOfRange 1)] ++ s.groupSource source ch unit ++
      [(decide ((source = 0 ∨ 1 ≤ strings.length) ∧ strings.length ≤ 58), outOfRange 4),
       (decide (source ≠ 0) || (tfind? s.sys.conf.groups group).isSome, unknownObject 0),
       (decide (source = 0) || (s.groupUnknown strings).isNone, (s.groupUnknown strings).getD denied),
       ((s.groupRefuse group keys).isNone, (s.groupRefuse group keys).getD denied)])
    (·.onConf fun c =>
      { c with groups := if source = 0 then tdel c.groups group else tput c.groups group ([source, ch, unit] ++ keys) }) s

/-- GET_GROUP (R334, R335). -/
def execGetGroup (rq : Rq) (group : Nat) (s : State) : Host.Outcome State Fault Refusal :=
  readCmd rq 0x0341 .zero (fun s =>
    [(decide (group < 64), outOfRange 0), ((tfind? s.sys.conf.groups group).isSome, unknownObject 0)]) (fun s =>
      let g := (tfind? s.sys.conf.groups group).getD []
      le 1 group ++ le 1 (nth 0 g 0) ++ le 1 (nth 0 g 1) ++ le 1 (nth 0 g 2) ++ le 1 (g.length - 3) ++ le 3 0 ++
        (g.drop 3).flatMap (fun k => le 1 (keyPort k) ++ le 1 0 ++ le 2 (keyId k))) s

/-! ### Learned data (R171, R175, R176, R346) -/

/-- The cells of the scope of RESET_LEARNED: 0 cell, 1 node, 2 string, 3 ring, 4 bank (R334). -/
def State.resetCells (s : State) (scope port id input : Nat) : List Nat :=
  let all := s.est.configured.flatMap (fun k => (s.str k).cells)
  match scope with
  | 0 => [cellPoint port id input]
  | 1 => all.filter (fun p => decide (pointPort p = port ∧ pointPos p = id))
  | 2 => (s.str (strKey port id)).cells
  | 3 => all.filter (fun p => decide (pointPort p = port))
  | _ => all

/-- An open learning interval of a string is abandoned by a reset; R171 has no test for it, so the event's figure is free
(R171, R346). -/
def State.abandonInterval (s : State) (k : Nat) : State :=
  if (s.str k).first.isNone then s
  else
    let (v, t) := s.free
    forEach (s.str k).cells (fun p u => u.modCell p fun c => { c with first := none })
      ((t.modStr k fun q => { q with first := none, noCurrent := 0, spoiled := false, keepFirst := false }).raise 0x0303
        [keyPort k, keyId k, v])

/-- RESET_LEARNED on its cells: intervals abandoned, the chemistry settings taken, the states cold, the event (R175). -/
def State.resetLearned (s : State) (scope port id : Nat) (ps : List Nat) : State :=
  let ks := sortN (ps.filterMap s.stringOf?)
  let s1 := forEach ks (fun k t => t.abandonInterval k) s
  let s2 := forEach ps (fun p t =>
    match t.stringOf? p with
    | some k => t.modCell p fun c => { (c.cold 0 0 t.sched.xgen) with learned := { t.nameplate k c.learned with idChanged := false } }
    | none => t) s1
  s2.raise 0x0308 [scope, port, id]

/-- RESET_LEARNED (R175, R334, R346). -/
def execResetLearned (rq : Rq) (scope port id input : Nat) (s : State) : Host.Outcome State Fault Refusal :=
  nvWrite rq 0x0350 .zero [.commission, .standby, .service, .tripped] (fun s =>
    [(decide (scope ≤ 4), outOfRange 0), (decide (port < 128 ∨ scope = 4), outOfRange 1),
     (decide (scope ≠ 0 ∨ input < 32), outOfRange 4),
     (decide (scope ≠ 0) || s.cellKnown (cellPoint port id input), unknownPoint (cellPoint port id input)),
     (decide (scope ≠ 1) || s.stored port id, unknownObject 2), (decide (scope ≠ 2) || s.oneString port id, unknownObject 1)])
    (fun s => s.resetLearned scope port id (s.resetCells scope port id input)) s

/-- CLEAR_SHORT: the suspicion of R176 is cleared on every cell of the selected strings (R176, R334). -/
def execClearShort (rq : Rq) (port string : Nat) (s : State) : Host.Outcome State Fault Refusal :=
  nvWrite rq 0x0351 .zero csovt (fun s => [(s.someString port string, unknownObject 0)]) (fun s =>
    forEach (s.scopeStrings port string) (fun k t =>
      forEach (t.str k).cells (fun p u => u.modCell p fun c => { c with pub := { c.pub with flags := putBit c.pub.flags 6 false } })
        (t.modStr k fun q => { q with sflags := putBit q.sflags 4 false })) s) s

end Sys2Proof.Machine
end

