-- ==== Sys2Proof/Machine/Images.lean ====
section
/-! DEFINITION. Kernel images: how their bytes are read and the checks of R141 (R135-R141, R144). -/
namespace Sys2Proof.Machine
open Sys2Proof

/-! ### The checks of R141 -/

/-- Check 0x01: MAGIC, FORMAT, reserved fields; those of the records once the layout is known to hold. -/
def magicOk (l : List Byte) : Bool :=
  decide (imgWord l 0 = 0x494B5A4B ∧ rdle l 4 2 = 1 ∧ rdle l 6 2 < 2) &&
    (!layoutOk l || (decide (rdle l (imgWord l 0x18 + 3) 1 = 0 ∧ rdle l (imgWord l 0x18 + 6) 2 = 0) &&
      (entryOffs l).all (fun o => decide (rdle l (o + 1) 1 = 0)) && (columnOffs l).all (fun o => decide (rdle l (o + 7) 1 = 0)) &&
      (imgTables l).1.all (fun t => decide (rdle l (t.1 + 6) 2 = 0))))

/-- Check 0x03: IMAGE_CRC over the image with its own field taken as zero. -/
def imageCrcOk (l : List Byte) : Bool := decide (crc32c (l.take 0x2C ++ le 4 0 ++ l.drop 0x30) = imgWord l 0x2C)

/-- Check 0x04: every table's CRC over its values. -/
def tableCrcOk (l : List Byte) : Bool :=
  (imgTables l).1.all (fun t => decide (crc32c ((l.drop (t.1 + 16)).take (2 * t.2.2.length)) = imgWord l (t.1 + 12)))

/-- Check 0x05: the first illegal word of the code section. -/
def illegalWord (l : List Byte) : Option Nat := (List.range (imgCode l).length).find? (fun i => !kLegal (nth 0 (imgCode l) i).toNat)

/-- Check 0x06: the entry records keep R137. -/
def entriesOk (l : List Byte) : Bool :=
  let es := imgEntries l
  es.all (fun e => decide (1 ≤ e.1 ∧ e.1 ≤ 4 ∧ e.2.1 < imgWord l 0x14 / 4 ∧ 64 ≤ e.2.2 ∧ e.2.2 ≤ 1000000)) &&
    decide ((es.map Prod.fst).eraseDups.length = es.length) && es.any (fun e => decide (e.1 = 1))

/-- KIND of an input source; none takes any (R140). -/
def srcKind (src : Nat) : Option Nat :=
  match src with
  | 1 => some 1
  | 2 => some 1
  | 3 => some 2
  | 4 => some 3
  | 5 => some 6
  | 7 => some 1
  | _ => none

/-- The rows a column occupies: 384 for an RBURST input, else one (R138). -/
def colRows (c : List Int) : Nat := if colRole c = 1 ∧ colSrc c = 7 then 384 else 1

/-- A column record keeps R138, R139 and R140 by itself. -/
def columnOk (c : List Int) : Bool :=
  let src := (colSrc c).toNat
  let idx := colIdx c
  decide (colRow c + colRows c ≤ 4096 ∧ 1 ≤ colRole c ∧ colRole c ≤ 3 ∧ colKind c ≤ 11 ∧ -15 ≤ colScale c ∧ colScale c ≤ 15) &&
    (decide (colKind c ≠ 0) || decide (colRole c = 3)) &&
    (if colRole c = 1 then
       decide (1 ≤ src ∧ src ≤ 7) && (match srcKind src with | some k => decide (colKind c = (k : Int)) | none => true) &&
         (if src = 6 then decide (idx < 16) else decide (idx = 0))
     else decide (src = 0) && (if colRole c = 2 then decide (idx < 32) else decide (idx < 8)))

/-- A column shares a row with an earlier one, or is the second state column of its IDX (R138, R141). -/
def columnClash (cs : List (List Int)) (i : Nat) : Bool :=
  let c := nth [] cs i
  (cs.take i).any (fun d => decide ((colRow c < colRow d + colRows d ∧ colRow d < colRow c + colRows c) ∨
    (colRole c = 2 ∧ colRole d = 2 ∧ colIdx c = colIdx d)))

/-- Check 0x07: the first column record that fails. -/
def badColumn (l : List Byte) : Option Nat :=
  let cs := imgColumns l
  (List.range cs.length).find? (fun i => !columnOk (nth [] cs i) || columnClash cs i)

/-- A table header and its values keep R135. -/
def tableOk (h vs : List Int) : Bool :=
  let axis (k s o : Int) : Bool := decide (1 ≤ k ∧ k ≤ 10 ∧ 0 ≤ s ∧ s ≤ 14 ∧ -32767 ≤ o ∧ o + (2 : Int) ^ (k + s).toNat ≤ 32768)
  decide (nth 0 h 0 < 64) && axis (nth 0 h 2) (nth 0 h 3) (nth 0 h 6) &&
    (if nth 0 h 1 = 2 then axis (nth 0 h 4) (nth 0 h 5) (nth 0 h 7)
     else decide (nth 0 h 4 = 0 ∧ nth 0 h 5 = 0 ∧ nth 0 h 7 = 0)) && vs.all (fun v => decide (v ≠ -32768))

/-- Check 0x08 on the tables alone. -/
def tablesOk (l : List Byte) : Bool :=
  let t := imgTables l
  t.2 && t.1.all (fun x => tableOk x.2.1 x.2.2) &&
    decide (((t.1.map (fun x => nth 0 x.2.1 0)).eraseDups).length = t.1.length)

/-- Check 0x08: the first TLU or TLU2 that names an absent table or one of the wrong DIMS. -/
def badLookup (l : List Byte) : Option Nat :=
  let ts := (imgTables l).1
  let code := imgCode l
  (List.range code.length).find? (fun i =>
    let w := (nth 0 code i).toNat
    let dims : Int := if fld w 31 26 = 0x22 then 1 else if fld w 31 26 = 0x23 then 2 else 0
    decide (dims ≠ 0) && !ts.any (fun x => decide (nth 0 x.2.1 0 = ((fld w 13 8 : Nat) : Int) ∧ nth 0 x.2.1 1 = dims)))

/-- The first failing check of R141 with its word address or column number; none where the check has neither. -/
def imageFault (l : List Byte) : Option (Nat × Option Nat) :=
  if !magicOk l then some (1, none)
  else if !layoutOk l then some (2, none)
  else if !imageCrcOk l then some (3, none)
  else if !tableCrcOk l then some (4, none)
  else if (illegalWord l).isSome then some (5, illegalWord l)
  else if !entriesOk l then some (6, none)
  else if (badColumn l).isSome then some (7, badColumn l)
  else if !tablesOk l then some (8, none)
  else if (badLookup l).isSome then some (8, badLookup l)
  else if !(imgColumns l).any (fun c => decide (colRole c = 2 ∧ colKind c = 4)) then some (9, none)
  else if imgWord l 8 < 0x10000 then some (10, none)
  else none

/-! ### LOAD_IMAGE, READ_IMAGE, KERNEL_INFO (R126, R141, R144, R336) -/

/-- All bytes of an image have arrived: it is accepted into the inactive buffer, or refused; a check that has neither a
word address nor a column number leaves the parameter open (R141). -/
def State.takeImage (rq : Rq) (l : List Byte) (consumed : Nat) (s : State) : State :=
  match imageFault l with
  | some (c, p) =>
    let (v, t) := s.free
    let q := p.getD (ux 32 v)
    (t.raise 0x0403 [c, (q % 65536 : Nat)]).refuse rq 0x0401 ⟨0x0401, c, q⟩
  | none =>
    if s.sys.exchange.isSome then s.refuse rq 0x0401 (busyWith 0x0402)
    else
      let im := imageOf l
      ((s.onSched fun q => { q with inactive := some im, inactiveKind := 1 }).raise 0x0402
        [(im.id % 65536 : Nat), (im.id / 65536 : Nat), (im.ver % 65536 : Nat)]).bulkAnswer rq 0x0401 0 0 0 0 consumed []

/-- LOAD_IMAGE: a kernel image of ARG bytes; the last call is answered after the checks (R126, R141, R336). -/
def execLoadImage (rq : Rq) (b : Bulk) (data : List Byte) (dma : Option Nat) (s : State) : Host.Outcome State Fault Refusal :=
  bulkCmd rq 0x0401 .zero csovt b (fun s => [(decide (b.port < 128 ∨ b.port = 255), outOfRange 0x10), s.notFrozen])
    (fun s => s.newCursor rq 0x0401 b none []) (fun c s =>
      s.bulkTake rq 0x0401 b dma data b.arg (fun l n t => t.takeImage rq l n) c) s

/-- Bytes in items of 16; fuel bounds the items. -/
def chunks : Nat → List Byte → List (List Byte)
  | 0, _ => []
  | n + 1, l => if l = [] then [] else l.take 16 :: chunks n (l.drop 16)

/-- READ_IMAGE: the image in service or in the inactive buffer, byte for byte (R144, R336). -/
def execReadImage (rq : Rq) (b : Bulk) (dma : Option Nat) (s : State) : Host.Outcome State Fault Refusal :=
  bulkRead rq 0x0404 b dma
    (fun s => bulkAllChecks b ++ [(decide (b.arg < 2), outOfRange 0x14), (decide (b.arg = 0) || s.sched.inactive.isSome, unknownObject 0x14)])
    (fun _ => none) (fun s =>
      let bytes := if b.arg = 0 then s.image.bytes else (s.sched.inactive.map Image.bytes).getD []
      chunks bytes.length bytes) s

/-- STAGED: the buffers of R337 that hold something to exchange. -/
def State.stagedMask (s : State) : Nat :=
  flag s.sched.inactive.isSome 0 + flag s.guard.limitsStaged.isSome 1 + flag s.est.thermalStaged.isSome 2 + flag s.guard.tableStaged.isSome 3

/-- KERNEL_INFO (R336). -/
def execKernelInfo (rq : Rq) (s : State) : Host.Outcome State Fault Refusal :=
  readCmd rq 0x0400 .zero (fun _ => []) (fun s =>
    le 4 s.image.id ++ le 4 s.image.ver ++ le 4 ((s.sched.inactive.map Image.id).getD 0) ++
      le 4 ((s.sched.inactive.map Image.ver).getD 0) ++ le 1 s.sched.inactiveKind ++ le 1 s.stagedMask ++ le 2 0) s

end Sys2Proof.Machine
end

