-- ==== Sys2Proof/Machine/Tables.lean ====
section
/-! DEFINITION. The double-buffered tables: limit and sequence tables, EXCHANGE, DISCARD and the firing of M3 (R19, R142,
R143, R226, R231-R234, R336, R337, R339, R340, R455-R457). -/
namespace Sys2Proof.Machine
open Sys2Proof

/-! ### Limit tables (R226, R340) -/

/-- A limit table as its twenty fields, in the order of R340. -/
def Limits.fields (l : Limits) : List Nat := l.volts ++ l.oc ++ [l.ot2, l.vHyst, l.iHyst] ++ l.times ++ [l.tOt2]

/-- A limit table from its twenty fields. -/
def Limits.ofFields (f : List Nat) : Limits :=
  ⟨f.take 6, (f.drop 6).take 2, nth 0 f 8, nth 0 f 9, nth 0 f 10, (f.drop 11).take 8, nth 0 f 19⟩

/-- The payload offsets of the fields after the selector (R340). -/
def limitOffs : List Nat := [0, 2, 4, 6, 8, 10, 12, 14, 16, 18, 20, 24, 26, 28, 30, 32, 34, 36, 38, 40]

/-- The fixed ends of the ranges of R226; the ends that name another level are ordering rules. -/
def limitRanges : List (Nat × Nat) :=
  [(20000, 50000), (20000, 50000), (20000, 55000), (15000, 40000), (10000, 40000), (5000, 40000), (1000, 3000), (1000, 5000),
   (200, 3000), (50, 2000), (500, 10000)] ++ List.replicate 9 (0, 60000)

/-- The range checks of a limit table's fields at their payload offsets. -/
def limitChecks (f : List Nat) : List (Bool × Refuse) :=
  (List.range 20).map (fun i =>
    let r := nth (0, 0) limitRanges i
    (decide (r.1 ≤ nth 0 f i ∧ nth 0 f i ≤ r.2), outOfRange (4 + nth 0 limitOffs i)))

/-- The limit bytes of R340. -/
def Limits.bytes (l : Limits) : List Byte :=
  let f := l.fields
  (f.take 11).flatMap (le 2) ++ le 2 0 ++ (f.drop 11).flatMap (le 2) ++ le 6 0

/-- The first row of R226 whose ordering or time rule a table breaks (R226). -/
def Limits.orderRow (l : Limits) : Option Nat :=
  let v := nth 0 l.volts
  let t := nth 0 l.times
  let o := nth 0 l.oc
  if v 1 < v 0 ∨ t 0 < t 1 then some 2
  else if v 2 < v 1 ∨ t 1 < t 2 then some 3
  else if v 3 < v 4 ∨ t 3 < t 4 then some 5
  else if v 4 < v 5 ∨ t 4 < t 5 then some 6
  else if o 1 < o 0 ∨ t 6 < t 7 then some 8
  else none

/-- WRITE_LIMITS: the table is staged for one string or for every string (R226, R322, R337, R339). -/
def execWriteLimits (rq : Rq) (port string : Nat) (fields : List Nat) (s : State) : Host.Outcome State Fault Refusal :=
  plainCmd rq 0x0620 .zero csovt (fun s => (s.someString port string, unknownObject 0) :: limitChecks fields ++ [s.notFrozen])
    (fun s => s.onGuard fun g =>
      { g with limitsStaged := some ((s.scopeStrings port string).foldl (fun t k => tput t k (Limits.ofFields fields))
                                       (g.limitsStaged.getD [])) }) s

/-- A string's limit table of a buffer: 0 in service, 1 staged (R337, R339). -/
def State.limitsOf (s : State) (k buf : Nat) : Limits :=
  if buf = 0 then (s.str k).limits else ((s.guard.limitsStaged.bind (fun t => tfind? t k)).getD (s.str k).limits)

/-- READ_LIMITS (R339, R340). -/
def execReadLimits (rq : Rq) (port string buf : Nat) (s : State) : Host.Outcome State Fault Refusal :=
  readCmd rq 0x0621 .zero (fun s => [(s.oneString port string, unknownObject 0), (decide (buf < 2), outOfRange 4)])
    (fun s => (s.limitsOf (strKey port string) buf).bytes) s

/-! ### Sequence tables (R231, R232, R339) -/

/-- Steps a section holds at most (R231). -/
def sectionMax (section_ : Nat) : Nat := if section_ = 1 then 32 else 16

/-- The steps of a section. -/
def SeqTable.steps (t : SeqTable) (section_ : Nat) : List SeqStep :=
  match section_ with
  | 1 => t.connect
  | 2 => t.string
  | _ => t.disconnect

/-- A step that nothing has written. -/
def SeqStep.blank : SeqStep := ⟨0, 0, 0, 0, 0, 0, 0⟩

/-- The offset of the first field of a step that lies outside R231. -/
def SeqStep.badField (st : SeqStep) (section_ : Nat) : Option Nat :=
  let acts := decide (st.op = 1 ∨ st.op = 2)
  let aux := decide (st.cond = 3 ∨ st.cond = 4)
  let roleOk := if acts then decide (1 ≤ st.role ∧ st.role ≤ 7) else if aux then decide (5 ≤ st.role ∧ st.role ≤ 7) else decide (st.role = 0)
  let argOk := if st.op = 4 then decide (st.arg = 1 ∨ st.arg = 3) else decide (st.arg = 0)
  if 6 < st.op ∨ (st.op = 5 ∧ section_ ≠ 1) ∨ (st.op = 6 ∧ section_ ≠ 3) then some 0
  else if !roleOk then some 1
  else if !argOk then some 2
  else if 8 < st.cond then some 4
  else if st.timeout < 1 ∨ 60000 < st.timeout then some 8
  else if 2 < st.onFail then some 12
  else none

/-- The first step field outside its range: its payload offset. -/
def badStep (section_ : Nat) (steps : List SeqStep) : Option Refuse :=
  ((List.range steps.length).findSome? (fun i => ((nth SeqStep.blank steps i).badField section_).map (4 + 16 * i + ·))).map outOfRange

/-- A section with steps placed from an index on. -/
def putSteps (l : List SeqStep) (first : Nat) (steps : List SeqStep) : List SeqStep :=
  padTo first SeqStep.blank l ++ steps ++ l.drop (first + steps.length)

/-- A table with steps of a section placed. -/
def SeqTable.place (t : SeqTable) (section_ first : Nat) (steps : List SeqStep) : SeqTable :=
  match section_ with
  | 1 => { t with connect := putSteps t.connect first steps }
  | 2 => { t with string := putSteps t.string first steps }
  | _ => { t with disconnect := putSteps t.disconnect first steps }

/-- The first role channel that no channel or 0xFF names. -/
def badRole (roles : List Nat) : Option Refuse :=
  ((List.range 4).find? (fun i => decide (24 ≤ nth 0xFF roles i ∧ nth 0xFF roles i ≠ 0xFF))).map (fun i => outOfRange (4 + i))

/-- The checks of WRITE_SEQ: section 0 carries the role map, the others steps (R231, R339). -/
def seqChecks (section_ first : Nat) (roles : List Nat) (steps : List SeqStep) : List (Bool × Refuse) :=
  if section_ = 0 then [(decide (first = 0), outOfRange 1), ((badRole roles).isNone, (badRole roles).getD denied)]
  else
    [(decide (section_ ≤ 3), outOfRange 0), (decide (first < sectionMax section_), outOfRange 1),
     (decide (1 ≤ steps.length ∧ steps.length ≤ 14 ∧ first + steps.length ≤ sectionMax section_), outOfRange 2),
     ((badStep section_ steps).isNone, (badStep section_ steps).getD denied)]

/-- A step from OP, ROLE, ARG, COND, VAL, TIMEOUT, ON_FAIL. -/
def SeqStep.ofFields (f : List Nat) : SeqStep := ⟨nth 0 f 0, nth 0 f 1, nth 0 f 2, nth 0 f 3, nth 0 f 4, nth 0 f 5, nth 0 f 6⟩

/-- WRITE_SEQ: the staged table begins as a copy of the one in service (R231, R337, R339). -/
def execWriteSeq (rq : Rq) (section_ first : Nat) (roles : List Nat) (words : List (List Nat)) (s : State) :
    Host.Outcome State Fault Refusal :=
  let steps := words.map SeqStep.ofFields
  plainCmd rq 0x0622 .zero [.commission, .standby, .tripped] (fun s => seqChecks section_ first roles steps ++ [s.notFrozen])
    (fun s => s.onGuard fun g =>
      let t := g.tableStaged.getD g.table
      { g with tableStaged := some (if section_ = 0 then { t with roles := roles } else t.place section_ first steps) }) s

/-- The bytes of a step (R231). -/
def SeqStep.bytes (st : SeqStep) : List Byte :=
  le 1 st.op ++ le 1 st.role ++ le 2 st.arg ++ le 1 st.cond ++ le 1 0 ++ le 2 st.val ++ le 4 st.timeout ++ le 1 st.onFail ++ le 3 0

/-- READ_SEQ (R231, R339). -/
def execReadSeq (rq : Rq) (section_ first count buf : Nat) (s : State) : Host.Outcome State Fault Refusal :=
  readCmd rq 0x0623 .zero (fun _ =>
    [(decide (section_ ≤ 3), outOfRange 0),
     (if section_ = 0 then decide (first = 0) else decide (first < sectionMax section_), outOfRange 1),
     (if section_ = 0 then decide (count = 1) else decide (1 ≤ count ∧ count ≤ 14 ∧ first + count ≤ sectionMax section_), outOfRange 2),
     (decide (buf < 2), outOfRange 3)])
    (fun s =>
      let t := if buf = 0 then s.guard.table else s.guard.tableStaged.getD s.guard.table
      if section_ = 0 then (padTo 4 0xFF t.roles).flatMap (le 1)
      else (List.range count).flatMap (fun i => (nth SeqStep.blank (t.steps section_) (first + i)).bytes)) s

/-! ### The guard's check of a sequence table (R232, R391, R457) -/

/-- The index of the first step that performs an operation on a role. -/
def stepAt? (l : List SeqStep) (op role : Nat) : Option Nat :=
  (List.range l.length).find? (fun i => decide ((nth SeqStep.blank l i).op = op ∧ (nth SeqStep.blank l i).role = role))

/-- A role is closed by the last of some steps that acts on it. -/
def closedBy (l : List SeqStep) (role : Nat) : Bool :=
  ((l.filter (fun st => decide ((st.op = 1 ∨ st.op = 2) ∧ st.role = role))).getLast?.map (fun st => decide (st.op = 1))).getD false

/-- A step closes a role while another is not closed: the number of that step, counted from 1. -/
def closedBefore (l : List SeqStep) (role after : Nat) : Option Nat :=
  ((List.range l.length).find? (fun i =>
    decide ((nth SeqStep.blank l i).op = 1 ∧ (nth SeqStep.blank l i).role = role) && !closedBy (l.take i) after)).map (· + 1)

/-- PRECHARGE, where the section closes it at all, opens within 2 steps after each close of BANK_POS, and is not closed again: the
number of the step that breaks it, counted from 1. -/
def preLeft (l : List SeqStep) : Option Nat :=
  ((List.range l.length).find? (fun i =>
    decide ((nth SeqStep.blank l i).op = 1 ∧ (nth SeqStep.blank l i).role = 1) && (stepAt? l 1 3).isSome &&
      ((stepAt? ((l.drop (i + 1)).take 2) 2 3).isNone || (stepAt? (l.drop (i + 1)) 1 3).isSome))).map (· + 1)

/-- The rules on DISCONNECT: it begins with ZERO, opens both bank contactors within 4 steps, closes only DISCHARGE. -/
def disconnectFault (l : List SeqStep) : Option Nat :=
  let st := nth SeqStep.blank l 0
  if st.op ≠ 4 ∨ st.arg ≠ 1 then some 1
  else if (stepAt? (l.take 4) 2 1).isNone ∨ (stepAt? (l.take 4) 2 2).isNone then some (min 4 l.length)
  else ((List.range l.length).find? (fun i => decide ((nth SeqStep.blank l i).op = 1 ∧ (nth SeqStep.blank l i).role ≠ 4))).map (· + 1)

/-- A section does not end with END. -/
def noEnd (l : List SeqStep) : Bool := !l.any (fun st => decide (st.op = 0))

/-- The first rule of R232 that a table breaks at load: its row, section and step. -/
def SeqTable.loadFault (t : SeqTable) : Option (Nat × Nat × Nat) :=
  let c := SeqTable.liveSteps t.connect
  let q := SeqTable.liveSteps t.string
  let d := SeqTable.liveSteps t.disconnect
  match closedBefore c 1 2 with
  | some i => some (1, 1, i)
  | none =>
    match preLeft c with
    | some i => some (1, 1, i)
    | none =>
      match disconnectFault d with
      | some i => some (2, 3, i)
      | none =>
        match [1, 2, 3].find? (fun k => noEnd (t.steps k)) with
        | some k => some (3, k, (t.steps k).length)
        | none =>
          match closedBefore q 5 6 with
          | some i => some (3, 2, i)
          | none =>
            let pre := c.takeWhile (fun st => decide (st.op ≠ 5))
            ((closedBefore (pre ++ q) 1 2).or (preLeft (pre ++ q))).map (fun i => (1, 2, i - pre.length))

/-- The role map names CH22, CH23 or a channel whose PROFILE is not COIL (R391), or takes BANK_POS, BANK_NEG or PRECHARGE
away while the bank is connected (R457). -/
def State.rolesRefused (s : State) (t : SeqTable) : Bool :=
  t.roles.any (fun n => decide (n < 24) && (softCh n || decide (s.profile n ≠ 4))) ||
    (s.guard.connected && (List.range 3).any (fun i =>
      decide (nth 0xFF s.guard.table.roles i < 24 ∧ nth 0xFF t.roles i ≠ nth 0xFF s.guard.table.roles i)))

/-- A thermal table keeps the ordering rule (R189). -/
def Thermal.ordered (t : Thermal) : Bool :=
  decide (t.lsd < t.lthr ∧ t.lthr ≤ t.lwarn ∧ t.lwarn ≤ t.warn - 1000 ∧ t.warn ≤ t.thr ∧ t.thr < t.sd)

/-! ### EXCHANGE and DISCARD (R19, R326, R337, R346, R456) -/

/-- The first staged buffer of a mask that the guard refuses: DETAIL, rule row, [15:8], [7:0]; a role map has no rule row. -/
def State.stagedFault (s : State) (mask : Nat) : Option (Nat × Option Nat × Nat × Nat) :=
  let lim := if mask.testBit 1 then
    ((s.guard.limitsStaged.getD []).findSome? (fun e => (e.2.orderRow).map (fun r => (1, some r, keyPort e.1, 0)))) else none
  let th := if mask.testBit 2 then
    ((s.est.thermalStaged.getD []).find? (fun e => !e.2.ordered)).map (fun e => (2, some 8, keyPort e.1, 0)) else none
  let seq := if mask.testBit 3 then
    match s.guard.tableStaged with
    | none => none
    | some t =>
      match t.loadFault with
      | some (r, sec, i) => some (3, some r, sec, i)
      | none => if s.rolesRefused t then some (3, none, 0, 0) else none
    else none
  lim.or (th.or seq)

/-- STAGED_REFUSED with the table-refused event; where no table numbers the rule, its row stays open (R239, R326). -/
def State.refuseStaged (s : State) (rq : Rq) (d : Nat) (row : Option Nat) (hi lo : Nat) : State :=
  let (v, t) := s.free
  let r := row.getD (ux 16 v)
  (t.raise 0x0614 [d, r, lo]).refuse rq 0x0402 ⟨0x0402, d, r * 65536 + hi * 256 + lo⟩

/-- EXCHANGE: the guard checks the staged tables and M3 is armed; the response waits for its firing (R336, R337, R456). -/
def execExchange (rq : Rq) (mask : Nat) (s : State) : Host.Outcome State Fault Refusal :=
  .next (mailbox rq 0x0402 .zero csovt (fun s =>
    let empty := (List.range 4).find? (fun i => mask.testBit i && !s.stagedMask.testBit i)
    checked rq 0x0402 [(decide (mask < 16), malformed 0), s.notFrozen, (empty.isNone, ⟨0x0403, 2 ^ empty.getD 0, 0⟩)] (fun s =>
      match s.stagedFault mask with
      | some (d, row, hi, lo) => s.refuseStaged rq d row hi lo
      | none =>
        if !s.nvOk then s.refuse rq 0x0402 nvFault
        else (s.onSys fun y => { y with exchange := some (rq, mask) }).armM3) s) s)

/-- Staged buffers are discarded. -/
def State.discardBuffers (s : State) (mask : Nat) : State :=
  let s1 := s.when (mask.testBit 0) (·.onSched fun q => { q with inactive := none, inactiveKind := 0 })
  let s2 := s1.when (mask.testBit 1) (·.onGuard fun g => { g with limitsStaged := none })
  let s3 := s2.when (mask.testBit 2) (·.onEst fun e => { e with thermalStaged := none })
  s3.when (mask.testBit 3) (·.onGuard fun g => { g with tableStaged := none })

/-- DISCARD (R336, R337, R346). -/
def execDiscard (rq : Rq) (mask : Nat) (s : State) : Host.Outcome State Fault Refusal :=
  plainCmd rq 0x0403 .zero allModes (fun s => [(decide (mask < 16), malformed 0), s.notFrozen]) (·.discardBuffers mask) s

/-! ### The firing of M3 (R142, R143, R154, R243, R456, R457) -/

/-- The state words that the change from one image to another sets to 0 (R143). -/
def wordsCleared (old new : Image) : Nat := ((List.range 32).filter (fun i => (reconcileWord old new i 1).2)).length

/-- The image in the inactive buffer goes into service; the other one stays in the inactive buffer; every rod changes over
when it has drained; learning intervals are spoiled; the events of the exchange (R142-R144, R154, R171). -/
def State.exchangeKernel (s : State) (gen : Nat) : State :=
  match s.sched.inactive with
  | none => s
  | some im =>
    let old := s.image
    let n := wordsCleared old im
    let s1 := s.onSched fun q =>
      { q with service := some im, inactive := some old, inactiveKind := 2, past := old :: q.past, xAt := some s.clock, xgen := q.xgen + 1, faults := [],
               revert := false, wordsReset := n }
    let s2 := forEach rodNums (fun r t => t.modRod r fun q => { q with reload := true }) s1
    let s3 := forEach s2.est.configured (fun k t => t.modStr k fun q => { q with spoiled := true }) s2
    let s4 := s3.raise 0x0404 [(im.id % 65536 : Nat), (im.id / 65536 : Nat), (gen % 65536 : Nat)]
    let s5 := s4.when (decide (n ≠ 0)) (·.raise 0x0405 [n, (im.id % 65536 : Nat)])
    s5.when (decide (im.missing ≠ 0)) (·.raise 0x030A [im.missing, (im.id % 65536 : Nat)])

/-- A kernel revert falls due: the faulting image is exchanged for the inactive one (R146). -/
def State.revertKernel (s : State) (gen : Nat) : State :=
  if s.sched.revert then
    let bad := s.image.id
    match s.sched.inactive with
    | none => s.onSched fun q => { q with revert := false }
    | some im => (s.exchangeKernel gen).raise 0x0406 [(bad % 65536 : Nat), (im.id % 65536 : Nat)]
  else s

/-- The staged limit tables go into service. -/
def State.exchangeLimits (s : State) : State :=
  (forEach (s.guard.limitsStaged.getD []) (fun e t => t.modStr e.1 fun q => { q with limits := e.2 }) s).onGuard fun g =>
    { g with limitsStaged := none }

/-- The staged thermal tables go into service. -/
def State.exchangeThermal (s : State) : State :=
  (forEach (s.est.thermalStaged.getD []) (fun e t => t.modStr e.1 fun q => { q with thermal := e.2 }) s).onEst fun e =>
    { e with thermalStaged := none }

/-- A sequence table goes into service: channels that leave a role are off with CMD = 0, channels that enter one are the guard's
(R457). -/
def State.takeSeq (s : State) (t : SeqTable) : State :=
  let left := chanNums.filter (fun n => s.owned n && !t.roles.contains n)
  let came := chanNums.filter (fun n => !s.owned n && t.roles.contains n)
  let s1 := s.onGuard fun g => { g with table := t }
  let s2 := forEach left (fun n u =>
    let v := (u.onGuard fun g => { g with cmd := putBit g.cmd n false }).onLoad fun l => { l with cmd := putBit l.cmd n false }
    v.when (v.chan n).on (·.turnOff n)) s1
  s2.applyChannels came

/-- The staged sequence table goes into service (R457). -/
def State.exchangeSeq (s : State) : State :=
  match s.guard.tableStaged with
  | none => s
  | some t => (s.takeSeq t).onGuard fun g => { g with tableStaged := none }

/-- A limit table lies within the guard's bounds (R226). -/
def Limits.fits (l : Limits) : Bool := (limitChecks l.fields).all Prod.fst && l.orderRow.isNone

/-- The guard takes the tables of the configuration store that lie within its bounds; one that breaks them leaves the table in force
(R19, R453; log entry 118). -/
def State.takeStored (s : State) : State :=
  match s.guard.owed with
  | none => s
  | some o =>
    let ks := sortN (tkeys s.est.strs ++ tkeys o.limits ++ tkeys o.thermal)
    let s1 := forEach ks (fun k u => u.modStr k fun q =>
      let l := tget Limits.lfp o.limits k
      let h := tget Thermal.lfp o.thermal k
      { q with limits := if l.fits then l else q.limits, thermal := if h.ordered then h else q.thermal }) s
    let s2 := s1.when (decide (o.seq ≠ s.guard.table) && o.seq.loadFault.isNone && !s.rolesRefused o.seq) (·.takeSeq o.seq)
    s2.onGuard fun g => { g with owed := none }

/-- The response of EXCHANGE, with the first generation under the new buffers (R336, R337). -/
def State.answerExchange (s : State) (gen : Nat) : State :=
  match s.sys.exchange with
  | none => s
  | some (rq, mask) =>
    (((s.onSys fun y => { y with exchange := none }).raise 0x0104 [mask, (gen % 65536 : Nat), (gen / 65536 : Nat)]).commitCfg).respond
      ⟨0x0402, rq, 0, 0, 0, le 4 gen, [], false, false, true⟩

/-- EXCHANGE_MARK: M3 fires with M0: the store's tables at a start, the buffers named, the accepted allocations and an owed revert take effect
(R142, R146, R243, R453, R456, R457). -/
def execExchangeMark (s : State) : Host.Outcome State Fault Refusal :=
  onlyIf (s.markDue 3) (fun s =>
    let gen := if s.beam.sweptAt = some s.clock then s.beam.sweepGen else (s.beam.sweepGen + 1) % 2 ^ 32
    let mask := (s.sys.exchange.map Prod.snd).getD 0
    let s1 := (s.fireMark 3).takeStored.when (mask.testBit 0) (·.exchangeKernel gen)
    let s2 := (s1.revertKernel gen).when (mask.testBit 1) State.exchangeLimits
    let s3 := (s2.when (mask.testBit 2) State.exchangeThermal).when (mask.testBit 3) State.exchangeSeq
    s3.applyAllocs.answerExchange gen) s

end Sys2Proof.Machine
end

