-- ==== Sys2Proof/Machine/DispatchCmds.lean ====
section
/-! DEFINITION. The dispatch commands: submissions, records, resume, ledger adjustment, binding (R247, R257-R259, R263,
R264, R314, R338). -/
namespace Sys2Proof.Machine
open Sys2Proof

/-! ### Submissions (R245-R247) -/

/-- An entry as submitted: SLOT, P_TARGET, RAMP, DELETE (R246). -/
abbrev Submitted := Nat × Int × Nat × Bool

/-- The index of the first element for which a test of index and element holds. -/
def firstIdx {α : Type} (p : Nat → α → Bool) : Nat → List α → Option (Nat × α)
  | _, [] => none
  | i, x :: r => if p i x then some (i, x) else firstIdx p (i + 1) r

/-- The first entry that does not lie in a later slot than the one before it (R247). -/
def outOfOrder (l : List Submitted) : Option (Nat × Submitted) :=
  firstIdx (fun i e => decide (0 < i ∧ e.1 ≤ (nth (0, 0, 0, false) l (i - 1)).1)) 0 l

/-- The least beam time at which a slot of an accepted entry may start: ENTRY_LEAD ticks ahead (R247). -/
def State.leadTime (s : State) : Nat := s.beamTime + (max 0 (s.par 0x5108)).toNat * 65536

/-- The length of a slot in beam units (R244). -/
def State.slotLen (s : State) : Nat := max 1 s.disp.slotCyc * 65536

/-- The first slot still open to entries (R247, R326). -/
def State.firstOpen (s : State) : Nat := (s.leadTime + s.slotLen - 1) / s.slotLen

/-- The pending entries of a tenant after a submission, ascending (R247). -/
def insEntry (e : Entry) : List Entry → List Entry
  | [] => [e]
  | x :: r => if e.slot < x.slot then e :: x :: r else if e.slot = x.slot then e :: r else x :: insEntry e r

/-- One submitted entry applied to the pending entries: it replaces, joins, or deletes (R246, R247). -/
def applyEntry (p : List Entry) (e : Submitted) : List Entry :=
  if e.2.2.2 then p.filter (fun x => decide (x.slot ≠ e.1)) else insEntry ⟨e.1, e.2.1, e.2.2.1⟩ p

/-- The refusal of a submission, judged row by row of R247 at its arrival; none where it is accepted. -/
def State.submitRefuse (s : State) (t : Nat) (l : List Submitted) : Option Refuse :=
  let p := (s.tenant t).pending
  if s.disp.slotNext.isSome then some (busyWith 0x0510)
  else
    match outOfOrder l with
    | some (i, _) => some (malformed (16 * i))
    | none =>
    match firstIdx (fun _ e => decide (e.1 * s.slotLen < s.leadTime)) 0 l with
    | some (i, _) => some ⟨0x0501, 16 * i, s.firstOpen % 2 ^ 32⟩
    | none =>
    match firstIdx (fun _ e => decide ((s.alloc t true : Int) < e.2.1 ∨ (s.alloc t false : Int) < -e.2.1)) 0 l with
    | some (i, _) => some (outOfRange (16 * i + 4))
    | none =>
    match firstIdx (fun _ e => e.2.2.2 && p.all (fun x => decide (x.slot ≠ e.1))) 0 l with
    | some (i, e) => some ⟨0x0502, 16 * i, e.1⟩
    | none => if 1024 < (l.foldl applyEntry p).length then some ⟨0x0503, 0, p.length⟩ else none

/-- SUBMIT: a tenant's entries are accepted whole or not at all (R247). -/
def execSubmit (rq : Rq) (entries : List (Nat × Int × Nat × Bool)) (s : State) : Host.Outcome State Fault Refusal :=
  .next (mailbox rq 0x0500 (.self rq.tenant) allModes (fun s =>
    match s.submitRefuse rq.tenant entries with
    | some r => s.refuse rq 0x0500 r
    | none =>
      let t := s.modTenant rq.tenant fun q => { q with pending := entries.foldl applyEntry q.pending }
      t.ok rq 0x0500 (le 2 (t.tenant rq.tenant).pending.length ++ le 2 0)) s)

/-- A pending entry as 16 bytes (R246). -/
def Entry.bytes (e : Entry) : List Byte := le 4 e.slot ++ leI 4 e.target ++ le 4 e.ramp ++ le 4 0

/-- READ_SCHEDULE: up to 15 pending entries from a slot (R338). -/
def execReadSchedule (rq : Rq) (tenant fromSlot : Nat) (s : State) : Host.Outcome State Fault Refusal :=
  readCmd rq 0x0501 (.own tenant) (fun s => [(s.tenEnabled tenant, unknownObject 0)]) (fun s =>
    (((s.tenant tenant).pending.filter (fun e => decide (fromSlot ≤ e.slot))).take 15).flatMap Entry.bytes) s

/-! ### Records (R263, R264) -/

/-- DFLAGS of a tenant (R263). -/
def State.dflags (s : State) (t : Nat) : Nat :=
  let q := s.tenant t
  flag (s.stopped t) 0 + flag q.curt 1 + flag q.empty 2 + flag q.full 3 +
    flag (decide (t = 0 ∧ s.disp.binding.src ≠ 0)) 4 + flag (decide (t = 0) && s.disp.extFault) 5

/-- The tenant dispatch record (R263). -/
def State.tenantBytes (s : State) (t : Nat) : List Byte :=
  let q := s.tenant t
  let next := (q.pending.head?.map Entry.slot).getD 0xFFFFFFFF
  let ledger := if t = 0 then whOf s.remainder else whOf q.mj
  let alloc := if t = 0 then s.euseSum + s.sumStr (fun x => x.ehead) else q.eAlloc
  le 1 t ++ le 1 (s.dflags t) ++ le 2 q.pending.length ++ watts q.sched ++ watts q.deliv ++ le 4 next ++ leI 8 ledger ++
    le 8 alloc ++ leI 8 (whOf q.disSum) ++ leI 8 (whOf q.chgSum) ++ leI 8 (whOf q.curtSum) ++ le 8 0

/-- TENANT_RECORD (R263). -/
def execTenantRecord (rq : Rq) (tenant : Nat) (s : State) : Host.Outcome State Fault Refusal :=
  readCmd rq 0x0502 (.own tenant) (fun s => [(s.tenEnabled tenant, unknownObject 0)]) (·.tenantBytes tenant) s

/-- The bank dispatch record (R264). -/
def State.bankBytes (s : State) : List Byte :=
  let d := s.disp
  le 4 d.slot ++ le 2 d.tick ++ le 1 d.bflags.toNat ++ le 1 0 ++ le 8 d.slotWall.toNat ++ le 4 s.beam.freq.toNat ++
    watts d.pBank ++ watts d.pReq ++ watts d.lDis ++ watts d.lChg ++ watts d.sop.1 ++ watts d.sop.2 ++ watts d.prot.1 ++
    watts d.prot.2 ++ watts d.pDisp

/-- BANK_RECORD (R264). -/
def execBankRecord (rq : Rq) (s : State) : Host.Outcome State Fault Refusal :=
  readCmd rq 0x0503 .any (fun _ => []) State.bankBytes s

/-! ### Resume and ledgers (R257, R259, R314) -/

/-- Ringings of the stop lanes that preceded the fetch of a request (R314). -/
def State.ringsAtFetch (s : State) (rq : Rq) : Nat :=
  match (s.page rq.tenant).outstanding.find? (fun o => decide (o.1 = rq.tag)) with
  | some o => o.2.2
  | none => s.guard.stopRings

/-- A tenant's stop bit is cleared, unless it was set after the request was fetched (R259, R314). -/
def State.clearStop (s : State) (rq : Rq) (t : Nat) : State :=
  s.when (decide (tget 0 s.guard.stopAt t ≤ s.ringsAtFetch rq)) fun u =>
    u.onGuard fun g => { g with stops := g.stops.filter (fun x => decide (x ≠ t)) }

/-- RESUME (R259, R338). -/
def execResume (rq : Rq) (tenant : Nat) (s : State) : Host.Outcome State Fault Refusal :=
  plainCmd rq 0x0504 (.own tenant) allModes (fun s => [(s.tenEnabled tenant, unknownObject 0)]) (·.clearStop rq tenant) s

/-- A tenant's ledger is set, with the difference in its event (R257). -/
def State.adjustLedger (s : State) (t e : Nat) : State :=
  (s.modTenant t fun q => { q with mj := (e : Int) * 3600000 }).raise 0x0505 ((t : Int) :: wh48 ((e : Int) - whOf (s.tenant t).mj))

/-- LEDGER_ADJUST: only while the tenant delivers no power, from 0 to EALLOC (R257, R338). -/
def execLedgerAdjust (rq : Rq) (tenant e : Nat) (s : State) : Host.Outcome State Fault Refusal :=
  plainCmd rq 0x0505 .zero allModes (fun s =>
    [(decide (1 ≤ tenant), outOfRange 0), ((s.accepted? tenant).isSome, unknownObject 0),
     (decide (e ≤ ((s.accepted? tenant).map (fun a => a.2.2)).getD 0), outOfRange 8),
     (decide ((s.tenant tenant).deliv = 0), ⟨0x0504, 0, ux 32 (s.tenant tenant).deliv⟩)]) (·.adjustLedger tenant e) s

/-! ### The binding (R258) -/

/-- The greatest CH of a source (R258). -/
def bindingCh (src : Nat) : Nat := if src = 1 then 7 else if src = 2 then 15 else 0

/-- SET_BINDING (R258, R338). -/
def execSetBinding (rq : Rq) (src ch mode failsafe : Nat) (x0 : Int) (db : Nat) (gain : Int) (pmax : Nat) (s : State) :
    Host.Outcome State Fault Refusal :=
  nvWrite rq 0x0506 .zero csovt (fun _ =>
    [(decide (src ≤ 3), outOfRange 0), (decide (ch ≤ bindingCh src) || decide (src = 0), outOfRange 1),
     (decide (mode ≤ 1), outOfRange 2), (decide (failsafe ≤ 1), outOfRange 3)])
    (fun s => s.onConf fun c => { c with binding := ⟨src, ch, mode, failsafe, x0, db, gain, pmax⟩ }) s

/-- The binding record (R258). -/
def Binding.bytes (b : Binding) : List Byte :=
  le 1 b.src ++ le 1 b.ch ++ le 1 b.mode ++ le 1 b.failsafe ++ leI 4 b.x0 ++ le 4 b.db ++ leI 4 b.gain ++ le 4 b.pmax ++ le 4 0

/-- GET_BINDING (R258, R320, R338). -/
def execGetBinding (rq : Rq) (s : State) : Host.Outcome State Fault Refusal :=
  readCmd rq 0x0507 .zero (fun _ => []) (·.sys.conf.binding.bytes) s

end Sys2Proof.Machine
end

