-- ==== Sys2Proof/Machine/CanCore.lean ====
section
/-! DEFINITION. CAN FD controllers: registers, error states, transmission, reception, PCS units, alarm sources (chapter
14). -/
namespace Sys2Proof.Machine
open Sys2Proof

/-! ### Registers (R417) -/

/-- The offset of controller n's registers. -/
def canBase (n : Nat) : Nat := 0x100 + 0x40 * n

/-- The controller an offset of the controllers' registers belongs to, with the place in it. -/
def canPlace (off : Nat) : Nat × Nat := ((off - 0x100) / 0x40, (off - 0x100) % 0x40)

/-- CAN_ALM.ALM_BASE. -/
def State.almBase (s : State) : Nat := wfld (s.canReg 4) 26 16
/-- ALM_LOST in ticks. -/
def State.almLost (s : State) : Nat := ms (wfld (s.canReg 4) 7 0 * 100)
/-- CAN_DRV.EN. -/
def State.drvEn (s : State) : Bool := bit (s.canReg 8) 31
/-- CAN_DRV.CH. -/
def State.drvCh (s : State) : Nat := wfld (s.canReg 8) 30 28
/-- CAN_DRV.DRV_BASE. -/
def State.drvBase (s : State) : Nat := wfld (s.canReg 8) 26 16

/-- RETRY of controller n. -/
def State.canRetry (s : State) (n : Nat) : Nat := wfld (s.canCfg n) 31 24
/-- FD_EN of controller n. -/
def State.canFd (s : State) (n : Nat) : Bool := bit (s.canCfg n) 8
/-- The offsets of the CAN block's map (R417). -/
def canKnown (off : Nat) : Bool :=
  decide (off % 4 = 0) && (decide (off ≤ 8) || decide (0x100 ≤ off ∧ off < 0x300 ∧ off % 0x40 ≤ 0x20) ||
    decide (0x400 ≤ off ∧ off < 0x800 ∧ off % 0x80 ≤ 0x48) || decide (0x1000 ≤ off ∧ off < 0x9000))

/-- The bits of a writable CAN register (R417, R415); 0 for one that stores nothing. -/
def canMask (off : Nat) : Nat :=
  if off = 0 then 0xF7FF001F
  else if off = 4 then 0x07FF00FF
  else if off = 8 then 0xF7FFFFFF
  else if 0x100 ≤ off ∧ off < 0x300 then
    match off % 0x40 with
    | 0x00 => 0xFF00011D
    | 0x04 => 0xFFFFFFFE
    | 0x08 => 0xF81F1F1F
    | 0x0C => 0x000001FF
    | _ => 0
  else if 0x1000 ≤ off then (if off % 8 = 0 then 0xFFFFFFFF else 0x9FFFFFFF)
  else 0

/-! ### Identifier plan (R410) -/

/-- Channels on which MAP_ALARM has mapped a source. -/
def alarmChans (alarms : Tbl (List Nat)) : List Nat := sortN ((tkeys alarms).map (· / 64))

/-- The ranges reserved on a channel, as first and last identifiers (R410). -/
def State.reserved (s : State) (alarms : Tbl (List Nat)) (ch : Nat) : List (Nat × Nat) :=
  (if (alarmChans alarms).contains ch then [(s.almBase, s.almBase + 0x3F)] else []) ++
    (if s.pcsEn && decide (s.pcsCh = ch) then [(s.pcsBase, s.pcsBase + 0x1F)] else []) ++
    (if s.drvEn && decide (s.drvCh = ch) then [(s.drvBase, s.drvBase + 3)] else [])

/-- No two of a list of ranges overlap and none includes 0 (R410). -/
def rangesApart : List (Nat × Nat) → Bool
  | [] => true
  | r :: rest => decide (r.1 ≠ 0) && rest.all (fun q => decide (r.2 < q.1 ∨ q.2 < r.1)) && rangesApart rest

/-- The reserved ranges of every channel are apart (R410). -/
def State.planOk (s : State) (alarms : Tbl (List Nat)) : Bool := (List.range 8).all (fun ch => rangesApart (s.reserved alarms ch))

/-! ### Timing rules (R399) -/

/-- The timing of controller n keeps the rules of R399 and the field ranges of R417; rates in terms of 80 MHz clocks a
bit. -/
def State.timingOk (s : State) (n : Nat) : Bool :=
  let nb := s.canReg (canBase n + 4)
  let db := s.canReg (canBase n + 8)
  let brp := wfld nb 31 26
  let t1 := wfld nb 25 17
  let t2 := wfld nb 16 9
  let sj := wfld nb 8 1
  let dbrp := wfld db 31 27
  let d1 := wfld db 20 16
  let d2 := wfld db 12 8
  let dj := wfld db 4 0
  let nd := brp * (1 + t1 + t2)
  let dd := dbrp * (1 + d1 + d2)
  decide (1 ≤ brp ∧ brp ≤ 32 ∧ 2 ≤ t1 ∧ t1 ≤ 256 ∧ 1 ≤ t2 ∧ t2 ≤ 128 ∧ 1 ≤ sj ∧ sj ≤ 128 ∧ sj ≤ t2) &&
    decide (1 ≤ dbrp ∧ dbrp ≤ 16 ∧ 1 ≤ d1 ∧ d1 ≤ 31 ∧ 1 ≤ d2 ∧ d2 ≤ 16 ∧ 1 ≤ dj ∧ dj ≤ 16 ∧ dj ≤ d2) &&
    decide (80 ≤ nd ∧ nd ≤ 8000 ∧ 10 ≤ dd ∧ dd ≤ nd) && (!bit (s.canCfg n) 4 || decide (640 ≤ nd)) &&
    (bit (s.canReg (canBase n + 12)) 8 || decide (80 ≤ dd))

/-- A filter element keeps R415: identifiers within 0x7FF when standard, a range rising. -/
def State.filterOk (s : State) (off : Nat) : Bool :=
  let w0 := s.canReg (off / 8 * 8)
  let w1 := s.canReg (off / 8 * 8 + 4)
  (bit w0 29 || decide (wfld w0 28 0 ≤ 0x7FF ∧ wfld w1 28 0 ≤ 0x7FF)) &&
    (decide (wfld w0 31 30 ≠ 1) || decide (wfld w0 28 0 ≤ wfld w1 28 0))

/-- A written word keeps its register's ranges and rules, judged on the block as the whole write would leave it (R323,
R399, R410, R415, R417). -/
def State.canWordOk (s : State) (off : Nat) : Bool :=
  let w := s.canReg off
  if off = 0 then decide (1 ≤ wfld w 26 16 ∧ wfld w 26 16 ≤ 0x7E0 ∧ 1 ≤ wfld w 4 0 ∧ wfld w 4 0 ≤ 16) && s.planOk s.sys.conf.alarms
  else if off = 4 then
    decide (1 ≤ wfld w 26 16 ∧ wfld w 26 16 ≤ 0x7C0 ∧ 10 ≤ wfld w 7 0 ∧ wfld w 7 0 ≤ 100) && s.planOk s.sys.conf.alarms
  else if off = 8 then
    decide (1 ≤ wfld w 26 16 ∧ wfld w 26 16 ≤ 0x7FC ∧ 10 ≤ wfld w 15 0 ∧ wfld w 15 0 ≤ 10000) && s.planOk s.sys.conf.alarms
  else if 0x100 ≤ off ∧ off < 0x300 then
    let p := canPlace off
    match p.2 with
    | 0x00 => decide (1 ≤ wfld w 31 24) && s.timingOk p.1
    | 0x04 | 0x08 => s.timingOk p.1
    | 0x0C => decide (wfld w 7 0 ≤ 127) && s.timingOk p.1
    | _ => true
  else if 0x1000 ≤ off then s.filterOk off
  else true

/-! ### Error states (R403) -/

/-- The state that the error counters give (R403). -/
def Ctrl.ofCounters (c : Ctrl) : Nat := if 255 < c.tec then 2 else if 127 < c.tec ∨ 127 < c.rec_ then 1 else 0

/-- COUNT as it stands. -/
def Ctrl.count (c : Ctrl) : Nat := c.noAck * 65536 + c.busOffs

/-- An EVENT bit sets (R9, R417). -/
def Ctrl.mark (c : Ctrl) (clock i : Nat) : Ctrl := { c with event := putBit c.event i true, evNew := noteBits clock c.evNew (2 ^ i) }

/-- COUNT is about to count (R9). -/
def Ctrl.counts (c : Ctrl) (clock : Nat) : Ctrl := { c with cntOld := noteOld clock c.cntOld c.count }

/-- BUS_OFF: TEC exceeds 255: counted, with its event, the queue held (R403). -/
def State.busOff (s : State) (n : Nat) : State :=
  (s.modCtrl n fun c =>
    { (c.mark s.clock 1).counts s.clock with
        estate := 2, busOffs := sat16 (c.busOffs + 1), offAt := some s.clock, probeAt := none, onBus := none }).raise 0x0B02 [n, ((s.ctrl n).lec : Nat)]

/-- A controller's state follows its counters: entering error-passive and bus-off with their events; ALONE stays (R403,
R404). -/
def State.followErrors (s : State) (n : Nat) : State :=
  let c := s.ctrl n
  let e := c.ofCounters
  if c.estate = 2 then s
  else if e = 2 then s.busOff n
  else if c.estate = 3 then s
  else
    (s.modCtrl n fun c => { (if e = 1 ∧ c.estate = 0 then c.mark s.clock 0 else c) with estate := e }).when
      (decide (e = 1 ∧ c.estate = 0)) (·.raise 0x0B01 [n, min 255 c.tec, c.rec_])

/-! ### Transmission (R401, R402, R404) -/

/-- ALONE ends: the state that the counters give, the queue and the buffers resume, with the probes sent (R405). -/
def State.leaveAlone (s : State) (n : Nat) : State :=
  if (s.ctrl n).estate = 3 then
    ((s.modCtrl n fun c =>
      { c.mark s.clock 3 with estate := c.ofCounters, probeAt := none, probes := 0 }).startFrame n).raise 0x0B05
        [n, (sat16 (s.ctrl n).probes : Nat)]
  else s

/-- The transmit error counter after a failed attempt: 8 more, but for the acknowledgement error of an error-passive
transmitter (R403). -/
def tecFail (tec rec_ code : Nat) : Nat := if code = 3 ∧ (127 < tec ∨ 127 < rec_) then tec else tec + 8

/-- A queue with the message sent next at its head (R401, R404). -/
def headFirst (q : List TxMsg) : List TxMsg :=
  match firstMsg q with
  | some (p, m) => m :: q.eraseIdx p
  | none => []

/-- RETRY_LIMIT: a message's attempts are used up: removed, and either counted as failed or counted in NO_ACK and the
controller enters ALONE (R402, R404). -/
def State.retryLimit (s : State) (n place : Nat) (m : TxMsg) (code : Nat) : State :=
  let s1 := s.modCtrl n fun c => { c with queue := headFirst (c.queue.eraseIdx place) }
  if code ≠ 3 then s1.modCtrl n fun c => { c with failed := c.failed + 1 }
  else
    let s2 := s1.modCtrl n fun c =>
      { (c.mark s.clock 5).counts s.clock with noAck := sat16 (c.noAck + 1) }
    if (s2.ctrl n).estate = 2 then s2
    else
      (s2.modCtrl n fun c =>
        { c.mark s.clock 2 with estate := 3, probeAt := some s.clock, probes := 0, onBus := none }).raise 0x0B04
          [n, (m.frame.id % 65536 : Nat)]

/-- A controller has sent its frame: a message leaves the queue, a buffer empties unless a newer frame has replaced it; TEC falls
by 1 (R401, R405, R418). -/
def Ctrl.sent (c : Ctrl) (what : Sent) : Ctrl :=
  { c with integrating := false, tec := c.tec - 1,
           queue := (match what with | .message p => c.queue.eraseIdx p | .buffer _ _ => c.queue),
           ded := (match what with | .buffer i renewed => if renewed then c.ded else tdel c.ded i | .message _ => c.ded) }

/-- An attempt of a controller ends: 0 success, else the error; what is sent next is chosen then (R401-R404, R417 LEC). -/
def State.txEnd (s : State) (n code : Nat) : State :=
  match (s.ctrl n).onBus.or (s.ctrl n).next with
  | none => s
  | some what =>
    if code = 0 then ((s.modCtrl n fun c => c.sent what).followErrors n).chooseAgain n
    else
      let s1 := s.modCtrl n fun c => { c with integrating := false, lec := code, tec := tecFail c.tec c.rec_ code }
      let s2 := s1.followErrors n
      let s3 := match what with
        | .buffer _ _ => s2
        | .message p =>
          match (s.ctrl n).queue[p]? with
          | none => s2
          | some m =>
            if m.limit < m.tries + 1 then s2.retryLimit n p m code
            else s2.modCtrl n fun c => { c with queue := putNth c.queue p { m with tries := m.tries + 1 } }
      s3.chooseAgain n

/-- The guard's engine ends an attempt: a sent frame is done, a failed one is attempted again; bus-off recovers at once
(R408, R409). -/
def State.guardTxEnd (s : State) (code : Nat) : State :=
  s.onCan fun c =>
    if c.guardTx.isNone then c
    else if code = 0 then { c with guardTx := none, guardTec := c.guardTec - 1 }
    else
      let t := tecFail c.guardTec c.guardRec code
      { c with guardTec := if 255 < t then 0 else t, guardRec := if 255 < t then 0 else c.guardRec }

/-- A frame on a channel cannot end well: the guard's frame, identifier 0x000, waits there and wins arbitration; only a frame that
was on the bus when it came up still ends (R27, R407). -/
def State.guardWins (s : State) (n : Nat) : Bool := s.guardWaits n && !s.can.guardPass

/-- A frame has ended on a channel: none is on the bus any more that the guard's frame waits for (R27, R407). -/
def State.framePassed (s : State) (n : Nat) : State := s.when (s.guardOn n) (·.onCan fun c => { c with guardPass := false })

/-- CAN_TX_COMPLETE: a transmission of a controller, or of the guard's engine on the PCS channel, ends with a result of
LEC, 0 for success; none succeeds while the guard's frame wins (R27, R401-R404, R409). -/
def execCanTxComplete (ch : Nat) (guard : Bool) (result : Nat) (s : State) : Host.Outcome State Fault Refusal :=
  if guard then onlyIf (s.guardOn ch && s.analogue) (fun s => (s.guardTxEnd result).chooseAgain ch) s
  else onlyIf (s.sends ch && ((s.ctrl ch).onBus.isSome || !s.guardWaits ch) && !(decide (result = 0) && s.guardWins ch))
    (fun s => (s.framePassed ch).txEnd ch result) s

/-- A probe is due: 100 ms have passed since ALONE was entered or the last probe, and a message heads the queue (R404). -/
def State.probeDue (s : State) (n : Nat) : Bool :=
  !(s.ctrl n).queue.isEmpty && !s.canListen n && s.elapsed? (s.ctrl n).probeAt (ms 100)

/-- A probe has been sent and acknowledged: it leaves the queue, TEC falls by 1 (R405). -/
def State.probed (s : State) (n : Nat) : State :=
  s.modCtrl n fun c => { c with probeAt := some s.clock, probes := c.probes + 1, tec := c.tec - 1, queue := c.queue.drop 1 }

/-- ALONE_PROBE: 100 ms after the last, the message at the head of the queue is sent with one attempt; acknowledged, it
ends ALONE (R404, R405). -/
def execAloneProbe (ch result : Nat) (s : State) : Host.Outcome State Fault Refusal :=
  onlyIf (s.canLive ch && decide ((s.ctrl ch).estate = 3) && s.probeDue ch)
    (fun s =>
      if result = 0 then (s.probed ch).leaveAlone ch
      else (s.modCtrl ch fun c =>
        { c with probeAt := some s.clock, probes := c.probes + 1, lec := result,
                 tec := tecFail c.tec c.rec_ result }).followErrors ch) s

/-- ALONE_LEFT: a probe, due then and counted, has been acknowledged, or a valid frame received (R404, R405). -/
def execAloneLeft (ch : Nat) (acknowledged : Bool) (s : State) : Host.Outcome State Fault Refusal :=
  onlyIf (s.canLive ch && decide ((s.ctrl ch).estate = 3) && (!acknowledged || s.probeDue ch)) (fun s =>
    (s.when acknowledged (·.probed ch)).leaveAlone ch) s

/-- A controller enters operation: its counters are 0 and it integrates on 11 recessive bits (R400, R403). -/
def Ctrl.enter (c : Ctrl) : Ctrl :=
  { c with tec := 0, rec_ := 0, estate := 0, offAt := none, probeAt := none, probes := 0, integrating := true, retime := none,
           onBus := none }

/-- A bus-off controller rejoins, with its event (R403). -/
def State.rejoinBus (s : State) (n : Nat) : State :=
  let t := (s.modCtrl n Ctrl.enter).startFrame n
  if (s.ctrl n).estate = 2 then t.raise 0x0B03 [n, (sat16 (s.msSince ((s.ctrl n).offAt.getD s.clock)) : Nat)] else t

/-- BUS_OFF_RECOVERY: with AUTO_BO, 1 s after bus-off and 128 occurrences of 11 recessive bits, the controller rejoins
(R403). -/
def execBusOffRecovery (ch sequences : Nat) (s : State) : Host.Outcome State Fault Refusal :=
  onlyIf (decide (ch < 8) && s.canEn ch && decide ((s.ctrl ch).estate = 2) && bit (s.canCfg ch) 2 &&
    s.elapsed? (s.ctrl ch).offAt (secs 1) && decide (128 ≤ sequences)) (·.rejoinBus ch) s

/-- CAN_RECEIVE_ERROR: a controller detects an error on a frame it is receiving: REC rises by 1, by 8 where the first bit
after its error flag is dominant (R403). -/
def execCanReceiveError (ch lec : Nat) (primary : Bool) (s : State) : Host.Outcome State Fault Refusal :=
  onlyIf (s.canLive ch) (fun s =>
    let up := if primary then 8 else 1
    let s1 := s.modCtrl ch fun c => { c with lec := lec, rec_ := satN 255 (c.rec_ + up) }
    ((s1.when (s.guardOn ch) (·.onCan fun c => { c with guardRec := satN 255 (c.guardRec + up) })).followErrors ch).chooseAgain ch) s

/-- A frame that was in progress when a controller's timing was written still is (R400). -/
def Ctrl.holdsTiming (c : Ctrl) : Bool := c.onBus.isSome && c.retime.any (fun t => decide (c.busAt < t))

/-- CAN_TIMING_WRITE: a timing write takes effect after the frame in progress: the counters are 0 and the controller
integrates again, its queue kept (R400). -/
def execCanTimingWrite (ch : Nat) (s : State) : Host.Outcome State Fault Refusal :=
  onlyIf (decide (ch < 8) && s.canEn ch && (s.ctrl ch).retime.isSome && !(s.ctrl ch).holdsTiming) (fun s => s.modCtrl ch fun c =>
    if c.estate = 2 then { c with retime := none }
    else { c with retime := none, tec := 0, rec_ := 0, estate := if c.estate = 3 then 3 else 0, integrating := true }) s

/-- EN is cleared on a controller: its queue, dedicated buffers and receive FIFO are emptied (R418). -/
def State.canDisable (s : State) (n : Nat) : State :=
  (s.setCan (canBase n) (putBit (s.canCfg n) 0 false)).modCtrl n fun c =>
    { c with queue := [], ded := [], onBus := none, fifo := [], retime := none }

/-- CAN_DISABLE (R418). -/
def execCanDisable (ch : Nat) (s : State) : Host.Outcome State Fault Refusal :=
  onlyIf (decide (ch < 8) && s.canEn ch) (·.canDisable ch) s

/-- The head frame leaves a receive FIFO (R416). -/
def Ctrl.pop (c : Ctrl) : Ctrl := { c with fifo := c.fifo.drop 1, ovr := false }

/-- POP (R416). -/
def execPop (ch : Nat) (s : State) : Host.Outcome State Fault Refusal :=
  onlyIf (decide (ch < 8)) (·.modCtrl ch Ctrl.pop) s

/-! ### Reception (R405, R415, R416) -/

/-- A filter element matches a frame (R415). -/
def filterHits (w0 w1 : Word) (f : Frame) : Bool :=
  let a := wfld w0 28 0
  let b := wfld w1 28 0
  (bit w0 29 == f.xtd) &&
    (match wfld w0 31 30 with
     | 1 => decide (a ≤ f.id ∧ f.id ≤ b)
     | 2 => decide (f.id = a ∨ f.id = b)
     | 3 => decide (f.id &&& b = a &&& b)
     | _ => false)

/-- The first filter element of a controller that matches a frame (R415). -/
def State.filterFor? (s : State) (n : Nat) (f : Frame) : Option Nat :=
  (List.range 512).find? (fun k => filterHits (s.canReg (0x1000 + 0x1000 * n + 8 * k)) (s.canReg (0x1004 + 0x1000 * n + 8 * k)) f)

/-- A frame enters the receive FIFO; a full FIFO discards and counts it, with an event at most once a second (R416). -/
def State.storeFrame (s : State) (n k : Nat) (f : Frame) : State :=
  let c := s.ctrl n
  if c.fifo.length < 128 then
    s.modCtrl n fun c => { c with fifo := c.fifo ++ [⟨f, k, BitVec.ofNat 32 s.beam.angleWord⟩] }
  else
    let tell := match c.ovfAt with | some t => s.elapsed t (secs 1) | none => true
    let s1 := s.modCtrl n fun c =>
      { c.mark s.clock 4 with
        rxLost := sat16 (c.rxLost + 1), ovr := true, lostOld := noteOld s.clock c.lostOld c.rxLost,
        ovfAt := if tell then some s.clock else c.ovfAt }
    s1.when tell (·.raise 0x0B06 [n, (sat16 (c.rxLost + 1) : Nat)])

/-- A frame is matched against the filter list: the first matching element decides it (R415). -/
def State.filterFrame (s : State) (n : Nat) (f : Frame) : State :=
  match s.filterFor? n f with
  | some k => if bit (s.canReg (0x1004 + 0x1000 * n + 8 * k)) 31 then s.storeFrame n k f else s
  | none => s

/-- CAN_STALE of a unit: that of the measurement group that takes its current, else the default (R180, R412). -/
def State.canStale (s : State) (u : Nat) : Nat :=
  match s.est.groups.find? (fun g => decide (nth 0 g.2 0 = 2 ∧ nth 0 g.2 2 = u)) with
  | some g => ms (max 0 (s.parGrp 0x3105 g.1)).toNat
  | none => ms 100

/-- A unit becomes stale, with its event (R412). -/
def State.unitStale (s : State) (u : Nat) : State :=
  (s.modUnit u fun x => { x with stale := true }).raise 0x0B07 [u]

/-- A status frame of a PCS unit is decoded: its figures, staleness after three frames with one COUNT, its return, FAULT
(R412). -/
def State.unitFrame (s : State) (u : Nat) (d : List Byte) : State :=
  let x := s.unit u
  let count := rdle d 7 1
  let st := rdle d 6 1
  let same := if x.count = some count then satN 3 (x.same + 1) else 1
  let faultNow := st.testBit 2 && (x.count.isNone || !bit x.state 2)
  let s1 := s.modUnit u fun x =>
    { x with iDc := sx 32 (rdle d 0 4), vDc := rdle d 4 2, state := BitVec.ofNat 8 st, count := some count, same := same,
             at_ := some s.clock, told := true }
  let s2 := if x.stale ∧ same = 1 then (s1.modUnit u fun x => { x with stale := false }).raise 0x0B08 [u]
    else if x.stale = false ∧ same = 3 then s1.unitStale u else s1
  s2.when faultNow (·.raise 0x0B09 [u, st])

/-- The mapped kind of an alarm source is requested of the guard at its scope (R339, R413). -/
def State.requestAlarm (s : State) (ch src : Nat) : State :=
  match tfind? s.guard.alarms (ch * 64 + src) with
  | some m =>
    let kind := nth 0 m 0
    let ps : List Int := [ch, src, kind]
    if kind ≤ 2 then s.ask kind none 0x060C ps true true
    else if nth 0 m 1 = 255 then forEach s.est.configured (fun k t => t.ask kind (some k) 0x060C ps true true) s
    else s.ask kind (some (strKey (nth 0 m 1) (nth 0 m 2))) 0x060C ps true true
  | none => s

/-- A mapped alarm source's frame is decoded (R413): STATE with its events, and the mapped kind when the source enters
alarm or device fault from normal or pre-alarm. -/
def State.alarmFrame (s : State) (ch src : Nat) (d : List Byte) : State :=
  let k := ch * 64 + src
  let a := s.alarm k
  let st := min 3 (rdle d 0 1)
  let count := rdle d 1 1
  let fresh := decide (a.count ≠ some count)
  let silent := a.silent && !fresh
  let bad := decide (2 ≤ a.state) || a.silent
  let s1 := s.modAlarm k fun a =>
    { a with state := st, count := some count, at_ := if fresh then some s.clock else a.at_, silent := silent }
  let s2 := s1.when (decide (st = 1 ∧ a.state ≠ 1)) (·.raise 0x0B0A [ch, src])
  let s3 := s2.when (decide (st = 3 ∧ a.state ≠ 3)) (·.raise 0x0B0B [ch, src, 1])
  let s4 := s3.when (decide (st = 0) && !silent && (decide (a.state ≠ 0) || a.silent)) (·.raise 0x0B0C [ch, src])
  s4.when (decide (2 ≤ st) && !bad) (·.requestAlarm ch src)

/-- The mapped alarm source a frame comes from (R413). -/
def State.alarmSource? (s : State) (n : Nat) (f : Frame) : Option Nat :=
  if f.xtd ∨ f.fdf ∨ f.data.length < 2 ∨ f.id < s.almBase ∨ s.almBase + 0x3F < f.id then none
  else if (tfind? s.guard.alarms (n * 64 + (f.id - s.almBase))).isSome then some (f.id - s.almBase) else none

/-- The PCS unit a frame comes from (R412). -/
def State.pcsUnit? (s : State) (n : Nat) (f : Frame) : Option Nat :=
  if !s.guardOn n ∨ f.xtd ∨ f.fdf ∨ f.data.length ≠ 8 ∨ f.id < s.pcsBase + 0x10 then none
  else if f.id - (s.pcsBase + 0x10) < s.pcsUnits then some (f.id - (s.pcsBase + 0x10)) else none

/-- What the firmware takes from a received frame while it runs (R412, R413, R415). -/
def State.takeFrame (s : State) (n : Nat) (f : Frame) : State :=
  if s.sys.run ≠ .running then s
  else
    let s1 := match s.pcsUnit? n f with | some u => s.unitFrame u f.data | none => s
    match s1.alarmSource? n f with | some a => s1.alarmFrame n a f.data | none => s1

/-- REC after a good reception: 1 less, and from above 127 a value of 119 to 127, which the standard leaves open (R403). -/
def State.recDown (s : State) (n : Nat) : State :=
  if 127 < (s.ctrl n).rec_ then
    let (v, t) := s.free
    t.modCtrl n fun c => { c with rec_ := 119 + (v % 9).toNat }
  else s.modCtrl n fun c => { c with rec_ := c.rec_ - 1 }

/-- A good frame has been received: a protocol exception, or the counters fall, ALONE ends, the firmware takes it, and the
filter list decides it; a remote frame is discarded (R397, R403, R405, R415, R417). -/
def State.receive (s : State) (n : Nat) (f : Frame) (remote : Bool) : State :=
  if f.fdf && !s.canFd n then s.modCtrl n fun c => { c with pxe := true, integrating := true }
  else
    let s1 := ((s.modCtrl n fun c => { c with integrating := false }).recDown n).when (s.guardOn n) (·.onCan fun c =>
      { c with guardRec := c.guardRec - 1 })
    let s2 := (s1.followErrors n).leaveAlone n
    let s3 := s2.chooseAgain n
    if remote then s3 else (s3.takeFrame n f).filterFrame n f

/-- CAN_FRAME_RECEIVED: a controller has received a frame without an error (R415). -/
def execCanFrameReceived (ch : Nat) (xtd fdf brs remote : Bool) (id : Nat) (data : List Byte) (s : State) :
    Host.Outcome State Fault Refusal :=
  onlyIf (s.canLive ch && !s.guardWins ch) (fun s => (s.framePassed ch).receive ch ⟨xtd, fdf, brs, id, data⟩ remote) s

/-- PCS_STATUS_FRAME: a unit's status frame arrives on the PCS channel (R412). -/
def execPcsStatusFrame (unit : Nat) (iDc : Int) (vDc state count : Nat) (s : State) : Host.Outcome State Fault Refusal :=
  onlyIf (s.pcsEn && decide (unit < s.pcsUnits) && s.canLive s.pcsCh && !s.guardWins s.pcsCh) (fun s =>
    (s.framePassed s.pcsCh).receive s.pcsCh ⟨false, false, false, s.pcsBase + 0x10 + unit, leI 4 iDc ++ le 2 vDc ++ le 1 state ++ le 1 count⟩ false) s

/-- PCS_UNIT_STALE: a unit's last frame is older than CAN_STALE; a unit never heard from is told of once (R412). -/
def execPcsUnitStale (unit : Nat) (s : State) : Host.Outcome State Fault Refusal :=
  let x := s.unit unit
  let old := match x.at_ with
    | some t => !x.stale && s.elapsed t (s.canStale unit + 1)
    | none => !x.told && s.elapsed s.can.pcsAt (s.canStale unit)
  onlyIf (s.pcsEn && decide (unit < s.pcsUnits ∧ s.sys.run = .running) && old) (fun s =>
    (s.modUnit unit fun x => { x with told := true }).unitStale unit) s

/-- ALARM_FRAME: a mapped alarm source's frame arrives (R413). -/
def execAlarmFrame (ch source state count : Nat) (s : State) : Host.Outcome State Fault Refusal :=
  onlyIf (s.canLive ch && (tfind? s.guard.alarms (ch * 64 + source)).isSome && !s.guardWins ch) (fun s =>
    (s.framePassed ch).receive ch ⟨false, false, false, s.almBase + source, le 1 state ++ le 1 count⟩ false) s

/-- ALARM_SOURCE_LOST: a mapped source has sent no new COUNT for ALM_LOST (R413). -/
def execAlarmSourceLost (ch source : Nat) (s : State) : Host.Outcome State Fault Refusal :=
  let k := ch * 64 + source
  let a := s.alarm k
  onlyIf ((tfind? s.guard.alarms k).isSome && decide (s.sys.run = .running) && !a.silent && s.elapsed? a.at_ s.almLost) (fun s =>
    ((s.modAlarm k fun a => { a with silent := true }).raise 0x0B0B [ch, source, 2]).when (decide (a.state < 2))
      (·.requestAlarm ch source)) s

/-! ### The commands (R343, R344, R401, R417) -/

/-- STAT of a controller (R417). -/
def Ctrl.stat (c : Ctrl) : Nat :=
  min 255 c.tec * 2 ^ 24 + c.rec_ % 256 * 2 ^ 16 + c.estate * 256 + c.lec * 32 + flag c.pxe 4 + flag c.ovr 3 +
    flag (!c.fifo.isEmpty) 2 + flag (decide (64 ≤ c.queue.length)) 1

/-- A word of the RX window: the head frame (R416). -/
def RxMsg.word (m : RxMsg) (i : Nat) : Nat :=
  match i with
  | 0 => flag m.frame.xtd 31 + flag m.frame.fdf 30 + flag m.frame.brs 29 + m.frame.id
  | 1 => m.frame.data.length * 65536 + m.filter
  | 2 => m.angle.toNat
  | _ => rdle m.frame.data (4 * (i - 3)) 4

/-- A CAN register as read (R416, R417): an RX window without a head frame shows a free value (log entry 1). -/
def State.canValue (s : State) (off : Nat) : Word :=
  if 0x100 ≤ off ∧ off < 0x300 then
    let p := canPlace off
    let c := s.ctrl p.1
    match p.2 with
    | 0x10 => BitVec.ofNat 32 c.stat
    | 0x14 => BitVec.ofNat 32 (rcShown s.clock c.cntOld c.count)
    | 0x18 => BitVec.ofNat 32 c.event.toNat
    | 0x1C => BitVec.ofNat 32 (rcShown s.clock c.lostOld c.rxLost * 65536 + c.fifo.length)
    | 0x20 => 0
    | _ => s.canReg off
  else if 0x400 ≤ off ∧ off < 0x800 then
    match (s.ctrl ((off - 0x400) / 0x80)).fifo with
    | m :: _ => BitVec.ofNat 32 (m.word ((off - 0x400) % 0x80 / 4))
    | [] => BitVec.ofInt 32 s.free.1
  else s.canReg off

/-- What reading a CAN register does: PXE and the RC fields clear, a free value is taken (R9, R417). -/
def State.canAfter (s : State) (off : Nat) : State :=
  if 0x100 ≤ off ∧ off < 0x300 then
    let p := canPlace off
    match p.2 with
    | 0x10 => s.modCtrl p.1 fun c => { c with pxe := false }
    | 0x14 => s.modCtrl p.1 fun c =>
        let w := rcLeft s.clock c.cntOld c.count
        { c with noAck := w / 65536, busOffs := w % 65536, cntOld := rcNote s.clock c.cntOld }
    | 0x1C => s.modCtrl p.1 fun c =>
        { c with rxLost := rcLeft s.clock c.lostOld c.rxLost, lostOld := rcNote s.clock c.lostOld }
    | _ => s
  else if 0x400 ≤ off ∧ off < 0x800 ∧ (s.ctrl ((off - 0x400) / 0x80)).fifo = [] then s.free.2
  else s

/-- CAN_READ (R343, R417). -/
def execCanRead (rq : Rq) (off count : Nat) (s : State) : Host.Outcome State Fault Refusal :=
  regRead rq 0x0B00 off count canKnown State.canValue State.canAfter s

/-- The frames of a function that has moved or stopped leave the dedicated buffers (R406, R414). -/
def State.dropBuffers (s : State) (n base count : Nat) : State :=
  (s.modCtrl n fun c => (List.range count).foldl (fun c k => c.unplace (base + k)) c).startFrame n

/-- A register word is written with what follows from it (R400, R403, R406, R412, R416, R417). -/
def State.canPut (s : State) (off w : Nat) : State :=
  let v : Word := BitVec.ofNat 32 (w &&& canMask off)
  if off = 0 then
    let on := bit v 31
    let s1 := if on then s else s.onCan fun c => { c with guardTx := none }
    let s2 := s1.when (s.pcsEn && decide (v ≠ s.canReg 0)) (·.dropBuffers s.pcsCh s.pcsBase 1)
    let s3 := s2.setCan 0 v
    s3.when (on && !s.pcsEn) (fun t => t.onCan fun c => { c with units := [], pcsAt := t.clock })
  else if off = 8 then (s.when (s.drvEn && decide (v ≠ s.canReg 8)) (·.dropBuffers s.drvCh s.drvBase 4)).setCan 8 v
  else if 0x100 ≤ off ∧ off < 0x300 then
    let p := canPlace off
    match p.2 with
    | 0x00 =>
      let s1 := s.when (s.canEn p.1 && !bit v 0) (·.canDisable p.1)
      let s2 := s1.setCan off v
      if bit v 0 && !s.canEn p.1 then s2.rejoinBus p.1
      else if s2.canListen p.1 then s2.modCtrl p.1 fun c => { c with onBus := none }
      else s2.startFrame p.1
    | 0x04 | 0x08 | 0x0C => (s.setCan off v).when (s.canEn p.1) (·.modCtrl p.1 fun c => { c with retime := some s.clock })
    | 0x18 => s.modCtrl p.1 fun c => { c with event := w1c s.clock c.evNew c.event (BitVec.ofNat 6 w) }
    | 0x20 => s.when (w.testBit 0) (·.modCtrl p.1 Ctrl.pop)
    | _ => s
  else if 0x400 ≤ off ∧ off < 0x1000 then s
  else s.setCan off v

/-- The block as a whole write would leave its stored words. -/
def State.canProposed (s : State) (l : List (Nat × Nat)) : State :=
  l.foldl (fun t e => if canMask e.1 = 0 then t else t.setCan e.1 (BitVec.ofNat 32 (e.2 &&& canMask e.1))) s

/-- CAN_WRITE: every word is judged on the block as the whole write leaves it, before any is written (R323, R343, R399,
R410, R417). -/
def execCanWrite (rq : Rq) (off : Nat) (data : List Nat) (s : State) : Host.Outcome State Fault Refusal :=
  .next (mailbox rq 0x0B01 .zero [.commission, .standby, .tripped] (fun s =>
    checked rq 0x0B01 (writeChecks 0x0B01 canKnown off data) (fun s =>
      let l := (wordOffsets off data.length).zip data
      let p := s.canProposed l
      match l.find? (fun e => !p.canWordOk e.1) with
      | some e => s.refuse rq 0x0B01 (outOfRange e.1)
      | none => (l.foldl (fun t e => t.canPut e.1 e.2) s).ok rq 0x0B01 []) s) s)

/-- DLEN is a length of its format (R401). -/
def dlenOk (fd : Bool) (n : Nat) : Bool := decide (n ≤ 8) || (fd && [12, 16, 20, 24, 32, 48, 64].contains n)

/-- An identifier lies in a reserved range of a channel (R401, R410). -/
def State.idReserved (s : State) (ch id : Nat) : Bool :=
  (s.reserved s.sys.conf.alarms ch).any (fun r => decide (r.1 ≤ id ∧ id ≤ r.2))

/-- CAN_SEND: a message joins a controller's transmit queue (R401, R402). -/
def execCanSend (rq : Rq) (ch cflags id : Nat) (data : List Byte) (s : State) : Host.Outcome State Fault Refusal :=
  let xtd := cflags.testBit 0
  let fd := cflags.testBit 1
  .next (mailbox rq 0x0B02 .zero csovt (fun s =>
    checked rq 0x0B02
      [(decide (ch < 8), outOfRange 0), (!fd || s.canFd ch, outOfRange 1), (!cflags.testBit 2 || fd, outOfRange 1),
       (dlenOk fd data.length, outOfRange 2), (decide (id < if xtd then 2 ^ 29 else 0x800), outOfRange 4),
       (xtd || (decide (id ≠ 0) && !s.idReserved ch id), ⟨0x0B01, 0, ch⟩), (decide ((s.ctrl ch).queue.length < 64), ⟨0x0B02, 0, ch⟩)]
      (fun s =>
        let t := (s.modCtrl ch fun c =>
          { c with queue := c.queue ++ [⟨⟨xtd, fd, cflags.testBit 2, id, data⟩, s.canRetry ch, 0⟩] }).startFrame ch
        t.ok rq 0x0B02 (le 2 (64 - (t.ctrl ch).queue.length) ++ le 2 0)) s) s)

/-- The controller record (R344). -/
def Ctrl.bytes (c : Ctrl) : List Byte :=
  le 1 c.estate ++ le 1 (min 255 c.tec) ++ le 1 c.rec_ ++ le 1 0 ++ le 2 c.queue.length ++ le 2 c.noAck

/-- CAN_STATUS (R344). -/
def execCanStatus (rq : Rq) (s : State) : Host.Outcome State Fault Refusal :=
  readCmd rq 0x0B03 .zero (fun _ => []) (fun s => (List.range 8).flatMap (fun n => (s.ctrl n).bytes)) s

end Sys2Proof.Machine
end

