-- ==== Sys2Proof/Machine/ProtCmds.lean ====
section
/-! DEFINITION. The protection commands: registers, string records, clears, weld acknowledgement, the alarm map (R216, R219,
R233, R236-R238, R339). -/
namespace Sys2Proof.Machine
open Sys2Proof

/-! ### Registers (R216, R219) -/

/-- The offsets of the protection block's map (R216, R219). -/
def protKnown (off : Nat) : Bool :=
  decide (off % 4 = 0) && (decide (off ≤ 8) || decide (0x100 ≤ off ∧ off < 0x300 ∧ off % 0x20 ≤ 0x14))

/-- The input and word of an offset of the FPI registers. -/
def fpiPlace (off : Nat) : Nat × Nat := ((off - 0x100) / 0x20, (off - 0x100) % 0x20 / 4)

/-- PROT_STATUS (R219). -/
def State.protStatus (s : State) : Nat :=
  s.tripState * 65536 + flag s.guard.hwTrip 3 + flag s.guard.guardOk 2 + flag s.guard.tripped 1 + flag s.guard.stopOk 0

/-- A protection register as read: what is committed, and the present values of the read-only ones (R216, R219, R320). -/
def State.protValue (s : State) (off : Nat) : Word :=
  match off with
  | 0x000 => BitVec.ofNat 32 s.protStatus
  | 0x004 => BitVec.ofNat 32 s.sys.conf.tripMode
  | 0x008 => BitVec.ofNat 32 s.guard.tripId
  | _ =>
    let p := fpiPlace off
    if p.2 = 5 then (s.fpi p.1).val else BitVec.ofNat 32 (nth 0 (s.fpiConf p.1) p.2)

/-- PROT_READ (R339). -/
def execProtRead (rq : Rq) (off count : Nat) (s : State) : Host.Outcome State Fault Refusal :=
  regRead rq 0x0600 off count protKnown State.protValue (fun s _ => s) s

/-- The writable bits of an FPI word (R216). -/
def fpiMask (i : Nat) : Nat := nth 0 [0xF0000F07, 0x000300FF, 0xFFFF007F, 0xFFFFFFFF, 0xFFFFFFFF] i

/-- A fast input committed with SCOPE 2 has a configured target (R216). -/
def State.fpiTargetOk (s : State) (n : Nat) : Bool :=
  let w := s.fpiConf n
  decide (fld (nth 0 w 1) 17 16 ≠ 2) || s.est.configured.contains (strKey (fld (nth 0 w 2) 6 0) (fld (nth 0 w 2) 31 16))

/-- A word that the guard refuses, judged on the registers as the write leaves them (R216, R221). -/
def State.protJudge (s : State) (off w : Nat) : Option Refuse :=
  let p := fpiPlace off
  let role (n : Nat) : Nat := fld (nth 0 (s.fpiConf n) 0) 11 8
  let ok : Bool :=
    if off = 4 then (List.range 8).all (fun n => decide (fld w (2 * n + 1) (2 * n) ≠ 3))
    else if off < 0x100 then true
    else match p.2 with
      | 0 => decide (role p.1 ≤ 4) && (decide (role p.1 ≠ 3) || fpiNums.all (fun m => decide (m = p.1 ∨ role m ≠ 3)))
      | 1 => decide (fld w 17 16 ≤ 2) && s.fpiTargetOk p.1
      | 2 => s.fpiTargetOk p.1
      | 3 => decide (sx 16 (fld w 15 0) < sx 16 (fld w 31 16))
      | 4 => decide (1 ≤ w ∧ w ≤ 4000000000)
      | _ => true
  if ok then none else some (outOfRange off)

/-- A word is committed; the read-only words cannot be written (R216, R219). -/
def State.protPut (s : State) (off w : Nat) : State :=
  let p := fpiPlace off
  if off = 4 then s.onConf fun c => { c with tripMode := w % 65536 }
  else if off < 0x100 ∨ p.2 = 5 then s
  else s.setFpiConf p.1 p.2 (w &&& fpiMask p.2)

/-- PROT_WRITE (R216, R219, R339). -/
def execProtWrite (rq : Rq) (off : Nat) (data : List Nat) (s : State) : Host.Outcome State Fault Refusal :=
  regWrite rq 0x0601 off data [.commission, .standby, .tripped] true protKnown State.protJudge State.protPut s

/-! ### String protection (R236, R238) -/

/-- PFLAGS of a string (R238). -/
def Str.pflags (q : Str) : Nat :=
  flag q.locked.isSome 0 + flag (decide (q.fpChg = 0)) 1 + flag (decide (q.fpDis = 0)) 2 + flag (!q.timers.isEmpty) 3 +
    flag q.welded 4 + flag q.notJoined 5

/-- The string protection record (R238). -/
def State.protRecord (s : State) (k : Nat) : List Byte :=
  let q := s.str k
  let l := q.locked.getD (0, 0)
  le 1 (keyPort k) ++ le 1 q.pflags ++ le 2 (keyId k) ++ le 2 l.1 ++ le 2 l.2

/-- STRING_PROT (R238, R339). -/
def execStringProt (rq : Rq) (port string : Nat) (s : State) : Host.Outcome State Fault Refusal :=
  readCmd rq 0x0602 .zero (fun s => [(s.oneString port string, unknownObject 0)]) (·.protRecord (strKey port string)) s

/-! ### Clearing (R233, R236, R237) -/

/-- A clear command waits for the guard's next cycle; a guard that has failed runs none, and the command is judged at once
(R222, R237). -/
def State.awaitGuard (s : State) (c : Rq × Nat × Nat) : State :=
  if s.guard.failed then s.judgeClear c else s.onGuard fun g => { g with clears := g.clears ++ [c] }

/-- CLEAR_TRIP: judged by the guard in its next cycle (R237, R346). -/
def execClearTrip (rq : Rq) (tripId : Nat) (s : State) : Host.Outcome State Fault Refusal :=
  .next (mailbox rq 0x0603 .zero [.tripped] (·.awaitGuard (rq, 0x0603, tripId)) s)

/-- CLEAR_STRING: judged by the guard in its next cycle (R236). -/
def execClearString (rq : Rq) (port string : Nat) (s : State) : Host.Outcome State Fault Refusal :=
  .next (mailbox rq 0x0604 .zero [.standby, .online, .service, .tripped] (fun s =>
    checked rq 0x0604 [(s.oneString port string, unknownObject 0)] (·.awaitGuard (rq, 0x0604, strKey port string)) s) s)

/-- A weld is acknowledged: CONNECT is no longer refused for it (R233). -/
def State.ackWeld (s : State) : State :=
  forEach (tkeys s.est.strs) (fun k t => t.modStr k fun q => { q with welded := false }) (s.onGuard fun g => { g with weld := none })

/-- WELD_ACK: the TRIP_ID must be that of the weld (R233, R339). -/
def execWeldAck (rq : Rq) (tripId : Nat) (s : State) : Host.Outcome State Fault Refusal :=
  nvWrite rq 0x0605 .zero [.standby, .tripped] (fun s => [(decide (s.guard.weld = some tripId), ⟨0x0602, 0, s.guard.weld.getD 0⟩)])
    State.ackWeld s

/-! ### The alarm map (R339, R410) -/

/-- The selector of MAP_ALARM fits its KIND (R339). -/
def alarmScopeOk (kind port string : Nat) : Bool := decide (port = 255 ∧ string = 65535) || decide (3 ≤ kind ∧ port < 128)

/-- MAP_ALARM: maps a source to a kind and scope, or deletes its mapping (R339, R410). -/
def execMapAlarm (rq : Rq) (ch source kind port string : Nat) (s : State) : Host.Outcome State Fault Refusal :=
  let map (t : Tbl (List Nat)) : Tbl (List Nat) :=
    if kind = 0 then tdel t (ch * 64 + source) else tput t (ch * 64 + source) [kind, port, string]
  nvWrite rq 0x0606 .zero [.commission, .standby, .tripped] (fun s =>
    [(decide (ch < 8), outOfRange 0), (decide (source < 64), outOfRange 1), (decide (kind ≤ 5), outOfRange 2),
     (alarmScopeOk kind port string, outOfRange 4), (s.someString port string, unknownObject 4),
     (s.planOk (map s.sys.conf.alarms), outOfRange 0)])
    (fun s => s.onConf fun c => { c with alarms := map c.alarms }) s

end Sys2Proof.Machine
end

