-- ==== Sys2Proof/Machine/BeamCmds.lean ====
section
/-! DEFINITION. The beam commands, the ring configuration read and the rod diagnostics (R48, R50, R57, R99, R111, R123, R124,
R341, R342, R345). -/
namespace Sys2Proof.Machine
open Sys2Proof

/-! ### Beam registers (R48, R57, R341) -/

/-- BEAM_READ (R57, R341). -/
def execBeamRead (rq : Rq) (off count : Nat) (s : State) : Host.Outcome State Fault Refusal :=
  regRead rq 0x0700 off count beamOffset (fun s o => BitVec.ofNat 32 (s.beamRead o)) State.beamReadEffect s

/-- An offset that every mode may write: MARK4…MARK14 and the BOUT registers (R341). -/
def beamFree (off : Nat) : Bool := decide (0x140 ≤ off ∧ off < 0x1F0) || [0x040, 0x044, 0x048].contains off

/-- A word that R48 locks, or that lies outside its range (R57, R58, R326). -/
def State.beamJudge (s : State) (off w : Nat) : Option Refuse :=
  if 0x100 ≤ off ∧ off < 0x200 then
    if s.markLocked off w then some ⟨0x0701, off, 0⟩ else if s.markRangeOk off w then none else some (outOfRange off)
  else if beamRangeOk off w then none else some (outOfRange off)

/-- A word is written; a new nominal frequency moves an unset SLOT_CYC (R57, R241, R245). -/
def State.beamPut (s : State) (off w : Nat) : State :=
  let t := s.beamWrite off w
  t.when (decide (off = 4 ∧ t.beam.slotCycDefault ≠ s.beam.slotCycDefault) && (tfind? s.est.params (pkBank 0x5106)).isNone)
    (·.newSlotCyc t.beam.slotCycDefault)

/-- BEAM_WRITE (R48, R57, R341). -/
def execBeamWrite (rq : Rq) (off : Nat) (data : List Nat) (s : State) : Host.Outcome State Fault Refusal :=
  regWriteSeq rq 0x0701 off data
    (if (wordOffsets off data.length).all beamFree then allModes else [.commission, .standby, .tripped])
    beamOffset State.beamJudge State.beamPut s

/-! ### The sweep interval (R50, R51, R99) -/

/-- The first ACTIVE ring that a sweep interval does not fit (R99). -/
def State.sweepUnfit (s : State) (step : Nat) : Option Nat :=
  s.activePorts.find? (fun p => decide (s.beam.nsAtNominal step < (s.ring p).collectNs + 1000000))

/-- The interval is set: M0 takes it at its next advance, unless the scheduler has lengthened the interval beyond it (R51,
R121). -/
def State.setSweep (s : State) (step : Nat) : State :=
  let s1 := s.onBeam fun b => { b with sweepConf := BitVec.ofNat 32 step }
  if s.sched.lowered ∧ step < (s.mark 0).step.toNat then s1
  else (s1.modMark 0 (·.putStep s1.clock (BitVec.ofNat 32 step))).onSched fun q => { q with lowered := false, floorOver := false }

/-- SET_SWEEP: the fit on an ACTIVE ring comes before the range (R50, R99, R341). -/
def execSetSweep (rq : Rq) (step : Nat) (s : State) : Host.Outcome State Fault Refusal :=
  nvWrite rq 0x0702 .zero csovt (fun s =>
    [((s.sweepUnfit step).isNone, ⟨0x0702, 2, (s.sweepUnfit step).getD 0⟩), (s.beam.sweepOk step, ⟨0x0702, 1, 0⟩)])
    (·.setSweep step) s

/-- BEAM_TIME (R341). -/
def execBeamTime (rq : Rq) (s : State) : Host.Outcome State Fault Refusal :=
  readCmd rq 0x0703 .any (fun _ => []) (fun s => le 8 s.beamTime ++ leW s.beam.freq ++ leW s.beam.status) s

/-! ### Ring configuration (R342) -/

/-- The configuration item of a node (R342). -/
def NodeId.bytes (n : NodeId) : List Byte :=
  le 2 n.pos ++ le 1 n.type ++ le 1 n.hw ++ le 2 n.string ++ le 2 0 ++ le 8 n.serial

/-- The stored identities that a selector names, by port and position. -/
def State.configItems (s : State) (b : Bulk) : List NodeId :=
  (s.portsWhere (fun r => decide (r.config ≠ []))).flatMap (fun p =>
    if b.port = 255 ∨ b.port = p then (s.ring p).config.filter (fun n => decide (b.string = 65535 ∨ n.string = b.string)) else [])

/-- READ_CONFIG (R324, R341, R342). -/
def execReadConfig (rq : Rq) (b : Bulk) (dma : Option Nat) (s : State) : Host.Outcome State Fault Refusal :=
  bulkRead rq 0x0807 b dma (fun s =>
    [(decide (b.port < 128 ∨ b.port = 255), outOfRange 0x10), (decide (b.arg = 0), outOfRange 0x14),
     (decide (b.string = 65535 ∨ s.configItems b ≠ []), unknownObject 0x10)])
    (fun _ => none) (fun s => (s.configItems b).map NodeId.bytes) s

/-! ### Rod diagnostics (R111, R123, R124, R345) -/

/-- Energy charged within the last second. -/
def State.lastSecond (s : State) : List Spend := s.sched.spends.filter (fun e => decide (s.clock < e.at_ + secs 1))

/-- BUSY: the cycles of the last second in 1/1000 of 1.6e9 cycles (R115, R123). -/
def State.rodBusy (s : State) (n : Nat) : Nat :=
  min 1000 (((s.lastSecond.filter (fun e => decide (e.rod = n))).map Spend.cycles).sum / 1600000)

/-- The rod status record (R123). -/
def State.rodRecord (s : State) (n : Nat) : List Byte :=
  let r := s.rod n
  le 1 n ++ le 1 (rodCode r.state) ++ le 2 r.retries ++ le 4 r.windows ++ le 2 r.tableFaults ++ le 2 0 ++ le 4 (s.rodBusy n)

/-- ROD_STATUS (R123, R345). -/
def execRodStatus (rq : Rq) (first count : Nat) (s : State) : Host.Outcome State Fault Refusal :=
  readCmd rq 0x0E00 .zero (fun _ =>
    [(decide (first < 128), outOfRange 0), (decide (1 ≤ count ∧ count ≤ 15 ∧ first + count ≤ 128), outOfRange 1)])
    (fun s => ((List.range count).map (· + first)).flatMap s.rodRecord) s

/-- DFLAGS of the scheduler status record (R124). -/
def Sched.dflags (q : Sched) : Nat :=
  flag q.warn 0 + flag q.throttle 1 + flag q.shutdown 2 + flag q.floorOver 3 + flag q.lowered 4

/-- The energy of a class over the last second, in units of 2^20 eu (R124). -/
def State.classEnergy (s : State) (cls : Nat) : Nat :=
  ((s.lastSecond.filter (fun e => decide (e.cls = cls))).map Spend.eu).sum / 2 ^ 20

/-- The scheduler status record (R124). -/
def State.schedRecord (s : State) : List Byte :=
  let q := s.sched
  leI 2 q.dieT ++ le 1 q.dflags ++ le 1 s.healthyRods ++ le 2 q.factor ++ le 1 q.diodes ++ le 1 0 ++ le 4 s.sweepIvl ++
    le 4 (s.beam.nsAtNominal s.beam.confStep / 1000) ++ ([1, 2, 3, 4, 5].flatMap (fun c => le 4 (s.classEnergy c)))

/-- SCHED_STATUS (R124, R345). -/
def execSchedStatus (rq : Rq) (s : State) : Host.Outcome State Fault Refusal :=
  readCmd rq 0x0E01 .zero (fun _ => []) State.schedRecord s

/-- ROD_RELEASE: a quarantined rod enters TESTING, once SHUTDOWN no longer halts the rods; the answer
waits for the end of its test (R111, R114, R345). -/
def execRodRelease (rq : Rq) (rod : Nat) (s : State) : Host.Outcome State Fault Refusal :=
  .next (mailbox rq 0x0E02 .zero csovt (fun s =>
    checked rq 0x0E02
      [(decide (rod < 128), outOfRange 0), (decide ((s.rod rod).state = .quarantined), ⟨0x0E01, rod, rodCode (s.rod rod).state⟩),
       (s.nvOk, nvFault)]
      (fun s => (s.modRod rod fun r =>
        if s.sched.shutdown then { r with state := .halted, testing := true } else { r with state := .testing }).holdAnswer (heldKey 0x0E02 rod) rq 0x0E02) s) s)

end Sys2Proof.Machine
end

