-- ==== Sys2Proof/Machine/LoopEng.lean ====
section
/-! DEFINITION. The loop engine: axes, sources, the loop period, supervision, injection, capture, profile generator, the
tick (R347-R373, R377). -/
namespace Sys2Proof.Machine
open Sys2Proof

/-! ### The engine (R349) -/

/-- The loop engine runs: in every mode except OFF and RECOVERY (R349). -/
def State.engineOn (s : State) : Bool := decide (s.sys.mode ≠ .off ∧ s.sys.mode ≠ .recovery)

/-- A signed 32-bit number: a difference or a position taken modulo 2^32 (R356, R363). -/
def s32 (v : Int) : Int := sx 32 (ux 32 v)

/-! ### Sine by turns, for the chirp and for interpolation (R354, R369) -/

/-- The sine series at an angle y with 40 fractional bits; n terms follow the present one. -/
def sinTerms : Nat → Int → Int → Int → Int
  | 0, _, _, _ => 0
  | n + 1, k, y2, t =>
    t + sinTerms n (k + 2) y2 (-(t * y2 / (2 : Int) ^ 40) / ((k + 1) * (k + 2)))

/-- The sine of t / 2^32 of a turn, for t at most a quarter turn, with 40 fractional bits. -/
def sinQuarter (t : Nat) : Int :=
  let y : Int := (t : Int) * 6283185307179586 * 256 / 1000000000000000
  sinTerms 12 1 (y * y / (2 : Int) ^ 40) y

/-- The sine of t / 2^32 of a turn, with 40 fractional bits. -/
def sinTurn (t : Nat) : Int :=
  let q := t % 2 ^ 32
  if q ≤ 2 ^ 30 then sinQuarter q
  else if q ≤ 2 ^ 31 then sinQuarter (2 ^ 31 - q)
  else if q ≤ 3 * 2 ^ 30 then - sinQuarter (q - 2 ^ 31)
  else - sinQuarter (2 ^ 32 - q)

/-! ### Axes (R351-R359) -/

/-- INV of axis n. -/
def State.axInv (s : State) (n : Nat) : Bool := bit (s.axreg n 0) 3
/-- LIM_EN of axis n. -/
def State.axLim (s : State) (n : Nat) : Bool := bit (s.axreg n 0) 6
/-- SPD_WIN of axis n in ticks. -/
def State.axWin (s : State) (n : Nat) : Nat := us (100 * wfld (s.axreg n 4) 31 16)

/-- AX_POS as a signed value (R356). -/
def Axis.position (a : Axis) : Int := a.pos.toInt

/-- The speed by the reciprocal method at an instant: the count between the first and last accepted edges of the window
divided by their time; of one edge, its count since the edge before; else the speed stays (R358). -/
def Axis.speedAt (a : Axis) (now win mode : Nat) : Int :=
  let scale : Int := if mode = 3 then 200000000000 else 200000000
  let w := a.edges.filter (fun e => decide (now ≤ e.1 + win))
  let ratio (c : Int) (dt : Nat) : Int := if dt = 0 then a.speed else clampI (-2147483647) 2147483647 (rdiv (c * scale) dt)
  if a.still then 0
  else if 2 ≤ w.length then
    ratio (w.dropLast.map Prod.snd).sum ((w.headD (0, 0)).1 - (w.getLastD (0, 0)).1)
  else if w.length = 1 ∧ 2 ≤ a.edges.length then
    ratio (nth (0, 0) a.edges 0).2 ((nth (0, 0) a.edges 0).1 - (nth (0, 0) a.edges 1).1)
  else a.speed

/-- The edges that the speed may still need: those of the window and the one before. -/
def keepEdges (now win : Nat) (l : List (Nat × Int)) : List (Nat × Int) :=
  l.takeWhile (fun e => decide (now ≤ e.1 + win)) ++ (l.dropWhile (fun e => decide (now ≤ e.1 + win))).take 1

/-- AX_COUNT as it stands. -/
def Axis.count (a : Axis) : Nat := a.dirChanges * 65536 + a.edgeFaults

/-- An AX_EVENT bit sets (R9, R376). -/
def Axis.mark (a : Axis) (clock i : Nat) : Axis := { a with event := putBit a.event i true, evNew := noteBits clock a.evNew (2 ^ i) }

/-- A direction change: DIR flips, DIRCHG sets and the change is counted (R357). -/
def Axis.turn (a : Axis) (clock : Nat) : Axis :=
  { a.mark clock 0 with dir := !a.dir, dirChanges := sat16 (a.dirChanges + 1), cntOld := noteOld clock a.cntOld a.count }

/-- Accepted counts of axis n: the position moves, the direction is judged, the speed follows (R352, R357, R358). -/
def State.axisCount (s : State) (n sig : Nat) (c : Int) : State :=
  let win := s.axWin n
  let mode := s.axMode n
  s.modAxis n fun a =>
    let a1 := { a with pos := BitVec.ofInt 32 (a.position + c), edgeAt := tput a.edgeAt sig s.clock, still := false,
                       edges := keepEdges s.clock win ((s.clock, c) :: a.edges) }
    let a2 := if decide (0 < c) = a1.dir then a1 else a1.turn s.clock
    { a2 with speed := a2.speedAt s.clock win mode }

/-- A fault's cause enters: the axis latches FAULT with its event, and its reference stands at the measured position
(R359, R377). -/
def State.axisFault (s : State) (n kind : Nat) : State :=
  if (s.axis n).fault then s
  else
    (s.modAxis n fun a =>
      { a.mark s.clock 1 with fault := true, kind := kind, p := a.position * 65536, v := 0 }).raise 0x0904 [n, kind]

/-- The kind of a cause of FAULT that is present, 0 for none (R353, R354, R378). -/
def Axis.cause (a : Axis) : Nat :=
  if bit a.wire 0 then 1 else if bit a.wire 1 then 2 else if bit a.wire 2 then 3
  else if a.ampLow then 4 else if a.ampHigh then 5 else 0

/-- An edge fault is counted; with STRICT set it latches FAULT, else it is reported at most once a second (R352, R359). -/
def State.edgeFault (s : State) (n : Nat) : State :=
  let a := s.axis n
  let s1 := s.modAxis n fun a => { a with edgeFaults := sat16 (a.edgeFaults + 1), cntOld := noteOld s.clock a.cntOld a.count }
  if bit (s.axreg n 0) 5 then s1.axisFault n 6
  else if a.edgeRep.2 = 0 ∨ a.edgeRep.2 + secs 1 ≤ s.clock then
    (s1.modAxis n fun a => { a with edgeRep := (0, max 1 s.clock) }).raise 0x0907 [n, (sat16 (a.edgeRep.1 + 1) : Nat)]
  else s1.modAxis n fun a => { a with edgeRep := (a.edgeRep.1 + 1, a.edgeRep.2) }

/-- A transition of one signal passes the edge filter (R352). -/
def State.edgeAccepted (s : State) (n sig : Nat) : Bool :=
  match tfind? (s.axis n).edgeAt sig with
  | some t => s.elapsed t (wfld (s.axreg n 0) 31 16)
  | none => true

/-- A sample of A and B in modes 1 and 3 (R352, R355): the direction that the quadrature sequence gives, A before B
counting up; the first sample of a mode gives only the levels (log entry 30). -/
def State.axisSample (s : State) (n : Nat) (a b : Bool) : State :=
  let x := s.axis n
  if x.quad = 4 then s.modAxis n fun x => { x with quad := b2n a * 2 + b2n b } else
  let ca := decide (a ≠ x.quad.testBit 1)
  let cb := decide (b ≠ x.quad.testBit 0)
  let s1 := s.modAxis n fun x => { x with quad := b2n a * 2 + b2n b }
  let dirOf (up : Bool) : Int := if up = s.axInv n then -1 else 1
  if s.axMode n = 3 then
    if !ca then s1
    else if !s.edgeAccepted n 0 then s1.edgeFault n
    else if a then s1.axisCount n 0 (dirOf true)
    else s1.modAxis n fun x => { x with edgeAt := tput x.edgeAt 0 s.clock }
  else if ca && cb then s1.edgeFault n
  else if ca then (if s.edgeAccepted n 0 then s1.axisCount n 0 (dirOf (a != b)) else s1.edgeFault n)
  else if cb then (if s.edgeAccepted n 1 then s1.axisCount n 1 (dirOf (a == b)) else s1.edgeFault n)
  else s1

/-- The quadrant of a signal vector and the vector turned back into the first quadrant (R354). -/
def quadrant (sin cos : Int) : Nat × Int × Int :=
  if 0 < cos ∧ 0 ≤ sin then (0, cos, sin)
  else if 0 < sin ∧ cos ≤ 0 then (1, sin, -cos)
  else if cos < 0 ∧ sin ≤ 0 then (2, -cos, -sin)
  else if sin < 0 ∧ 0 ≤ cos then (3, -sin, cos)
  else (0, 1, 0)

/-- floor(theta / (2 pi) * 2^interp) of a signal vector (R354): the whole steps within its quadrant are those whose angle
the vector has reached. -/
def angleSteps (interp : Nat) (sin cos : Int) : Nat :=
  let (q, x, y) := quadrant sin cos
  let n := 2 ^ (interp - 2)
  let step (k : Nat) : Nat := k * (2 ^ 30 / n)
  q * n + ((List.range n).filter (fun k => decide (0 < k ∧ x * sinTurn (step k) ≤ y * sinTurn (2 ^ 30 - step k)))).length

/-- Since when the amplitude has stood beyond one side of its window (R354). -/
def beyondSince (beyond : Bool) (since : Option Nat) (clock : Nat) : Option Nat := if beyond then some (since.getD clock) else none

/-- A sample of SIN and COS in mode 2, mV: the periods by quadrant, the interpolated position, the amplitude against its window and
its flags that clear (R354). -/
def State.axisAnalogue (s : State) (n : Nat) (sin cos : Int) : State :=
  let x := s.axis n
  let interp := wfld (s.axreg n 0) 11 8
  let q := (quadrant sin cos).1
  let periods := if x.quad = 3 ∧ q = 0 then x.periods + 1 else if x.quad = 0 ∧ q = 3 then x.periods - 1 else x.periods
  let raw : Int := periods * 2 ^ interp + angleSteps interp sin cos
  let c := s32 ((if s.axInv n then -raw else raw) - x.position)
  let sc := s.axreg n 0x38
  let amp2 := (sin * sin + cos * cos) * 10000
  let lo : Int := ((wfld sc 23 16 + 5) * wfld sc 15 0 : Nat)
  let hi : Int := ((wfld sc 31 24 - 5) * wfld sc 15 0 : Nat)
  let low : Int := (wfld sc 23 16 * wfld sc 15 0 : Nat)
  let high : Int := (wfld sc 31 24 * wfld sc 15 0 : Nat)
  let s1 := s.modAxis n fun x =>
    { x with quad := q, periods := periods, lowSince := beyondSince (decide (amp2 < low * low)) x.lowSince s.clock,
             highSince := beyondSince (decide (high * high < amp2)) x.highSince s.clock, ampLow := x.ampLow && decide (amp2 ≤ lo * lo), ampHigh := x.ampHigh && decide (hi * hi ≤ amp2) }
  s1.when (decide (c ≠ 0)) (·.axisCount n 0 c)

/-- FAULTEV is written with 1: the event bit and FAULT clear, with the cleared event while no cause is present; a cause
that persists sets FAULT again at the next tick; a fault of the same clock outlives the clear (R9, R359, R376). -/
def State.faultEv (s : State) (n : Nat) : State :=
  let a := s.axis n
  s.when (!(w1cBit s.clock a.evNew 1 (bit a.event 1) true)) fun s => (s.modAxis n fun a => { a with event := putBit a.event 1 false, fault := false }).when (a.fault && decide (a.cause = 0))
    (·.raise 0x0905 [n])

/-- An axis at the tick: position and speed are latched, the position is extended, edge faults of the last second are
reported, a cause that persists sets FAULT again (R348, R356, R359). -/
def State.axisTick (s : State) (n : Nat) : State :=
  if s.axMode n = 0 then s
  else
    let s1 := s.modAxis n fun a =>
      { a with latched := a.pos, ext := a.ext + s32 (a.position - a.ext), speed := a.speedAt s.clock (s.axWin n) (s.axMode n) }
    let r := (s1.axis n).edgeRep
    let s2 := if 0 < r.1 ∧ r.2 + secs 1 ≤ s.clock then
        (s1.modAxis n fun a => { a with edgeRep := (0, s.clock) }).raise 0x0907 [n, (sat16 r.1 : Nat)]
      else s1
    if (s2.axis n).cause ≠ 0 then s2.axisFault n (s2.axis n).cause else s2

/-! ### Sources (R362, R363) -/

/-- An AIN is faulty: OVER or BROKEN (R360). -/
def State.ainFaulty (s : State) (n : Nat) : Bool :=
  let st := tget (0 : BitVec 3) s.loops.ainStat n
  bit st 0 || bit st 1

/-- A value in native units brought to Q15 by an offset and a span (R363). -/
def scaleQ (x ofs span : Int) : Int := satQ (rdiv ((x - ofs) * 32768) (max 1 span))

/-- A position brought to Q15: the difference is taken modulo 2^32 (R363). -/
def scalePos (x ofs span : Int) : Int := satQ (rdiv (s32 (x - ofs) * 32768) (max 1 span))

/-- Offset and span registers of loop n, the set-point's or the process value's. -/
def State.ofsSpan (s : State) (n : Nat) (sp : Bool) : Int × Int :=
  let o := if sp then 0x20 else 0x18
  ((s.lreg n o).toInt, ((s.lreg n (o + 4)).toNat : Int))

/-- PV_SRC of loop n. -/
def State.pvSrc (s : State) (n : Nat) : Nat := wfld (s.lreg n 0) 31 24
/-- SP_SRC of loop n. -/
def State.spSrc (s : State) (n : Nat) : Nat := wfld (s.lreg n 0) 23 16
/-- OUT_DST of loop n. -/
def State.outDst (s : State) (n : Nat) : Nat := wfld (s.lreg n 0) 15 8
/-- EN of loop n. -/
def State.loopEn (s : State) (n : Nat) : Bool := bit (s.lreg n 0) 0

/-- A loop is in fault: a latched source or supervision fault. -/
def Loop.inFault (l : Loop) : Bool := l.srcFault || l.supFault

/-- A loop stands in its safe state: a source fault, or a supervision fault with SUP_SAFE set (R368). -/
def State.loopSafe (s : State) (n : Nat) : Bool := (s.loop n).srcFault || ((s.loop n).supFault && bit (s.lreg n 0) 5)

/-- The process value of loop n in Q15, none while its source is faulty (R362, R363, R368). -/
def State.loopPv (s : State) (n : Nat) : Option Int :=
  let c := s.pvSrc n
  let (o, sp) := s.ofsSpan n false
  let k := c % 16
  if c / 16 = 1 then (if s.ainFaulty k then none else some (scaleQ (tget 0 s.loops.ain k) o sp))
  else if c / 16 = 2 then
    let v := sx 16 (s.tin k).val.toNat
    if v = -32768 then none else some (scaleQ v o sp)
  else if c / 16 = 4 then (if (s.axis k).fault then none else some (scalePos (s.axis k).position o sp))
  else if c / 16 = 5 then (if (s.axis k).fault then none else some (scaleQ (s.axis k).speed o sp))
  else some 0

/-- The set-point source of loop n in Q15, none while it is faulty (R362, R363, R368). -/
def State.loopSp (s : State) (n : Nat) : Option Int :=
  let c := s.spSrc n
  let k := c % 16
  let (o, sp) := s.ofsSpan n true
  if c / 16 = 1 then (if s.ainFaulty k then none else some (scaleQ (tget 0 s.loops.ain k) o sp))
  else if c / 16 = 4 then
    if (s.axis k).fault then none
    else
      let (po, ps) := s.ofsSpan n false
      some (scalePos ((s.axis k).p / 65536) po ps)
  else if c / 16 = 5 then (if (s.axis k).fault then none else some (scaleQ (s.axis k).speed o sp))
  else if 6 ≤ c / 16 then (if (s.loop (c - 0x60)).inFault then none else some (s.loop (c - 0x60)).u)
  else some (sx 16 (s.lreg n 0x14).toNat)

/-! ### Profile generator (R372, R373) -/

/-- LIM_LO and LIM_HI of axis n. -/
def State.axLimits (s : State) (n : Nat) : Int × Int := ((s.axreg n 0x20).toInt, (s.axreg n 0x24).toInt)

/-- The distance from p to the limit ahead of v, 16 fractional bits (R373). -/
def Axis.ahead (a : Axis) (lim : Int × Int) : Int := if 0 < a.v then lim.2 * 65536 - a.p else a.p - lim.1 * 65536

/-- The stopping distance at AMAX exceeds the distance to the soft limit ahead (R373). -/
def Axis.mustClamp (a : Axis) (lim : Int × Int) (amax : Int) : Bool :=
  decide (a.v ≠ 0 ∧ 2 * amax * 65536 * a.ahead lim < a.v * a.v)

/-- The deceleration of the clamp in counts/s^2, saturating (R373, R378). -/
def Axis.clampDecel (a : Axis) (lim : Int × Int) : Int :=
  if 0 < a.ahead lim then min 65535 (rdiv (a.v * a.v) (2 * a.ahead lim * 65536)) else 65535

/-- The change of speed of one period at AMAX, 16 fractional bits. -/
def speedStep (amax : Int) (div : Nat) : Int := rdiv (amax * 65536 * div) 20000

/-- A speed braked by a change, not past 0 (R372). -/
def brake (v dv : Int) : Int := if v.natAbs ≤ dv.natAbs then 0 else v - sgn v * dv.natAbs

/-- The new speed of one period (R372, R373). -/
def Axis.newSpeed (a : Axis) (clamp : Bool) (lim : Int × Int) (vmax amax : Int) (div : Nat) : Int :=
  let d := a.target * 65536 - a.p
  let dv := speedStep amax div
  let top := vmax * 65536
  if clamp then (if 0 < a.ahead lim then brake a.v (rdiv (a.v * a.v * div) (2 * a.ahead lim * 20000)) else 0)
  else if a.v ≠ 0 ∧ (sgn a.v ≠ sgn d ∨ d.natAbs * 131072 * amax ≤ a.v * a.v) then brake a.v dv
  else if top < a.v.natAbs then brake a.v dv
  else if d ≠ 0 ∧ a.v.natAbs < top then clampI (-top) top (a.v + sgn d * dv)
  else a.v

/-- The new reference: never carried beyond a soft limit (R373); a reference without limits wraps with the count (R356). -/
def Axis.newRef (a : Axis) (limited : Bool) (lim : Int × Int) (div : Nat) : Axis :=
  let p := a.p + rdiv (a.v * div) 20000
  if !limited then { a with p := s32 (p / 65536) * 65536 + p % 65536 }
  else if 0 < a.v ∧ lim.2 * 65536 < p then { a with p := max a.p (lim.2 * 65536), v := 0 }
  else if a.v < 0 ∧ p < lim.1 * 65536 then { a with p := min a.p (lim.1 * 65536), v := 0 }
  else { a with p := p }

/-- The reference stands at its target when it is near enough (R372). -/
def Axis.arrive (a : Axis) (amax : Int) (div : Nat) : Axis :=
  if ((a.target * 65536 - a.p).natAbs : Int) * 400000000 ≤ amax * 65536 * div * div ∧ (a.v.natAbs : Int) * 20000 ≤ amax * 65536 * div then
    { a with p := a.target * 65536, v := 0, arrived := true }
  else a

/-- One period of an axis's profile generator; CLAMPED lasts until the reference stands (R372, R373, log entry 33). -/
def State.profileStep (s : State) (k div : Nat) : State :=
  let a := s.axis k
  let lim := s.axLimits k
  let vmax := (s.axreg k 0x28).toInt
  let amax := (s.axreg k 0x2C).toInt
  let clamp := s.axLim k && a.mustClamp lim amax
  let s1 := s.modAxis k fun a =>
    let a0 := if clamp && !a.clamped then a.mark s.clock 3 else a
    let a1 := { a0 with v := a.newSpeed clamp lim vmax amax div }
    let a2 := (a1.newRef (s.axLim k) lim div).arrive amax div
    { a2 with clamped := (clamp || a.clamped) && decide (a2.v ≠ 0) }
  s1.when (clamp && !a.clamped) (·.raise 0x0906 [k, if 0 < a.v then 2 else 1, a.clampDecel lim])

/-! ### Injection (R369) -/

/-- Loop periods that an injection lasts. -/
def State.injPeriods (s : State) (n : Nat) : Nat := 4096 * wfld (s.lreg n 0x40) 31 16

/-- The phase of the chirp at period k, in 2^-32 of a turn: the sum of f times T over the periods before (R369). -/
def State.chirpPhase (s : State) (n k : Nat) : Nat :=
  let f0 : Int := wfld (s.lreg n 0x3C) 15 0
  let f1 : Int := wfld (s.lreg n 0x3C) 31 16
  let div : Int := wfld (s.lreg n 4) 15 0
  let total : Int := s.injPeriods n
  let num := (2 * total * f0 * k + (f1 - f0) * k * (k - 1)) * div * 2 ^ 32
  ux 32 (num / (2 * max 1 total * 200000))

/-- The injected value of the present period and what taking it needs: within 1 LSB of the chirp, a free value (R369). -/
def State.injValue (s : State) (n : Nat) : Int × State :=
  let l := s.loop n
  let w := s.lreg n 0x38
  let amp : Int := wfld w 15 0
  if !l.injOn then (0, s)
  else
    match wfld w 31 30 with
    | 1 => ((if bit l.lfsr 10 then amp else -amp), s)
    | 2 =>
      let (v, t) := s.free
      (rnd (amp * sinTurn (s.chirpPhase n l.injK)) 40 + (v % 3 - 1), t)
    | _ => (0, s)

/-- The PRBS register advanced: x^11 + x^9 + 1 (R369). -/
def lfsrNext (r : BitVec 11) : BitVec 11 := (r <<< 1) ||| (if bit r 10 != bit r 8 then 1 else 0)

/-- A period of the injection has passed (R369). -/
def State.injStep (s : State) (n : Nat) : State :=
  let hold := max 1 (wfld (s.lreg n 0x38) 23 16)
  let total := s.injPeriods n
  s.modLoop n fun l =>
    if !l.injOn then l
    else { l with injK := l.injK + 1, lfsr := if (l.injK + 1) % hold = 0 then lfsrNext l.lfsr else l.lfsr,
                  injOn := decide (l.injK + 1 < total) }

/-! ### Capture (R370) -/

/-- LEVENT bit b of loop n sets. -/
def State.loopEvent (s : State) (n b : Nat) : State :=
  s.onLoops fun g => { g with levent := tmod (0 : BitVec 4) g.levent n (fun w => putBit w b true), leNew := tput g.leNew n (noteBits s.clock (tget (0, 0) g.leNew n) (2 ^ b)) }

/-- A capture ends, whole or aborted: CAP_DONE, its event bit and its event; an injection stops (R370). -/
def State.captureEnd (s : State) (n : Nat) (aborted : Bool) : State :=
  ((s.modLoop n fun l => { l with capBusy := false, capDone := true, injOn := false }).loopEvent n (if aborted then 3 else 2)).raise
    0x0908 [n, (s.loop n).capMode, b2n aborted]

/-- A capture has taken its last sample (R370). -/
def Loop.capFull (l : Loop) : Bool := if l.capMode = 3 then decide (l.capAfter = some 0) else decide (4096 ≤ l.capBuf.length)

/-- ARM starts a capture, and in mode 1 its injection; the buffer is discarded (R369, R370). -/
def State.arm (s : State) (n : Nat) : State :=
  let mode := wfld (s.lreg n 0x40) 1 0
  let inj := wfld (s.lreg n 0x38) 31 30
  s.modLoop n fun l =>
    { l with capBuf := [], capDone := false, capMode := mode, capBusy := decide (mode ≠ 0), capSkip := 0, capAfter := none,
             injOn := decide (mode = 1 ∧ inj ≠ 0), injK := 0, lfsr := 0x7FF }

/-- A fault of the loop meets its capture: it aborts a mode 1 capture and starts the last 2,048 samples of mode 3 (R370,
R377). -/
def State.captureFault (s : State) (n : Nat) : State :=
  let l := s.loop n
  if !l.capBusy then s
  else if l.capMode = 1 then s.captureEnd n true
  else if l.capMode = 3 ∧ l.capAfter = none then s.modLoop n fun l => { l with capAfter := some 2048 }
  else s

/-- A loop period ends: a full capture ends, else a sample is taken after every CAP_DIV-th period (R370). -/
def State.captureStep (s : State) (n : Nat) (item : Int × Int × Int × Int) : State :=
  let l := s.loop n
  let div := wfld (s.lreg n 0x40) 31 16
  if !l.capBusy then s
  else if l.capFull then s.captureEnd n false
  else if l.capSkip + 1 < div then s.modLoop n fun l => { l with capSkip := l.capSkip + 1 }
  else
    s.modLoop n fun l =>
      { l with capSkip := 0, capBuf := (l.capBuf ++ [item]).drop (l.capBuf.length + 1 - 4096), capAfter := l.capAfter.map (· - 1) }

/-! ### Faults of a loop (R367, R368) -/

/-- The supervision fault of loop n latches, with its event (R367, R368). -/
def State.supervisionFault (s : State) (n : Nat) : State :=
  let l := s.loop n
  let safe := satQ (sx 16 (s.lreg n 0x30).toNat)
  let keep := !bit (s.lreg n 0) 5
  (((s.modLoop n fun l => { l with supFault := true, u := if keep then l.u else safe }).loopEvent n 0).raise 0x0901
    [n, l.res, l.u]).captureFault n

/-- The source fault of loop n's process value latches, with its event (R368). -/
def State.sourceFault (s : State) (n : Nat) : State :=
  if (s.loop n).srcFault then s
  else
    (((s.modLoop n fun l => { l with srcFault := true }).loopEvent n 1).raise 0x0902 [n, s.pvSrc n, 1]).captureFault n

/-- The residual has stayed beyond RES_WIN for RES_TIME (R367). -/
def State.residualLong (s : State) (n : Nat) : Bool :=
  let t := wfld (s.lreg n 0x2C) 15 0
  match (s.loop n).resSince with
  | some a => decide (t ≠ 0 ∧ a + 20 * t ≤ s.loops.ticks)
  | none => false

/-- The model runs and the residual is judged (R367): at a takeover the model stands at the process value. -/
def State.superviseStep (s : State) (n : Nat) (pv : Option Int) : State :=
  let m := s.lreg n 0x28
  let win : Int := wfld (s.lreg n 0x2C) 31 16
  let on := decide (wfld (s.lreg n 0x2C) 15 0 ≠ 0)
  let s1 := s.modLoop n fun l =>
    let ym := if l.takeOver then pv.getD l.ym
      else l.ym + rnd ((wfld m 15 0 : Nat) * (rnd (sx 16 (wfld m 31 16) * l.u) 15 - l.ym)) 15
    match pv with
    | some x =>
      let res := satQ (x - ym)
      { l with ym := ym, pv := x, res := res,
               resSince := if on && decide (win < res.natAbs) then some (l.resSince.getD s.loops.ticks) else none }
    | none => { l with ym := ym, resSince := none }
  s1.when (s1.residualLong n && !(s1.loop n).supFault) (·.supervisionFault n)

/-- The set-point of the period: the source's, or the last good one while the source is faulty (R368). -/
def State.setPoint (s : State) (n : Nat) (pv : Int) : Int × State :=
  let l := s.loop n
  match s.loopSp n with
  | some x => (x, s.modLoop n fun l => { l with spGood := some x, spHeld := false })
  | none =>
    let x := l.spGood.getD (if l.takeOver then pv else l.spPrev)
    if l.spHeld then (x, s)
    else (x, (((s.modLoop n fun l => { l with spHeld := true }).loopEvent n 1).raise 0x0902 [n, s.spSrc n, 2]).captureFault n)

/-! ### The loop (R364-R366) -/

/-- A table entry of loop n: COG and FRIC (R366, R374). -/
def State.tableEntry (s : State) (n idx : Nat) : Int × Int :=
  let w := s.loopReg (0x4000 + 0x400 * n + 4 * (idx % 256))
  (sx 16 (wfld w 15 0), sx 16 (wfld w 31 16))

/-- cog and fric at the position of axis TAB_AX, for an error (R366). -/
def State.cogFric (s : State) (n : Nat) (e : Int) : Int × Int :=
  let c := s.lreg n 0
  let t := s.lreg n 0x34
  let a := s.axis (wfld t 3 0)
  let sh := wfld t 12 8
  let idx := a.pos.toNat / 2 ^ sh % 256
  let w : Int := if 8 ≤ sh then (a.pos.toNat / 2 ^ (sh - 8) % 256 : Nat) else 0
  let x := s.tableEntry n idx
  let y := s.tableEntry n (idx + 1)
  let f := x.2 + rnd ((y.2 - x.2) * w) 8
  (if bit c 3 then x.1 + rnd ((y.1 - x.1) * w) 8 else 0,
   if !bit c 4 then 0 else if a.still then f * sgn e else if a.dir then f else -f)

/-- u0 of a takeover: SAFE_OUT after a fault, else the destination's MANUAL value (R365). -/
def State.takeOverOut (s : State) (n : Nat) : Int :=
  let d := s.outDst n
  if (s.loop n).afterFault then sx 16 (s.lreg n 0x30).toNat
  else if d / 16 = 1 then sx 16 (wfld (s.loopReg (0x2500 + 0x10 * (d % 16))) 31 16)
  else if d / 16 = 2 then sx 16 (s.loopReg (0x2604 + 0x10 * (d % 16))).toNat
  else 0

/-- One period of R364 and R365 with a process value, a set-point and an injected value. -/
def State.pidStep (s : State) (n : Nat) (pv spT inj : Int) : State :=
  let l := s.loop n
  let ctl := s.lreg n 0
  let g : Int := 2 ^ wfld (s.lreg n 4) 19 16
  let ka := s.lreg n 8
  let kb := s.lreg n 0xC
  let lim := s.lreg n 0x10
  let hi := sx 16 (wfld lim 31 16)
  let lo := sx 16 (wfld lim 15 0)
  let rate : Int := wfld (s.lreg n 0x14) 31 16
  let injSp := bit (s.lreg n 0x38) 29
  let spPrev := if l.takeOver then pv else l.spPrev
  let pvPrev := if l.takeOver then pv else l.pvPrev
  let df0 := if l.takeOver then 0 else l.df
  let sp0 := if injSp then spT + inj else spT
  let sp := if rate = 0 then sp0 else spPrev + clampI (-rate) rate (sp0 - spPrev)
  let e := satQ (sp - pv)
  let p := e * sx 16 (wfld ka 31 16) * g
  let df := if bit ctl 2 then df0 + rnd ((pv - pvPrev - df0) * (wfld kb 15 0 : Nat)) 15 else df0
  let d := if bit ctl 2 then -(df * sx 16 (wfld kb 31 16) * g) else 0
  let cf := s.cogFric n e
  let ff := satQ (sx 16 (wfld (s.lreg n 0x30) 31 16) + cf.1 + cf.2) * 32768
  let eki := e * sx 16 (wfld ka 15 0)
  let hold := decide ((l.u = hi ∧ 0 < eki) ∨ (l.u = lo ∧ eki < 0))
  let i0 := if l.takeOver then s.takeOverOut n * 32768 - (p + d + ff) else if hold then l.i else sat40 (l.i + eki * g)
  let i := clampI (lo * 32768) (hi * 32768) i0
  let u0 := satQ (rnd (sat40 (p + i + d + ff)) 15)
  let u1 := if injSp then u0 else satQ (u0 + inj)
  s.modLoop n fun l =>
    { l with spPrev := sp, pvPrev := pv, df := df, i := i, u := clampI lo hi u1, takeOver := false, afterFault := false }

/-- RESTART is applied at the loop's period: the latches clear, and the period takes over (R365, R368). -/
def State.restartStep (s : State) (n : Nat) : State :=
  if (s.loop n).restart then
    (s.modLoop n fun l =>
      { l with restart := false, afterFault := l.inFault, supFault := false, srcFault := false, takeOver := true,
               resSince := none }).raise 0x0903 [n]
  else s

/-- One period of loop n (R364-R373). -/
def State.loopPeriod (s : State) (n : Nat) : State :=
  let s1 := s.restartStep n
  let pv := s1.loopPv n
  let s2 := (s1.when pv.isNone (·.sourceFault n)).superviseStep n pv
  let safe := s2.loopSafe n
  let s3 := s2.when (!safe && decide (s2.spSrc n / 16 = 4)) (·.profileStep (s2.spSrc n % 16) (wfld (s2.lreg n 4) 15 0))
  let (inj, s4) := s3.injValue n
  let (sp, s5) := s4.setPoint n (pv.getD 0)
  let inj1 := if (s5.loop n).injOn then inj else 0
  let s6 := if safe then s4.modLoop n fun l => { l with u := satQ (sx 16 (s.lreg n 0x30).toNat) }
    else s5.pidStep n (pv.getD 0) sp inj1
  let l := s6.loop n
  (s6.captureStep n (l.spPrev, l.pv, l.u, if safe then inj else inj1)).injStep n

/-- A loop at the tick: due, it runs; else its count falls (R348, R364). -/
def State.loopTick (s : State) (n : Nat) : State :=
  if !s.loopEn n then s
  else if (s.loop n).left = 0 then
    (s.loopPeriod n).modLoop n fun l => { l with left := wfld (s.lreg n 4) 15 0 - 1 }
  else s.modLoop n fun l => { l with left := l.left - 1 }

/-! ### Outputs (R349, R361) -/

/-- The enabled loop that drives a destination. -/
def State.driverOf (s : State) (d : Nat) : Option Nat :=
  (List.range 32).find? (fun n => s.loopEn n && decide (s.outDst n = d))

/-- The value of a destination: the output of the loop that drives it, else its MANUAL value (R361). -/
def State.outQ (s : State) (d : Nat) (manual : Int) : Int :=
  match s.driverOf d with
  | some n => (s.loop n).u
  | none => manual

/-- LOUTn as written at the tick: Q15 of 10 V, or uA (R361). -/
def State.loutValue (s : State) (n : Nat) : Int :=
  let c := s.loopReg (0x2500 + 0x10 * n)
  let u := s.outQ (0x10 + n) (sx 16 (wfld c 31 16))
  if !bit c 0 then 0 else if bit c 1 then 4000 + rdiv (max u 0 * 16000) 32768 else u

/-- PWMn's duty as written at the tick: of a BIDIR pair the odd output carries the negative part (R361). -/
def State.pwmValue (s : State) (n : Nat) : Int :=
  let cfg (k : Nat) : Word := s.loopReg (0x2600 + 0x10 * k)
  let man (k : Nat) : Int := sx 16 (s.loopReg (0x2604 + 0x10 * k)).toNat
  let odd := decide (n % 2 = 1) && bit (cfg (n - 1)) 1
  if odd then (if bit (cfg (n - 1)) 0 then max (-(s.outQ (0x20 + (n - 1)) (man (n - 1)))) 0 else 0)
  else if bit (cfg n) 0 then max (s.outQ (0x20 + n) (man n)) 0 else 0

/-- All outputs are written together; until a loop is first enabled they hold their reset state (R348, R349, R361). -/
def State.writeOutputs (s : State) : State :=
  if !s.loops.started then s
  else
    let l8 := (List.range 8).map (fun n => (0x10 + n, s.loutValue n))
    let p16 := (List.range 16).map (fun n => (0x20 + n, s.pwmValue n))
    let d16 := (List.range 16).map (fun n => (0x30 + n, s.outQ (0x30 + n) 0))
    s.onLoops fun g => { g with out := (l8 ++ p16 ++ d16).foldl (fun t e => tset (0 : Int) t e.1 e.2) g.out }

/-! ### The tick (R348) -/

/-- ENG_LOAD: the engine's busy share, which the spec does not give: a free value (R374). -/
def State.engineLoad (s : State) : State :=
  let (v, t) := s.free
  t.onLoops fun g => { g with load := if (List.range 32).any s.loopEn then (v % 1001).toNat else 0, ticks := g.ticks + 1 }

/-- One tick of 50 us: inputs, axes latched, due loops in ascending order, all outputs together (R348). -/
def State.engineTick (s : State) (ains : List Int) : State :=
  let s1 := forEach (List.range 8) (fun n t => t.takeAin n (nth 0 ains n)) s
  let s2 := forEach (List.range 16) (fun n t => t.axisTick n) s1
  (forEach (List.range 32) (fun n t => t.loopTick n) s2).writeOutputs.engineLoad

/-- The engine's tick is due: 50 us after the one before (R348). -/
def State.tickDue (s : State) : Bool := s.engineOn && (match s.loops.tickAt with | some t => s.elapsed t (us 50) | none => true)

/-- LOOP_TICK: eight raw conversions in mV or uA; the engine's tick (R348, R349). -/
def execLoopTick (ains : List Int) (s : State) : Host.Outcome State Fault Refusal :=
  onlyIf s.tickDue (fun s => (s.engineTick ains).onLoops fun g => { g with tickAt := some s.clock }) s

end Sys2Proof.Machine
end

