-- ==== Sys2Proof/Machine/LoopCmds.lean ====
section
/-! DEFINITION. The loop block's registers, its commands and the events of axes, inputs and outputs (R347-R378, R414). -/
namespace Sys2Proof.Machine
open Sys2Proof

/-! ### The register map (R374-R376) -/

/-- An offset lies in the loop registers, with the loop and the place in it (R374). -/
def loopPlace? (off : Nat) : Option (Nat × Nat) :=
  if 0x1000 ≤ off ∧ off < 0x2000 then some ((off - 0x1000) / 0x80, off % 0x80) else none

/-- An offset lies in the axis registers, with the axis and the place in it (R374). -/
def axisPlace? (off : Nat) : Option (Nat × Nat) :=
  if 0x2000 ≤ off ∧ off < 0x2400 then some ((off - 0x2000) / 0x40, off % 0x40) else none

/-- The offsets of the loop block's map (R374-R376). -/
def loopKnown (off : Nat) : Bool :=
  decide (off % 4 = 0) && (decide (off ≤ 8) || decide (0x1000 ≤ off ∧ off < 0x2000 ∧ off % 0x80 ≤ 0x4C) ||
    decide (0x2000 ≤ off ∧ off < 0x2400 ∧ off % 0x40 ≤ 0x38) || decide (0x2400 ≤ off ∧ off < 0x2480 ∧ off % 0x10 ≤ 8) ||
    decide (0x2500 ≤ off ∧ off < 0x2580 ∧ off % 0x10 ≤ 4) || decide (0x2600 ≤ off ∧ off < 0x2700 ∧ off % 0x10 ≤ 4) ||
    decide (0x4000 ≤ off ∧ off < 0xC000))

/-- The bits that a loop register stores (R375). -/
def loopMask (r : Nat) : Nat :=
  match r with
  | 0x00 => 0xFFFFFF3D
  | 0x04 => 0x000FFFFF
  | 0x34 => 0x00001F0F
  | 0x38 => 0xE0FFFFFF
  | 0x40 => 0xFFFF0003
  | 0x44 | 0x48 | 0x4C => 0
  | _ => 0xFFFFFFFF

/-- The bits that an axis register stores (R376). -/
def axisMask (r : Nat) : Nat :=
  match r with
  | 0x00 => 0xFFFF0F7F
  | 0x04 | 0x20 | 0x24 | 0x28 | 0x2C | 0x38 => 0xFFFFFFFF
  | _ => 0

/-- The bits that a register of the loop block stores; 0 for one that stores nothing (R374-R376). -/
def engMask (off : Nat) : Nat :=
  match loopPlace? off, axisPlace? off with
  | some (_, r), _ => loopMask r
  | none, some (_, r) => axisMask r
  | none, none =>
    if 0x4000 ≤ off then 0xFFFFFFFF
    else if 0x2600 ≤ off then (if off % 0x10 = 0 then 0xFFFFFF03 else 0xFFFF)
    else if 0x2500 ≤ off then (if off % 0x10 = 0 then 0xFFFF0003 else 0)
    else if 0x2400 ≤ off then (if off % 0x10 = 0 then 3 else 0)
    else 0

/-! ### Reading (R374-R376) -/

/-- LSTAT of loop n (R364, R375). -/
def State.lstat (s : State) (n : Nat) : Nat :=
  let l := s.loop n
  let en := s.loopEn n
  let lim := s.lreg n 0x10
  flag en 16 + flag (en && decide (l.u = sx 16 (wfld lim 31 16))) 17 + flag (en && decide (l.u = sx 16 (wfld lim 15 0))) 18 +
    flag l.supFault 19 + flag l.srcFault 20 + flag l.capBusy 21 + flag l.capDone 22 + flag l.injOn 23 + ux 16 l.u

/-- AX_STATUS of an axis (R376); MOVING while the generator's speed is not 0 (log entry 31). -/
def Axis.status (a : Axis) : Nat :=
  a.wire.toNat * 256 + flag a.dir 0 + flag a.still 1 + flag a.ampLow 2 + flag a.ampHigh 3 + flag a.fault 4 +
    flag (decide (a.v ≠ 0)) 5 + flag a.clamped 6 + flag a.arrived 7

/-- A register of the loop block as read (R374-R376). -/
def State.loopValue (s : State) (off : Nat) : Word :=
  match loopPlace? off, axisPlace? off with
  | some (n, r), _ =>
    match r with
    | 0x44 => BitVec.ofNat 32 (s.lstat n)
    | 0x48 => BitVec.ofNat 32 (ux 16 (s.loop n).pv * 65536 + ux 16 (s.loop n).res)
    | 0x4C => BitVec.ofNat 32 (tget (0 : BitVec 4) s.loops.levent n).toNat
    | _ => s.loopReg off
  | none, some (n, r) =>
    let a := s.axis n
    match r with
    | 0x08 => a.pos
    | 0x0C => BitVec.ofInt 32 a.speed
    | 0x10 => a.index
    | 0x14 => BitVec.ofNat 32 a.status
    | 0x18 => BitVec.ofNat 32 a.event.toNat
    | 0x1C => BitVec.ofNat 32 (rcShown s.clock a.cntOld a.count)
    | 0x30 => BitVec.ofInt 32 a.target
    | 0x34 => BitVec.ofInt 32 (a.p / 65536)
    | _ => s.loopReg off
  | none, none =>
    if off = 0 then BitVec.ofNat 32 (maskOf ((List.range 32).filter s.loopEn))
    else if off = 4 then BitVec.ofNat 32 (maskOf ((List.range 32).filter (fun n => (s.loop n).inFault)))
    else if off = 8 then BitVec.ofNat 32 s.loops.load
    else if 0x2400 ≤ off ∧ off < 0x2480 ∧ off % 0x10 = 4 then BitVec.ofInt 32 (tget 0 s.loops.ain ((off - 0x2400) / 0x10))
    else if 0x2400 ≤ off ∧ off < 0x2480 ∧ off % 0x10 = 8 then
      BitVec.ofNat 32 (tget (0 : BitVec 3) s.loops.ainStat ((off - 0x2400) / 0x10)).toNat
    else if 0x2500 ≤ off ∧ off < 0x2580 ∧ off % 0x10 = 4 then BitVec.ofNat 32 (b2n (s.loops.open_.contains ((off - 0x2500) / 0x10)))
    else s.loopReg off

/-- What reading a register does: AX_COUNT clears (R9, R376). -/
def State.loopAfter (s : State) (off : Nat) : State :=
  match axisPlace? off with
  | some (n, 0x1C) => s.modAxis n fun a =>
      let w := rcLeft s.clock a.cntOld a.count
      { a with dirChanges := w / 65536, edgeFaults := w % 65536, cntOld := rcNote s.clock a.cntOld }
  | _ => s

/-- LOOP_READ (R343, R374). -/
def execLoopRead (rq : Rq) (off count : Nat) (s : State) : Host.Outcome State Fault Refusal :=
  regRead rq 0x0900 off count loopKnown State.loopValue State.loopAfter s

/-! ### Judging a write (R362, R369, R373, R375, R376) -/

/-- PV_SRC, SP_SRC and OUT_DST hold codes of R362. -/
def loopCodes (w : Word) : Bool :=
  let pv := wfld w 31 24
  let sp := wfld w 23 16
  let dst := wfld w 15 8
  decide (pv = 0 ∨ (0x10 ≤ pv ∧ pv ≤ 0x17) ∨ (0x20 ≤ pv ∧ pv ≤ 0x2F) ∨ (0x40 ≤ pv ∧ pv ≤ 0x5F)) &&
    decide (sp = 0 ∨ (0x10 ≤ sp ∧ sp ≤ 0x17) ∨ (0x40 ≤ sp ∧ sp ≤ 0x7F)) &&
    decide (dst = 0 ∨ (0x10 ≤ dst ∧ dst ≤ 0x17) ∨ (0x20 ≤ dst ∧ dst ≤ 0x3F))

/-- A destination is the odd PWM of a BIDIR pair (R362). -/
def State.oddOfPair (s : State) (d : Nat) : Bool :=
  decide (0x20 ≤ d ∧ d ≤ 0x2F ∧ d % 2 = 1) && bit (s.loopReg (0x2600 + 0x10 * (d - 0x21))) 1

/-- LCTL of loop n keeps R362, judged on the block as the write leaves it against the block as it stood. -/
def State.lctlOk (s old : State) (n : Nat) : Bool :=
  let w := s.lreg n 0
  let o := old.lreg n 0
  let d := s.outDst n
  loopCodes w &&
    (!bit w 0 || decide (s.pvSrc n ≠ 0)) &&
    (!bit w 0 || decide (d = 0) || (List.range 32).all (fun m => decide (m = n) || !s.loopEn m || decide (s.outDst m ≠ d))) &&
    !s.oddOfPair d && decide (s.spSrc n ≠ 0x60 + n) &&
    (decide (s.spSrc n / 16 ≠ 4) || decide (s.pvSrc n = s.spSrc n)) &&
    (!bit w 0 || !bit o 0 || decide (w.toNat / 256 = o.toNat / 256))

/-- F0 and F1 lie below half the loop rate (R369). -/
def State.chirpOk (s : State) (n : Nat) : Bool :=
  let div := wfld (s.lreg n 4) 15 0
  let f := s.lreg n 0x3C
  decide (wfld f 15 0 * div < 100000 ∧ wfld f 31 16 * div < 100000)

/-- A word of loop n keeps its ranges (R375). -/
def State.loopWordOk (s old : State) (n r : Nat) : Bool :=
  let w := s.lreg n r
  match r with
  | 0x00 => s.lctlOk old n
  | 0x04 => decide (wfld w 19 16 ≤ 8 ∧ 1 ≤ wfld w 15 0) && s.chirpOk n
  | 0x0C => decide (1 ≤ wfld w 15 0 ∧ wfld w 15 0 ≤ 32767)
  | 0x10 => decide (sx 16 (wfld w 15 0) < sx 16 (wfld w 31 16))
  | 0x14 => decide (wfld w 31 16 ≤ 32767)
  | 0x1C | 0x24 => decide (1 ≤ w.toNat ∧ w.toNat < 2 ^ 31)
  | 0x28 => decide (1 ≤ wfld w 15 0 ∧ wfld w 15 0 ≤ 32767)
  | 0x2C => decide (1 ≤ wfld w 31 16 ∧ wfld w 31 16 ≤ 32767)
  | 0x34 => decide (wfld w 12 8 ≤ 23)
  | 0x38 => decide (wfld w 31 30 ≠ 3 ∧ 1 ≤ wfld w 23 16 ∧ wfld w 15 0 ≤ 16384)
  | 0x3C => s.chirpOk n
  | 0x40 => decide (1 ≤ wfld w 31 16)
  | _ => true

/-- The limits of axis n rise and, with LIM_EN set, hold the present reference (R373, R376). -/
def State.limitsOk (s : State) (n : Nat) : Bool :=
  let l := s.axLimits n
  let p := (s.axis n).p
  decide (l.1 < l.2) && (!s.axLim n || decide (l.1 * 65536 ≤ p ∧ p ≤ l.2 * 65536))

/-- A word of axis n keeps its ranges (R376). -/
def State.axisWordOk (s : State) (n r : Nat) : Bool :=
  let w := s.axreg n r
  match r with
  | 0x00 => decide (4 ≤ wfld w 31 16 ∧ wfld w 31 16 ≤ 2000 ∧ 2 ≤ wfld w 11 8 ∧ wfld w 11 8 ≤ 10 ∧ wfld w 2 0 ≤ 3)
  | 0x04 => decide (1 ≤ wfld w 31 16 ∧ wfld w 31 16 ≤ 10000 ∧ 1 ≤ wfld w 15 0 ∧ wfld w 15 0 ≤ 10000)
  | 0x20 | 0x24 => s.limitsOk n
  | 0x28 => decide (1 ≤ w.toNat ∧ w.toNat ≤ 100000000)
  | 0x2C => decide (1 ≤ w.toNat ∧ w.toNat < 2 ^ 31)
  | 0x38 =>
    decide (110 ≤ wfld w 31 24 ∧ wfld w 31 24 ≤ 200 ∧ 10 ≤ wfld w 23 16 ∧ wfld w 23 16 ≤ 90 ∧ 50 ≤ wfld w 15 0 ∧ wfld w 15 0 ≤ 5000)
  | _ => true

/-- PWM_CFG of output n keeps its ranges, and a BIDIR pair's odd output is nobody's destination (R362, R376). -/
def State.pwmOk (s : State) (n : Nat) : Bool :=
  let w := s.loopReg (0x2600 + 0x10 * n)
  decide (100 ≤ wfld w 31 16 ∧ wfld w 31 16 ≤ 5000 ∧ wfld w 15 8 ≤ 200) &&
    (!bit w 1 || (decide (n % 2 = 0) && (List.range 32).all (fun m => decide (s.outDst m ≠ 0x21 + n))))

/-- A written word keeps its register's ranges and rules, judged on the block as the whole write leaves it (R323, R362,
R374-R376). -/
def State.engWordOk (s old : State) (off : Nat) : Bool :=
  match loopPlace? off, axisPlace? off with
  | some (n, r), _ => s.loopWordOk old n r
  | none, some (n, r) => s.axisWordOk n r
  | none, none => if 0x2600 ≤ off ∧ off < 0x2700 ∧ off % 0x10 = 0 then s.pwmOk ((off - 0x2600) / 0x10) else true

/-- The block as a whole write would leave its stored words. -/
def State.loopProposed (s : State) (l : List (Nat × Nat)) : State :=
  l.foldl (fun t e => if engMask e.1 = 0 then t else t.setLoop e.1 (BitVec.ofNat 32 (e.2 &&& engMask e.1))) s

/-! ### What a write does -/

/-- EN is set on loop n: it takes over at its first period, and a profile generator it uses starts at the measured position
and speed (R365, R373). -/
def State.loopStart (s : State) (n : Nat) : State :=
  let s1 := (s.modLoop n fun l =>
    { l with takeOver := true, left := 0, afterFault := l.inFault, spGood := none, spHeld := false, resSince := none }).onLoops fun g =>
    { g with started := true }
  let k := s.spSrc n % 16
  s1.when (decide (s.spSrc n / 16 = 4)) (·.modAxis k fun a =>
    { a with p := a.position * 65536, v := if s.axMode k = 3 then rdiv (a.speed * 65536) 1000 else a.speed * 65536 })

/-- RESTART is written with 1 on an enabled loop: the next period applies it (R368, R377). -/
def State.loopRestart (s : State) (n : Nat) : State :=
  s.when (s.loopEn n) (·.modLoop n fun l => { l with restart := true })

/-- A register word is written with what follows from it (R365, R368, R370, R375, R376); a new MODE of an axis starts from the levels
of its first sample (log entry 30). -/
def State.loopPut (s : State) (off w : Nat) : State :=
  let t := if engMask off = 0 then s else s.setLoop off (BitVec.ofNat 32 (w &&& engMask off))
  match loopPlace? off, axisPlace? off with
  | some (n, r), _ =>
    match r with
    | 0x00 =>
      ((t.when (t.loopEn n && !s.loopEn n) (·.loopStart n)).when (!t.loopEn n) (·.modLoop n fun l => { l with restart := false })).when
        (w.testBit 7) (·.loopRestart n)
    | 0x40 => t.when (w.testBit 2) (·.arm n)
    | 0x4C => t.onLoops fun g => { g with levent := tmod (0 : BitVec 4) g.levent n (fun v => w1c s.clock (tget (0, 0) g.leNew n) v (BitVec.ofNat 4 w)) }
    | _ => t
  | none, some (n, 0) =>
    t.when (decide (t.axMode n ≠ s.axMode n)) (·.modAxis n fun a => { a with quad := 4, lowSince := none, highSince := none })
  | none, some (n, 0x18) =>
    (t.when (w.testBit 1) (·.faultEv n)).modAxis n fun a => { a with event := w1c s.clock a.evNew a.event (BitVec.ofNat 4 w) }
  | none, _ => t

/-- A LOOP_WRITE's effect: the words, and the copy that the configuration store is owed (R350, R374). -/
def State.loopWriteAll (s : State) (l : List (Nat × Nat)) : State := (l.foldl (fun t e => t.loopPut e.1 e.2) s).cfgOwed 9

/-- LOOP_WRITE: every word is judged on the block as the whole write leaves it, before any is written (R323, R343, R362,
R374). -/
def execLoopWrite (rq : Rq) (off : Nat) (data : List Nat) (s : State) : Host.Outcome State Fault Refusal :=
  .next (mailbox rq 0x0901 .zero csovt (fun s =>
    checked rq 0x0901 (writeChecks 0x0901 loopKnown off data) (fun s =>
      let l := (wordOffsets off data.length).zip data
      let p := s.loopProposed l
      match l.find? (fun e => !p.engWordOk s e.1) with
      | some e => s.refuse rq 0x0901 (outOfRange e.1)
      | none => (s.loopWriteAll l).ok rq 0x0901 []) s) s)

/-- LOOP_ENABLE: EN is written with 1 on a loop that R362 lets run (R365). -/
def execLoopEnable (n : Nat) (s : State) : Host.Outcome State Fault Refusal :=
  let w := (s.lreg n 0).toNat ||| 1
  let off := 0x1000 + 0x80 * n
  onlyIf (decide (n < 32) && !s.loopEn n && (s.loopProposed [(off, w)]).lctlOk s n) (·.loopWriteAll [(off, w)]) s

/-- LOOP_RESTART: RESTART is written with 1 (R368). -/
def execLoopRestart (n : Nat) (s : State) : Host.Outcome State Fault Refusal := onlyIf (decide (n < 32) && s.loopEn n) (·.loopRestart n) s

/-- SUPERVISION_FAULT: the residual has exceeded RES_WIN for RES_TIME (R367, R368). -/
def execSupervisionFault (n : Nat) (s : State) : Host.Outcome State Fault Refusal :=
  onlyIf (s.engineOn && s.loopEn n && s.residualLong n && !(s.loop n).supFault) (·.supervisionFault n) s

/-- CAPTURE_ARM: ARM is written with 1 (R370). -/
def execCaptureArm (n : Nat) (s : State) : Host.Outcome State Fault Refusal := onlyIf (decide (n < 32)) (·.arm n) s

/-- CAPTURE_COMPLETE: a capture has taken its samples; the next period at the latest ends it (R370, log entry 32). -/
def execCaptureComplete (n : Nat) (s : State) : Host.Outcome State Fault Refusal :=
  onlyIf ((s.loop n).capBusy && (s.loop n).capFull) (·.captureEnd n false) s

/-- A capture item (R371); a set-point beyond the codes of Q15 is carried as the nearest (R11). -/
def captureItem (x : Int × Int × Int × Int) : List Byte :=
  leI 2 (satQ x.1) ++ leI 2 (satQ x.2.1) ++ leI 2 (satQ x.2.2.1) ++ leI 2 (satQ x.2.2.2)

/-- CAPTURE: the 4,096 items, oldest first, those not taken zero (R343, R370, R371). -/
def execCapture (rq : Rq) (b : Bulk) (dma : Option Nat) (s : State) : Host.Outcome State Fault Refusal :=
  bulkRead rq 0x0903 b dma (fun s =>
    bulkAllChecks b ++ [(decide (b.arg < 32), outOfRange 0x14), (!(s.loop b.arg).capBusy, busyWith 0x0901)])
    (fun _ => none) (fun s => padTo 4096 (le 8 0) ((s.loop b.arg).capBuf.map captureItem)) s

/-- AXIS_TARGET: a target within the soft limits; the generator follows it (R372). -/
def execAxisTarget (rq : Rq) (ax : Nat) (target : Int) (s : State) : Host.Outcome State Fault Refusal :=
  let l := s.axLimits ax
  plainCmd rq 0x0902 .zero csovt (fun s =>
    [(decide (ax < 16), outOfRange 0),
     (!(s.axLim ax && decide (target < l.1)), ⟨0x0901, 0, ux 32 l.1⟩), (!(s.axLim ax && decide (l.2 < target)), ⟨0x0901, 0, ux 32 l.2⟩)])
    (·.modAxis ax fun a => { a with target := target, arrived := a.arrived && decide (target * 65536 = a.p) }) s

/-- LOOP_CONFIG_SAVE: accepted writes are copied into the configuration store (R350). -/
def execLoopConfigSave (s : State) : Host.Outcome State Fault Refusal :=
  onlyIf (s.recs.cfgPending.contains 9 && s.nvOk) (fun s =>
    (s.onRecs fun r => { r with cfgPending := r.cfgPending.erase 9, cfgLoop := s.loops.regs }).commitCfg) s

/-! ### Axes, inputs and outputs -/

/-- AXIS_EDGE: a sample of the levels of A and B, or of SIN and COS in mV (R352, R354, R355). -/
def execAxisEdge (ax : Nat) (a b : Bool) (sin cos : Int) (s : State) : Host.Outcome State Fault Refusal :=
  onlyIf (decide (ax < 16 ∧ s.axMode ax ≠ 0)) (fun s =>
    if s.axMode ax = 2 then s.axisAnalogue ax sin cos else s.axisSample ax a b) s

/-- AXIS_INDEX: a rising edge of Z with ZLATCH set (R352). -/
def execAxisIndex (ax : Nat) (s : State) : Host.Outcome State Fault Refusal :=
  onlyIf (decide (ax < 16 ∧ s.axMode ax = 1) && bit (s.axreg ax 0) 4) (fun s =>
    s.modAxis ax fun a => { a.mark s.clock 2 with index := a.pos }) s

/-- A pair is watched: A, B and, with ZLATCH, Z in mode 1; A in mode 3 (R353, R355). -/
def State.pairWatched (s : State) (ax pair : Nat) : Bool :=
  decide (ax < 16) && (decide (s.axMode ax = 1 ∧ pair < 2) || (decide (s.axMode ax = 1 ∧ pair = 2) && bit (s.axreg ax 0) 4) ||
    decide (s.axMode ax = 3 ∧ pair = 0))

/-- AXIS_WIRE_FAULT: the wires of pair A, B or Z have read the same level for some nanoseconds: a fault from 1 us on, its bit
clear below (R353, R359). -/
def execAxisWireFault (ax pair heldNs : Nat) (s : State) : Host.Outcome State Fault Refusal :=
  onlyIf (s.pairWatched ax pair) (fun s =>
    let bad := decide (1000 ≤ heldNs)
    (s.modAxis ax fun a => { a with wire := putBit a.wire pair bad }).when bad (·.axisFault ax (pair + 1))) s

/-- AXIS_AMPLITUDE_FAULT: the amplitude has stood below or above its window for 100 us (R354, R359). -/
def execAxisAmplitudeFault (ax : Nat) (high : Bool) (s : State) : Host.Outcome State Fault Refusal :=
  let a := s.axis ax
  onlyIf (decide (ax < 16 ∧ s.axMode ax = 2) && s.elapsed? (if high then a.highSince else a.lowSince) (us 100)) (fun s =>
    (s.modAxis ax fun a => { a with ampLow := a.ampLow || !high, ampHigh := a.ampHigh || high }).axisFault ax (if high then 5 else 4)) s

/-- AXIS_STILL: no count has been accepted for STILL_T (R358). -/
def execAxisStill (ax : Nat) (s : State) : Host.Outcome State Fault Refusal :=
  onlyIf (decide (ax < 16 ∧ s.axMode ax ≠ 0) && s.elapsed (((s.axis ax).edges.head?.map Prod.fst).getD 0) (ms (wfld (s.axreg ax 4) 15 0)))
    (fun s => s.modAxis ax fun a => { a with speed := 0, still := true }) s

/-- FAULTEV: FAULTEV is written with 1 (R359). -/
def execFaultev (ax : Nat) (s : State) : Host.Outcome State Fault Refusal := onlyIf (decide (ax < 16)) (·.faultEv ax) s

/-- OUTPUT_OPEN: a LOUT in current mode has needed more than its compliance for some microseconds: OPEN from 1 ms on, clear
below (R361, R509). -/
def execOutputOpen (n heldUs : Nat) (s : State) : Host.Outcome State Fault Refusal :=
  onlyIf (decide (n < 8) && bit (s.loopReg (0x2500 + 0x10 * n)) 0 && bit (s.loopReg (0x2500 + 0x10 * n)) 1) (fun s =>
    if 1000 ≤ heldUs then
      (s.onLoops fun g => { g with open_ := insN n g.open_ }).when (!s.loops.open_.contains n) (·.raise 0x0909 [n])
    else s.onLoops fun g => { g with open_ := g.open_.filter (fun k => decide (k ≠ n)) }) s

/-- AIN_BROKEN: a sample of an AIN in current mode, uA: BROKEN below 3.6 mA (R360). -/
def execAinBroken (n : Nat) (value : Int) (s : State) : Host.Outcome State Fault Refusal :=
  onlyIf (decide (n < 8) && bit (s.ainCfg n) 0 && bit (s.ainCfg n) 1) (·.putAin n value) s

/-! ### Drive frames (R414) -/

/-- The four slots of drive frame k, 0x8000 where no enabled loop drives one. -/
def State.driveSlots (s : State) (k : Nat) : List (Option Int) :=
  (List.range 4).map (fun i => (s.driverOf (0x30 + 4 * k + i)).map (fun n => (s.loop n).u))

/-- The drive frames are placed in the channel's dedicated buffers; a frame with no driven slot is not sent (R414). -/
def State.driveFrames (s : State) : State :=
  let frames := (List.range 4).filter (fun k => (s.driveSlots k).any Option.isSome)
  ((s.modCtrl s.drvCh fun c => (List.range 4).foldl (fun c k =>
      if frames.contains k then c.place (s.drvBase + k) ((s.driveSlots k).flatMap (fun v => leI 2 (v.getD (-32768))))
      else c.unplace (s.drvBase + k)) c).startFrame s.drvCh).onLoops
    fun g => { g with drvAt := some s.clock }

/-- DRIVE_FRAME_PERIOD: PERIOD has passed since the frames were placed last (R414). -/
def execDriveFramePeriod (s : State) : Host.Outcome State Fault Refusal :=
  onlyIf (s.engineOn && s.drvEn && s.canEn s.drvCh &&
    (match s.loops.drvAt with | some t => s.elapsed t (ms (wfld (s.canReg 8) 15 0)) | none => true)) (·.driveFrames) s

end Sys2Proof.Machine
end

