-- ==== Sys2Proof/Machine/LoadCmds.lean ====
section
/-! DEFINITION. Load-switch channels: registers, commands, faults of a channel, the supply side (R379-R396). -/
namespace Sys2Proof.Machine
open Sys2Proof

/-! ### Measurements and read-back (R344, R388, R390, R395) -/

/-- Measurements that the block publishes: current in mA and DT of each channel, VLOAD in 10 mV, the 1 s mean in 10 mA; an
off channel carries no current of its own, and its clamp conducts until the load's has decayed (R385-R390). -/
def State.takeMeas (s : State) (meas : List (Nat × Int)) (vload : Int) (mean : Nat) : State :=
  (forEach chanNums (fun n t => t.modChan n fun c =>
    { c with i := if c.on then satN 65535 (nth (0, 0) meas n).1 else 0, dt := (nth (0, 0) meas n).2,
             clamp := c.clamp && decide (0 < (nth (0, 0) meas n).1) }) s).onLoad fun l =>
      { l with vload := clampI (-32768) 32767 vload, itot1s := satN 65535 mean }

/-- The sum of all channel currents in 10 mA (R390). -/
def State.itot (s : State) : Nat := satN 65535 (rdiv ((chanNums.map (fun n => (s.chan n).i)).sum : Nat) 10).toNat

/-- LOAD_CMD as read: of a guard-owned channel the guard's command (R379, R391). -/
def State.cmdWord (s : State) : Nat := maskOf (chanNums.filter (fun n => if s.owned n then bit s.guard.cmd n else bit s.load.cmd n))

/-- Thermal switch-offs within the last 10 s (R386). -/
def State.dtWin (s : State) (n : Nat) : Nat := satN 8 ((s.chan n).dtAt.filter (fun t => decide (s.clock ≤ t + secs 10))).length

/-- LCH_STAT of a channel (R395). -/
def State.chanStat (s : State) (n : Nat) : Nat :=
  let c := s.chan n
  c.stage * 65536 + s.dtWin n * 256 + flag c.on 0 + flag c.oc 1 + flag c.dtOff 2 + flag c.dtLatch 3 + flag c.openLoad 4 +
    flag c.inrush 5 + flag c.clamp 6 + flag (s.owned n) 7

/-- SENSE_OUT in mV: 3.3 V at 1.5 times the rated current, the fault level for a channel at fault (R388). -/
def State.senseOut (s : State) : Nat :=
  let n := wfld s.load.sense 4 0
  let c := s.chan n
  if !bit s.load.sense 7 then 0
  else if c.oc || c.dtOff || c.dtLatch || s.supFlag 3 then 4500
  else if c.on then satN 3300 (rdiv (c.i * 6600 : Nat) (3 * chanRated n : Nat)).toNat
  else 0

/-- A channel record (R344). -/
def State.chanRecord (s : State) (n : Nat) : List Byte :=
  let c := s.chan n
  le 1 (flag c.on 0 + flag (s.cmdWord.testBit n) 1 + flag (bit s.load.pins n) 2 + flag (s.owned n) 3 + flag c.oc 4 +
    flag c.dtLatch 5 + flag c.openLoad 6) ++ le 1 (s.profile n) ++ le 2 (rdiv c.i 10).toNat ++ leI 2 c.dt ++ le 2 0

/-- LCH_COUNT as it stands. -/
def Chan.count (c : Chan) : Nat := c.ocTrips * 65536 + c.dtOffs

/-- LCH_COUNT is about to count (R9). -/
def Chan.mark (c : Chan) (clock : Nat) : Chan := { c with cntOld := noteOld clock c.cntOld c.count }

/-- A LOAD_EVENT bit sets (R9, R395). -/
def State.loadEvent (s : State) (i : Nat) : State :=
  s.onLoad fun l => { l with event := putBit l.event i true, evNew := noteBits s.clock l.evNew (2 ^ i) }

/-- A register of the load block as read (R395). -/
def State.loadValue (s : State) (off : Nat) : Word :=
  let n := (off - 0x100) / 0x10
  let c := s.chan n
  BitVec.ofNat 32 (
    if 0x100 ≤ off then
      match off % 0x10 with
      | 0x0 => (s.chanCfg n).toNat
      | 0x4 => ux 16 c.dt * 65536 + c.i
      | 0x8 => s.chanStat n
      | _ => rcShown s.clock c.cntOld c.count
    else
      match off with
      | 0x00 => s.cmdWord
      | 0x04 => maskOf (chanNums.filter (fun n => (s.chan n).on))
      | 0x08 => s.load.pins.toNat
      | 0x0C => maskOf (chanNums.filter s.owned)
      | 0x10 => ux 16 s.load.vload * 65536 + s.load.sup.toNat
      | 0x14 => s.load.itot1s * 65536 + s.itot
      | 0x18 => s.load.sense.toNat
      | _ => s.load.event.toNat)

/-- What reading a register does: LCH_COUNT clears (R9, R395). -/
def State.loadAfter (s : State) (off : Nat) : State :=
  if 0x100 ≤ off ∧ off % 0x10 = 0xC then s.modChan ((off - 0x100) / 0x10) fun c =>
    let w := rcLeft s.clock c.cntOld c.count
    { c with ocTrips := w / 65536, dtOffs := w % 65536, cntOld := rcNote s.clock c.cntOld }
  else s

/-- The offsets of the load block's map (R395). -/
def loadKnown (off : Nat) : Bool := decide (off % 4 = 0) && (decide (off ≤ 0x1C) || decide (0x100 ≤ off ∧ off < 0x280))

/-- LOAD_READ, with the measurements that the block publishes at that moment (R343, R388, R395). -/
def execLoadRead (rq : Rq) (off count : Nat) (meas : List (Nat × Int)) (vload : Int) (mean : Nat) (s : State) :
    Host.Outcome State Fault Refusal :=
  regRead rq 0x0A00 off count loadKnown State.loadValue State.loadAfter (s.takeMeas meas vload mean)

/-- CH_STATUS: the 24 channel records, with the measurements of that moment (R343, R344, R388). -/
def execChStatus (rq : Rq) (meas : List (Nat × Int)) (vload : Int) (mean : Nat) (s : State) : Host.Outcome State Fault Refusal :=
  readCmd rq 0x0A03 .zero (fun _ => []) (fun s => chanNums.flatMap s.chanRecord) (s.takeMeas meas vload mean)

/-! ### Commands and latches (R379, R380, R384, R391) -/

/-- The CMD bits change: a change from 0 to 1 clears the channel's latches, but for one that sets in the same tick; guard-owned
channels' bits stand (R379, R384, R394). -/
def State.setCmd (s : State) (cmd : Nat) : State :=
  let ups := chanNums.filter (fun n => !s.owned n && cmd.testBit n && !bit s.load.cmd n)
  let s1 := forEach (ups.filter (fun n => decide ((s.chan n).latchAt ≠ some s.clock))) (fun n t => t.modChan n Chan.unlatch) s
  s1.onLoad fun l => { l with cmd := BitVec.ofNat 24 (maskOf (chanNums.filter (fun n => if s.owned n then bit l.cmd n else cmd.testBit n))) }

/-- A write to guard-owned channels is refused whole, PARAM being the mask of guard-owned channels, and logged with the
mask of those it touches (R25, R326, R391, R394, R396). -/
def State.guardOwned (s : State) (rq : Rq) (op mask : Nat) : State :=
  (s.raise 0x0A0C [mask % 65536, mask / 65536]).refuse rq op ⟨0x0A01, 0, maskOf (chanNums.filter s.owned)⟩

/-- The guard-owned channels of a mask. -/
def State.ownedOf (s : State) (mask : Nat) : Nat := maskOf (chanNums.filter (fun n => s.owned n && mask.testBit n))

/-- SET_OUTPUTS (R343, R379, R380, R394). -/
def execSetOutputs (rq : Rq) (mask value : Nat) (s : State) : Host.Outcome State Fault Refusal :=
  .next (mailbox rq 0x0A02 .zero csovt (fun s =>
    checked rq 0x0A02 [(decide (mask < 2 ^ 24), outOfRange 0), (decide (value < 2 ^ 24), outOfRange 4)] (fun s =>
      if s.ownedOf mask ≠ 0 then s.guardOwned rq 0x0A02 (s.ownedOf mask)
      else checked rq 0x0A02
        [(chanNums.all (fun n => !mask.testBit n || !value.testBit n || decide (s.profile n ≠ 0)), outOfRange 4)]
        (fun s => ((s.setCmd (maskOf (chanNums.filter (fun n => if mask.testBit n then value.testBit n else bit s.load.cmd n)))).applyChannels
          chanNums).ok rq 0x0A02 []) s) s) s)

/-- RESTART: latched channels are commanded off now and on 1 ms later (R343, R384, R391, R394). -/
def execRestart (rq : Rq) (mask : Nat) (s : State) : Host.Outcome State Fault Refusal :=
  .next (mailbox rq 0x0A04 .zero csovt (fun s =>
    checked rq 0x0A04 [(decide (mask < 2 ^ 24), outOfRange 0)] (fun s =>
      if s.ownedOf mask ≠ 0 then s.guardOwned rq 0x0A04 (s.ownedOf mask)
      else
        let ns := chanNums.filter (fun n => mask.testBit n && ((s.chan n).oc || (s.chan n).dtLatch))
        ((forEach ns (fun n t => (t.modChan n fun c => { c with recmd := some t.clock }).onLoad fun l =>
          { l with cmd := putBit l.cmd n false }) s).applyChannels ns).ok rq 0x0A04 []) s) s)

/-- RESTART_RECOMMAND: 1 ms after RESTART, CMD is written to 1 (R384). -/
def execRestartRecommand (n : Nat) (s : State) : Host.Outcome State Fault Refusal :=
  onlyIf (decide (n < 24) && s.elapsed? (s.chan n).recmd (ms 1)) (fun s =>
    (((s.modChan n fun c => { c with recmd := none })).setCmd (s.load.cmd.toNat ||| 2 ^ n)).applyChannels [n]) s

/-! ### Writing registers (R380, R391, R395) -/

/-- The bits that a register of the load block stores; 0 for one that stores nothing (R395). -/
def loadMask (off : Nat) : Nat :=
  if 0x100 ≤ off then (if off % 0x10 = 0 then 0xFFFF00FA else 0)
  else
    match off with
    | 0x00 => 0xFFFFFF
    | 0x18 => 0x9F
    | _ => 0

/-- LCH_CFG of a channel keeps its ranges and R380. -/
def chanCfgOk (n : Nat) (w : Nat) : Bool :=
  let slew := fld w 31 24
  let pr := fld w 7 4
  decide (25 ≤ fld w 23 16 ∧ fld w 23 16 ≤ 100) && (if softCh n then decide (pr = 0 ∨ pr = 6) else decide (pr ≤ 5)) &&
    (!w.testBit 1 || lightCh n) && (if softCh n then decide (1 ≤ slew ∧ slew ≤ 50) else decide (slew = 0))

/-- The guard-owned channels that a word would change: their bits of LOAD_CMD, their LCH_CFG (R25, R391). -/
def State.ownedTouched (s : State) (off w : Nat) : Nat :=
  let v := w &&& loadMask off
  if off = 0 then maskOf (chanNums.filter (fun n => s.owned n && (v.testBit n != s.cmdWord.testBit n)))
  else if 0x100 ≤ off ∧ off % 0x10 = 0 then
    let n := (off - 0x100) / 0x10
    if s.owned n ∧ v ≠ (s.chanCfg n).toNat then 2 ^ n else 0
  else 0

/-- A channel's LCH_CFG as a list of written words leaves it. -/
def State.cfgAfter (s : State) (l : List (Nat × Nat)) (n : Nat) : Nat :=
  (((l.filter (fun e => decide (e.1 = 0x100 + 0x10 * n))).getLast?.map Prod.snd).getD (s.chanCfg n).toNat) &&& 0xFFFF00FA

/-- A word keeps its register's ranges and R380, judged on the block as the whole write leaves it (R380, R395). -/
def State.loadWordOk (s : State) (l : List (Nat × Nat)) (off w : Nat) : Bool :=
  if off = 0 then chanNums.all (fun n => s.owned n || !w.testBit n || decide (fld (s.cfgAfter l n) 7 4 ≠ 0))
  else if off = 0x18 then decide (fld w 4 0 ≤ 23)
  else if 0x100 ≤ off ∧ off % 0x10 = 0 then chanCfgOk ((off - 0x100) / 0x10) w
  else true

/-- A word is written (R395). -/
def State.loadPut (s : State) (off w : Nat) : State :=
  let v := w &&& loadMask off
  if 0x100 ≤ off then
    let n := (off - 0x100) / 0x10
    if off % 0x10 = 0 then s.onLoad fun l => { l with cfg := regSet chanReset l.cfg n (BitVec.ofNat 32 v) } else s
  else
    match off with
    | 0x00 => s.setCmd v
    | 0x18 => s.onLoad fun l => { l with sense := BitVec.ofNat 32 v }
    | 0x1C => s.onLoad fun l => { l with event := w1c s.clock l.evNew l.event (BitVec.ofNat 7 w) }
    | _ => s

/-- LOAD_WRITE: refused whole where it would change a guard-owned channel, else where a word breaks its ranges; the
configuration store is owed its copy (R343, R380, R391, R393, R395). -/
def execLoadWrite (rq : Rq) (off : Nat) (data : List Nat) (s : State) : Host.Outcome State Fault Refusal :=
  .next (mailbox rq 0x0A01 .zero csovt (fun s =>
    checked rq 0x0A01 (writeChecks 0x0A01 loadKnown off data) (fun s =>
      let l := (wordOffsets off data.length).zip data
      let touched := l.foldl (fun m e => m ||| s.ownedTouched e.1 e.2) 0
      if touched ≠ 0 then s.guardOwned rq 0x0A01 touched
      else
        match l.find? (fun e => !s.loadWordOk l e.1 e.2) with
        | some e => s.refuse rq 0x0A01 (outOfRange e.1)
        | none => (((l.foldl (fun t e => t.loadPut e.1 e.2) s).applyChannels chanNums).cfgOwed 10).ok rq 0x0A01 []) s) s)

/-- LOAD_CONFIG_SAVE: accepted writes are copied into the configuration store (R393). -/
def execLoadConfigSave (s : State) : Host.Outcome State Fault Refusal :=
  onlyIf (s.recs.cfgPending.contains 10 && s.nvOk) (fun s =>
    (s.onRecs fun r => { r with cfgPending := r.cfgPending.erase 10, cfgLoad := s.load.cfg, cfgSense := s.load.sense }).commitCfg) s

/-! ### IN pins (R383) -/

/-- IN_EDGE: the level of an IN pin changes; the channel follows unless its minimum time still runs (R379, R383). -/
def execInEdge (n : Nat) (high : Bool) (s : State) : Host.Outcome State Fault Refusal :=
  onlyIf (decide (n < 24) && s.power.vioOk) (fun s =>
    (s.onLoad fun l => { l with pins := putBit l.pins n high }).when (s.inEn n && s.minDone n) (·.applyChannels [n])) s

/-- IN_MINIMUM_TIME_END: a stretched on or off time ends and the output follows its command (R383). -/
def execInMinimumTimeEnd (n : Nat) (s : State) : Host.Outcome State Fault Refusal :=
  onlyIf (decide (n < 24) && s.inEn n && s.minDone n) (·.applyChannels [n]) s

/-! ### Inrush, slew, overcurrent (R381, R382, R384) -/

/-- The inrush window of a profile in ms (R381). -/
def inrushMs (pr : Nat) : Nat :=
  match pr with
  | 1 => 30
  | 2 => 1000
  | 3 => 500
  | 4 => 200
  | 5 => 50
  | _ => 0

/-- The inrush threshold of a profile in tenths of the rated current (R381). -/
def inrushTenths (pr : Nat) : Nat :=
  match pr with
  | 1 => 60
  | 2 => 40
  | 3 => 20
  | 4 => 30
  | 5 => 20
  | _ => 0

/-- A channel's present threshold in uA: the inrush or the steady one, scaled by ILIM; a ramping soft channel's limit of 2 times
its rated current (R381, R382). -/
def State.threshold (s : State) (n : Nat) : Nat :=
  let ilim := wfld (s.chanCfg n) 23 16
  if (s.chan n).inrush then (if softCh n then 2000 * chanRated n else inrushTenths (s.profile n) * chanRated n * ilim)
  else 12 * chanRated n * ilim

/-- INRUSH_WINDOW_END (R381). -/
def execInrushWindowEnd (n : Nat) (s : State) : Host.Outcome State Fault Refusal :=
  onlyIf (decide (n < 22) && (s.chan n).on && (s.chan n).inrush && s.elapsed? (s.chan n).onAt (ms (inrushMs (s.profile n))))
    (·.modChan n fun c => { c with inrush := false }) s

/-- SLEW_RAMP_COMPLETE: a soft channel's output lies within 2 V of VLOAD, both in 10 mV (R382). -/
def execSlewRampComplete (n : Nat) (vout vload : Int) (s : State) : Host.Outcome State Fault Refusal :=
  onlyIf (decide (22 ≤ n ∧ n < 24 ∧ vload - vout ≤ 200) && (s.chan n).on && (s.chan n).inrush)
    (·.modChan n fun c => { c with inrush := false }) s

/-- A channel's overcurrent latch sets: the stage, the count, the event; the channel switches off, and a guard-owned one drops
out (R384, R392). -/
def State.overcurrent (s : State) (n stage ma : Nat) : State :=
  let ps : List Int := [n, stage, rdiv ma 10]
  let s1 := ((s.modChan n fun c => { c.mark s.clock with oc := true, latchAt := some s.clock, stage := stage, ocTrips := sat16 (c.ocTrips + 1), i := satN 65535 ma }).loadEvent
    5).raise 0x0A01 ps
  (s1.applyChannels [n]).dropout [n] 0x0A01 ps

/-- OVERCURRENT_LATCH: a current in mA has exceeded the threshold for some microseconds, 20 of them latch (R384). -/
def execOvercurrentLatch (n ma heldUs : Nat) (s : State) : Host.Outcome State Fault Refusal :=
  onlyIf (decide (n < 24 ∧ s.threshold n < ma * 1000 ∧ 20 ≤ heldUs) && (s.chan n).on)
    (fun s => s.overcurrent n (if (s.chan n).inrush then 1 else 2) ma) s

/-- SLEW_RAMP_TIMEOUT: a ramp is not complete within 200 ms (R382). -/
def execSlewRampTimeout (n ma : Nat) (s : State) : Host.Outcome State Fault Refusal :=
  onlyIf (decide (22 ≤ n ∧ n < 24) && (s.chan n).on && (s.chan n).inrush && s.elapsed? (s.chan n).onAt (ms 200))
    (·.overcurrent n 1 ma) s

/-! ### Temperature and open load (R386, R387) -/

/-- THERMAL_SWITCH_OFF: DT, in 0.01 K, reaches 60 K: off, and latched on the eighth time in 10 s or at once when guard-owned
(R386, R392). -/
def execThermalSwitchOff (n : Nat) (dt : Int) (s : State) : Host.Outcome State Fault Refusal :=
  onlyIf (decide (n < 24 ∧ 6000 ≤ dt) && (s.chan n).on) (fun s =>
    let s1 := s.modChan n fun c =>
      { c.mark s.clock with
        dtOff := true, dt := dt, dtOffs := sat16 (c.dtOffs + 1), dtAt := (s.clock :: c.dtAt.filter (fun t => decide (s.clock ≤ t + secs 10))).take 8 }
    let latch := s.owned n || decide (8 ≤ s1.dtWin n)
    let s2 := s1.when latch (fun t => ((t.modChan n fun c => { c with dtLatch := true, latchAt := some s.clock }).loadEvent 5).raise 0x0A02 [n, dt])
    (s2.applyChannels [n]).dropout [n] 0x0A02 [n, dt]) s

/-- THERMAL_RESTART: DT falls below 45 K (R386). -/
def execThermalRestart (n : Nat) (dt : Int) (s : State) : Host.Outcome State Fault Refusal :=
  onlyIf (decide (n < 24 ∧ dt < 4500) && (s.chan n).dtOff) (fun s =>
    (s.modChan n fun c => { c with dtOff := false, dt := dt }).applyChannels [n]) s

/-- OPEN_LOAD_JUDGEMENT: the samples, in mA, of 100 ms of accumulated on-time since the last judgement (R387). -/
def execOpenLoadJudgement (n : Nat) (samples : List Nat) (s : State) : Host.Outcome State Fault Refusal :=
  let thr := if bit (s.chanCfg n) 1 then 2 else 20
  let sum := samples.sum
  onlyIf (decide (n < 24 ∧ samples ≠ [] ∧ ms 100 ≤ (s.chan n).onTime s.clock) && (s.chan n).on) (fun s =>
    let s := s.modChan n fun c => { c with onAcc := 0, onFrom := s.clock }
    if samples.all (fun v => decide (v < thr)) && !(s.chan n).openLoad then
      ((s.modChan n fun c => { c with openLoad := true }).loadEvent 6).raise 0x0A03
        [n, rdiv sum samples.length]
    else if (s.chan n).openLoad && decide (3 * thr * samples.length < 2 * sum) then
      (s.modChan n fun c => { c with openLoad := false }).raise 0x0A04 [n]
    else s) s

/-! ### The supply side (R389, R392, R394) -/

/-- STAGGERED_TURN_ON: 1 ms after the last, the next waiting channel that may still conduct turns on (R394). -/
def execStaggeredTurnOn (s : State) : Host.Outcome State Fault Refusal :=
  onlyIf (decide (s.load.stagger ≠ []) && s.elapsed? s.load.staggerAt (ms 1)) (fun s =>
    match s.load.stagger.dropWhile (fun n => (s.chan n).on || !s.conducts n) with
    | [] => s.onLoad fun l => { l with stagger := [], staggerAt := none }
    | n :: rest => (s.turnOn n).onLoad fun l => { l with stagger := rest, staggerAt := some s.clock }) s

/-- A supply flag sets, with its LOAD_EVENT bit; VLOAD is noted (R389). -/
def State.supSet (s : State) (i : Nat) : State := (s.onLoad fun l => { l with sup := putBit l.sup i true }).loadEvent i

/-- A supply fault reaches the channels: those that may no longer conduct switch off, and guard-owned channels commanded on drop
out (R389, R392). -/
def State.supplyFault (s : State) (cause : Nat) (ps : List Int) : State :=
  let hit := chanNums.filter (fun n => s.owned n && bit s.guard.cmd n)
  (s.dropout hit cause ps).applyChannels chanNums

/-- VLOAD_UNDER_VOLTAGE: VLOAD, in 10 mV, below 30 V for some microseconds, 100 of them set UV (R389, R392). -/
def execVloadUnderVoltage (vload : Int) (heldUs : Nat) (s : State) : Host.Outcome State Fault Refusal :=
  onlyIf (decide (vload < 3000 ∧ 100 ≤ heldUs) && !s.supFlag 0) (fun s =>
    let on := maskOf (chanNums.filter (fun n => (s.chan n).on))
    let ps : List Int := [rdiv vload 10, on % 65536, on / 65536]
    let s1 := ((s.supSet 0).onLoad fun l => { l with vload := vload, uvAt := s.clock, overSince := none }).raise 0x0A05 ps
    s1.supplyFault 0x0A05 ps) s

/-- VLOAD_RESTORED: VLOAD above 33 V for some milliseconds, 10 of them clear UV and REVERSE: commanded channels switch on again
(R389, R390, R394). -/
def execVloadRestored (vload : Int) (heldMs : Nat) (s : State) : Host.Outcome State Fault Refusal :=
  onlyIf (decide (3300 < vload ∧ 10 ≤ heldMs) && (s.supFlag 0 || s.supFlag 2)) (fun s =>
    let s1 := s.onLoad fun l =>
      { l with sup := putBit (putBit l.sup 0 false) 2 false, reverseOn := false, vload := vload,
               overSince := if 4000 < l.itot1s then some s.clock else none }
    (s1.when (s.supFlag 0) (·.raise 0x0A06 [(sat16 (s.msSince s.load.uvAt) : Nat)])).applyChannels chanNums) s

/-- LOAD_DUMP: VLOAD above 80 V sets DUMP; below 76 V it clears with its event (R385, R389). -/
def execLoadDump (vload : Int) (s : State) : Host.Outcome State Fault Refusal :=
  .next (
    if s.supFlag 1 then
      if vload < 7600 then
        (s.onLoad fun l => { l with sup := putBit l.sup 1 false, vload := vload }).raise 0x0A07
          [rdiv s.load.dump.2 10, (sat16 (s.msSince s.load.dump.1) : Nat)]
      else s.onLoad fun l => { l with vload := vload, dump := (l.dump.1, max l.dump.2 vload) }
    else if 8000 < vload then (s.supSet 1).onLoad fun l => { l with vload := vload, dump := (s.clock, vload) }
    else s)

/-- REVERSE_SUPPLY: VLOAD below -5 V for some microseconds, 100 of them: all channels fully on with VMAIN present, else all off
(R389, R392). -/
def execReverseSupply (vload : Int) (heldUs : Nat) (s : State) : Host.Outcome State Fault Refusal :=
  onlyIf (decide (vload < -500 ∧ 100 ≤ heldUs) && !s.supFlag 2) (fun s =>
    let ps : List Int := [rdiv vload 10, b2n s.power.vmain]
    let s1 := ((s.supSet 2).onLoad fun l =>
      { l with vload := vload, reverseOn := s.power.vmain, uvAt := if bit l.sup 0 then l.uvAt else s.clock }).raise 0x0A08 ps
    let hit := chanNums.filter (fun n => s.owned n && bit s.guard.cmd n)
    let s2 := s1.dropout hit 0x0A08 ps
    if s.power.vmain then forEach (chanNums.filter (fun n => !(s.chan n).on)) (fun n t => t.turnOn n) s2
    else s2.applyChannels chanNums) s

/-- LOAD_GROUND_LOST: LGND more than 3 V, in mV, from module ground for some microseconds, 1,000 of them (R389, R392). -/
def execLoadGroundLost (offset : Int) (heldUs : Nat) (s : State) : Host.Outcome State Fault Refusal :=
  onlyIf (decide (3000 < offset.natAbs ∧ 1000 ≤ heldUs) && !s.supFlag 3) (fun s =>
    let ps : List Int := [rdiv offset 100]
    (((s.supSet 3).onLoad fun l => { l with gndAt := s.clock }).raise 0x0A09 ps).supplyFault 0x0A09 ps) s

/-- LOAD_GROUND_RESTORED: LGND within 1 V for some milliseconds, 10 of them clear GND_LOST (R389). -/
def execLoadGroundRestored (offset : Int) (heldMs : Nat) (s : State) : Host.Outcome State Fault Refusal :=
  onlyIf (decide (offset.natAbs ≤ 1000 ∧ 10 ≤ heldMs) && s.supFlag 3) (fun s =>
    ((s.onLoad fun l => { l with sup := putBit l.sup 3 false }).raise 0x0A0A [(sat16 (s.msSince s.load.gndAt) : Nat)]).applyChannels
      chanNums) s

/-! ### Total current (R390) -/

/-- TOTAL_OVERLOAD: a 1 s mean, in 10 mA: above 40 A it sets OVERLOAD, at or below for 5 s it clears it (R390). -/
def execTotalOverload (mean : Nat) (s : State) : Host.Outcome State Fault Refusal :=
  let s1 := s.onLoad fun l => { l with itot1s := satN 65535 mean }
  .next (
    if 4000 < mean then
      let s2 := s1.onLoad fun l =>
        { l with overSince := if bit l.sup 0 then none else some (l.overSince.getD s.clock), calmSince := none }
      if s.supFlag 4 then s2
      else ((s2.supSet 4).onLoad fun l => { l with shed := 0, shedAt := none }).raise 0x0A0B [(sat16 mean : Nat), 0]
    else
      let s2 := s1.onLoad fun l => { l with overSince := none, calmSince := some (l.calmSince.getD s.clock) }
      if s.supFlag 4 && s2.elapsed? s2.load.calmSince (secs 5) then
        s2.onLoad fun l => { l with sup := putBit l.sup 4 false, calmSince := none, shed := 0, shedAt := none }
      else s2)

/-- The highest-numbered channel that is on and not guard-owned (R390). -/
def State.shedChan? (s : State) : Option Nat := (chanNums.reverse).find? (fun n => (s.chan n).on && !s.owned n)

/-- LOAD_SHED: after 5 s above 40 A, one channel every 100 ms switches off and latches in stage 3 (R390, R394). -/
def execLoadShed (mean : Nat) (s : State) : Host.Outcome State Fault Refusal :=
  let due := match s.load.shedAt with | some t => s.elapsed t (ms 100) | none => true
  onlyIf (decide (4000 < mean) && s.elapsed? s.load.overSince (secs 5) && !s.supFlag 0 && due) (fun s =>
    match s.shedChan? with
    | some n =>
      (s.overcurrent n 3 (s.chan n).i).onLoad fun l => { l with shed := l.shed + 1, shedAt := some s.clock, itot1s := satN 65535 mean }
    | none => s) s

end Sys2Proof.Machine
end

