-- ==== Sys2Proof/Machine/Crypto.lean ====
section
/-! DEFINITION. AES-256-GCM (FIPS 197, SP 800-38D) and ECDSA P-384 (FIPS 186-4) of a firmware image's blocks and header
(R460-R462). -/
namespace Sys2Proof.Machine
open Sys2Proof

/-! ### AES-256 -/

/-- A byte times x in the field of FIPS 197. -/
def aesTwice (a : Byte) : Byte := (a <<< 1) ^^^ (if a.msb then 0x1B else 0)

/-- A product in the field of FIPS 197, over the bits of the first factor from the highest. -/
def aesMul (a b : Byte) : Byte :=
  (List.range 8).reverse.foldl (fun r i => aesTwice r ^^^ (if a.getLsbD i then b else 0)) 0

/-- The inverse of a byte, its power 254; 0 for 0. -/
def aesInv (a : Byte) : Byte := (List.range 254).foldl (fun r _ => aesMul r a) 1

/-- The S-box of a byte. -/
def aesSub (a : Byte) : Byte :=
  let b := if a = 0 then 0 else aesInv a
  b ^^^ b.rotateLeft 1 ^^^ b.rotateLeft 2 ^^^ b.rotateLeft 3 ^^^ b.rotateLeft 4 ^^^ 0x63

/-- Two byte strings added bit by bit. -/
def xorBytes (a b : List Byte) : List Byte := (a.zip b).map fun p => p.1 ^^^ p.2

/-- The word of the key schedule after a list of words, newest first: the one before, turned and substituted at each eighth,
substituted at each fourth, added to the one eight back. -/
def aesNextWord (i : Nat) (w : List (List Byte)) : List Byte :=
  let p := nth [] w 0
  let t :=
    if i % 8 = 0 then
      let r := (p.drop 1 ++ p.take 1).map aesSub
      xorBytes r [(List.range (i / 8 - 1)).foldl (fun c _ => aesTwice c) 1, 0, 0, 0]
    else if i % 8 = 4 then p.map aesSub
    else p
  xorBytes t (nth [] w 7)

/-- The 15 round keys of a 32-byte key. -/
def aesRoundKeys (key : List Byte) : List (List Byte) :=
  let start := (List.range 8).reverse.map fun i => (key.drop (4 * i)).take 4
  let w := ((List.range 52).foldl (fun w i => aesNextWord (i + 8) w :: w) start).reverse
  (List.range 15).map fun r => ((w.drop (4 * r)).take 4).flatten

/-- Bytes substituted and rows shifted: column c takes its row r from column c + r. -/
def aesSubShift (b : List Byte) : List Byte :=
  (List.range 16).map fun i => aesSub (nth 0 b (((i / 4 + i % 4) % 4) * 4 + i % 4))

/-- Columns mixed. -/
def aesMix (b : List Byte) : List Byte :=
  (List.range 16).map fun i =>
    let at_ (r : Nat) : Byte := nth 0 b (i / 4 * 4 + (i + r) % 4)
    aesMul 2 (at_ 0) ^^^ aesMul 3 (at_ 1) ^^^ at_ 2 ^^^ at_ 3

/-- One block of 16 bytes encrypted. -/
def aesBlock (keys : List (List Byte)) (b : List Byte) : List Byte :=
  let s := (List.range 13).foldl (fun s r => xorBytes (aesMix (aesSubShift s)) (nth [] keys (r + 1))) (xorBytes b (nth [] keys 0))
  xorBytes (aesSubShift s) (nth [] keys 14)

/-! ### Galois/Counter mode -/

/-- A block of bytes as a 128-bit number, its first byte highest. -/
def block128 (b : List Byte) : BitVec 128 := BitVec.ofNat 128 (unle (padTo 16 0 b).reverse)

/-- A product in the field of SP 800-38D. -/
def ghashMul (x y : BitVec 128) : BitVec 128 :=
  ((List.range 128).foldl (fun (zv : BitVec 128 × BitVec 128) i =>
    (if x.getMsbD i then zv.1 ^^^ zv.2 else zv.1, (zv.2 >>> 1) ^^^ (if zv.2.getLsbD 0 then BitVec.ofNat 128 (0xE1 * 2 ^ 120) else 0)))
    (0, y)).1

/-- The blocks of a byte string, the last filled up with zeros. -/
def blocks16 (b : List Byte) : List (BitVec 128) :=
  (List.range ((b.length + 15) / 16)).map fun i => block128 ((b.drop (16 * i)).take 16)

/-- GHASH of the authenticated data and the ciphertext. -/
def ghash (h : BitVec 128) (aad c : List Byte) : BitVec 128 :=
  (blocks16 aad ++ blocks16 c ++ [BitVec.ofNat 128 (8 * aad.length * 2 ^ 64 + 8 * c.length)]).foldl (fun y x => ghashMul (y ^^^ x) h) 0

/-- The n-th counter block's key stream for a nonce of 12 bytes; block 1 is the tag's. -/
def gcmStream (keys : List (List Byte)) (nonce : List Byte) (n : Nat) : List Byte := aesBlock keys (nonce ++ (le 4 n).reverse)

/-- The tag of a ciphertext with its authenticated data. -/
def gcmTag (keys : List (List Byte)) (nonce aad c : List Byte) : List Byte :=
  let h := block128 (aesBlock keys (List.replicate 16 0))
  xorBytes (le 16 (ghash h aad c).toNat).reverse (gcmStream keys nonce 1)

/-- A ciphertext turned into its plaintext. -/
def gcmPlain (keys : List (List Byte)) (nonce c : List Byte) : List Byte :=
  (List.range ((c.length + 15) / 16)).flatMap fun i => xorBytes ((c.drop (16 * i)).take 16) (gcmStream keys nonce (i + 2))

/-! ### Blocks of an image (R461) -/

/-- The nonce of a block: IMAGE_ID, the block's offset, four zero bytes (R461). -/
def imageNonce (header : List Byte) (off : Nat) : List Byte := (header.drop 8).take 4 ++ le 4 off ++ le 4 0

/-- The round keys of a header's KEYGEN (R461, R462). -/
def imageKeys (header : List Byte) : List (List Byte) := aesRoundKeys (Config.imageKey (rdle header 7 1))

/-- The tag of block k ≥ 1, its last 16 bytes, fits its 4,080 bytes of ciphertext, its place and the header (R461). -/
def blockGood (header : List Byte) (off : Nat) (l : List Byte) : Bool :=
  decide (l.drop 4080 = gcmTag (imageKeys header) (imageNonce header off) (header.take 96) (l.take 4080))

/-- The plaintext of block k ≥ 1 (R461). -/
def blockPlain (header : List Byte) (off : Nat) (l : List Byte) : List Byte :=
  gcmPlain (imageKeys header) (imageNonce header off) (l.take 4080)

/-! ### ECDSA P-384 (R460, R462) -/

/-- The field prime of P-384. -/
def p384 : Nat := 2 ^ 384 - 2 ^ 128 - 2 ^ 96 + 2 ^ 32 - 1
/-- The order of P-384's base point. -/
def n384 : Nat := 2 ^ 384 - 0x389CB27E0BC8D220A7E5F24DB74F58851313E695333AD68D
/-- The base point of P-384. -/
def g384 : Nat × Nat :=
  (0xAA87CA22BE8B05378EB1C71EF320AD746E1D3B628BA79B9859F741E082542A385502F25DBF55296C3A545E3872760AB7,
   0x3617DE4A96262C6F5D9E98BF9292DC29F8F41DBD289A147CE9DA3113B5F0B8C00A60B1CE1D7E819D7A431D7C90EA0E5F)

/-- The inverse modulo a prime of 384 bits, the power of it less 2, over its bits from the highest. -/
def invMod (m a : Nat) : Nat :=
  (List.range 384).reverse.foldl (fun r i => if (m - 2).testBit i then r * r % m * a % m else r * r % m) 1

/-- The sum of two points of the curve, none being the point at infinity. -/
def pointAdd (a b : Option (Nat × Nat)) : Option (Nat × Nat) :=
  match a, b with
  | none, q => q
  | q, none => q
  | some (x1, y1), some (x2, y2) =>
    if x1 = x2 ∧ (y1 + y2) % p384 = 0 then none
    else
      let k :=
        if x1 = x2 then (3 * x1 * x1 + (p384 - 3)) * invMod p384 (2 * y1 % p384) % p384
        else (y2 + (p384 - y1)) * invMod p384 ((x2 + (p384 - x1)) % p384) % p384
      let x3 := (k * k + 2 * p384 - x1 - x2) % p384
      some (x3, (k * (x1 + (p384 - x3)) + (p384 - y1)) % p384)

/-- A multiple of a point. -/
def pointMul (k : Nat) (q : Nat × Nat) : Option (Nat × Nat) :=
  (List.range 384).reverse.foldl (fun r i => if k.testBit i then pointAdd (pointAdd r r) (some q) else pointAdd r r) none

/-- A signature (r, s) of a digest under a public key is good. -/
def ecdsaGood (key : Nat × Nat) (digest : List Byte) (r s : Nat) : Bool :=
  let w := invMod n384 s
  let u := unle digest.reverse * w % n384
  decide (0 < r ∧ r < n384 ∧ 0 < s ∧ s < n384) &&
    (match pointAdd (pointMul u g384) (pointMul (r * w % n384) key) with
    | some (x, _) => decide (x % n384 = r)
    | none => false)

/-- SIGNATURE of block 0 is good for the SHA-384 of bytes 0x00...0x5F under the key of its KEYGEN, one of sixteen and not revoked
(R460, R462). -/
def signatureGood (l : List Byte) : Bool :=
  let gen := rdle l 7 1
  decide (gen < 16) && !Config.keyRevoked gen && ecdsaGood (Config.publicKey gen) (sha384 (l.take 96)) (rdle l 0x60 48) (rdle l 0x90 48)

end Sys2Proof.Machine
end

