-- ==== Sys2Proof/Machine/RecordsCmds.lean ====
section
/-! DEFINITION. The event log, the carry counters, non-volatile memory and the power-fail flush (chapter 15). -/
namespace Sys2Proof.Machine
open Sys2Proof

/-! ### Records of the log (R425, R428-R431) -/

/-- The number after a sequence number; after 0xFFFFFFFF it is 1 (R428). -/
def nextSeqOf (n : Nat) : Nat := if 0xFFFFFFFF ≤ n then 1 else n + 1

/-- The records of the tail that are not yet in flash (R429). -/
def Records.unprogrammed (r : Records) : List Rec :=
  match r.flash.getLast? with
  | none => r.tail
  | some f =>
    match r.tail.dropWhile (fun e => decide (e.seq ≠ f.seq)) with
    | [] => r.tail
    | _ :: rest => rest

/-- Every record the log holds, oldest first. -/
def Records.log (r : Records) : List Rec := r.flash ++ r.unprogrammed

/-- OLDEST: the oldest record held, or the next number where the log holds none (R431, R432). -/
def Records.oldest (r : Records) : Nat := (r.log.head?.map Rec.seq).getD r.nextSeq

/-- The 32 bytes of a record; the CRC covers the first 28 (R425). -/
def Rec.bytes (e : Rec) : List Byte :=
  let b := le 4 e.seq ++ le 2 e.ev.code ++ le 1 (sevSrcByte e.ev.code) ++ le 1 0 ++ le 4 e.optime ++ le 4 e.pcycle ++
    le 2 e.rep ++ ((padTo 5 0 e.ev.params).flatMap (fun p => le 2 p))
  b ++ le 4 (crc32c b)

/-- The EVENT notification of a record at or above the notification severity (R293, R430). -/
def State.notifyEvent (s : State) (e : Rec) : State :=
  s.when (decide (s.recs.notifySev ≤ severity e.ev.code) && decide (s.sys.run = .running)) (·.notify 0 0x0CF0 e.bytes)

/-- The newest record is closed; a record that closes with repeats is notified again (R430). -/
def State.closeOpen (s : State) : State :=
  match s.recs.tail.getLast? with
  | none => s
  | some e =>
    if e.closed then s
    else
      (s.onRecs fun r => { r with tail := r.tail.dropLast ++ [{ e with closed := true }] }).when (decide (0 < e.rep))
        (·.notifyEvent { e with closed := true })

/-- An event identical to the open record adds 1 to its REPEAT, and closes it at 65,535 (R430). -/
def State.mergeEvent (s : State) (e : Rec) : State :=
  let e1 := { e with rep := sat16 (e.rep + 1) }
  (s.onRecs fun r => { r with tail := r.tail.dropLast ++ [e1] }).when (decide (65535 ≤ e1.rep)) (·.closeOpen)

/-- An event becomes a new record of the tail with the next number and the time of its occurrence; the tail keeps its newest 256
(R425, R428-R430). -/
def State.newRecord (s : State) (v : Ev) (at_ : Nat × Nat) : State :=
  let s1 := s.closeOpen
  let e : Rec := ⟨s1.recs.nextSeq, v, at_.1, at_.2, 0, false⟩
  let s2 := s1.onRecs fun r =>
    let t := r.tail ++ [e]
    { r with tail := t.drop (t.length - 256), nextSeq := nextSeqOf r.nextSeq }
  (s2.notifyEvent e).when (decide (s.recs.wakeSev ≤ severity v.code)) (·.wake 3)

/-- An event reaches the MRAM tail: it merges into the open record, or becomes a new one (R429, R430). -/
def State.tailWrite (s : State) (v : Ev) (at_ : Nat × Nat) : State :=
  match s.recs.tail.getLast? with
  | some e => if e.closed = false ∧ e.ev = v then s.mergeEvent e else s.newRecord v at_
  | none => s.newRecord v at_

/-- The tail has room for a record that is not yet in flash (R429). -/
def State.tailRoom (s : State) : Bool := decide (s.recs.unprogrammed.length < 256)

/-- EVENT_TAIL_WRITE: the event at the head of the queue is written to the tail (R428-R430). -/
def execEventTailWrite (s : State) : Host.Outcome State Fault Refusal :=
  match s.recs.queue with
  | [] => .next s
  | v :: rest =>
    onlyIf (s.tailRoom && decide (s.sys.run = .running ∨ s.sys.run = .recovery)) (fun s =>
      (s.onRecs fun r => { r with queue := rest, queueAt := r.queueAt.drop 1 }).tailWrite v (nth s.recs.stamp s.recs.queueAt 0)) s

/-- The whole queue goes to the tail, as far as it has room (R437, R440). -/
def State.drainQueue (s : State) : State :=
  forEach (s.recs.queue.zip (padTo s.recs.queue.length s.recs.stamp s.recs.queueAt))
    (fun e t => t.when t.tailRoom (·.tailWrite e.1 e.2)) (s.onRecs fun r => { r with queue := [], queueAt := [] })

/-- Record slots of the log region (R420). -/
def logSlots : Nat := 1056768

/-- Closed records are programmed to flash; where the region is full its oldest block of 8,192 is erased first
(R429, R431). -/
def Records.program (r : Records) (es : List Rec) : Records :=
  let room := decide (r.flash.length + es.length ≤ logSlots)
  { r with flash := (if room then r.flash else r.flash.drop 8192) ++ es }

/-- LOG_PAGE_PROGRAM: 128 closed records of the tail become one flash page; no program starts in hold-up
(R429, R431, R437). -/
def execLogPageProgram (s : State) : Host.Outcome State Fault Refusal :=
  let es := s.recs.unprogrammed.filter Rec.closed
  onlyIf (decide (128 ≤ es.length) && !s.sys.holdup) (·.onRecs (·.program (es.take 128))) s

/-- FLASH_BLOCK_RETIRED: a block is replaced from the spares with its event; with none left the region's writes have
failed, which is raised once (R424). -/
def execFlashBlockRetired (region block : Nat) (s : State) : Host.Outcome State Fault Refusal :=
  if 0 < s.recs.spare then
    .next ((s.onRecs fun r => { r with spare := r.spare - 1 }).raise 0x0C07
      [region, (block % 65536 : Nat), (sat16 (s.recs.spare - 1) : Nat)])
  else if s.recs.nvFailed.contains region then .next s
  else .next ((s.onRecs fun r => { r with nvFailed := insN region r.nvFailed }).raise 0x0C09 [region])

/-- OPERATING_TIME_COUNT: once a second with VMAIN present (R433, R434). -/
def execOperatingTimeCount (s : State) : Host.Outcome State Fault Refusal :=
  onlyIf (s.power.vmain && !s.sys.holdup) (·.count 0 0 0 1) s

/-! ### Reading the log (R345, R432) -/

/-- SEQ_GONE (R326). -/
def State.seqGone (s : State) : Refuse := ⟨0x0C01, 0, s.recs.oldest⟩

/-- LOG_STATE (R345, R432). -/
def execLogState (rq : Rq) (s : State) : Host.Outcome State Fault Refusal :=
  readCmd rq 0x0C00 .zero (fun _ => []) (fun s => le 4 s.recs.oldest ++ le 4 s.recs.newest ++ le 8 0) s

/-- The records from a position on. -/
def Records.fromSeq (r : Records) (pos : Nat) : List Rec := r.log.filter (fun e => !seqOlder e.seq pos)

/-- The bytes of a record as it is read: one that has left the tail and fails its CRC in flash comes with CODE 0xFFFF and
the bytes as read (R432). -/
def Records.delivered (r : Records) (bad : List (Nat × List Byte)) (e : Rec) : List Byte :=
  if r.tail.any (fun t => decide (t.seq = e.seq)) then e.bytes
  else
    match bad.find? (fun b => decide (b.1 = e.seq)) with
    | some b => let l := padTo 32 0 b.2; l.take 4 ++ le 2 0xFFFF ++ l.drop 6
    | none => e.bytes

/-- The corrupt records among those delivered are reported, each once (R432). -/
def State.reportCorrupt (s : State) (bad : List (Nat × List Byte)) (es : List Rec) : State :=
  forEach (es.filter (fun e => bad.any (fun b => decide (b.1 = e.seq)) && !s.recs.tail.any (fun t => decide (t.seq = e.seq)))) (fun e t =>
    if t.recs.corrupt.contains e.seq then t
    else (t.onRecs fun r => { r with corrupt := insN e.seq r.corrupt }).raise 0x0C0A [(e.seq % 65536 : Nat), (e.seq / 65536 : Nat)]) s

/-- One call of READ_LOG on its cursor: SEQ_GONE where the position has left the log, else whole records up to NEWEST
(R432). -/
def State.readLogCall (s : State) (rq : Rq) (b : Bulk) (bad : List (Nat × List Byte)) (dma : Option Nat) (c : Cursor) : State :=
  if seqOlder c.pos s.recs.oldest then (s.releaseCursor c.id).refuse rq 0x0C01 s.seqGone
  else
    match (if rq.eth = true ∨ b.addr = 0 then none else dma) with
    | some n => s.refuse rq 0x0C01 ⟨0x000C, 0, n⟩
    | none =>
      let all := s.recs.fromSeq c.pos
      let now := all.take (b.len / 32)
      let rest := all.drop (b.len / 32)
      let data := now.flatMap (s.recs.delivered bad)
      let s1 := (s.reportCorrupt bad now).toAperture rq b data
      match rest.head? with
      | none => (s1.releaseCursor c.id).bulkAnswer rq 0x0C01 0 0 now.length 0 data.length data
      | some e => (s1.keepCursor { c with pos := e.seq }).bulkAnswer rq 0x0C01 c.id 0 now.length rest.length data.length data

/-- READ_LOG: the records from ARG on (R324, R345, R432); the operand lists records of flash that fail their CRC, with the
bytes as read. -/
def execReadLog (rq : Rq) (b : Bulk) (bad : List (Nat × List Byte)) (dma : Option Nat) (s : State) :
    Host.Outcome State Fault Refusal :=
  bulkCmd rq 0x0C01 .zero allModes b (fun s => bulkAllChecks b ++ [(!seqOlder b.arg s.recs.oldest, s.seqGone)])
    (fun s => s.newCursor rq 0x0C01 b none []) (fun c s => s.readLogCall rq b bad dma c) s

/-- READ_RECENT: up to COUNT records from FROM on, the open record as it stands (R345, R432). -/
def execReadRecent (rq : Rq) (from_ count : Nat) (bad : List (Nat × List Byte)) (s : State) :
    Host.Outcome State Fault Refusal :=
  .next (mailbox rq 0x0C02 .zero allModes (fun s =>
    checked rq 0x0C02 [(decide (1 ≤ count ∧ count ≤ 7), outOfRange 4), (!seqOlder from_ s.recs.oldest, s.seqGone)] (fun s =>
      let es := (s.recs.fromSeq from_).take count
      (s.reportCorrupt bad es).ok rq 0x0C02 (es.flatMap (s.recs.delivered bad))) s) s)

/-- SET_SEVERITY (R345). -/
def execSetSeverity (rq : Rq) (wake notify : Nat) (s : State) : Host.Outcome State Fault Refusal :=
  nvWrite rq 0x0C03 .zero csovt (fun _ => [(decide (wake < 8), outOfRange 0), (decide (notify < 8), outOfRange 1)])
    (·.onConf fun c => { c with sev := (wake, notify) }) s

/-- Counter sets: the digit words of counters 0 to n - 1 of a set (R345, R433). -/
def State.counterSets (s : State) (set k n : Nat) : List Byte :=
  le 1 n ++ le 1 0 ++ (List.range n).flatMap (fun i =>
    (List.range 5).flatMap (fun d => le 2 (nth 0 (tget cnt0 s.recs.counters (cntKey set k i)) d).toNat))

/-- READ_COUNTERS: a string's five counters, or the bank's eight (R322, R345, R433). -/
def execReadCounters (rq : Rq) (port string : Nat) (s : State) : Host.Outcome State Fault Refusal :=
  readCmd rq 0x0C04 .zero (fun s => [(s.someString port string, unknownObject 0)]) (fun s =>
    if port = 255 ∧ string = 65535 then s.counterSets 1 0 8 else s.counterSets 2 (strKey port string) 5) s

/-! ### The configuration store (R420, R453) -/

/-- Offsets of the beam registers that a start restores (R58, R453). -/
def beamKept : List Nat := [0x004, 0x008, 0x00C, 0x010, 0x044, 0x048, 0x040, 0x000]

/-- A table's values changed by a function of key and value; values that reach the default are not listed. -/
def tmap {α β : Type} [DecidableEq β] (d : β) (f : Nat → α → β) (t : Tbl α) : Tbl β :=
  (t.map (fun e => (e.1, f e.1 e.2))).filter (fun e => decide (e.2 ≠ d))

/-- What the store keeps of a ring. -/
def Ring.conf (r : Ring) : RingConf := ⟨r.config, r.calib, r.fCal, r.rCal, r.serials⟩
/-- A ring takes what the store keeps of it. -/
def Ring.withConf (r : Ring) (c : RingConf) : Ring :=
  { r with config := c.config, calib := c.calib, fCal := c.fCal, rCal := c.rCal, serials := c.serials }

/-- A tenant's accepted allocation, as the store keeps it (R243). -/
def Tenant.accepted (q : Tenant) : Option (Nat × Nat × Nat) :=
  match q.nextAlloc with
  | some (en, d, c, e) => if en then some (d, c, e) else none
  | none => if q.exists_ && q.enabled then some (q.pDis, q.pChg, q.eAlloc) else none

/-- The configuration store as the commits so far have left it (R420). -/
def State.store (s : State) : Store where
  params := s.est.params
  conf := s.sys.conf
  rings := tmap RingConf.reset (fun _ r => r.conf) s.rings
  limits := (s.guard.owed.map Tables.limits).getD (tmap Limits.lfp (fun _ q => q.limits) s.est.strs)
  thermal := (s.guard.owed.map Tables.thermal).getD (tmap Thermal.lfp (fun _ q => q.thermal) s.est.strs)
  seq := (s.guard.owed.map Tables.seq).getD s.guard.table
  service := s.sched.service
  inactive := s.sched.inactive
  inactiveKind := s.sched.inactiveKind
  recorded := s.sched.recorded
  keys := tmap [] (fun _ p => p.keys) s.sys.pages
  allocs := s.disp.tenants.filterMap (fun e => e.2.accepted.map (fun a => (e.1, a)))
  loop := s.recs.cfgLoop
  load := s.recs.cfgLoad
  sense := s.recs.cfgSense
  can := s.can.regs
  beam := (sortN beamKept).map (fun o => (o, BitVec.ofNat 32 (s.beamRead o)))
  sweepConf := s.beam.sweepConf
  commission := s.sys.storedCommission

/-- An allocation taken from the store; a removed one ends with its schedule (R240, R420). -/
def Tenant.withAlloc (q : Tenant) (a : Option (Nat × Nat × Nat)) : Tenant :=
  match a with
  | some (d, c, e) => { q with exists_ := true, enabled := true, pDis := d, pChg := c, eAlloc := e, nextAlloc := none }
  | none => { Tenant.reset with disSum := q.disSum, chgSum := q.chgSum, curtSum := q.curtSum }

/-- The settings, rings, images, keys and allocations of a copy of the store come into force; its limit, thermal and sequence tables
wait for the firing of M3, at which the guard takes them (R19, R439, R453, R470). -/
def State.loadStore (s : State) (c : Store) : State :=
  let s1 := (s.onEst fun e => { e with params := c.params }).onSys fun y => { y with conf := c.conf, storedCommission := c.commission }
  let s2 := forEach (sortN (tkeys s.rings ++ tkeys c.rings)) (fun p t => t.modRing p (·.withConf (tget RingConf.reset c.rings p))) s1
  let s4 := (s2.onGuard fun g => { g with owed := some ⟨c.limits, c.thermal, c.seq⟩ }).onSched fun q =>
    { q with service := c.service, inactive := c.inactive, inactiveKind := c.inactiveKind, recorded := c.recorded }
  let s5 := forEach (sortN (tkeys s.sys.pages ++ tkeys c.keys)) (fun t u => u.modPage t fun p => { p with keys := tget [] c.keys t }) s4
  let s6 := forEach (sortN ((tkeys s.disp.tenants ++ tkeys c.allocs).filter (· ≠ 0))) (fun t u =>
    u.modTenant t (·.withAlloc (tfind? c.allocs t))) s5
  ((s6.onRecs fun r => { r with cfgLoop := c.loop, cfgLoad := c.load, cfgSense := c.sense }).onBeam fun b =>
    { b with sweepConf := c.sweepConf }).applyConf

/-! ### Losing power (R437-R439) -/

/-- What a string keeps: the guard's latch copy (R421), and SHORT, which only tenant 0 clears (R176). -/
def Str.latched (q : Str) : Str :=
  { Str.reset with locked := q.locked, causes := q.causes, welded := q.welded, sflags := putBit Str.reset.sflags 4 (bit q.sflags 4) }
/-- What a cell keeps: SHORT (R176). -/
def Cell.latched (c : Cell) : Cell :=
  { Cell.reset with pub := { Cell.reset.pub with flags := putBit Cell.reset.pub.flags 6 (bit c.pub.flags 6) } }
/-- What a page keeps: the replay counters beside its keys (R288, R290). -/
def Page.kept (p : Page) : Page :=
  { Page.reset with replay := p.replay, windows := p.windows, ethSeq := p.ethSeq, epochSeq := p.epochSeq }

/-- The guard's latch copy: TRIPPED with its cause, but for a power-fail action, TRIP_ID, an unacknowledged weld; after a guard
fault the module comes up in TRIPPED with the cause 0x060D (R222, R421, R454). -/
def Guard.latchCopy (g : Guard) : Guard :=
  let keep := g.failed || (g.tripped && decide (g.tripCause ≠ 0x0C01))
  { Guard.reset with tripped := keep, tripCause := if g.failed then 0x060D else if keep then g.tripCause else 0, tripId := g.tripId, weld := g.weld }

/-- The non-volatile part of the records: MRAM and flash (R420, R421). -/
def Records.kept (r : Records) : Records :=
  { r with queue := [], queueAt := [], dropped := 0, wakeSev := 6, notifySev := 4, fractions := [], cfgPending := [] }

/-- The firmware slots, which are in flash, and the store as it stood (R420, R467). -/
def State.keptUpd (s : State) : Update :=
  let u := s.upd
  { u with node := none, handAt := none, ready := false, swap := 0, store := some (u.store.getD s.store) }

/-- The module resets: only what MRAM and flash hold, the straps and pins, and the nodes outside survive
(R421, R437, R439). -/
def State.coldReset (s : State) : State where
  pending := s.pending
  clock := s.clock
  fresh := s.fresh
  power := { Power.reset with vioOk := s.power.vioOk, vioSel := s.power.vioSel, test := s.power.test }
  sys := { Sys.reset with bootFails := s.sys.bootFails, recovPin := s.sys.recovPin, pages := tmap Page.reset (fun _ p => p.kept) s.sys.pages }
  beam := Beam.reset
  rings := []
  nodes := s.nodes
  sched := Sched.reset
  est := { Est.reset with strs := tmap Str.reset (fun _ q => q.latched) s.est.strs, cells := tmap Cell.reset (fun _ c => c.latched) s.est.cells }
  guard := s.guard.latchCopy
  disp := Dispatch.reset
  recs := s.recs.kept
  loops := Loops.reset
  load := { Load.reset with pins := s.load.pins }
  can := Can.reset
  upd := s.keptUpd

/-- VMAIN is lost: with the flush armed HOLDUP sets, the guard acts with the cause 0x0C01, the power-fail record is queued
and the open record closed; channels that reverse supply held on switch off; not armed, the module resets without a flush
(R437, R481, R500). -/
def State.vmainLost (s : State) (vmain : Int) : State :=
  if !s.power.armed then s.coldReset
  else
    let s0 := ((s.onSys fun y => { y with holdup := true }).onPower fun p => { p with vmain := false }).settle
    let s1 := (s0.onLoad fun l => { l with reverseOn := false }).applyChannels chanNums
    let s2 := if s1.guard.failed then s1 else (s1.cycleId.emergencyBank s1.cycleId.guard.tripId 0x0C01).wake 0
    (s2.raise 0x0C01 [(s2.guard.tripId : Int), vmain]).closeOpen

/-- HOLDUP: VMAIN, in 0.1 V, has stayed below 30 V for some microseconds (R437, R480). -/
def execHoldup (vmain heldUs : Nat) (s : State) : Host.Outcome State Fault Refusal :=
  onlyIf (s.power.pwrgd && s.power.vmain && !s.sys.holdup && decide (vmain < 300 ∧ 200 ≤ heldUs)) (·.vmainLost vmain) s

/-- FLUSH_COMPLETE: the queue is in the tail, whole units and a final ledger copy are in MRAM, the markers of writes in
progress, the operand, stay set; the log state carries the flush-complete marker, PWRGD falls and the module resets
(R437, R422, R481). -/
def execFlushComplete (inProgress : List (Nat × Nat)) (s : State) : Host.Outcome State Fault Refusal :=
  onlyIf s.sys.holdup (fun s =>
    let s1 := s.drainQueue.closeOpen.commitCounters.copyLedgers
    (s1.onRecs fun r => { r with flushed := true, markers := r.markers ++ inProgress.filter (fun m => !r.markers.contains m) }).coldReset) s

end Sys2Proof.Machine
end

