-- ==== Sys2Proof/Machine/Update.lean ====
section
/-! DEFINITION. Firmware update and recovery: images, slots, activation, boot failures, node firmware (chapter 17). -/
namespace Sys2Proof.Machine
open Sys2Proof

/-! ### Slots and the update record (R345, R460) -/

/-- Major and minor of a VERSION. -/
def verPair (v : Nat) : List Int := [(v % 256 : Nat), (v / 256 % 256 : Nat)]

/-- ACTIVATION_PENDING (R326). -/
def State.pendingActivation (s : State) : Refuse := ⟨0x0D04, 0, s.beam.actGate.toNat % 2 ^ 32⟩
/-- IMAGE_INVALID (R326). -/
def imageInvalid (d off : Nat) : Refuse := ⟨0x0D01, d, off⟩
/-- NOT_VERIFIED (R326). -/
def notVerified : Refuse := ⟨0x0D02, 0, 0⟩

/-- The update record (R345). -/
def State.updateRecord (s : State) : List Byte :=
  let u := s.upd
  let i := u.inactive.getD ⟨0, 0⟩
  le 4 u.active.id ++ le 4 u.active.ver ++ le 4 i.id ++ le 4 i.ver ++ le 1 (uCode u.ustate) ++ le 1 s.sys.bootFails ++ le 2 0 ++
    le 8 (if u.ustate = .scheduled then u.actWall.toNat else 2 ^ 64 - 1) ++ le 4 u.nodeId

/-- UPDATE_STATE (R345). -/
def execUpdateState (rq : Rq) (s : State) : Host.Outcome State Fault Refusal :=
  readCmd rq 0x0D00 .zero (fun _ => []) State.updateRecord s

/-- LENGTH lies in the range of R460 for a target. -/
def lengthOk (target len : Nat) : Bool :=
  decide (len % 4096 = 0 ∧ 8192 ≤ len ∧ len ≤ if target = 0 then 201326592 else 67108864)

/-- The number of the inactive slot: 0 A, 1 B. -/
def Update.other (u : Update) : Nat := b2n (!u.slotB)

/-- The slot into which RECOVERY receives: the one that did not fail last (R472). -/
def Update.romSlot (u : Update) : Nat :=
  match u.failedB with
  | some b => b2n (!b)
  | none => u.other

/-- The journal's number of a target's area: the slots 0 and 1, the node image store 2 (R422). -/
def Update.area (u : Update) (target : Nat) : Nat := if target = 1 then 2 else u.other

/-! ### Receiving (R463, R464) -/

/-- A reception begins: the area is erased, an unfinished one of either target is abandoned (R422, R463). -/
def State.beginImage (s : State) (target id len slot : Nat) : State :=
  let u := s.upd
  let dropped := decide (u.ustate = .receiving ∨ u.ustate = .complete)
  let m := (4, slot)
  (s.onUpd fun v =>
    { v with begun := some (target, id, len), blocks := [],
             ustate := if target = 0 then .receiving else if dropped then .empty else v.ustate,
             inactive := if target = 0 ∧ slot = v.other then none else v.inactive,
             nodeId := if target = 1 then 0 else v.nodeId, nodeBytes := if target = 1 then [] else v.nodeBytes }).onRecs fun r =>
    { r with markers := r.markers.filter (fun k => decide (k.1 ≠ 4)) ++ [m] }

/-- BEGIN (R345, R463). -/
def execBegin (rq : Rq) (target id length : Nat) (s : State) : Host.Outcome State Fault Refusal :=
  nvWrite rq 0x0D01 .zero csovt (fun s =>
    [(decide (target < 2), outOfRange 0), (decide (s.upd.ustate ≠ .scheduled), s.pendingActivation),
     (decide (target ≠ 0 ∨ s.upd.ustate ≠ .uncommitted), busyWith 0x0D06),
     (decide (target ≠ 1) || s.upd.node.isNone, busyWith 0x0D08), (lengthOk target length, outOfRange 8)])
    (fun s => s.beginImage target id length (s.upd.area target)) s

/-- DETAIL of a block 0 that fails: 3 its signature, 5 its fields; 0 where it passes (R460, R464). -/
def headerFault (target id len : Nat) (l : List Byte) : Nat :=
  let product := ascii 16 (if target = 0 then "KZ-9128" else "HM-32")
  let fields := decide (rdle l 0 4 = 0x57465A4B ∧ rdle l 4 2 = 1 ∧ rdle l 6 1 = target ∧ rdle l 8 4 = id ∧ rdle l 0x20 4 = len ∧
    (l.drop 0x10).take 16 = product ∧ rdle l 0x29 1 ≤ 0x42 ∧ (target = 0 ∨ rdle l 0x28 1 = 1 ∨ rdle l 0x28 1 = 2))
  if !signatureGood l then 3 else if !fields then 5 else 0

/-- DETAIL of a block that is refused; 0 where it is accepted (R461, R464). With no reception open there is no block 0 before
another one, and a block 0 fits no BEGIN; in RECOVERY block 0 itself opens one (R472). -/
def State.blockFault (s : State) (off : Nat) (l : List Byte) : Nat :=
  match s.upd.begun with
  | none =>
    if off % 4096 ≠ 0 then 1
    else if off ≠ 0 then 4
    else if s.sys.run = .recovery ∧ headerFault 0 (rdle l 8 4) (rdle l 0x20 4) l = 3 then 3
    else 5
  | some (target, id, len) =>
    if off % 4096 ≠ 0 ∨ len ≤ off then 1
    else
      match tfind? s.upd.blocks off, tfind? s.upd.blocks 0 with
      | some old, _ => if old = l then 0 else 1
      | none, some h => if blockGood (h.take 96) off l then 0 else 2
      | none, none => if off = 0 then headerFault target id len l else 4

/-- The target of the reception in progress. -/
def Update.target (u : Update) : Nat := (u.begun.map (fun b => b.1)).getD 0

/-- A block is refused with its event; the reception stays open (R464, R477). -/
def State.refuseBlock (s : State) (rq : Rq) (op d off : Nat) : State :=
  (s.raise 0x0D03 [s.upd.target, d, (off / 4096 % 65536 : Nat)]).refuse rq op (imageInvalid d off)

/-- A block is stored; the last one completes the reception with its event (R422, R464). -/
def State.storeBlock (s : State) (off : Nat) (l : List Byte) : State :=
  let s1 := s.onUpd fun u => { u with blocks := tput u.blocks off l }
  match s1.upd.begun with
  | none => s1
  | some (target, id, len) =>
    if s1.upd.blocks.length * 4096 < len ∨ (tfind? s.upd.blocks off).isSome then s1
    else
      ((s1.onUpd fun u => { u with ustate := if target = 0 then .complete else u.ustate }).onRecs fun r =>
        { r with markers := r.markers.filter (fun k => decide (k.1 ≠ 4)) }).raise 0x0D01
          [target, (id % 65536 : Nat), (id / 65536 : Nat)]

/-- In RECOVERY block 0, unless it repeats the one of the reception, opens a reception into the slot that did not fail last, and
withdraws a verified selection (R464, R472, R476). -/
def State.romOpen (s : State) (off : Nat) (l : List Byte) : State :=
  if s.sys.run = .recovery ∧ off = 0 ∧ tfind? s.upd.blocks 0 ≠ some l then
    let id := rdle l 8 4
    let len := rdle l 0x20 4
    if headerFault 0 id len l = 0 ∧ lengthOk 0 len = true then
      (s.beginImage 0 id len s.upd.romSlot).onUpd fun u => { u with ready := false }
    else s
  else s

/-- A whole block has arrived (R464, R472). -/
def State.takeBlock (rq : Rq) (off : Nat) (l : List Byte) (n : Nat) (s : State) : State :=
  let s1 := s.romOpen off l
  match s1.blockFault off l with
  | 0 => (s1.storeBlock off l).bulkAnswer rq 0x0D02 0 0 0 0 n []
  | d => s1.refuseBlock rq 0x0D02 d off

/-- WRITE_BLOCK: one block of 4,096 bytes at the offset ARG (R324, R345, R464, R472). -/
def execWriteBlock (rq : Rq) (b : Bulk) (data : List Byte) (dma : Option Nat) (s : State) : Host.Outcome State Fault Refusal :=
  bulkCmd rq 0x0D02 .zero csovt b (fun _ => (decide (b.len = 4096), badBuffer 8) :: bulkAllChecks b)
    (fun s => s.newCursor rq 0x0D02 b none []) (fun c s =>
      s.bulkTake rq 0x0D02 b dma data 4096 (fun l n t => t.takeBlock rq b.arg l n) c) s

/-! ### Verifying (R465, R472) -/

/-- Block 0 of the reception. -/
def Update.header (u : Update) : List Byte := (tfind? u.blocks 0).getD []

/-- The decrypted payload, cut to PLAIN_LEN (R461). -/
def Update.payload (u : Update) : List Byte :=
  ((u.blocks.filter (fun e => decide (e.1 ≠ 0))).flatMap (fun e => blockPlain (u.header.take 96) e.1 e.2)).take
    (rdle u.header 0x24 4)

/-- DETAIL of an image that VERIFY refuses: 4 incomplete, 3 its digest; 0 where it passes (R465). -/
def Update.verifyFault (u : Update) : Nat :=
  match u.begun with
  | none => 4
  | some (_, _, len) =>
    if u.blocks.length * 4096 < len then 4
    else if sha384 u.payload = (u.header.drop 0x30).take 48 then 0 else 3

/-- The ROM boots the selected slot (R472). -/
def State.romBoot (s : State) : State :=
  (s.onSys fun y => { y with run := .rom, mode := .off }).onPower fun p => { p with stage := 2 }

/-- In RECOVERY the verified slot is selected as committed and BOOT_FAILS cleared; it boots at once, or when RECOV is
released (R472). -/
def State.romSelect (s : State) (f : Fw) : State :=
  let u := s.upd
  let slot := u.romSlot
  let s1 := (s.onUpd fun v =>
    { v with slotB := decide (slot = 1), active := f, inactive := if slot = u.other then some u.active else u.inactive,
             uncommitted := false, ustate := .empty, rollback := false, snap := none, failedB := none, ready := s.sys.recovPin }).onSys
    fun y => { y with bootFails := 0 }
  if s.sys.recovPin then s1 else s1.romBoot

/-- A verified image takes its place: the inactive slot, or the node image store (R465). -/
def State.verified (s : State) : State :=
  let u := s.upd
  let h := u.header
  let f : Fw := ⟨rdle h 8 4, rdle h 0xC 4⟩
  let s1 := s.raise 0x0D02 ([(u.target : Int), (f.id % 65536 : Nat)] ++ verPair f.ver)
  let s2 := s1.onUpd fun v =>
    if u.target = 1 then
      { v with nodeId := f.id, nodeVer := (f.ver, rdle h 0x28 1), nodeBytes := u.payload, begun := none, blocks := [] }
    else { v with inactive := some f, ustate := .verified, begun := none, blocks := [] }
  if s.sys.run = .recovery then s2.romSelect f else s2

/-- VERIFY: a mismatch of the digest discards the reception (R465, R472). -/
def execVerify (rq : Rq) (s : State) : Host.Outcome State Fault Refusal :=
  .next (mailbox rq 0x0D03 .zero csovt (fun s =>
    match s.upd.verifyFault with
    | 0 =>
      if !s.nvOk then s.refuse rq 0x0D03 nvFault
      else if s.sys.run = .recovery then (s.ok rq 0x0D03 []).verified
      else s.verified.okNv rq 0x0D03
    | 3 =>
      (s.refuseBlock rq 0x0D03 3 0).onUpd fun u =>
        { u with begun := none, blocks := [], ustate := if u.target = 0 then .empty else u.ustate }
    | d => s.refuseBlock rq 0x0D03 d 0) s)

/-! ### Scheduling (R466, R469, R470) -/

/-- ACT_WALL lies 10 s to 30 days ahead (R466). -/
def State.gateOk (s : State) (w : Nat) : Bool :=
  decide (s.wall.toNat + 10000000000 ≤ w ∧ w ≤ s.wall.toNat + 2592000000000000)

/-- The gate is set and M15 enabled (R48, R466). -/
def State.schedule (s : State) (w : Nat) (back : Bool) : State :=
  (((s.onUpd fun u => 
      { u with ustate := .scheduled, rollback := back, actWall := BitVec.ofNat 64 w,
               actAt := s.clock + (w - s.wall.toNat) / 5 }).onBeam fun b =>
    { b with actGate := BitVec.ofNat 64 w }).markEnable 15).raise 0x0D04
      [(if back then 2 else 1 : Int), (w / 1000000000 % 65536 : Nat)]

/-- SCHEDULE; over a scheduled activation it replaces ACT_WALL (R346, R466). -/
def execSchedule (rq : Rq) (actWall : Nat) (s : State) : Host.Outcome State Fault Refusal :=
  nvWrite rq 0x0D04 .zero csovt (fun s =>
    [(decide (s.upd.ustate = .verified ∨ s.upd.ustate = .scheduled), notVerified), (s.sys.ptpLock, notReady 2),
     (s.gateOk actWall, outOfRange 0)]) (fun s => s.schedule actWall s.upd.rollback) s

/-- The scheduled activation is cancelled, 1 by CANCEL, 2 after 24 h (R466, R477). -/
def State.cancelActivation (s : State) (by_ : Nat) : State :=
  ((s.modMark 15 fun m => { m with en := false }).onUpd fun u =>
    { u with ustate := if u.rollback then .uncommitted else .verified, rollback := false }).raise 0x0D05 [by_]

/-- CANCEL (R345, R466). -/
def execCancel (rq : Rq) (s : State) : Host.Outcome State Fault Refusal :=
  plainCmd rq 0x0D05 .zero allModes (fun _ => []) (fun s => s.when (decide (s.upd.ustate = .scheduled)) (·.cancelActivation 1)) s

/-- ACTIVATION_EXPIRY: M15 has not fired 24 h after ACT_WALL, counted on the module's own clock from the SCHEDULE, since the wall
time may have stayed invalid (R466). -/
def execActivationExpiry (s : State) : Host.Outcome State Fault Refusal :=
  onlyIf (decide (s.upd.ustate = .scheduled) && s.elapsed s.upd.actAt (secs 86400)) (·.cancelActivation 2) s

/-- COMMIT: the running slot is committed and its snapshot erased (R345, R469). -/
def execCommit (rq : Rq) (s : State) : Host.Outcome State Fault Refusal :=
  nvWrite rq 0x0D06 .zero allModes (fun s => [(decide (s.upd.ustate ≠ .scheduled), s.pendingActivation)]) (fun s =>
    s.when (decide (s.upd.ustate = .uncommitted)) fun t =>
      (t.onUpd fun u => { u with uncommitted := false, ustate := .empty, snap := none }).raise 0x0D08
        (verPair s.upd.active.ver ++ [((s.upd.active.ver / 65536 % 256 : Nat) : Int)])) s

/-- ROLLBACK: a return to the previous slot is scheduled (R345, R470). -/
def execRollback (rq : Rq) (actWall : Nat) (s : State) : Host.Outcome State Fault Refusal :=
  nvWrite rq 0x0D07 .zero csovt (fun s =>
    [(decide (s.upd.ustate = .uncommitted), ⟨0x0D03, 0, 0⟩), (s.sys.ptpLock, notReady 2), (s.gateOk actWall, outOfRange 0)])
    (·.schedule actWall true) s

/-! ### The swap (R467, R468, R470) -/

/-- The previous slot is selected as committed, and its snapshot stands in place of the store, for the firmware that starts next; the
image it replaces stays verified in the inactive slot (R28, R470). -/
def State.slotBack (s : State) : State :=
  s.onUpd fun u =>
    { u with slotB := !u.slotB, active := u.inactive.getD ⟨0, 0⟩, inactive := some u.active, uncommitted := false,
             ustate := .verified, rollback := false, oldVer := u.active.ver, store := u.snap.or u.store, snap := none }

/-- The new slot is selected, marked uncommitted (R467). -/
def State.slotNew (s : State) : State :=
  s.onUpd fun u =>
    { u with slotB := !u.slotB, active := u.inactive.getD ⟨0, 0⟩, inactive := some u.active, uncommitted := true,
             ustate := .uncommitted, oldVer := u.active.ver }

/-- A ring's commands that a request caused: they are answered RESTARTING (R312). -/
def Ring.asked (r : Ring) : List (Rq × Nat) := (r.queue ++ r.out).filterMap LinkCmd.origin

/-- A ring at the firing of M15: no request waits on it, it keeps its state (R312, R458). -/
def Ring.atSwap (r : Ring) : Ring :=
  { r with queue := r.queue.map (fun c => { c with origin := none }), out := r.out.map (fun c => { c with origin := none }),
           busy := 0, goal := none, renew := false }

/-- Commands fetched and not completed are answered RESTARTING, DETAIL 1, among them an EXCHANGE that awaits M3; open
cursors are released (R312, R314, R476). -/
def State.answerAll (s : State) : State :=
  let asked := s.sys.held.map (fun h => (h.2.rq, h.2.opcode)) ++ (s.sys.exchange.map (fun e => (e.1, 0x0402))).toList ++
    s.guard.clears.map (fun c => (c.1, c.2.1)) ++ s.rings.flatMap (fun e => e.2.asked)
  let s1 := forEach asked (fun a t => t.refuse a.1 a.2 (restarting 1)) s
  let s2 := s1.onSys fun y => { y with held := [], exchange := none, cursors := [], expired := [], snaps := [] }
  (forEach (tkeys s.rings) (fun p t => t.modRing p Ring.atSwap) s2).onGuard fun g => { g with clears := [] }

/-- Dispatch is held: the ledgers are settled, and the guard sends ZERO under a 5 s timeout (R20, R265). -/
def State.holdDispatch (s : State) : State :=
  let s1 := ((s.settle.onDisp fun d => { d with held := some 0, bflags := putBit d.bflags 3 true }).raise 0x050A [s.disp.slot]).sendZero
    0 0x050A
  s1.onGuard fun g => { g with swapZero := !s.zeroHeld, beatMs := 5000, beatAt := some s.clock }

/-- M15 has reached its gate: the exposed angle is at 0, the wall time latched there is valid and at or after ACT_GATE, and no lower
unit is due on this tick (R49, R53). -/
def State.gateReached (s : State) : Bool :=
  (s.mark 15).en && s.beam.atZero && (List.range 15).all (fun i => !(s.mark i).due s.clock s.beam.angleWord) &&
    decide (s.beam.cycWall ≠ BitVec.allOnes 64 ∧ s.beam.actGate.toNat ≤ s.beam.cycWall.toNat)

/-- ACTIVATION_MARK: M15 fires at an angle 0 at or after the gate (R53, R467, R470). -/
def execActivationMark (s : State) : Host.Outcome State Fault Refusal :=
  onlyIf (s.gateReached && decide (s.upd.ustate = .scheduled ∧ s.sys.run = .running)) (fun s =>
    let s1 := ((s.modMark 15 fun m => { m with en := false, done := true, fires := m.fires + 1 }).onBeam Beam.extend).holdDispatch.answerAll
    let s2 := if s.upd.rollback then s1.slotBack else s1.slotNew
    let s3 := (s2.count 0 0 2 1).drainQueue
    ((s3.onSched fun q => { q with suspended := true }).onUpd fun u =>
      { u with swap := if s.upd.rollback then 2 else 1, handAt := none, node := none }).onSys fun y => { y with run := .restarting }) s

/-- At the first start from an uncommitted slot the store is copied to the snapshot and migrated: the settings listed take
their defaults (R468, R477). -/
def State.migrate (s : State) (oldFormat newFormat : Nat) (dflts : List Nat) : State :=
  if s.upd.uncommitted && s.upd.snap.isNone then
    let s1 := s.onUpd fun u => { u with snap := some s.store }
    (((s1.onEst fun e => { e with params := e.params.filter (fun p => !dflts.contains p.1) }).applyConf.commitCfg).raise 0x0D07
      [oldFormat, newFormat, dflts.length])
  else s

/-- Firmware that starts after a rollback takes up the store that the ROM has restored: its settings and registers at once, its tables
at the next firing of M3, its kernel image, where that is another one, as the rods reload (R19, R28, R142, R453, R470). -/
def State.storeBack (s : State) : State :=
  match s.upd.store with
  | none => s
  | some c =>
    let s1 := (s.loadStore c).onUpd fun u => { u with store := none }
    (s1.when (decide (c.service ≠ s.sched.service)) fun t =>
      (forEach rodNums (fun n u => u.modRod n fun r => { r with reload := true }) t).onSched fun q =>
        { q with past := s.image :: q.past, xAt := some s.clock, xgen := q.xgen + 1 }).armM3

/-- The new firmware takes up its work where the old one stood: windows of estimation begin anew, balancing is replanned
with RESYNC, PCS units keep their staleness (R88, R171, R204, R412, R467). -/
def State.resumeWork (s : State) : State :=
  let s1 := forEach s.est.configured (fun k t => t.modStr k fun q => { q with spoiled := true, planned := none, plan := [] }) s
  let s1 := (forEach (tkeys s.est.bal) (fun k t => t.modBal k fun b => { b with sent := noDuty, owed := false }) s1).onEst fun e =>
    { e with replanAt := none }
  let s2 := forEach (tkeys s.rings) (fun p t => t.modRing p fun r => { r with bresync := true, synced := [] }) s1
  forEach ((List.range 16).filter (fun u => !(s.unit u).stale)) (fun u t => t.modUnit u fun x => { x with at_ := some s.clock }) s2

/-- NEW_FIRMWARE_START: firmware handed over to after a swap migrates the store where its slot is uncommitted, and resumes
in the mode in force; at a cold start the mailbox opens later (R467, R468, R477). -/
def execNewFirmwareStart (oldFormat newFormat : Nat) (dflts : List Nat) (s : State) : Host.Outcome State Fault Refusal :=
  onlyIf (decide (s.sys.run = .restarting ∧ 5 ≤ s.power.stage) && s.upd.handAt.isSome) (fun s =>
    let s1 := s.migrate oldFormat newFormat dflts
    if s.power.stage < 6 then s1
    else
      let s2 := s1.storeBack.resumeWork.when (decide (s.upd.swap ≠ 0)) (·.raise 0x0D06
        (verPair s.upd.oldVer ++ verPair s.upd.active.ver ++ [(s.upd.swap : Int)]))
      (s2.onUpd fun u => { u with swap := 0 }).onSys fun y => { y with run := .running }) s

/-! ### Boot failures and RECOVERY (R471, R472) -/

/-- The ROM enters RECOVERY with a cause: 1 three failures, 2 RECOV, 3 no valid slot; every channel is off, the loop engine's
outputs are at their reset state (R349, R393, R472). -/
def State.enterRecovery (s : State) (cause : Nat) : State :=
  let s1 := ((s.raise 0x0D0B [cause]).setMode .recovery 0x0D0B).onSys fun y => { y with run := .recovery, cursors := [], expired := [] }
  ((s1.onUpd fun u => { u with handAt := none, ready := false, begun := none, blocks := [] }).onLoops fun l =>
    { l with started := false, out := [] }).applyChannels chanNums

/-- A boot fails: 1 the check, 2 no heartbeat: an uncommitted slot is left for the previous one; the third failure in a row
enters RECOVERY (R471, R477). -/
def State.bootFailed (s : State) (kind : Nat) : State :=
  let n := min 3 (s.sys.bootFails + 1)
  let s1 := ((s.onSys fun y => { y with bootFails := n }).raise 0x0D09 [b2n s.upd.slotB, kind, n]).onUpd fun u =>
    { u with failedB := some u.slotB, handAt := none }
  let s2 := s1.onPower fun p => { p with stage := if p.stage < 6 then min 2 p.stage else p.stage }
  if 3 ≤ n then s2.enterRecovery 1
  else
    let s3 := s2.onSys fun y => { y with run := if y.run = .rom then .rom else .restarting }
    if s.upd.uncommitted then (s3.slotBack.onUpd fun u => { u with swap := 0 }).raise 0x0D0A [b2n (!s.upd.slotB)] else s3

/-- The ROM is about to check the selected slot: at a start, or after a swap or a failed boot (R453, R467, R471). -/
def State.romRuns (s : State) : Bool :=
  s.power.pwrgd && !s.sys.shut && !s.sys.holdup && (decide (s.sys.run = .rom) || (decide (s.sys.run = .restarting) && s.upd.handAt.isNone))

/-- BOOT_FAIL (R471). -/
def execBootFail (kind : Nat) (s : State) : Host.Outcome State Fault Refusal :=
  onlyIf ((decide (kind = 1) && s.romRuns) || (decide (kind = 2 ∧ s.sys.run ≠ .rom ∧ s.sys.run ≠ .recovery) && s.elapsed? s.upd.handAt (secs 5)))
    (·.bootFailed kind) s

/-- RECOVERY_ENTRY: three failed boots, RECOV held at start-up, or no slot that passes its check (R472). -/
def execRecoveryEntry (cause : Nat) (s : State) : Host.Outcome State Fault Refusal :=
  onlyIf (s.romRuns && (decide (cause = 1 ∧ 3 ≤ s.sys.bootFails) || (decide (cause = 2 ∧ s.sys.run = .rom) && s.sys.recovPin) ||
      decide (cause = 3))) (·.enterRecovery cause) s

/-- RECOV_RELEASE: the pin reads low; a slot verified in RECOVERY boots (R472, R494). -/
def execRecovRelease (s : State) : Host.Outcome State Fault Refusal :=
  let s1 := s.onSys fun y => { y with recovPin := false }
  .next (if s.sys.run = .recovery ∧ s.upd.ready = true then (s1.onUpd fun u => { u with ready := false }).romBoot else s1)

/-! ### Node firmware (R473, R474) -/

/-- The positions to update, descending: the nodes of the image's type (R474). -/
def State.nodeTargets (s : State) (port : Nat) : List Nat :=
  (sortN ((((s.addressed port).map (fun i => s.node (nodeKey port i))).filter (fun n => decide (n.type = s.upd.nodeVer.2))).map
    Node.pos)).reverse

/-- An update starts: the payload is broadcast twice, then the first node is activated (R474). -/
def State.startNodes (s : State) (port : Nat) : State :=
  let todo := s.nodeTargets port
  let s1 := (s.onUpd fun u => { u with node := some ⟨port, todo, 0, false, none, false⟩ }).raise 0x0D0C [port, todo.length]
  let l := fwBlocks s.upd.nodeBytes
  (forEach (l ++ l) (fun op t => t.queueCmd port 0xFFFF op none) s1).nodeNext

/-- NODE_UPDATE (R345, R473). -/
def execNodeUpdate (rq : Rq) (port : Nat) (s : State) : Host.Outcome State Fault Refusal :=
  plainCmd rq 0x0D08 .zero [.service] (fun s =>
    [(decide (port < 128), outOfRange 0), (decide ((s.ring port).state = .service), ringState (s.ring port).state),
     (decide (s.upd.nodeId ≠ 0), notVerified), (decide (s.upd.ustate ≠ .scheduled), s.pendingActivation),
     (s.upd.node.isNone, busyWith 0x0D08)]) (·.startNodes port) s

/-- NODE_RETURN_TIMEOUT: a node has not shown the new version within 10 s of its OK (R474, R477). -/
def execNodeReturnTimeout (s : State) : Host.Outcome State Fault Refusal :=
  match s.upd.node with
  | none => .next s
  | some u =>
    onlyIf (s.elapsed? u.since (secs 10)) (·.nodeFailed u.port (u.todo.headD 0) (if u.old then 3 else 2)) s

end Sys2Proof.Machine
end

