-- ==== Sys2Proof/Machine/Power.lean ====
section
/-! DEFINITION. Supplies and start-up: from power to the open mailbox, and what the supplies do meanwhile (chapters 16
and 18). -/
namespace Sys2Proof.Machine
open Sys2Proof

/-! ### Stages 1 to 3 (R453, R478-R480, R494) -/

/-- POWER_UP: VMAIN has risen through 36 V with VANA present, both in 0.1 V: PWRGD asserts, the beam leaves reset with a
synchronising reset (R41); RECOV has the level given, and a latch copy that is not valid starts from its reset value (R439, R453, R479). -/
def execPowerUp (vmain vana : Nat) (recov latchOk : Bool) (s : State) : Host.Outcome State Fault Refusal :=
  onlyIf (!s.power.pwrgd && decide (360 < vmain ∧ 360 < vana)) (fun s =>
    let s1 := (s.onPower fun p => { p with vmain := true, vana := true, vanaLost := false, pwrgd := true, goodAt := s.clock, stage := 1 }).onSys
      fun y => { y with recovPin := recov }
    let s1 := s1.syncReset
    if latchOk then s1
    else
      (((forEach (tkeys s.est.strs) (fun k t => t.modStr k fun q => { q with locked := none, causes := [], welded := false }) s1).onGuard
        fun g => { g with tripped := false, tripCause := 0, tripId := 0, weld := none })).raise 0x0C06 [0x40]) s

/-- ROM_HANDOVER: the ROM's check of the selected slot ends, well or not: with TEST high at a start it does not hand over;
three failed boots, or RECOV held at a start, enter RECOVERY (R453, R471, R472, R494). -/
def execRomHandover (good : Bool) (s : State) : Host.Outcome State Fault Refusal :=
  let start := decide (s.sys.run = .rom)
  onlyIf (s.romRuns && !(start && s.power.test)) (fun s =>
    if 3 ≤ s.sys.bootFails then s.enterRecovery 1
    else if start && s.sys.recovPin then s.enterRecovery 2
    else if good then
      ((s.onSys fun y => { y with run := .restarting }).onUpd fun u => { u with handAt := some s.clock }).onPower fun p =>
        { p with stage := max 3 p.stage }
    else s.bootFailed 1) s

/-! ### Stage 4: the steps of R439 -/

/-- One digit resolved: the words, and whether its carry was applied (R435). -/
def cntResolve1 (c : List (BitVec 16)) (k : Nat) : List (BitVec 16) × Bool :=
  let w := nth 0 c k
  let next := nth 0 c (k + 1)
  if !dCo w then (c, false)
  else if dRt next = dEt w then (putNth c k (dNoCo w), false)
  else
    let c1 := (cntPut c (k + 1) (dVal next + 1) (!dRt next)).1
    (putNth c1 k (dNoCo (nth 0 c1 k)), true)

/-- A counter resolved from its lowest digit up, with an event for each carry applied (R435, R441). -/
def State.resolveCounter (s : State) (key : Nat) : State :=
  forEach [0, 1, 2, 3] (fun d t =>
    let (c, applied) := cntResolve1 (tget cnt0 t.recs.counters key) d
    let k := key / 8 % 2 ^ 24
    (t.onRecs fun r => { r with counters := tset cnt0 r.counters key c }).when applied (·.raise 0x0C03
      [(key / 8 / 2 ^ 24 : Nat), keyPort k, keyId k, (key % 8 : Nat), d])) s

/-- Slots whose journal markers are set are invalid and erased, with their events; an image reception goes with its area
(R422, R439). -/
def State.discardMarked (s : State) : State :=
  let s1 := forEach s.recs.markers (fun m t =>
    (t.raise 0x0C05 [m.1, m.2]).when (decide (m.1 = 4)) (·.onUpd fun u =>
      { u with begun := none, blocks := [], ustate := if u.ustate = .receiving then .empty else u.ustate })) s
  s1.onRecs fun r =>
    { r with markers := [], socPool := r.socPool.filter (fun c => !r.markers.contains (1, c.seq % 2048)),
             learnedPool := r.learnedPool.filter (fun c => !r.markers.contains (2, c.seq % 256)) }

/-- The first parameter of the start-up event: 1 flushed, 2 not, 3 the first start (R441). -/
def Records.startKind (r : Records) : Nat := if !r.cfgValid then 3 else if r.flushed then 1 else 2

/-- Steps 1 to 5 of R439: blocks without a valid copy, named by their address, start from their reset values; counters are
resolved; the tail's records are closed and programmed; marked slots are discarded; the start is recorded. -/
def State.startRecords (s : State) (bad : List Nat) : State :=
  let s1 := forEach bad (fun a t => t.raise 0x0C06 [(a / 256 % 65536 : Nat)]) s
  let s2 := s1.when (bad.contains 0x003000) (·.onRecs fun r => { r with flushed := false })
  let s3 := s2.when (bad.contains 0x005000) (fun t => (t.onRecs fun r => { r with ledgerCopy := [] }).raise 0x0C0B [])
  let s4 := (forEach (tkeys s3.recs.counters) (fun k t => t.resolveCounter k) s3).count 0 0 1 1
  let s5 := s4.onRecs fun r =>
    let r1 := { r with tail := r.tail.map (fun (e : Rec) => { e with closed := true }) }
    r1.program r1.unprogrammed
  let s6 := s5.discardMarked
  (s6.raise 0x0C02 ((s6.recs.startKind : Int) :: verPair s6.upd.active.ver)).onRecs fun r => { r with flushed := false }

/-- The ledgers of the newest copy, with their sums (R436, R439). -/
def State.loadLedgers (s : State) : State :=
  forEach s.recs.ledgerCopy (fun e t => t.when (t.tenant e.1).exists_ (·.modTenant e.1 fun q =>
    { q with mj := nth 0 e.2 0, disSum := nth 0 e.2 1 * 3600, chgSum := nth 0 e.2 2 * 3600, curtSum := nth 0 e.2 3 * 3600 })) s

/-- A value as a word of the image in service; 0 where it has no such column. -/
def Image.codeOf (im : Image) (idx : Nat) (v : Rat) : Int :=
  match im.stateCol? idx with
  | some c => q15Of v (colScale c)
  | none => 0

/-- The newest valid SOC checkpoint: of the slots whose CRCs and trailer hold, the newest whose cells are those configured now; the
operand names the slots that do not hold (R179, R423). -/
def State.socSlot? (s : State) (bad : List Nat) : Option SocSlot :=
  s.recs.socPool.find? (fun c => !bad.contains (c.seq % 2048) && decide (c.points = s.cellPoints))

/-- The newest valid learned checkpoint (R179, R423). -/
def State.learnedSlot? (s : State) (bad : List Nat) : Option LearnedSlot :=
  s.recs.learnedPool.find? (fun c => !bad.contains (c.seq % 256) && decide (c.points = s.cellPoints))

/-- Words 0 and 6 with which a cell starts from a checkpoint's SOC code (R179). -/
def State.coldWords (s : State) (c : SocSlot) (code : Nat) (sdr : BitVec 16) : Int × Int :=
  let known := s.sys.ptpLock && decide (c.wall ≠ BitVec.allOnes 64)
  let t : Rat := ((s.wall.toNat : Rat) - (c.wall.toNat : Rat)) / 1000000000
  let z : Rat := (code : Rat) / 65536 - (if known then (sdr.toNat : Rat) / 100000000000 * t else 0)
  (s.image.codeOf 0 z, s.image.codeOf 6 (if known then min (1 / 100 + 2 / 1000 * t / 86400) (1 / 10) else 1 / 20))

/-- A cell as the checkpoints give it: its learned record, and its state made cold; with no SOC checkpoint it starts from the OCV
(R156, R179). -/
def State.coldCell (s : State) (p : Nat) (soc : Option SocSlot) (learned : Option LearnedSlot) : State :=
  let at_ (ps : List Nat) : Nat := ps.findIdx (fun x => decide (x = p))
  let l := learned.elim Learned.reset (fun c => nth Learned.reset c.recs (at_ c.points))
  let w := soc.elim (0, 0) (fun c => s.coldWords c (nth 0 c.codes (at_ c.points)) l.sdr)
  s.modCell p fun c => { (c.cold w.1 w.2 s.sched.xgen) with learned := l }

/-- Step 6 of R439: the strings of the stored rings, and the checkpoints (R103, R179). -/
def State.loadCells (s : State) (socBad learnedBad : List Nat) : State :=
  let s1 := forEach (s.portsWhere (fun r => decide (r.config ≠ []))) (fun p t => t.buildStrings p) s
  let soc := s1.socSlot? socBad
  let learned := s1.learnedSlot? learnedBad
  forEach s1.cellPoints (fun p u => u.coldCell p soc learned) s1

/-! ### Stage 5: registers and marks (R453) -/

/-- An offset is a loop's LCTL, which holds its EN (R375). -/
def isLctl (off : Nat) : Bool := match loopPlace? off with | some (_, r) => decide (r = 0) | none => false

/-- The loops that the store enables are enabled, after every register of the block is restored (R350). -/
def enableLoops (l : Tbl Word) (s : State) : State := forEach (l.filter (fun e => isLctl e.1)) (fun e t => t.loopPut e.1 e.2.toNat) s

/-- The beam, loop, load and CAN registers of the store are restored (R350, R393, R453). -/
def State.restoreRegs (s : State) (c : Store) : State :=
  let s1 := forEach beamKept (fun o t =>
    match tfind? c.beam o with
    | some w => t.beamWrite o w.toNat
    | none => t) s
  let s2 := enableLoops c.loop (forEach c.loop (fun e t => t.loopPut e.1 (if isLctl e.1 then e.2.toNat / 2 * 2 else e.2.toNat)) s1)
  let s3 := (s2.onLoad fun l => { l with cfg := c.load, sense := c.sense }).applyChannels chanNums
  forEach c.can (fun e t => t.canPut e.1 e.2.toNat) s3

/-- M0 starts on the present reference at the next angle 0, M2 at its slot, M3 is armed, and M15 where an activation is
scheduled (R51, R241, R244, R453, R466). -/
def State.startMarks (s : State) : State :=
  let step : Word := if s.beam.sweepConf = 0 then BitVec.ofNat 32 s.beam.sweepDefault else s.beam.sweepConf
  let s1 := s.modMark 0 fun m =>
    { m with cmp := BitVec.ofNat 32 ((s.beam.cycle.toNat + 1) * 65536), step := step, stepNow := step, stepWas := none, subdiv := 1,
             count := 0, k := 0, fired := 0, en := true, owed := none, done := false }
  let cyc := if s.parSet 0x5106 then (s.parC 0x5106).toNat else s.beam.slotCycDefault
  let s2 := (s1.onDisp fun d => { d with slotCyc := max 1 cyc, settleAt := s.clock }).programM2.armM3
  s2.when (decide (s.upd.ustate = .scheduled)) (fun t =>
    (t.onBeam fun b => { b with actGate := t.upd.actWall }).markEnable 15)

/-- Rods outside the recorded set run the built-in test, and every rod loads the image in service at the firing of M3
(R110, R111, R453). -/
def State.startRods (s : State) : State :=
  forEach rodNums (fun n t => t.modRod n fun r =>
    { r with state := if s.sched.recorded.contains n then .quarantined else .testing, reload := true, img := s.sched.xgen }) s

/-- RECKONER_START: the steps of R439 and the registers of stage 5 (R453); the operands name the MRAM blocks without a
valid copy and the checkpoint slots that do not hold, and tell whether the store is valid. -/
def execReckonerStart (bad : List Nat) (cfgOk : Bool) (socBad learnedBad : List Nat) (s : State) : Host.Outcome State Fault Refusal :=
  onlyIf (decide (s.sys.run = .restarting ∧ s.power.stage = 3) && s.upd.handAt.isSome) (fun s =>
    let s1 := (s.onRecs fun r => { r with cfgValid := r.cfgValid && cfgOk }).startRecords bad
    let c := if s1.recs.cfgValid then s1.upd.store.getD s1.store else Store.reset
    let s2 := ((s1.loadStore c).onUpd fun u => { u with store := none }).loadLedgers.loadCells socBad learnedBad
    ((s2.restoreRegs c).startMarks.startRods.onEst fun e => { e with ckAt := s.clock, socAt := s.clock }).onPower fun p => { p with stage := 5 }) s

/-! ### Stage 6: the rings and the mailbox (R453, R454) -/

/-- The mode in which the mailbox opens (R454). -/
def State.startMode (s : State) : Mode :=
  if s.guard.tripped && decide (s.guard.tripCause ≠ 0x0C01) then .tripped
  else if !s.recs.cfgValid || s.sys.storedCommission then .commission
  else if s.anyService then .service
  else .standby

/-- What a start-up finds on a ring: the nodes counted and the places that do not answer. -/
def factsOf (facts : List (Nat × Nat × List Nat)) (port : Nat) : RingFacts :=
  match facts.find? (fun f => decide (f.1 = port)) with
  | some f => ⟨port, f.2.1, f.2.2⟩
  | none => ⟨port, 0, []⟩

/-- MAILBOX_OPEN: every ring with a stored configuration is taken towards ACTIVE, and the mailbox opens (R451, R453,
R454). -/
def execMailboxOpen (facts : List (Nat × Nat × List Nat)) (s : State) : Host.Outcome State Fault Refusal :=
  onlyIf (decide (s.sys.run = .restarting ∧ s.power.stage = 5)) (fun s =>
    let s1 := forEach (s.portsWhere (fun r => decide (r.config ≠ []))) (fun p t => t.tryActivate (factsOf facts p)) s
    ((s1.enterMode s1.startMode 0x0C02).onSys fun y => { y with run := .running }).onPower fun p => { p with stage := 6 }) s

/-! ### Supplies (R480-R482, R500, R501) -/

/-- VMAIN_LOW: below 34 V for 10 ms; the report clears above 36 V (R480). -/
def execVmainLow (vmain heldMs : Nat) (s : State) : Host.Outcome State Fault Refusal :=
  if 360 < vmain then .next (s.onPower fun p => { p with vmainLow := false })
  else
    onlyIf (s.power.pwrgd && !s.power.vmainLow && decide (vmain < 340 ∧ 10 ≤ heldMs)) (fun s =>
      (s.onPower fun p => { p with vmainLow := true }).raise 0x0123 [vmain, sat16 heldMs]) s

/-- VANA is lost while VMAIN is present: its event; the guard's emergency bank action but in OFF after SHUTDOWN and in
RECOVERY; the rings keep their states and wait for the checks (R482). -/
def State.vanaGone (s : State) (vana : Int) : State :=
  let s1 := s.onPower fun p => { p with vana := false, vanaLost := true, vanaAt := s.clock, recheck := s.activePorts }
  if s.sys.shut = true ∨ s.sys.run = .recovery then s1.raise 0x0121 [0, vana]
  else (s1.onGuard fun g => { g with present := insN 0x0121 g.present }).ask 1 none 0x0121 [vana] true true

/-- VANA_LOST: VANA, in 0.1 V, has stayed below 30 V for some microseconds with VMAIN present (R480, R482, R500). -/
def execVanaLost (vana heldUs : Nat) (s : State) : Host.Outcome State Fault Refusal :=
  onlyIf (s.power.pwrgd && s.power.vmain && !s.power.vanaLost && !s.sys.holdup && decide (vana < 300 ∧ 200 ≤ heldUs))
    (·.vanaGone vana) s

/-- VANA_RESTORED: above 36 V for 100 ms: a synchronising reset, and every ring that was ACTIVE passes the checks again or
enters SERVICE (R480, R482, R500). -/
def execVanaRestored (vana heldMs : Nat) (facts : List (Nat × Nat × List Nat)) (s : State) : Host.Outcome State Fault Refusal :=
  onlyIf (s.power.pwrgd && s.power.vanaLost && !s.sys.holdup && decide (360 < vana ∧ 100 ≤ heldMs)) (fun s =>
    let s1 := (s.raise 0x0122 [sat16 (s.msSince s.power.vanaAt)]).onPower fun p => { p with vana := true, vanaLost := false, recheck := [] }
    let s2 := (s1.causeGone 0x0121).syncReset
    (forEach (s.power.recheck.filter (fun p => decide ((s.ring p).state = .active))) (fun p t => t.tryActivate (factsOf facts p)) s2).followRings
      0x0122) s

/-- SUPPLY_OVER_VOLTAGE: above 75 V for more than 500 ms, or above 100 V: the input disconnects itself, which is the loss
of that supply; the voltage its loss reports is open (R480, R500, R501). -/
def execSupplyOverVoltage (vanaSide : Bool) (highest heldMs : Nat) (s : State) : Host.Outcome State Fault Refusal :=
  onlyIf (s.power.pwrgd && !s.sys.holdup && (if vanaSide then s.power.vana else s.power.vmain) &&
      decide (1000 < highest ∨ (750 < highest ∧ 500 < heldMs))) (fun s =>
    let s1 := s.raise 0x0124 [if vanaSide then 2 else 1, sat16 highest, sat16 heldMs]
    let (v, s2) := s1.free
    if vanaSide then s2.vanaGone v else s2.vmainLost v) s

/-- VIO, in 10 mV, lies in the range that VIO_SEL selects (R480). -/
def State.vioIn (s : State) (vio : Nat) : Bool :=
  if s.power.vioSel then decide (297 ≤ vio ∧ vio ≤ 363) else decide (162 ≤ vio ∧ vio ≤ 198)

/-- VIO_MISMATCH: outside its range for 10 ms: PWRGD is held low, the logic pins are high-impedance: IN pins read low, PERST#
resets the endpoint (R480, R500). -/
def execVioMismatch (vio heldMs : Nat) (s : State) : Host.Outcome State Fault Refusal :=
  onlyIf (s.power.pwrgd && s.power.vioOk && !s.vioIn vio && decide (10 ≤ heldMs)) (fun s =>
    let s1 := (s.onPower fun p => { p with vioOk := false }).raise 0x0125 [vio, b2n s.power.vioSel]
    ((s1.onLoad fun l => { l with pins := 0 }).applyChannels (chanNums.filter s.inEn)).endpointReset false) s

/-- VIO_RETURN: VIO is back in its range, and the logic pins resume their functions (R500). -/
def execVioReturn (vio : Nat) (s : State) : Host.Outcome State Fault Refusal :=
  onlyIf (!s.power.vioOk && s.vioIn vio) (·.onPower fun p => { p with vioOk := true }) s

/-- HOLDUP_ARMED: the hold-up bank, in 0.1 V, reaches 65 V and the flush is armed; still below it 2 s after PWRGD, the
hold-up fault is raised (R481, R501). -/
def execHoldupArmed (bank : Nat) (s : State) : Host.Outcome State Fault Refusal :=
  onlyIf (s.power.pwrgd && !s.power.armed) (fun s =>
    if 650 ≤ bank then s.onPower fun p => { p with armed := true }
    else if s.elapsed s.power.goodAt (secs 2) && !s.power.holdupFault then
      (s.onPower fun p => { p with holdupFault := true }).raise 0x0126 [bank]
    else s) s

end Sys2Proof.Machine
end

