-- ==== Sys2Proof/Machine/Dispatch.lean ====
section
/-! DEFINITION. The dispatcher: one arm per command of the opcode table. -/
namespace Sys2Proof.Machine
open Sys2Proof

def exec (i : Instr) (s : State) : Host.Outcome State Fault Refusal :=
  match i with
  | .heartbeat => Sys2Proof.Machine.execHeartbeat s
  | .heartbeatTimeout => Sys2Proof.Machine.execHeartbeatTimeout s
  | .beamTimeExtend => Sys2Proof.Machine.execBeamTimeExtend s
  | .trackerCycle mag freq errMax errMin reversed => Sys2Proof.Machine.execTrackerCycle mag freq errMax errMin reversed s
  | .lockSet => Sys2Proof.Machine.execLockSet s
  | .bzxEdge rising held => Sys2Proof.Machine.execBzxEdge rising held s
  | .bzxCycleTimeout => Sys2Proof.Machine.execBzxCycleTimeout s
  | .mainsLost => Sys2Proof.Machine.execMainsLost s
  | .exposedAngleZero => Sys2Proof.Machine.execExposedAngleZero s
  | .slewComplete => Sys2Proof.Machine.execSlewComplete s
  | .inputOverRange input value => Sys2Proof.Machine.execInputOverRange input value s
  | .overRangeReturn input heldMs => Sys2Proof.Machine.execOverRangeReturn input heldMs s
  | .settlingDone => Sys2Proof.Machine.execSettlingDone s
  | .syncReset => Sys2Proof.Machine.execSyncReset s
  | .sourceChange src => Sys2Proof.Machine.execSourceChange src s
  | .markEnable unit => Sys2Proof.Machine.execMarkEnable unit s
  | .cycWallLoRead => Sys2Proof.Machine.execCycWallLoRead s
  | .registerWrite tenant offset value => Sys2Proof.Machine.execRegisterWrite tenant offset value s
  | .sweepMark => Sys2Proof.Machine.execSweepMark s
  | .sweepLaunch => Sys2Proof.Machine.execSweepLaunch s
  | .sweepRateRestore => Sys2Proof.Machine.execSweepRateRestore s
  | .rippleBurstSample cells fpi => Sys2Proof.Machine.execRippleBurstSample cells fpi s
  | .dispatchTick => Sys2Proof.Machine.execDispatchTick s
  | .exchangeMark => Sys2Proof.Machine.execExchangeMark s
  | .notificationMark unit => Sys2Proof.Machine.execNotificationMark unit s
  | .activationMark => Sys2Proof.Machine.execActivationMark s
  | .rxLock port place fwd symbols commas => Sys2Proof.Machine.execRxLock port place fwd symbols commas s
  | .rxLockLost port place fwd invalid quietNs => Sys2Proof.Machine.execRxLockLost port place fwd invalid quietNs s
  | .faultSet port place fwd => Sys2Proof.Machine.execFaultSet port place fwd s
  | .ringRejoin port => Sys2Proof.Machine.execRingRejoin port s
  | .enum port count => Sys2Proof.Machine.execEnum port count s
  | .clear port place => Sys2Proof.Machine.execClear port place s
  | .ringEcho port place pos fwd => Sys2Proof.Machine.execRingEcho port place pos fwd s
  | .echoReply port pos endB rtt => Sys2Proof.Machine.execEchoReply port pos endB rtt s
  | .census port count => Sys2Proof.Machine.execCensus port count s
  | .collectLaunch port => Sys2Proof.Machine.execCollectLaunch port s
  | .collect port place raw => Sys2Proof.Machine.execCollect port place raw s
  | .leaseExpired port place => Sys2Proof.Machine.execLeaseExpired port place s
  | .leaseTimeout port place => Sys2Proof.Machine.execLeaseTimeout port place s
  | .nodeSync port place tag fwd => Sys2Proof.Machine.execNodeSync port place tag fwd s
  | .nodeSample port place cells temps stack nodeT busI aux busFault inTime => Sys2Proof.Machine.execNodeSample port place cells temps stack nodeT busI aux busFault inTime s
  | .nodeProjectedSample port place tag cells temps stack nodeT busI aux busFault inTime => Sys2Proof.Machine.execNodeProjectedSample port place tag cells temps stack nodeT busI aux busFault inTime s
  | .recordReceived port place rec => Sys2Proof.Machine.execRecordReceived port place rec s
  | .collectFrameClosed port fNow endB returned => Sys2Proof.Machine.execCollectFrameClosed port fNow endB returned s
  | .skewLimit port => Sys2Proof.Machine.execSkewLimit port s
  | .keepaliveLaunch => Sys2Proof.Machine.execKeepaliveLaunch s
  | .keepalive port place raw => Sys2Proof.Machine.execKeepalive port place raw s
  | .switchWatchdogExpiry port place => Sys2Proof.Machine.execSwitchWatchdogExpiry port place s
  | .nodeStart port place nvFault => Sys2Proof.Machine.execNodeStart port place nvFault s
  | .commandLaunch port => Sys2Proof.Machine.execCommandLaunch port s
  | .readNode port place seq resync addr count raw => Sys2Proof.Machine.execReadNode port place seq resync addr count raw s
  | .writeNode port place seq resync bcast addr data nvBusy raw => Sys2Proof.Machine.execWriteNode port place seq resync bcast addr data nvBusy raw s
  | .balance port place seq resync lease dir duty raw => Sys2Proof.Machine.execBalance port place seq resync lease dir duty raw s
  | .switch port place seq resync guardSet out raw => Sys2Proof.Machine.execSwitch port place seq resync guardSet out raw s
  | .unwrap port place seq resync bcast raw => Sys2Proof.Machine.execUnwrap port place seq resync bcast raw s
  | .response port pos seq status data raw => Sys2Proof.Machine.execResponse port pos seq status data raw s
  | .commandTimeout port pos => Sys2Proof.Machine.execCommandTimeout port pos s
  | .busyRetry port pos => Sys2Proof.Machine.execBusyRetry port pos s
  | .fwBlock port place seq resync bcast offset data raw => Sys2Proof.Machine.execFwBlock port place seq resync bcast offset data raw s
  | .fwActivate port place seq resync bcast crc raw => Sys2Proof.Machine.execFwActivate port place seq resync bcast crc raw s
  | .nodeFwRestart port place ver started => Sys2Proof.Machine.execNodeFwRestart port place ver started s
  | .trip port place raw => Sys2Proof.Machine.execTrip port place raw s
  | .tripBodyTimeout port place => Sys2Proof.Machine.execTripBodyTimeout port place s
  | .invocationEnd rod next => Sys2Proof.Machine.execInvocationEnd rod next s
  | .windowClose rod => Sys2Proof.Machine.execWindowClose rod s
  | .publication => Sys2Proof.Machine.execPublication s
  | .tableWalk rod table good reloaded => Sys2Proof.Machine.execTableWalk rod table good reloaded s
  | .dieTempSample temps => Sys2Proof.Machine.execDieTempSample temps s
  | .beamSlot => Sys2Proof.Machine.execBeamSlot s
  | .classStarved cls => Sys2Proof.Machine.execClassStarved cls s
  | .burstAbandoned port sid => Sys2Proof.Machine.execBurstAbandoned port sid s
  | .rodTestDone rod sig => Sys2Proof.Machine.execRodTestDone rod sig s
  | .rodReload rod loads good => Sys2Proof.Machine.execRodReload rod loads good s
  | .kernelRevert => Sys2Proof.Machine.execKernelRevert s
  | .nop rod stall => Sys2Proof.Machine.execNop rod stall s
  | .vadd rod stall d a b => Sys2Proof.Machine.execVadd rod stall d a b s
  | .vsub rod stall d a b => Sys2Proof.Machine.execVsub rod stall d a b s
  | .vneg rod stall d a => Sys2Proof.Machine.execVneg rod stall d a s
  | .vabs rod stall d a => Sys2Proof.Machine.execVabs rod stall d a s
  | .vmax rod stall d a b => Sys2Proof.Machine.execVmax rod stall d a b s
  | .vmin rod stall d a b => Sys2Proof.Machine.execVmin rod stall d a b s
  | .vmov rod stall d a => Sys2Proof.Machine.execVmov rod stall d a s
  | .vmul rod stall d a b => Sys2Proof.Machine.execVmul rod stall d a b s
  | .vshr rod stall d a n => Sys2Proof.Machine.execVshr rod stall d a n s
  | .vshl rod stall d a n => Sys2Proof.Machine.execVshl rod stall d a n s
  | .vsel rod stall d a b => Sys2Proof.Machine.execVsel rod stall d a b s
  | .vcgt rod stall a b => Sys2Proof.Machine.execVcgt rod stall a b s
  | .vceq rod stall a b => Sys2Proof.Machine.execVceq rod stall a b s
  | .qdiv rod stall d a b => Sys2Proof.Machine.execQdiv rod stall d a b s
  | .vbcl rod stall d a b => Sys2Proof.Machine.execVbcl rod stall d a b s
  | .amac rod stall k a b => Sys2Proof.Machine.execAmac rod stall k a b s
  | .amsu rod stall k a b => Sys2Proof.Machine.execAmsu rod stall k a b s
  | .aldv rod stall k a n => Sys2Proof.Machine.execAldv rod stall k a n s
  | .aadv rod stall k a n => Sys2Proof.Machine.execAadv rod stall k a n s
  | .aext rod stall d k n => Sys2Proof.Machine.execAext rod stall d k n s
  | .aclr rod stall k => Sys2Proof.Machine.execAclr rod stall k s
  | .arsum rod stall d k => Sys2Proof.Machine.execArsum rod stall d k s
  | .vrsum rod stall d a => Sys2Proof.Machine.execVrsum rod stall d a s
  | .vbc rod stall d a n => Sys2Proof.Machine.execVbc rod stall d a n s
  | .sadd rod stall d a b => Sys2Proof.Machine.execSadd rod stall d a b s
  | .ssub rod stall d a b => Sys2Proof.Machine.execSsub rod stall d a b s
  | .smul rod stall d a b => Sys2Proof.Machine.execSmul rod stall d a b s
  | .sli rod stall d imm => Sys2Proof.Machine.execSli rod stall d imm s
  | .vli rod stall d imm => Sys2Proof.Machine.execVli rod stall d imm s
  | .scmp rod stall a b => Sys2Proof.Machine.execScmp rod stall a b s
  | .vld rod stall d x off => Sys2Proof.Machine.execVld rod stall d x off s
  | .vst rod stall d x off => Sys2Proof.Machine.execVst rod stall d x off s
  | .tlu rod stall d a tab => Sys2Proof.Machine.execTlu rod stall d a tab s
  | .tlu2 rod stall d a b tab => Sys2Proof.Machine.execTlu2 rod stall d a b tab s
  | .lmset rod stall imm => Sys2Proof.Machine.execLmset rod stall imm s
  | .lmget rod stall d => Sys2Proof.Machine.execLmget rod stall d s
  | .lmld rod stall a => Sys2Proof.Machine.execLmld rod stall a s
  | .lmand rod stall a => Sys2Proof.Machine.execLmand rod stall a s
  | .br rod stall cc off => Sys2Proof.Machine.execBr rod stall cc off s
  | .loop rod stall x off => Sys2Proof.Machine.execLoop rod stall x off s
  | .call rod stall off => Sys2Proof.Machine.execCall rod stall off s
  | .ret rod stall => Sys2Proof.Machine.execRet rod stall s
  | .endPass rod stall => Sys2Proof.Machine.execEndPass rod stall s
  | .kfence rod stall => Sys2Proof.Machine.execKfence rod stall s
  | .cst rod stall d x off => Sys2Proof.Machine.execCst rod stall d x off s
  | .observerRun port sid => Sys2Proof.Machine.execObserverRun port sid s
  | .observerBlend group => Sys2Proof.Machine.execObserverBlend group s
  | .observerUnavailable port sid => Sys2Proof.Machine.execObserverUnavailable port sid s
  | .rippleBurstStart port sid => Sys2Proof.Machine.execRippleBurstStart port sid s
  | .restPoint port sid => Sys2Proof.Machine.execRestPoint port sid s
  | .estimatorHealth point => Sys2Proof.Machine.execEstimatorHealth point s
  | .socCheckpoint => Sys2Proof.Machine.execSocCheckpoint s
  | .learnedCheckpoint => Sys2Proof.Machine.execLearnedCheckpoint s
  | .sensorRestored port pos input => Sys2Proof.Machine.execSensorRestored port pos input s
  | .balancingReplan => Sys2Proof.Machine.execBalancingReplan s
  | .balancingQuiet port sid => Sys2Proof.Machine.execBalancingQuiet port sid s
  | .balancingMismatch port pos => Sys2Proof.Machine.execBalancingMismatch port pos s
  | .balancingExclusionEnd port pos => Sys2Proof.Machine.execBalancingExclusionEnd port pos s
  | .tinConversion input a b => Sys2Proof.Machine.execTinConversion input a b s
  | .tinFault input => Sys2Proof.Machine.execTinFault input s
  | .tinRecovered input => Sys2Proof.Machine.execTinRecovered input s
  | .compensationUpdate tRef tOsc => Sys2Proof.Machine.execCompensationUpdate tRef tOsc s
  | .stopDeenergised heldUs => Sys2Proof.Machine.execStopDeenergised heldUs s
  | .stopEnergised heldUs => Sys2Proof.Machine.execStopEnergised heldUs s
  | .stopLaneTenant0 => Sys2Proof.Machine.execStopLaneTenant0 s
  | .stopLaneTenant tenant => Sys2Proof.Machine.execStopLaneTenant tenant s
  | .stopRecompute => Sys2Proof.Machine.execStopRecompute s
  | .stopDatagram port bytes => Sys2Proof.Machine.execStopDatagram port bytes s
  | .comparatorCrossing fpi hi heldNs => Sys2Proof.Machine.execComparatorCrossing fpi hi heldNs s
  | .guardCycle convs firstMismatch rerunMismatch xor => Sys2Proof.Machine.execGuardCycle convs firstMismatch rerunMismatch xor s
  | .guardWatchdog => Sys2Proof.Machine.execGuardWatchdog s
  | .limitLevelCrossed port sid level => Sys2Proof.Machine.execLimitLevelCrossed port sid level s
  | .nodeLoss port pos => Sys2Proof.Machine.execNodeLoss port pos s
  | .stepTimeout port => Sys2Proof.Machine.execStepTimeout port s
  | .prechargeHalfCheck => Sys2Proof.Machine.execPrechargeHalfCheck s
  | .contactorOpenDeadline => Sys2Proof.Machine.execContactorOpenDeadline s
  | .weldCheck port sid => Sys2Proof.Machine.execWeldCheck port sid s
  | .pcsMessageRepeat => Sys2Proof.Machine.execPcsMessageRepeat s
  | .curtailmentStarted => Sys2Proof.Machine.execCurtailmentStarted s
  | .curtailmentEnded => Sys2Proof.Machine.execCurtailmentEnded s
  | .externalSetpointFault => Sys2Proof.Machine.execExternalSetpointFault s
  | .failsafeHoldExpiry => Sys2Proof.Machine.execFailsafeHoldExpiry s
  | .rqTail tenant value => Sys2Proof.Machine.execRqTail tenant value s
  | .requestFetch tenant slot accessOk => Sys2Proof.Machine.execRequestFetch tenant slot accessOk s
  | .responsePost tenant eth accessOk => Sys2Proof.Machine.execResponsePost tenant eth accessOk s
  | .rsTail tenant value => Sys2Proof.Machine.execRsTail tenant value s
  | .epoch tenant value => Sys2Proof.Machine.execEpoch tenant value s
  | .rqEn tenant => Sys2Proof.Machine.execRqEn tenant s
  | .rsEn tenant => Sys2Proof.Machine.execRsEn tenant s
  | .irqTimeout tenant => Sys2Proof.Machine.execIrqTimeout tenant s
  | .pcieReset linkStays => Sys2Proof.Machine.execPcieReset linkStays s
  | .d3hotEntry => Sys2Proof.Machine.execD3hotEntry s
  | .d0Resume => Sys2Proof.Machine.execD0Resume s
  | .wakeCause cause => Sys2Proof.Machine.execWakeCause cause s
  | .mailboxDatagram port bytes sameNet => Sys2Proof.Machine.execMailboxDatagram port bytes sameNet s
  | .cursorExpiry cursor => Sys2Proof.Machine.execCursorExpiry cursor s
  | .ptpMessage port domain master => Sys2Proof.Machine.execPtpMessage port domain master s
  | .announceTimeout otherAnnounces => Sys2Proof.Machine.execAnnounceTimeout otherAnnounces s
  | .ethernetLink port up => Sys2Proof.Machine.execEthernetLink port up s
  | .identity rq => Sys2Proof.Machine.execIdentity rq s
  | .status rq => Sys2Proof.Machine.execStatus rq s
  | .setMode rq target => Sys2Proof.Machine.execSetMode rq target s
  | .connect rq => Sys2Proof.Machine.execConnect rq s
  | .disconnect rq => Sys2Proof.Machine.execDisconnect rq s
  | .shutdown rq => Sys2Proof.Machine.execShutdown rq s
  | .setParam rq param port string value => Sys2Proof.Machine.execSetParam rq param port string value s
  | .getParam rq param port string => Sys2Proof.Machine.execGetParam rq param port string s
  | .whoami rq => Sys2Proof.Machine.execWhoami rq s
  | .setAlloc rq tenant enabled dis chg e init => Sys2Proof.Machine.execSetAlloc rq tenant enabled dis chg e init s
  | .getAlloc rq tenant => Sys2Proof.Machine.execGetAlloc rq tenant s
  | .installKey rq tenant slot key => Sys2Proof.Machine.execInstallKey rq tenant slot key s
  | .readCell rq point => Sys2Proof.Machine.execReadCell rq point s
  | .readTemp rq point => Sys2Proof.Machine.execReadTemp rq point s
  | .readString rq port string => Sys2Proof.Machine.execReadString rq port string s
  | .readStringThermal rq port string => Sys2Proof.Machine.execReadStringThermal rq port string s
  | .readBankThermal rq => Sys2Proof.Machine.execReadBankThermal rq s
  | .readLearned rq point => Sys2Proof.Machine.execReadLearned rq point s
  | .readImpedance rq point => Sys2Proof.Machine.execReadImpedance rq point s
  | .cellSetParam rq param port string value => Sys2Proof.Machine.execCellSetParam rq param port string value s
  | .cellGetParam rq param port string => Sys2Proof.Machine.execCellGetParam rq param port string s
  | .bulkCells rq b dma => Sys2Proof.Machine.execBulkCells rq b dma s
  | .bulkStrings rq b dma => Sys2Proof.Machine.execBulkStrings rq b dma s
  | .bulkStringThermal rq b dma => Sys2Proof.Machine.execBulkStringThermal rq b dma s
  | .bulkLearned rq b dma => Sys2Proof.Machine.execBulkLearned rq b dma s
  | .bulkImpedance rq b dma => Sys2Proof.Machine.execBulkImpedance rq b dma s
  | .setTempMap rq port pos map => Sys2Proof.Machine.execSetTempMap rq port pos map s
  | .getTempMap rq port pos => Sys2Proof.Machine.execGetTempMap rq port pos s
  | .writeThermal rq port string levels => Sys2Proof.Machine.execWriteThermal rq port string levels s
  | .readThermal rq port string buf => Sys2Proof.Machine.execReadThermal rq port string buf s
  | .tinRead rq off count => Sys2Proof.Machine.execTinRead rq off count s
  | .tinWrite rq off data => Sys2Proof.Machine.execTinWrite rq off data s
  | .setGroup rq group source ch unit strings => Sys2Proof.Machine.execSetGroup rq group source ch unit strings s
  | .getGroup rq group => Sys2Proof.Machine.execGetGroup rq group s
  | .resetLearned rq scope port id input => Sys2Proof.Machine.execResetLearned rq scope port id input s
  | .clearShort rq port string => Sys2Proof.Machine.execClearShort rq port string s
  | .kernelInfo rq => Sys2Proof.Machine.execKernelInfo rq s
  | .loadImage rq b data dma => Sys2Proof.Machine.execLoadImage rq b data dma s
  | .exchange rq mask => Sys2Proof.Machine.execExchange rq mask s
  | .discard rq mask => Sys2Proof.Machine.execDiscard rq mask s
  | .readImage rq b dma => Sys2Proof.Machine.execReadImage rq b dma s
  | .submit rq entries => Sys2Proof.Machine.execSubmit rq entries s
  | .readSchedule rq tenant fromSlot => Sys2Proof.Machine.execReadSchedule rq tenant fromSlot s
  | .tenantRecord rq tenant => Sys2Proof.Machine.execTenantRecord rq tenant s
  | .bankRecord rq => Sys2Proof.Machine.execBankRecord rq s
  | .resume rq tenant => Sys2Proof.Machine.execResume rq tenant s
  | .ledgerAdjust rq tenant e => Sys2Proof.Machine.execLedgerAdjust rq tenant e s
  | .setBinding rq src ch mode failsafe x0 db gain pmax => Sys2Proof.Machine.execSetBinding rq src ch mode failsafe x0 db gain pmax s
  | .getBinding rq => Sys2Proof.Machine.execGetBinding rq s
  | .dispatchSetParam rq param port string value => Sys2Proof.Machine.execDispatchSetParam rq param port string value s
  | .dispatchGetParam rq param port string => Sys2Proof.Machine.execDispatchGetParam rq param port string s
  | .protRead rq off count => Sys2Proof.Machine.execProtRead rq off count s
  | .protWrite rq off data => Sys2Proof.Machine.execProtWrite rq off data s
  | .stringProt rq port string => Sys2Proof.Machine.execStringProt rq port string s
  | .clearTrip rq tripId => Sys2Proof.Machine.execClearTrip rq tripId s
  | .clearString rq port string => Sys2Proof.Machine.execClearString rq port string s
  | .weldAck rq tripId => Sys2Proof.Machine.execWeldAck rq tripId s
  | .mapAlarm rq ch source kind port string => Sys2Proof.Machine.execMapAlarm rq ch source kind port string s
  | .protSetParam rq param port string value => Sys2Proof.Machine.execProtSetParam rq param port string value s
  | .protGetParam rq param port string => Sys2Proof.Machine.execProtGetParam rq param port string s
  | .writeLimits rq port string fields => Sys2Proof.Machine.execWriteLimits rq port string fields s
  | .readLimits rq port string buf => Sys2Proof.Machine.execReadLimits rq port string buf s
  | .writeSeq rq sect first roles words => Sys2Proof.Machine.execWriteSeq rq sect first roles words s
  | .readSeq rq sect first count buf => Sys2Proof.Machine.execReadSeq rq sect first count buf s
  | .beamRead rq off count => Sys2Proof.Machine.execBeamRead rq off count s
  | .beamWrite rq off data => Sys2Proof.Machine.execBeamWrite rq off data s
  | .setSweep rq step => Sys2Proof.Machine.execSetSweep rq step s
  | .beamTime rq => Sys2Proof.Machine.execBeamTime rq s
  | .ringStatus rq port => Sys2Proof.Machine.execRingStatus rq port s
  | .setRingState rq port state count mute => Sys2Proof.Machine.execSetRingState rq port state count mute s
  | .enumerate rq port count => Sys2Proof.Machine.execEnumerate rq port count s
  | .calibrate rq port f r => Sys2Proof.Machine.execCalibrate rq port f r s
  | .nodeRead rq port pos addr count => Sys2Proof.Machine.execNodeRead rq port pos addr count s
  | .nodeWrite rq port pos addr data => Sys2Proof.Machine.execNodeWrite rq port pos addr data s
  | .storeConfig rq port mute => Sys2Proof.Machine.execStoreConfig rq port mute s
  | .readConfig rq b dma => Sys2Proof.Machine.execReadConfig rq b dma s
  | .loopRead rq off count => Sys2Proof.Machine.execLoopRead rq off count s
  | .loopWrite rq off data => Sys2Proof.Machine.execLoopWrite rq off data s
  | .axisTarget rq ax target => Sys2Proof.Machine.execAxisTarget rq ax target s
  | .capture rq b dma => Sys2Proof.Machine.execCapture rq b dma s
  | .loadRead rq off count meas vload mean => Sys2Proof.Machine.execLoadRead rq off count meas vload mean s
  | .loadWrite rq off data => Sys2Proof.Machine.execLoadWrite rq off data s
  | .setOutputs rq mask value => Sys2Proof.Machine.execSetOutputs rq mask value s
  | .chStatus rq meas vload mean => Sys2Proof.Machine.execChStatus rq meas vload mean s
  | .restart rq mask => Sys2Proof.Machine.execRestart rq mask s
  | .restartRecommand n => Sys2Proof.Machine.execRestartRecommand n s
  | .canRead rq off count => Sys2Proof.Machine.execCanRead rq off count s
  | .canWrite rq off data => Sys2Proof.Machine.execCanWrite rq off data s
  | .canSend rq ch cflags id data => Sys2Proof.Machine.execCanSend rq ch cflags id data s
  | .canStatus rq => Sys2Proof.Machine.execCanStatus rq s
  | .logState rq => Sys2Proof.Machine.execLogState rq s
  | .readLog rq b bad dma => Sys2Proof.Machine.execReadLog rq b bad dma s
  | .readRecent rq from_ count bad => Sys2Proof.Machine.execReadRecent rq from_ count bad s
  | .setSeverity rq wake notify => Sys2Proof.Machine.execSetSeverity rq wake notify s
  | .readCounters rq port string => Sys2Proof.Machine.execReadCounters rq port string s
  | .updateState rq => Sys2Proof.Machine.execUpdateState rq s
  | .begin rq target id length => Sys2Proof.Machine.execBegin rq target id length s
  | .writeBlock rq b data dma => Sys2Proof.Machine.execWriteBlock rq b data dma s
  | .verify rq => Sys2Proof.Machine.execVerify rq s
  | .schedule rq actWall => Sys2Proof.Machine.execSchedule rq actWall s
  | .cancel rq => Sys2Proof.Machine.execCancel rq s
  | .commit rq => Sys2Proof.Machine.execCommit rq s
  | .rollback rq actWall => Sys2Proof.Machine.execRollback rq actWall s
  | .nodeUpdate rq port => Sys2Proof.Machine.execNodeUpdate rq port s
  | .nodeReturnTimeout => Sys2Proof.Machine.execNodeReturnTimeout s
  | .rodStatus rq first count => Sys2Proof.Machine.execRodStatus rq first count s
  | .schedStatus rq => Sys2Proof.Machine.execSchedStatus rq s
  | .rodRelease rq rod => Sys2Proof.Machine.execRodRelease rq rod s
  | .linkStatus rq => Sys2Proof.Machine.execLinkStatus rq s
  | .echo rq payload => Sys2Proof.Machine.execEcho rq payload s
  | .loopTick ains => Sys2Proof.Machine.execLoopTick ains s
  | .loopEnable n => Sys2Proof.Machine.execLoopEnable n s
  | .loopRestart n => Sys2Proof.Machine.execLoopRestart n s
  | .supervisionFault n => Sys2Proof.Machine.execSupervisionFault n s
  | .captureArm n => Sys2Proof.Machine.execCaptureArm n s
  | .captureComplete n => Sys2Proof.Machine.execCaptureComplete n s
  | .loopConfigSave => Sys2Proof.Machine.execLoopConfigSave s
  | .axisEdge ax a b sin cos => Sys2Proof.Machine.execAxisEdge ax a b sin cos s
  | .axisIndex ax => Sys2Proof.Machine.execAxisIndex ax s
  | .axisWireFault ax pair heldNs => Sys2Proof.Machine.execAxisWireFault ax pair heldNs s
  | .axisAmplitudeFault ax high => Sys2Proof.Machine.execAxisAmplitudeFault ax high s
  | .axisStill ax => Sys2Proof.Machine.execAxisStill ax s
  | .faultev ax => Sys2Proof.Machine.execFaultev ax s
  | .outputOpen n heldUs => Sys2Proof.Machine.execOutputOpen n heldUs s
  | .inEdge n high => Sys2Proof.Machine.execInEdge n high s
  | .inrushWindowEnd n => Sys2Proof.Machine.execInrushWindowEnd n s
  | .slewRampComplete n vout vload => Sys2Proof.Machine.execSlewRampComplete n vout vload s
  | .slewRampTimeout n ma => Sys2Proof.Machine.execSlewRampTimeout n ma s
  | .overcurrentLatch n ma heldUs => Sys2Proof.Machine.execOvercurrentLatch n ma heldUs s
  | .thermalSwitchOff n dt => Sys2Proof.Machine.execThermalSwitchOff n dt s
  | .thermalRestart n dt => Sys2Proof.Machine.execThermalRestart n dt s
  | .openLoadJudgement n samples => Sys2Proof.Machine.execOpenLoadJudgement n samples s
  | .staggeredTurnOn => Sys2Proof.Machine.execStaggeredTurnOn s
  | .vloadUnderVoltage vload heldUs => Sys2Proof.Machine.execVloadUnderVoltage vload heldUs s
  | .vloadRestored vload heldMs => Sys2Proof.Machine.execVloadRestored vload heldMs s
  | .loadDump vload => Sys2Proof.Machine.execLoadDump vload s
  | .reverseSupply vload heldUs => Sys2Proof.Machine.execReverseSupply vload heldUs s
  | .loadGroundLost offset heldUs => Sys2Proof.Machine.execLoadGroundLost offset heldUs s
  | .loadGroundRestored offset heldMs => Sys2Proof.Machine.execLoadGroundRestored offset heldMs s
  | .totalOverload mean => Sys2Proof.Machine.execTotalOverload mean s
  | .loadShed mean => Sys2Proof.Machine.execLoadShed mean s
  | .loadConfigSave => Sys2Proof.Machine.execLoadConfigSave s
  | .canFrameReceived ch xtd fdf brs remote id data => Sys2Proof.Machine.execCanFrameReceived ch xtd fdf brs remote id data s
  | .pcsStatusFrame unit iDc vDc state count => Sys2Proof.Machine.execPcsStatusFrame unit iDc vDc state count s
  | .pcsUnitStale unit => Sys2Proof.Machine.execPcsUnitStale unit s
  | .alarmFrame ch source state count => Sys2Proof.Machine.execAlarmFrame ch source state count s
  | .alarmSourceLost ch source => Sys2Proof.Machine.execAlarmSourceLost ch source s
  | .canTxComplete ch guard result => Sys2Proof.Machine.execCanTxComplete ch guard result s
  | .busOffRecovery ch sequences => Sys2Proof.Machine.execBusOffRecovery ch sequences s
  | .aloneProbe ch result => Sys2Proof.Machine.execAloneProbe ch result s
  | .aloneLeft ch acknowledged => Sys2Proof.Machine.execAloneLeft ch acknowledged s
  | .driveFramePeriod => Sys2Proof.Machine.execDriveFramePeriod s
  | .pop ch => Sys2Proof.Machine.execPop ch s
  | .canTimingWrite ch => Sys2Proof.Machine.execCanTimingWrite ch s
  | .canDisable ch => Sys2Proof.Machine.execCanDisable ch s
  | .eventTailWrite => Sys2Proof.Machine.execEventTailWrite s
  | .logPageProgram => Sys2Proof.Machine.execLogPageProgram s
  | .flashBlockRetired region block => Sys2Proof.Machine.execFlashBlockRetired region block s
  | .operatingTimeCount => Sys2Proof.Machine.execOperatingTimeCount s
  | .holdup vmain heldUs => Sys2Proof.Machine.execHoldup vmain heldUs s
  | .flushComplete inProgress => Sys2Proof.Machine.execFlushComplete inProgress s
  | .powerUp vmain vana recov latchOk => Sys2Proof.Machine.execPowerUp vmain vana recov latchOk s
  | .romHandover good => Sys2Proof.Machine.execRomHandover good s
  | .reckonerStart bad cfgOk socBad learnedBad => Sys2Proof.Machine.execReckonerStart bad cfgOk socBad learnedBad s
  | .mailboxOpen facts => Sys2Proof.Machine.execMailboxOpen facts s
  | .ringRejoinConnect port => Sys2Proof.Machine.execRingRejoinConnect port s
  | .vmainLow vmain heldMs => Sys2Proof.Machine.execVmainLow vmain heldMs s
  | .supplyOverVoltage vanaSide highest heldMs => Sys2Proof.Machine.execSupplyOverVoltage vanaSide highest heldMs s
  | .vanaLost vana heldUs => Sys2Proof.Machine.execVanaLost vana heldUs s
  | .vanaRestored vana heldMs facts => Sys2Proof.Machine.execVanaRestored vana heldMs facts s
  | .vioMismatch vio heldMs => Sys2Proof.Machine.execVioMismatch vio heldMs s
  | .vioReturn vio => Sys2Proof.Machine.execVioReturn vio s
  | .holdupArmed bank => Sys2Proof.Machine.execHoldupArmed bank s
  | .activationExpiry => Sys2Proof.Machine.execActivationExpiry s
  | .newFirmwareStart oldFormat newFormat dflts => Sys2Proof.Machine.execNewFirmwareStart oldFormat newFormat dflts s
  | .bootFail kind => Sys2Proof.Machine.execBootFail kind s
  | .recoveryEntry cause => Sys2Proof.Machine.execRecoveryEntry cause s
  | .recovRelease => Sys2Proof.Machine.execRecovRelease s
  | .nodeHot port place hot => Sys2Proof.Machine.execNodeHot port place hot s
  | .pcieLinkUp width rate => Sys2Proof.Machine.execPcieLinkUp width rate s
  | .comparatorRearm fpi => Sys2Proof.Machine.execComparatorRearm fpi s
  | .ainBroken n value => Sys2Proof.Machine.execAinBroken n value s
  | .canReceiveError ch lec primary => Sys2Proof.Machine.execCanReceiveError ch lec primary s
  | .inMinimumTimeEnd n => Sys2Proof.Machine.execInMinimumTimeEnd n s

end Sys2Proof.Machine
end

