-- ==== Sys2Proof/WellFormed.lean ====
section
/-! DEFINITION. When a command is well formed: its operands lie in the ranges the spec gives them. -/
namespace Sys2Proof

/-- A request header is well formed: every field has the width of R268. -/
def Rq.wf (r : Rq) : Bool := decide (r.tenant < 256 ∧ r.tag < 256 ∧ r.epoch < 256 ∧ r.flags < 256 ∧ r.slot < 2)

/-- A bulk block and selector are well formed: every field has the width of R295 and R324. -/
def Bulk.wf (b : Bulk) : Bool :=
  decide (b.addr < 2 ^ 64 ∧ b.len < 2 ^ 32 ∧ b.cursor < 2 ^ 32 ∧ b.port < 256 ∧ b.string < 65536 ∧ b.arg < 2 ^ 32)

/-- Every value of a list is below a bound. -/
def listBelow (n : Nat) (l : List Nat) : Bool := l.all (fun x => decide (x < n))

/-- The operands of a command lie in their ranges. -/
def wfInstr : Instr → Bool
  | .heartbeat => true
  | .heartbeatTimeout => true
  | .beamTimeExtend => true
  | .trackerCycle mag freq errMax errMin _ => decide (mag < 65536 ∧ freq < 2 ^ 23 ∧ errMin ≤ errMax)
  | .lockSet => true
  | .bzxEdge _ _ => true
  | .bzxCycleTimeout => true
  | .mainsLost => true
  | .exposedAngleZero => true
  | .slewComplete => true
  | .inputOverRange input _ => decide (input < 11)
  | .overRangeReturn input _ => decide (input < 11)
  | .settlingDone => true
  | .syncReset => true
  | .sourceChange src => decide (src < 3)
  | .markEnable unit => decide (unit < 16)
  | .cycWallLoRead => true
  | .registerWrite tenant offset value => decide (tenant < 256 ∧ offset < 4096 ∧ offset % 4 = 0 ∧ (value.all fun v => decide (v < 2 ^ 32)) = true)
  | .sweepMark => true
  | .sweepLaunch => true
  | .sweepRateRestore => true
  | .rippleBurstSample cells _ => decide (cells.all (fun c => decide (c.1 < 2 ^ 28 ∧ c.2 < 65536)) = true)
  | .dispatchTick => true
  | .exchangeMark => true
  | .notificationMark unit => decide (4 ≤ unit ∧ unit ≤ 14)
  | .activationMark => true
  | .rxLock port place _ _ _ => decide (port < 128 ∧ place < 65535)
  | .rxLockLost port place _ _ _ => decide (port < 128 ∧ place < 65535)
  | .faultSet port place _ => decide (port < 128 ∧ place < 65535)
  | .ringRejoin port => decide (port < 128)
  | .enum port count => decide (port < 128 ∧ count < 65535)
  | .clear port place => decide (port < 128 ∧ 1 ≤ place ∧ place < 65535)
  | .ringEcho port place pos _ => decide (port < 128 ∧ 1 ≤ place ∧ place < 65535 ∧ 1 ≤ pos ∧ pos < 65535)
  | .echoReply port pos _ _ => decide (port < 128 ∧ 1 ≤ pos ∧ pos < 65535)
  | .census port count => decide (port < 128 ∧ count < 65535)
  | .collectLaunch port => decide (port < 128)
  | .collect port place _ => decide (port < 128 ∧ 1 ≤ place ∧ place < 65535)
  | .leaseExpired port place => decide (port < 128 ∧ 1 ≤ place ∧ place < 65535)
  | .leaseTimeout port place => decide (port < 128 ∧ 1 ≤ place ∧ place < 65535)
  | .nodeSync port place tag _ => decide (port < 128 ∧ 1 ≤ place ∧ place < 65535 ∧ tag < 256)
  | .nodeSample port place cells temps stack nodeT busI aux _ _ => decide (port < 128 ∧ 1 ≤ place ∧ place < 65535 ∧ cells.length = 32 ∧ temps.length = 8 ∧ listBelow 65536 cells = true ∧ listBelow 65536 temps = true ∧ stack < 65536 ∧ nodeT < 65536 ∧ busI < 65536 ∧ aux < 8)
  | .nodeProjectedSample port place tag cells temps stack nodeT busI aux _ _ => decide (port < 128 ∧ 1 ≤ place ∧ place < 65535 ∧ tag < 256 ∧ cells.length = 32 ∧ temps.length = 8 ∧ listBelow 65536 cells = true ∧ listBelow 65536 temps = true ∧ stack < 65536 ∧ nodeT < 65536 ∧ busI < 65536 ∧ aux < 8)
  | .recordReceived port place rec => decide (port < 128 ∧ 1 ≤ place ∧ place < 65535 ∧ rec.length = 100)
  | .collectFrameClosed port _ _ _ => decide (port < 128)
  | .skewLimit port => decide (port < 128)
  | .keepaliveLaunch => true
  | .keepalive port place _ => decide (port < 128 ∧ 1 ≤ place ∧ place < 65535)
  | .switchWatchdogExpiry port place => decide (port < 128 ∧ 1 ≤ place ∧ place < 65535)
  | .nodeStart port place _ => decide (port < 128 ∧ 1 ≤ place ∧ place < 65535)
  | .commandLaunch port => decide (port < 128)
  | .readNode port place seq _ addr count _ => decide (port < 128 ∧ 1 ≤ place ∧ place < 65535 ∧ seq < 65536 ∧ addr < 65536 ∧ 1 ≤ count ∧ count ≤ 240)
  | .writeNode port place seq _ _ addr data _ _ => decide (port < 128 ∧ 1 ≤ place ∧ place < 65535 ∧ seq < 65536 ∧ addr < 65536 ∧ 1 ≤ data.length ∧ data.length ≤ 240)
  | .balance port place seq _ lease dir duty _ => decide (port < 128 ∧ 1 ≤ place ∧ place < 65535 ∧ seq < 65536 ∧ 1 ≤ lease ∧ lease < 256 ∧ dir < 2 ^ 32 ∧ duty.length = 32 ∧ listBelow 256 duty = true)
  | .switch port place seq _ _ out _ => decide (port < 128 ∧ 1 ≤ place ∧ place < 65535 ∧ seq < 65536 ∧ out < 256)
  | .unwrap port place seq _ _ _ => decide (port < 128 ∧ 1 ≤ place ∧ place < 65535 ∧ seq < 65536)
  | .response port pos seq status data _ => decide (port < 128 ∧ 1 ≤ pos ∧ pos < 65535 ∧ seq < 65536 ∧ status < 256 ∧ data.length ≤ 254)
  | .commandTimeout port pos => decide (port < 128 ∧ 1 ≤ pos ∧ pos < 65535)
  | .busyRetry port pos => decide (port < 128 ∧ 1 ≤ pos ∧ pos < 65535)
  | .fwBlock port place seq _ _ offset data _ => decide (port < 128 ∧ 1 ≤ place ∧ place < 65535 ∧ seq < 65536 ∧ offset < 2 ^ 32 ∧ 1 ≤ data.length ∧ data.length ≤ 240)
  | .fwActivate port place seq _ _ crc _ => decide (port < 128 ∧ 1 ≤ place ∧ place < 65535 ∧ seq < 65536 ∧ crc < 2 ^ 32)
  | .nodeFwRestart port place ver _ => decide (port < 128 ∧ 1 ≤ place ∧ place < 65535 ∧ ver < 2 ^ 32)
  | .trip port place _ => decide (port < 128 ∧ 1 ≤ place ∧ place < 65535)
  | .tripBodyTimeout port place => decide (port < 128 ∧ 1 ≤ place ∧ place < 65535)
  | .invocationEnd rod _ => decide (rod < 128)
  | .windowClose rod => decide (rod < 128)
  | .publication => true
  | .tableWalk rod table _ _ => decide (rod < 128 ∧ table < 64)
  | .dieTempSample temps => decide (temps.length = 8)
  | .beamSlot => true
  | .classStarved cls => decide (3 ≤ cls ∧ cls ≤ 5)
  | .burstAbandoned port sid => decide (port < 128 ∧ sid < 65536)
  | .rodTestDone rod _ => decide (rod < 128)
  | .rodReload rod _ _ => decide (rod < 128)
  | .kernelRevert => true
  | .nop rod _ => decide (rod < 128)
  | .vadd rod _ d a b => decide (rod < 128 ∧ d < 16 ∧ a < 16 ∧ b < 16)
  | .vsub rod _ d a b => decide (rod < 128 ∧ d < 16 ∧ a < 16 ∧ b < 16)
  | .vneg rod _ d a => decide (rod < 128 ∧ d < 16 ∧ a < 16)
  | .vabs rod _ d a => decide (rod < 128 ∧ d < 16 ∧ a < 16)
  | .vmax rod _ d a b => decide (rod < 128 ∧ d < 16 ∧ a < 16 ∧ b < 16)
  | .vmin rod _ d a b => decide (rod < 128 ∧ d < 16 ∧ a < 16 ∧ b < 16)
  | .vmov rod _ d a => decide (rod < 128 ∧ d < 16 ∧ a < 16)
  | .vmul rod _ d a b => decide (rod < 128 ∧ d < 16 ∧ a < 16 ∧ b < 16)
  | .vshr rod _ d a n => decide (rod < 128 ∧ d < 16 ∧ a < 16 ∧ n < 16)
  | .vshl rod _ d a n => decide (rod < 128 ∧ d < 16 ∧ a < 16 ∧ n < 16)
  | .vsel rod _ d a b => decide (rod < 128 ∧ d < 16 ∧ a < 16 ∧ b < 16)
  | .vcgt rod _ a b => decide (rod < 128 ∧ a < 16 ∧ b < 16)
  | .vceq rod _ a b => decide (rod < 128 ∧ a < 16 ∧ b < 16)
  | .qdiv rod _ d a b => decide (rod < 128 ∧ d < 16 ∧ a < 16 ∧ b < 16)
  | .vbcl rod _ d a b => decide (rod < 128 ∧ d < 16 ∧ a < 16 ∧ b < 16 ∧ 8 ≤ b)
  | .amac rod _ k a b => decide (rod < 128 ∧ k < 4 ∧ a < 16 ∧ b < 16)
  | .amsu rod _ k a b => decide (rod < 128 ∧ k < 4 ∧ a < 16 ∧ b < 16)
  | .aldv rod _ k a n => decide (rod < 128 ∧ k < 4 ∧ a < 16 ∧ n < 16)
  | .aadv rod _ k a n => decide (rod < 128 ∧ k < 4 ∧ a < 16 ∧ n < 16)
  | .aext rod _ d k n => decide (rod < 128 ∧ d < 16 ∧ k < 4 ∧ n < 16)
  | .aclr rod _ k => decide (rod < 128 ∧ k < 4)
  | .arsum rod _ d k => decide (rod < 128 ∧ d < 16 ∧ k < 4 ∧ d < 8)
  | .vrsum rod _ d a => decide (rod < 128 ∧ d < 16 ∧ a < 16 ∧ d < 8)
  | .vbc rod _ d a n => decide (rod < 128 ∧ d < 16 ∧ a < 16 ∧ n < 16 ∧ a < 8)
  | .sadd rod _ d a b => decide (rod < 128 ∧ d < 16 ∧ a < 16 ∧ b < 16 ∧ (d < 8 ↔ a < 8) ∧ (a < 8 ↔ b < 8))
  | .ssub rod _ d a b => decide (rod < 128 ∧ d < 16 ∧ a < 16 ∧ b < 16 ∧ (d < 8 ↔ a < 8) ∧ (a < 8 ↔ b < 8))
  | .smul rod _ d a b => decide (rod < 128 ∧ d < 16 ∧ a < 16 ∧ b < 16 ∧ 8 ≤ d ∧ 8 ≤ a ∧ 8 ≤ b)
  | .sli rod _ d imm => decide (rod < 128 ∧ d < 16 ∧ -2097152 ≤ imm ∧ imm ≤ 2097151)
  | .vli rod _ d imm => decide (rod < 128 ∧ d < 16 ∧ imm < 65536 ∧ imm ≠ 0x8000)
  | .scmp rod _ a b => decide (rod < 128 ∧ a < 16 ∧ b < 16 ∧ (a < 8 ↔ b < 8))
  | .vld rod _ d x off => decide (rod < 128 ∧ d < 16 ∧ x < 16 ∧ off < 2 ^ 18 ∧ off % 32 = 0 ∧ 8 ≤ x)
  | .vst rod _ d x off => decide (rod < 128 ∧ d < 16 ∧ x < 16 ∧ off < 2 ^ 18 ∧ off % 32 = 0 ∧ 8 ≤ x)
  | .tlu rod _ d a tab => decide (rod < 128 ∧ d < 16 ∧ a < 16 ∧ tab < 64)
  | .tlu2 rod _ d a b tab => decide (rod < 128 ∧ d < 16 ∧ a < 16 ∧ b < 16 ∧ tab < 64)
  | .lmset rod _ imm => decide (rod < 128 ∧ imm < 65536)
  | .lmget rod _ d => decide (rod < 128 ∧ d < 16 ∧ 8 ≤ d)
  | .lmld rod _ a => decide (rod < 128 ∧ a < 16 ∧ 8 ≤ a)
  | .lmand rod _ a => decide (rod < 128 ∧ a < 16 ∧ 8 ≤ a)
  | .br rod _ cc off => decide (rod < 128 ∧ cc ≤ 9 ∧ -32768 ≤ off ∧ off ≤ 32767)
  | .loop rod _ x off => decide (rod < 128 ∧ x < 16 ∧ -32768 ≤ off ∧ off ≤ 32767 ∧ 8 ≤ x)
  | .call rod _ off => decide (rod < 128 ∧ -32768 ≤ off ∧ off ≤ 32767)
  | .ret rod _ => decide (rod < 128)
  | .endPass rod _ => decide (rod < 128)
  | .kfence rod _ => decide (rod < 128)
  | .cst rod _ d x off => decide (rod < 128 ∧ d < 16 ∧ x < 16 ∧ off < 2 ^ 18 ∧ off % 4 = 0 ∧ 8 ≤ d ∧ 8 ≤ x)
  | .observerRun port sid => decide (port < 128 ∧ sid < 65536)
  | .observerBlend group => decide (group < 64)
  | .observerUnavailable port sid => decide (port < 128 ∧ sid < 65536)
  | .rippleBurstStart port sid => decide (port < 128 ∧ sid < 65536)
  | .restPoint port sid => decide (port < 128 ∧ sid < 65536)
  | .estimatorHealth point => decide (point < 2 ^ 28)
  | .socCheckpoint => true
  | .learnedCheckpoint => true
  | .sensorRestored port pos input => decide (port < 128 ∧ 1 ≤ pos ∧ pos < 65535 ∧ input < 8)
  | .balancingReplan => true
  | .balancingQuiet port sid => decide (port < 128 ∧ sid < 65536)
  | .balancingMismatch port pos => decide (port < 128 ∧ 1 ≤ pos ∧ pos < 65535)
  | .balancingExclusionEnd port pos => decide (port < 128 ∧ 1 ≤ pos ∧ pos < 65535)
  | .tinConversion input _ _ => decide (input < 16)
  | .tinFault input => decide (input < 16)
  | .tinRecovered input => decide (input < 16)
  | .compensationUpdate _ _ => true
  | .stopDeenergised _ => true
  | .stopEnergised _ => true
  | .stopLaneTenant0 => true
  | .stopLaneTenant tenant => decide (1 ≤ tenant ∧ tenant < 256)
  | .stopRecompute => true
  | .stopDatagram port bytes => decide (port < 2 ∧ 16 ≤ bytes.length)
  | .comparatorCrossing fpi _ _ => decide (fpi < 16)
  | .guardCycle convs _ _ xor => decide (convs.length = 16 ∧ convs.all (fun c => decide (-32768 ≤ c ∧ c < 32768)) = true ∧ xor < 2 ^ 32)
  | .guardWatchdog => true
  | .limitLevelCrossed port sid level => decide (port < 128 ∧ sid < 65536 ∧ level < 10)
  | .nodeLoss port pos => decide (port < 128 ∧ 1 ≤ pos ∧ pos < 65535)
  | .stepTimeout port => decide (port.all (fun p => decide (p < 128)) = true)
  | .prechargeHalfCheck => true
  | .contactorOpenDeadline => true
  | .weldCheck port sid => decide ((port < 128 ∨ port = 255) ∧ sid < 65536)
  | .pcsMessageRepeat => true
  | .curtailmentStarted => true
  | .curtailmentEnded => true
  | .externalSetpointFault => true
  | .failsafeHoldExpiry => true
  | .rqTail tenant value => decide (tenant < 256 ∧ value < 65536)
  | .requestFetch tenant slot _ => decide (tenant < 256 ∧ slot.length = 256)
  | .responsePost tenant _ _ => decide (tenant < 256)
  | .rsTail tenant value => decide (tenant < 256 ∧ value < 65536)
  | .epoch tenant value => decide (tenant < 256 ∧ value < 256)
  | .rqEn tenant => decide (tenant < 256)
  | .rsEn tenant => decide (tenant < 256)
  | .irqTimeout tenant => decide (tenant < 256)
  | .pcieReset _ => true
  | .d3hotEntry => true
  | .d0Resume => true
  | .wakeCause cause => decide (cause < 7)
  | .mailboxDatagram port _ _ => decide (port < 2)
  | .cursorExpiry _ => true
  | .ptpMessage port domain _ => decide (port < 2 ∧ domain < 128)
  | .announceTimeout _ => true
  | .ethernetLink port _ => decide (port < 2)
  | .identity rq => decide (rq.wf = true)
  | .status rq => decide (rq.wf = true)
  | .setMode rq target => decide (rq.wf = true ∧ target < 256)
  | .connect rq => decide (rq.wf = true)
  | .disconnect rq => decide (rq.wf = true)
  | .shutdown rq => decide (rq.wf = true)
  | .setParam rq param port string value => decide (rq.wf = true ∧ param < 65536 ∧ port < 256 ∧ string < 65536 ∧ -(2 ^ 63) ≤ value ∧ value < 2 ^ 63)
  | .getParam rq param port string => decide (rq.wf = true ∧ param < 65536 ∧ port < 256 ∧ string < 65536)
  | .whoami rq => decide (rq.wf = true)
  | .setAlloc rq tenant _ dis chg e init => decide (rq.wf = true ∧ tenant < 256 ∧ dis < 2 ^ 32 ∧ chg < 2 ^ 32 ∧ e < 2 ^ 64 ∧ init < 2 ^ 64)
  | .getAlloc rq tenant => decide (rq.wf = true ∧ tenant < 256)
  | .installKey rq tenant slot key => decide (rq.wf = true ∧ tenant < 256 ∧ slot < 256 ∧ key < 2 ^ 256)
  | .readCell rq point => decide (rq.wf = true ∧ point < 2 ^ 32)
  | .readTemp rq point => decide (rq.wf = true ∧ point < 2 ^ 32)
  | .readString rq port string => decide (rq.wf = true ∧ port < 256 ∧ string < 65536)
  | .readStringThermal rq port string => decide (rq.wf = true ∧ port < 256 ∧ string < 65536)
  | .readBankThermal rq => decide (rq.wf = true)
  | .readLearned rq point => decide (rq.wf = true ∧ point < 2 ^ 32)
  | .readImpedance rq point => decide (rq.wf = true ∧ point < 2 ^ 32)
  | .cellSetParam rq param port string value => decide (rq.wf = true ∧ param < 65536 ∧ port < 256 ∧ string < 65536 ∧ -(2 ^ 63) ≤ value ∧ value < 2 ^ 63)
  | .cellGetParam rq param port string => decide (rq.wf = true ∧ param < 65536 ∧ port < 256 ∧ string < 65536)
  | .bulkCells rq b _ => decide (rq.wf = true ∧ b.wf = true)
  | .bulkStrings rq b _ => decide (rq.wf = true ∧ b.wf = true)
  | .bulkStringThermal rq b _ => decide (rq.wf = true ∧ b.wf = true)
  | .bulkLearned rq b _ => decide (rq.wf = true ∧ b.wf = true)
  | .bulkImpedance rq b _ => decide (rq.wf = true ∧ b.wf = true)
  | .setTempMap rq port pos map => decide (rq.wf = true ∧ port < 256 ∧ pos < 65536 ∧ map.length = 32 ∧ listBelow 16 map = true)
  | .getTempMap rq port pos => decide (rq.wf = true ∧ port < 256 ∧ pos < 65536)
  | .writeThermal rq port string levels => decide (rq.wf = true ∧ port < 256 ∧ string < 65536 ∧ levels.length = 7 ∧ levels.all (fun v => decide (-32768 ≤ v ∧ v < 65536)) = true)
  | .readThermal rq port string buf => decide (rq.wf = true ∧ port < 256 ∧ string < 65536 ∧ buf < 256)
  | .tinRead rq off count => decide (rq.wf = true ∧ off < 2 ^ 32 ∧ count < 65536)
  | .tinWrite rq off data => decide (rq.wf = true ∧ off < 2 ^ 32 ∧ data.length ≤ 58 ∧ listBelow 4294967296 data = true)
  | .setGroup rq group source ch unit strings => decide (rq.wf = true ∧ group < 256 ∧ source < 256 ∧ ch < 256 ∧ unit < 256 ∧ strings.length ≤ 58 ∧ strings.all (fun x => decide (x.1 < 256 ∧ x.2 < 65536)) = true)
  | .getGroup rq group => decide (rq.wf = true ∧ group < 256)
  | .resetLearned rq scope port id input => decide (rq.wf = true ∧ scope < 256 ∧ port < 256 ∧ id < 65536 ∧ input < 256)
  | .clearShort rq port string => decide (rq.wf = true ∧ port < 256 ∧ string < 65536)
  | .kernelInfo rq => decide (rq.wf = true)
  | .loadImage rq b _ _ => decide (rq.wf = true ∧ b.wf = true)
  | .exchange rq mask => decide (rq.wf = true ∧ mask < 256)
  | .discard rq mask => decide (rq.wf = true ∧ mask < 256)
  | .readImage rq b _ => decide (rq.wf = true ∧ b.wf = true)
  | .submit rq entries => decide (rq.wf = true ∧ 1 ≤ entries.length ∧ entries.length ≤ 15 ∧ entries.all (fun e => decide (e.1 < 2 ^ 32 ∧ -(2 ^ 31) ≤ e.2.1 ∧ e.2.1 < 2 ^ 31 ∧ e.2.2.1 < 2 ^ 32)) = true)
  | .readSchedule rq tenant fromSlot => decide (rq.wf = true ∧ tenant < 256 ∧ fromSlot < 2 ^ 32)
  | .tenantRecord rq tenant => decide (rq.wf = true ∧ tenant < 256)
  | .bankRecord rq => decide (rq.wf = true)
  | .resume rq tenant => decide (rq.wf = true ∧ tenant < 256)
  | .ledgerAdjust rq tenant e => decide (rq.wf = true ∧ tenant < 256 ∧ e < 2 ^ 64)
  | .setBinding rq src ch mode failsafe x0 db gain pmax => decide (rq.wf = true ∧ src < 256 ∧ ch < 256 ∧ mode < 256 ∧ failsafe < 256 ∧ -(2 ^ 31) ≤ x0 ∧ x0 < 2 ^ 31 ∧ db < 2 ^ 32 ∧ -(2 ^ 31) ≤ gain ∧ gain < 2 ^ 31 ∧ pmax < 2 ^ 32)
  | .getBinding rq => decide (rq.wf = true)
  | .dispatchSetParam rq param port string value => decide (rq.wf = true ∧ param < 65536 ∧ port < 256 ∧ string < 65536 ∧ -(2 ^ 63) ≤ value ∧ value < 2 ^ 63)
  | .dispatchGetParam rq param port string => decide (rq.wf = true ∧ param < 65536 ∧ port < 256 ∧ string < 65536)
  | .protRead rq off count => decide (rq.wf = true ∧ off < 2 ^ 32 ∧ count < 65536)
  | .protWrite rq off data => decide (rq.wf = true ∧ off < 2 ^ 32 ∧ data.length ≤ 58 ∧ listBelow 4294967296 data = true)
  | .stringProt rq port string => decide (rq.wf = true ∧ port < 256 ∧ string < 65536)
  | .clearTrip rq tripId => decide (rq.wf = true ∧ tripId < 65536)
  | .clearString rq port string => decide (rq.wf = true ∧ port < 256 ∧ string < 65536)
  | .weldAck rq tripId => decide (rq.wf = true ∧ tripId < 65536)
  | .mapAlarm rq ch source kind port string => decide (rq.wf = true ∧ ch < 256 ∧ source < 256 ∧ kind < 256 ∧ port < 256 ∧ string < 65536)
  | .protSetParam rq param port string value => decide (rq.wf = true ∧ param < 65536 ∧ port < 256 ∧ string < 65536 ∧ -(2 ^ 63) ≤ value ∧ value < 2 ^ 63)
  | .protGetParam rq param port string => decide (rq.wf = true ∧ param < 65536 ∧ port < 256 ∧ string < 65536)
  | .writeLimits rq port string fields => decide (rq.wf = true ∧ port < 256 ∧ string < 65536 ∧ fields.length = 20 ∧ listBelow 65536 fields = true)
  | .readLimits rq port string buf => decide (rq.wf = true ∧ port < 256 ∧ string < 65536 ∧ buf < 256)
  | .writeSeq rq sect first roles words => decide (rq.wf = true ∧ sect < 256 ∧ first < 256 ∧ roles.length = 4 ∧ listBelow 256 roles = true ∧ words.length ≤ 14 ∧ words.all (fun w => decide (w.length = 7)) = true)
  | .readSeq rq sect first count buf => decide (rq.wf = true ∧ sect < 256 ∧ first < 256 ∧ count < 256 ∧ buf < 256)
  | .beamRead rq off count => decide (rq.wf = true ∧ off < 2 ^ 32 ∧ count < 65536)
  | .beamWrite rq off data => decide (rq.wf = true ∧ off < 2 ^ 32 ∧ data.length ≤ 58 ∧ listBelow 4294967296 data = true)
  | .setSweep rq step => decide (rq.wf = true ∧ step < 2 ^ 32)
  | .beamTime rq => decide (rq.wf = true)
  | .ringStatus rq port => decide (rq.wf = true ∧ port < 256)
  | .setRingState rq port state count _ => decide (rq.wf = true ∧ port < 256 ∧ state < 256 ∧ count ≤ 65534)
  | .enumerate rq port count => decide (rq.wf = true ∧ port < 256 ∧ count ≤ 65534)
  | .calibrate rq port f r => decide (rq.wf = true ∧ port < 256 ∧ f < 2 ^ 32 ∧ r < 2 ^ 32)
  | .nodeRead rq port pos addr count => decide (rq.wf = true ∧ port < 256 ∧ pos < 65536 ∧ addr < 65536 ∧ count < 65536)
  | .nodeWrite rq port pos addr data => decide (rq.wf = true ∧ port < 256 ∧ pos < 65536 ∧ addr < 65536 ∧ data.length ≤ 232)
  | .storeConfig rq port _ => decide (rq.wf = true ∧ port < 256)
  | .readConfig rq b _ => decide (rq.wf = true ∧ b.wf = true)
  | .loopRead rq off count => decide (rq.wf = true ∧ off < 2 ^ 32 ∧ count < 2 ^ 16)
  | .loopWrite rq off data => decide (rq.wf = true ∧ off < 2 ^ 32 ∧ data.length ≤ 58 ∧ listBelow 4294967296 data = true)
  | .axisTarget rq ax target => decide (rq.wf = true ∧ ax < 256 ∧ -(2 ^ 31) ≤ target ∧ target < 2 ^ 31)
  | .capture rq b _ => decide (rq.wf = true ∧ b.wf = true)
  | .loadRead rq off count meas _ _ => decide (rq.wf = true ∧ off < 2 ^ 32 ∧ count < 2 ^ 16 ∧ meas.length = 24)
  | .loadWrite rq off data => decide (rq.wf = true ∧ off < 2 ^ 32 ∧ data.length ≤ 58 ∧ listBelow 4294967296 data = true)
  | .setOutputs rq mask value => decide (rq.wf = true ∧ mask < 2 ^ 32 ∧ value < 2 ^ 32)
  | .chStatus rq meas _ _ => decide (rq.wf = true ∧ meas.length = 24)
  | .restart rq mask => decide (rq.wf = true ∧ mask < 2 ^ 32)
  | .restartRecommand n => decide (n < 24)
  | .canRead rq off count => decide (rq.wf = true ∧ off < 2 ^ 32 ∧ count < 65536)
  | .canWrite rq off data => decide (rq.wf = true ∧ off < 2 ^ 32 ∧ data.length ≤ 58 ∧ listBelow 4294967296 data = true)
  | .canSend rq ch cflags id data => decide (rq.wf = true ∧ ch < 256 ∧ cflags < 8 ∧ id < 2 ^ 32 ∧ data.length ≤ 232)
  | .canStatus rq => decide (rq.wf = true)
  | .logState rq => decide (rq.wf = true)
  | .readLog rq b _ _ => decide (rq.wf = true ∧ b.wf = true)
  | .readRecent rq from_ count _ => decide (rq.wf = true ∧ from_ < 2 ^ 32 ∧ count < 65536)
  | .setSeverity rq wake notify => decide (rq.wf = true ∧ wake < 256 ∧ notify < 256)
  | .readCounters rq port string => decide (rq.wf = true ∧ port < 256 ∧ string < 65536)
  | .updateState rq => decide (rq.wf = true)
  | .begin rq target id length => decide (rq.wf = true ∧ target < 256 ∧ id < 2 ^ 32 ∧ length < 2 ^ 32)
  | .writeBlock rq b _ _ => decide (rq.wf = true ∧ b.wf = true)
  | .verify rq => decide (rq.wf = true)
  | .schedule rq actWall => decide (rq.wf = true ∧ actWall < 2 ^ 64)
  | .cancel rq => decide (rq.wf = true)
  | .commit rq => decide (rq.wf = true)
  | .rollback rq actWall => decide (rq.wf = true ∧ actWall < 2 ^ 64)
  | .nodeUpdate rq port => decide (rq.wf = true ∧ port < 256)
  | .nodeReturnTimeout => true
  | .rodStatus rq first count => decide (rq.wf = true ∧ first < 256 ∧ count < 256)
  | .schedStatus rq => decide (rq.wf = true)
  | .rodRelease rq rod => decide (rq.wf = true ∧ rod < 256)
  | .linkStatus rq => decide (rq.wf = true)
  | .echo rq payload => decide (rq.wf = true ∧ payload.length ≤ 240)
  | .loopTick ains => decide (ains.length = 8 ∧ ains.all (fun v => decide (-(2 ^ 31) ≤ v ∧ v < 2 ^ 31)) = true)
  | .loopEnable n => decide (n < 32)
  | .loopRestart n => decide (n < 32)
  | .supervisionFault n => decide (n < 32)
  | .captureArm n => decide (n < 32)
  | .captureComplete n => decide (n < 32)
  | .loopConfigSave => true
  | .axisEdge ax _ _ sin cos => decide (ax < 16 ∧ -32768 ≤ sin ∧ sin ≤ 32767 ∧ -32768 ≤ cos ∧ cos ≤ 32767)
  | .axisIndex ax => decide (ax < 16)
  | .axisWireFault ax pair _ => decide (ax < 16 ∧ pair < 3)
  | .axisAmplitudeFault ax _ => decide (ax < 16)
  | .axisStill ax => decide (ax < 16)
  | .faultev ax => decide (ax < 16)
  | .outputOpen n _ => decide (n < 8)
  | .inEdge n _ => decide (n < 24)
  | .inrushWindowEnd n => decide (n < 22)
  | .slewRampComplete n _ _ => decide (22 ≤ n ∧ n < 24)
  | .slewRampTimeout n _ => decide (22 ≤ n ∧ n < 24)
  | .overcurrentLatch n _ _ => decide (n < 24)
  | .thermalSwitchOff n dt => decide (n < 24 ∧ -32768 ≤ dt ∧ dt ≤ 32767)
  | .thermalRestart n dt => decide (n < 24 ∧ -32768 ≤ dt ∧ dt ≤ 32767)
  | .openLoadJudgement n samples => decide (n < 24 ∧ samples.length = 100)
  | .staggeredTurnOn => true
  | .vloadUnderVoltage vload _ => decide (-32768 ≤ vload ∧ vload ≤ 32767)
  | .vloadRestored vload _ => decide (-32768 ≤ vload ∧ vload ≤ 32767)
  | .loadDump vload => decide (-32768 ≤ vload ∧ vload ≤ 32767)
  | .reverseSupply vload _ => decide (-32768 ≤ vload ∧ vload ≤ 32767)
  | .loadGroundLost _ _ => true
  | .loadGroundRestored _ _ => true
  | .totalOverload _ => true
  | .loadShed _ => true
  | .loadConfigSave => true
  | .canFrameReceived ch xtd _ _ _ id data => decide (ch < 8 ∧ id < 2 ^ 29 ∧ (xtd = false → id < 2048) ∧ data.length ≤ 64)
  | .pcsStatusFrame unit iDc vDc state count => decide (unit < 16 ∧ -(2 ^ 31) ≤ iDc ∧ iDc < 2 ^ 31 ∧ vDc < 65536 ∧ state < 256 ∧ count < 256)
  | .pcsUnitStale unit => decide (unit < 16)
  | .alarmFrame ch source state count => decide (ch < 8 ∧ source < 64 ∧ state < 256 ∧ count < 256)
  | .alarmSourceLost ch source => decide (ch < 8 ∧ source < 64)
  | .canTxComplete ch _ result => decide (ch < 8 ∧ result < 7)
  | .busOffRecovery ch _ => decide (ch < 8)
  | .aloneProbe ch result => decide (ch < 8 ∧ result < 7)
  | .aloneLeft ch _ => decide (ch < 8)
  | .driveFramePeriod => true
  | .pop ch => decide (ch < 8)
  | .canTimingWrite ch => decide (ch < 8)
  | .canDisable ch => decide (ch < 8)
  | .eventTailWrite => true
  | .logPageProgram => true
  | .flashBlockRetired region block => decide (region < 65536 ∧ block < 65536)
  | .operatingTimeCount => true
  | .holdup _ _ => true
  | .flushComplete _ => true
  | .powerUp _ _ _ _ => true
  | .romHandover _ => true
  | .reckonerStart _ _ _ _ => true
  | .mailboxOpen facts => decide (facts.all (fun f => decide (f.1 < 128)) = true)
  | .ringRejoinConnect port => decide (port < 128)
  | .vmainLow _ _ => true
  | .supplyOverVoltage _ _ _ => true
  | .vanaLost _ _ => true
  | .vanaRestored _ _ facts => decide (facts.all (fun f => decide (f.1 < 128)) = true)
  | .vioMismatch _ _ => true
  | .vioReturn _ => true
  | .holdupArmed _ => true
  | .activationExpiry => true
  | .newFirmwareStart oldFormat newFormat _ => decide (oldFormat < 65536 ∧ newFormat < 65536)
  | .bootFail kind => decide (kind = 1 ∨ kind = 2)
  | .recoveryEntry cause => decide (1 ≤ cause ∧ cause ≤ 3)
  | .recovRelease => true
  | .nodeHot port place _ => decide (port < 128 ∧ 1 ≤ place ∧ place < 65535)
  | .pcieLinkUp width rate => decide (width < 3 ∧ 1 ≤ rate ∧ rate ≤ 4)
  | .comparatorRearm fpi => decide (fpi < 16)
  | .ainBroken n _ => decide (n < 8)
  | .canReceiveError ch lec _ => decide (ch < 8 ∧ 1 ≤ lec ∧ lec < 7)
  | .inMinimumTimeEnd n => decide (n < 24)

end Sys2Proof
end

