-- ==== Sys2Proof/Safety.lean ====
section
/-! DEFINITION. What counts as a safe run, in the terms the statements use. -/
namespace Sys2Proof.Machine
open Sys2Proof

/-- The keyed tables of the part of the state that the guard, the estimator, dispatch and the link hold are canonical:
keys strictly rising, and no entry equal to what an unlisted key reads as. -/
def State.coreTablesOk (s : State) : Bool :=
  tok Ring.reset s.rings && tok Node.reset s.nodes && tok Cell.reset s.est.cells && tok Str.reset s.est.strs &&
  tok BalNode.reset s.est.bal && tok TempIn.reset s.est.temps && tok Tin.reset s.est.tins && tok Fpi.reset s.guard.fpi &&
  tok Tenant.reset s.disp.tenants && tok cnt0 s.recs.counters

/-- The keyed tables of the machines around them are canonical: marks, rods, pages, loops, axes, channels, controllers,
units and alarm sources. -/
def State.unitTablesOk (s : State) : Bool :=
  tok Mark.reset s.beam.marks && tok Rod.reset s.sched.rods && tok Page.reset s.sys.pages && tok Loop.reset s.loops.loops &&
  tok Axis.reset s.loops.axes && tok Chan.reset s.load.chans && tok Ctrl.reset s.can.ctrls && tok Unit_.reset s.can.units &&
  tok Alarm.reset s.can.alarms

/-- Equal contents are equal data: the keyed tables of the block's units, those named above, are in their canonical form. -/
def State.tablesOk (s : State) : Bool := s.coreTablesOk && s.unitTablesOk

/-- Every command that waits is well formed. -/
def State.queueOk (s : State) : Bool := s.pending.all wfInstr

/-- The invariant of the block: canonical tables and a well-formed queue. -/
def State.Inv (s : State) : Prop := s.tablesOk = true ∧ s.queueOk = true

/-- A step went on: it answered a next state, neither a fault nor a refusal. -/
def goesOn (o : Host.Outcome State Fault Refusal) : Prop := ∃ t, o = .next t

/-- A request of a tenant meets everything that comes before its own rules (R308, R312, R318, R319, R447): the module runs and
has not been shut down, its mode is one of the Modes column, a tenant other than 0 has an enabled allocation where the
opcode asks for one, and with ORDERED set every earlier request of the tenant has completed. -/
def served (s : State) (rq : Rq) (op : Nat) (modes : List Mode) : Bool :=
  !s.sys.shut && decide (s.sys.run = .running) && modes.contains s.sys.mode && s.mayStart rq &&
    (decide (rq.tenant = 0) || decide (op / 256 < 3) || ((s.tenant rq.tenant).exists_ && (s.tenant rq.tenant).enabled))

/-- The response that a request's page gains: STATUS, DETAIL and PARAM of an answer without payload (R270). -/
def answer (rq : Rq) (op : Nat) (r : Refuse) (nv : Bool) : Resp := ⟨op, rq, r.status, r.detail, r.param, [], [], false, false, nv⟩

/-- STATUS OK (R272). -/
def okStatus : Refuse := ⟨0, 0, 0⟩

/-- A row of the command catalogue: the request, its opcode, the Tenants entry and the Modes entry (R318, R333 to R345). -/
structure Column where
  /-- the request. -/
  rq : Rq
  /-- opcode. -/
  op : Nat
  /-- Tenants. -/
  who : Who
  /-- Modes. -/
  modes : List Mode
deriving DecidableEq, Repr

/-- The row of the command catalogue that a command stands for; none for a command that is no request (chapter 11). -/
def column? : Instr → Option Column
  | .identity rq => some ⟨rq, 0x0100, .any, allModes⟩
  | .status rq => some ⟨rq, 0x0101, .any, allModes⟩
  | .setMode rq _ => some ⟨rq, 0x0102, .zero, [.commission, .standby]⟩
  | .connect rq => some ⟨rq, 0x0103, .zero, [.standby]⟩
  | .disconnect rq => some ⟨rq, 0x0104, .zero, [.connect, .online, .service]⟩
  | .shutdown rq => some ⟨rq, 0x0105, .zero, [.commission, .standby, .tripped]⟩
  | .setParam rq _ _ _ _ => some ⟨rq, 0x0110, .zero, csovt⟩
  | .getParam rq _ _ _ => some ⟨rq, 0x0111, .zero, allModes⟩
  | .whoami rq => some ⟨rq, 0x0200, .any, allModes⟩
  | .setAlloc rq _ _ _ _ _ _ => some ⟨rq, 0x0201, .zero, csovt⟩
  | .getAlloc rq tenant => some ⟨rq, 0x0202, .own tenant, allModes⟩
  | .installKey rq tenant _ _ => some ⟨rq, 0x0203, .own tenant, allModes⟩
  | .readCell rq _ => some ⟨rq, 0x0300, .zero, allModes⟩
  | .readTemp rq _ => some ⟨rq, 0x0301, .zero, allModes⟩
  | .readString rq _ _ => some ⟨rq, 0x0302, .zero, allModes⟩
  | .readStringThermal rq _ _ => some ⟨rq, 0x0303, .zero, allModes⟩
  | .readBankThermal rq => some ⟨rq, 0x0304, .zero, allModes⟩
  | .readLearned rq _ => some ⟨rq, 0x0305, .zero, allModes⟩
  | .readImpedance rq _ => some ⟨rq, 0x0306, .zero, allModes⟩
  | .cellSetParam rq _ _ _ _ => some ⟨rq, 0x0310, .zero, csovt⟩
  | .cellGetParam rq _ _ _ => some ⟨rq, 0x0311, .zero, allModes⟩
  | .bulkCells rq _ _ => some ⟨rq, 0x0320, .zero, allModes⟩
  | .bulkStrings rq _ _ => some ⟨rq, 0x0321, .zero, allModes⟩
  | .bulkStringThermal rq _ _ => some ⟨rq, 0x0322, .zero, allModes⟩
  | .bulkLearned rq _ _ => some ⟨rq, 0x0323, .zero, allModes⟩
  | .bulkImpedance rq _ _ => some ⟨rq, 0x0324, .zero, allModes⟩
  | .setTempMap rq _ _ _ => some ⟨rq, 0x0330, .zero, csovt⟩
  | .getTempMap rq _ _ => some ⟨rq, 0x0331, .zero, allModes⟩
  | .writeThermal rq _ _ _ => some ⟨rq, 0x0332, .zero, csovt⟩
  | .readThermal rq _ _ _ => some ⟨rq, 0x0333, .zero, allModes⟩
  | .tinRead rq _ _ => some ⟨rq, 0x0334, .zero, allModes⟩
  | .tinWrite rq _ _ => some ⟨rq, 0x0335, .zero, csovt⟩
  | .setGroup rq _ _ _ _ _ => some ⟨rq, 0x0340, .zero, [.commission, .standby, .tripped]⟩
  | .getGroup rq _ => some ⟨rq, 0x0341, .zero, allModes⟩
  | .resetLearned rq _ _ _ _ => some ⟨rq, 0x0350, .zero, [.commission, .standby, .service, .tripped]⟩
  | .clearShort rq _ _ => some ⟨rq, 0x0351, .zero, csovt⟩
  | .kernelInfo rq => some ⟨rq, 0x0400, .zero, allModes⟩
  | .loadImage rq _ _ _ => some ⟨rq, 0x0401, .zero, csovt⟩
  | .exchange rq _ => some ⟨rq, 0x0402, .zero, csovt⟩
  | .discard rq _ => some ⟨rq, 0x0403, .zero, allModes⟩
  | .readImage rq _ _ => some ⟨rq, 0x0404, .zero, allModes⟩
  | .submit rq _ => some ⟨rq, 0x0500, .self rq.tenant, allModes⟩
  | .readSchedule rq tenant _ => some ⟨rq, 0x0501, .own tenant, allModes⟩
  | .tenantRecord rq tenant => some ⟨rq, 0x0502, .own tenant, allModes⟩
  | .bankRecord rq => some ⟨rq, 0x0503, .any, allModes⟩
  | .resume rq tenant => some ⟨rq, 0x0504, .own tenant, allModes⟩
  | .ledgerAdjust rq _ _ => some ⟨rq, 0x0505, .zero, allModes⟩
  | .setBinding rq _ _ _ _ _ _ _ _ => some ⟨rq, 0x0506, .zero, csovt⟩
  | .getBinding rq => some ⟨rq, 0x0507, .zero, allModes⟩
  | .dispatchSetParam rq _ _ _ _ => some ⟨rq, 0x0510, .zero, csovt⟩
  | .dispatchGetParam rq _ _ _ => some ⟨rq, 0x0511, .zero, allModes⟩
  | .protRead rq _ _ => some ⟨rq, 0x0600, .zero, allModes⟩
  | .protWrite rq _ _ => some ⟨rq, 0x0601, .zero, [.commission, .standby, .tripped]⟩
  | .stringProt rq _ _ => some ⟨rq, 0x0602, .zero, allModes⟩
  | .clearTrip rq _ => some ⟨rq, 0x0603, .zero, [.tripped]⟩
  | .clearString rq _ _ => some ⟨rq, 0x0604, .zero, [.standby, .online, .service, .tripped]⟩
  | .weldAck rq _ => some ⟨rq, 0x0605, .zero, [.standby, .tripped]⟩
  | .mapAlarm rq _ _ _ _ _ => some ⟨rq, 0x0606, .zero, [.commission, .standby, .tripped]⟩
  | .protSetParam rq _ _ _ _ => some ⟨rq, 0x0610, .zero, csovt⟩
  | .protGetParam rq _ _ _ => some ⟨rq, 0x0611, .zero, allModes⟩
  | .writeLimits rq _ _ _ => some ⟨rq, 0x0620, .zero, csovt⟩
  | .readLimits rq _ _ _ => some ⟨rq, 0x0621, .zero, allModes⟩
  | .writeSeq rq _ _ _ _ => some ⟨rq, 0x0622, .zero, [.commission, .standby, .tripped]⟩
  | .readSeq rq _ _ _ _ => some ⟨rq, 0x0623, .zero, allModes⟩
  | .beamRead rq _ _ => some ⟨rq, 0x0700, .zero, allModes⟩
  | .beamWrite rq off data => some ⟨rq, 0x0701, .zero, if (wordOffsets off data.length).all beamFree then allModes else [.commission, .standby, .tripped]⟩
  | .setSweep rq _ => some ⟨rq, 0x0702, .zero, csovt⟩
  | .beamTime rq => some ⟨rq, 0x0703, .any, allModes⟩
  | .ringStatus rq _ => some ⟨rq, 0x0800, .zero, allModes⟩
  | .setRingState rq _ _ _ _ => some ⟨rq, 0x0801, .zero, csovt⟩
  | .enumerate rq _ _ => some ⟨rq, 0x0802, .zero, csovt⟩
  | .calibrate rq _ _ _ => some ⟨rq, 0x0803, .zero, csovt⟩
  | .nodeRead rq _ _ _ _ => some ⟨rq, 0x0804, .zero, allModes⟩
  | .nodeWrite rq _ _ _ _ => some ⟨rq, 0x0805, .zero, csovt⟩
  | .storeConfig rq _ _ => some ⟨rq, 0x0806, .zero, csovt⟩
  | .readConfig rq _ _ => some ⟨rq, 0x0807, .zero, allModes⟩
  | .loopRead rq _ _ => some ⟨rq, 0x0900, .zero, allModes⟩
  | .loopWrite rq _ _ => some ⟨rq, 0x0901, .zero, csovt⟩
  | .axisTarget rq _ _ => some ⟨rq, 0x0902, .zero, csovt⟩
  | .capture rq _ _ => some ⟨rq, 0x0903, .zero, allModes⟩
  | .loadRead rq _ _ _ _ _ => some ⟨rq, 0x0A00, .zero, allModes⟩
  | .loadWrite rq _ _ => some ⟨rq, 0x0A01, .zero, csovt⟩
  | .setOutputs rq _ _ => some ⟨rq, 0x0A02, .zero, csovt⟩
  | .chStatus rq _ _ _ => some ⟨rq, 0x0A03, .zero, allModes⟩
  | .restart rq _ => some ⟨rq, 0x0A04, .zero, csovt⟩
  | .canRead rq _ _ => some ⟨rq, 0x0B00, .zero, allModes⟩
  | .canWrite rq _ _ => some ⟨rq, 0x0B01, .zero, [.commission, .standby, .tripped]⟩
  | .canSend rq _ _ _ _ => some ⟨rq, 0x0B02, .zero, csovt⟩
  | .canStatus rq => some ⟨rq, 0x0B03, .zero, allModes⟩
  | .logState rq => some ⟨rq, 0x0C00, .zero, allModes⟩
  | .readLog rq _ _ _ => some ⟨rq, 0x0C01, .zero, allModes⟩
  | .readRecent rq _ _ _ => some ⟨rq, 0x0C02, .zero, allModes⟩
  | .setSeverity rq _ _ => some ⟨rq, 0x0C03, .zero, csovt⟩
  | .readCounters rq _ _ => some ⟨rq, 0x0C04, .zero, allModes⟩
  | .updateState rq => some ⟨rq, 0x0D00, .zero, allModes⟩
  | .begin rq _ _ _ => some ⟨rq, 0x0D01, .zero, csovt⟩
  | .writeBlock rq _ _ _ => some ⟨rq, 0x0D02, .zero, csovt⟩
  | .verify rq => some ⟨rq, 0x0D03, .zero, csovt⟩
  | .schedule rq _ => some ⟨rq, 0x0D04, .zero, csovt⟩
  | .cancel rq => some ⟨rq, 0x0D05, .zero, allModes⟩
  | .commit rq => some ⟨rq, 0x0D06, .zero, allModes⟩
  | .rollback rq _ => some ⟨rq, 0x0D07, .zero, csovt⟩
  | .nodeUpdate rq _ => some ⟨rq, 0x0D08, .zero, [.service]⟩
  | .rodStatus rq _ _ => some ⟨rq, 0x0E00, .zero, allModes⟩
  | .schedStatus rq => some ⟨rq, 0x0E01, .zero, allModes⟩
  | .rodRelease rq _ => some ⟨rq, 0x0E02, .zero, csovt⟩
  | .linkStatus rq => some ⟨rq, 0x0E03, .zero, allModes⟩
  | .echo rq _ => some ⟨rq, 0x0E04, .any, allModes⟩
  | _ => none

/-- What a request shows the module before it is judged: two reads bring the measurements of that moment (log entry 42). -/
def measured (c : Instr) (s : State) : State :=
  match c with
  | .loadRead _ _ _ meas vload mean => s.takeMeas meas vload mean
  | .chStatus _ meas vload mean => s.takeMeas meas vload mean
  | _ => s

/-- A request of the catalogue meets everything that comes before its own rules, its Tenants and Modes columns among them. -/
def State.takes (s : State) (c : Instr) : Bool :=
  match column? c with
  | some k => served s k.rq k.op k.modes && k.who.admits k.rq.tenant
  | none => false

/-- A payload holds values at offsets and lengths, least significant byte first; a negative value as its bits. -/
def holds (p : List Byte) (l : List (Nat × Nat × Int)) : Bool :=
  l.all (fun f => decide (rdle p f.1 f.2.1 = ux (8 * f.2.1) f.2.2))

/-- A request is answered OK with a record of some length that holds the given values, and does nothing else. -/
def State.replies (s : State) (c : Instr) (rq : Rq) (op len : Nat) (l : List (Nat × Nat × Int)) : Prop :=
  ∃ p, exec c s = .next (s.ok rq op p) ∧ p.length = len ∧ holds p l = true

/-- A bulk call starts a transfer: it is served outside hold-up and D3, its buffer is right, no cursor answers to it, and a new cursor
under a number not in use and not 0 stays within R300's limits. -/
def State.bulkStarts (s : State) (c : Instr) (rq : Rq) (b : Bulk) (gen : Option Nat) : Prop :=
  s.takes c = true ∧ s.tablesOk = true ∧ s.sys.holdup = false ∧ s.sys.d3 = false ∧ (∀ k ∈ bufferChecks rq b, k.1 = true) ∧
    b.cursor = 0 ∧ s.cursorOld rq 0 = false ∧ s.openCursor? rq 0 = none ∧ s.cursorFits rq.tenant gen = true ∧
    s.sys.nextCursor ≠ 0 ∧ ∀ d ∈ s.sys.cursors, d.id ≠ s.sys.nextCursor

/-- A starting bulk read is answered with as many whole records as the buffer holds and keeps a cursor with the items of the rest;
no cursor stays where nothing is left. -/
def State.delivers (s : State) (c : Instr) (rq : Rq) (op : Nat) (b : Bulk) (gen : Option Nat) (items recs : List (List Byte)) : Prop :=
  let n := b.len / max 1 (recs.headD []).length
  let data := (recs.take n).flatten
  let left := recs.length - n
  ∃ (t : State) (r : Resp), exec c s = .next t ∧ (t.page rq.tenant).waiting = (s.page rq.tenant).waiting ++ [r] ∧
    r.rq = rq ∧ r.opcode = op ∧ r.status = 0 ∧ r.bulk = data ∧ r.more = decide (left ≠ 0) ∧
    r.payload = bulkBlock (if left = 0 then 0 else s.sys.nextCursor) (gen.getD 0) data.length (recs.length - left) left ∧
    t.sys.cursors = s.sys.cursors ++
      (if left = 0 then []
       else [⟨s.sys.nextCursor, rq.tenant, op, (b.port, b.string, b.arg), gen, items.drop n, b.arg, [], s.clock⟩]) ∧
    t.sys.apertures = (if rq.eth = false ∧ b.addr = 0
      then tmod [] s.sys.apertures rq.tenant (fun old => data ++ old.drop data.length) else s.sys.apertures)

/-- A node accepts the number of a command: RESYNC is set, or it is synchronised for that kind and the number lies 1 to 0x7FFF
ahead of the last one accepted (R83). -/
def Node.inSequence (n : Node) (seq : Nat) (resync bcast : Bool) : Bool :=
  let d := (seq + 65536 - (if bcast then n.lastBseq else n.lastSeq)) % 65536
  resync || ((if bcast then n.bsync else n.usync) && decide (1 ≤ d ∧ d ≤ 0x7FFF))

/-- What a node's acceptance of a unicast command leaves besides the command's own effect: the number, the answer and its copy for a
retransmission (R83). -/
def Node.accepted (n : Node) (seq st : Nat) (data : List Byte) : Node :=
  { n with lastSeq := seq, usync := true, stored := some (st, data), answer := some (seq, st, data) }

/-- What a node's acceptance of a command leaves besides the command's own effect: for a broadcast the number, else the number and the
answer (R83). -/
def Node.took (n : Node) (seq : Nat) (bcast : Bool) (st : Nat) (data : List Byte) : Node :=
  if bcast then { n with lastBseq := seq, bsync := true } else n.accepted seq st data

/-- A frame of a type reaches the node of a place: the ring's state sends it, and it is broadcast or the node has a position (R65,
R98). -/
def State.reaches (s : State) (port place type : Nat) (bcast : Bool) : Bool :=
  (s.ring port).state.carries type &&
    (bcast || decide (0 < (s.node (nodeKey port place)).pos ∧ (s.node (nodeKey port place)).pos < 0xFFFF))

/-! ### Rod instructions -/

/-- A rod is about to issue a word of some cycles: it is in a pass without a fault, the legal word at its PC is that one, the next
address lies in the code section, and the pass keeps within its cycle limit (R131, R145, R147). -/
def State.fetches (s : State) (rod w cyc : Nat) : Bool :=
  let c := (s.rod rod).ctx
  let im := s.rodImage rod
  (s.rod rod).inPass && c.fault.isNone && decide ((c.word? im).map BitVec.toNat = some w) && kLegal w &&
    decide (c.pc + 1 < im.code.length) && decide (c.passCycles + cyc ≤ c.maxCycles)

/-- A rod's registers as the instruction at PC finds them: the next words in the window, PC and cycles advanced (R147). -/
def RodCtx.fetched (c : RodCtx) (im : Image) (cyc : Nat) : RodCtx :=
  { c.fill im (c.pc + 1) true with pc := c.pc + 1, passCycles := c.passCycles + cyc }

/-- An instruction completes on a rod: from every state in which the rod is about to issue it and the instruction's own condition
holds, it leaves the rod with the given registers and every other rod alone. -/
def Runs (i : Instr) (rod w cyc : Nat) (cond : Image → RodCtx → Prop) (f : Image → RodCtx → RodCtx) : Prop :=
  ∀ s : State, s.tablesOk = true → s.fetches rod w cyc = true → cond (s.rodImage rod) (s.rod rod).ctx →
    ∃ t, exec i s = .next t ∧
      t.rod rod = { s.rod rod with ctx := f (s.rodImage rod) ((s.rod rod).ctx.fetched (s.rodImage rod) cyc) } ∧
      (∀ j, j ≠ rod → t.rod j = s.rod j) ∧ t.recs = s.recs

/-- No condition of its own. -/
def always (_ : Image) (_ : RodCtx) : Prop := True

/-- An instruction faults on a rod: from every state in which the rod is about to issue it and the condition holds, the pass ends
with that fault at the instruction's own address (R145). -/
def Faults (i : Instr) (rod w cyc : Nat) (cond : Image → RodCtx → Prop) (code : Nat) : Prop :=
  ∀ s : State, s.tablesOk = true → s.fetches rod w cyc = true → cond (s.rodImage rod) (s.rod rod).ctx →
    ∃ t, exec i s = .next t ∧ (t.rod rod).ctx.fault = some (code, (s.rod rod).ctx.pc) ∧ (t.rod rod).ctx.ended = true ∧
      (∀ j, j ≠ rod → t.rod j = s.rod j)

/-- A table of rows with every value negated. -/
def negRows (t : Tbl (List Int)) : Tbl (List Int) := t.map (fun e => (e.1, e.2.map (fun v => -v)))
/-- A table of scalars with every value negated. -/
def negVals (t : Tbl Int) : Tbl Int := t.map (fun e => (e.1, -e.2))

/-- The registers of the other pass at the same point: every datum negated, in the other bank (R105). -/
def RodCtx.mirror (c : RodCtx) : RodCtx :=
  { c with passB := !c.passB, v := negRows c.v, a := negRows c.a, sd := negVals c.sd, bankA := negRows c.bankB,
           bankB := negRows c.bankA }
/-- A rod in the other pass at the same point, with the two signature registers exchanged. -/
def Rod.mirror (r : Rod) : Rod := { r with sigA := r.sigB, sigB := r.sigA, ctx := r.ctx.mirror }
/-- A state with one rod in the other pass. -/
def State.mirror (s : State) (rod : Nat) : State := s.modRod rod Rod.mirror

/-- The rod of an instruction that runs within a pass; END, which ends it, is left out (R132). -/
def rodOf? : Instr → Option Nat
  | .nop rod _ => some rod
  | .vadd rod _ _ _ _ => some rod
  | .vsub rod _ _ _ _ => some rod
  | .vneg rod _ _ _ => some rod
  | .vabs rod _ _ _ => some rod
  | .vmax rod _ _ _ _ => some rod
  | .vmin rod _ _ _ _ => some rod
  | .vmov rod _ _ _ => some rod
  | .vmul rod _ _ _ _ => some rod
  | .vshr rod _ _ _ _ => some rod
  | .vshl rod _ _ _ _ => some rod
  | .vsel rod _ _ _ _ => some rod
  | .vcgt rod _ _ _ => some rod
  | .vceq rod _ _ _ => some rod
  | .qdiv rod _ _ _ _ => some rod
  | .vbcl rod _ _ _ _ => some rod
  | .amac rod _ _ _ _ => some rod
  | .amsu rod _ _ _ _ => some rod
  | .aldv rod _ _ _ _ => some rod
  | .aadv rod _ _ _ _ => some rod
  | .aext rod _ _ _ _ => some rod
  | .aclr rod _ _ => some rod
  | .arsum rod _ _ _ => some rod
  | .vrsum rod _ _ _ => some rod
  | .vbc rod _ _ _ _ => some rod
  | .sadd rod _ _ _ _ => some rod
  | .ssub rod _ _ _ _ => some rod
  | .smul rod _ _ _ _ => some rod
  | .sli rod _ _ _ => some rod
  | .vli rod _ _ _ => some rod
  | .scmp rod _ _ _ => some rod
  | .vld rod _ _ _ _ => some rod
  | .vst rod _ _ _ _ => some rod
  | .tlu rod _ _ _ _ => some rod
  | .tlu2 rod _ _ _ _ _ => some rod
  | .lmset rod _ _ => some rod
  | .lmget rod _ _ => some rod
  | .lmld rod _ _ => some rod
  | .lmand rod _ _ => some rod
  | .br rod _ _ _ => some rod
  | .loop rod _ _ _ => some rod
  | .call rod _ _ => some rod
  | .ret rod _ => some rod
  | .kfence rod _ => some rod
  | .cst rod _ _ _ _ => some rod
  | _ => none

/-! ### The parts of the machine, for statements about what a command leaves alone -/

/-- A part of the machine. -/
inductive Part where
  /-- the supplies. -/
  | power
  /-- the tenants' pages, the answers and notifications that wait, the wake causes and the drop counters. -/
  | mail
  /-- cursors, snapshots and apertures of bulk transfers. -/
  | bulk
  /-- the mode, and the checkpoint owed since STANDBY was entered. -/
  | mode
  /-- RUNSTATE, hold-up, SHUTDOWN. -/
  | run
  /-- settings accepted and not yet in force, and the configuration they belong to. -/
  | conf
  /-- the other system registers: links, wall time, EXCHANGE. -/
  | sys
  /-- the beam but its mark units. -/
  | beam
  /-- the mark units. -/
  | marks
  /-- the rings. -/
  | rings
  /-- the nodes on the rings. -/
  | nodes
  /-- the scheduler but its rods. -/
  | sched
  /-- the rods. -/
  | rods
  /-- the estimator, with cells, strings, temperatures and settings. -/
  | est
  /-- the guard's latch: TRIPPED, its cause, TRIP_ID, a weld. -/
  | latch
  /-- the rest of the guard. -/
  | guard
  /-- dispatch, with the tenants and their ledgers. -/
  | disp
  /-- the event queue. -/
  | events
  /-- CFG_GEN and what awaits the configuration store. -/
  | store
  /-- the other records: log, counters, checkpoints. -/
  | recs
  /-- the loop block. -/
  | loops
  /-- the load block. -/
  | load
  /-- the CAN block. -/
  | can
  /-- the firmware slots. -/
  | upd
  /-- the counter of free values (the model's own). -/
  | fresh
deriving DecidableEq, Repr

/-- The fields of the system registers that are the mail part. -/
def Sys.mailPart (y : Sys) :=
  ((y.pages, y.wakeCause, y.wakeNew, y.pme, y.wakeDue, y.wakeOpen), (y.round, y.lateDrop, y.staleReq, y.notifDrop, y.held), (y.authDrop, y.replayDrop,
    y.authAt, y.replayAt))
/-- The fields of the system registers that are the bulk part. -/
def Sys.bulkPart (y : Sys) := (y.cursors, y.expired, y.nextCursor, y.snaps, y.apertures)
/-- The fields of the system registers that are the mode part. -/
def Sys.modePart (y : Sys) := (y.mode, y.ckDue)
/-- The fields of the system registers that are the run part. -/
def Sys.runPart (y : Sys) := (y.run, y.holdup, y.shut)
/-- The other system registers. -/
def Sys.restPart (y : Sys) :=
  ((y.storedCommission, y.wakeEn, y.pmeCount, y.pmeOld, y.mbLoad, y.recovPin, y.bootFails), (y.d3, y.pcieUp, y.pcieMode, y.eth0, y.eth1),
    (y.wall, y.ptpLock, y.holdover, y.ptpPort, y.ptpGood, y.ptpOffset, y.ptpSlew), y.exchange)
/-- The guard's latch. -/
def Guard.latchPart (g : Guard) := (g.tripped, g.tripCause, g.tripId, g.weld)
/-- The guard but its latch. -/
def Guard.restPart (g : Guard) : Guard := { g with tripped := false, tripCause := 0, tripId := 0, weld := none }
/-- The event queue. -/
def Records.eventPart (r : Records) := (r.queue, r.queueAt, r.dropped)
/-- The configuration store's counters. -/
def Records.storePart (r : Records) := (r.cfgGen, r.cfgValid, r.cfgPending)
/-- The records but the event queue and the configuration store's counters. -/
def Records.restPart (r : Records) : Records :=
  { r with queue := [], queueAt := [], dropped := 0, cfgGen := 0, cfgValid := false, cfgPending := [] }

/-- A part is the same in two states. -/
def Part.same (s t : State) : Part → Prop
  | .power => t.power = s.power
  | .mail => t.sys.mailPart = s.sys.mailPart
  | .bulk => t.sys.bulkPart = s.sys.bulkPart
  | .mode => t.sys.modePart = s.sys.modePart
  | .run => t.sys.runPart = s.sys.runPart
  | .conf => t.sys.conf = s.sys.conf
  | .sys => t.sys.restPart = s.sys.restPart
  | .beam => { t.beam with marks := [] } = { s.beam with marks := [] }
  | .marks => t.beam.marks = s.beam.marks
  | .rings => t.rings = s.rings
  | .nodes => t.nodes = s.nodes
  | .sched => { t.sched with rods := [] } = { s.sched with rods := [] }
  | .rods => t.sched.rods = s.sched.rods
  | .est => t.est = s.est
  | .latch => t.guard.latchPart = s.guard.latchPart
  | .guard => t.guard.restPart = s.guard.restPart
  | .disp => t.disp = s.disp
  | .events => t.recs.eventPart = s.recs.eventPart
  | .store => t.recs.storePart = s.recs.storePart
  | .recs => t.recs.restPart = s.recs.restPart
  | .loops => t.loops = s.loops
  | .load => t.load = s.load
  | .can => t.can = s.can
  | .upd => t.upd = s.upd
  | .fresh => t.fresh = s.fresh

/-- From s to t only the listed parts may have changed. -/
def OnlyParts (m : List Part) (s t : State) : Prop := ∀ p : Part, p ∈ m ∨ p.same s t

/-- The parts that a command may change. -/
def parts : Instr → List Part
  | .heartbeat => [.sys, .sched, .guard, .upd]
  | .heartbeatTimeout | .stopEnergised .. | .nodeLoss .. | .prechargeHalfCheck | .comparatorRearm .. => [.guard]
  | .beamTimeExtend | .exposedAngleZero | .slewComplete | .cycWallLoRead => [.beam]
  | .trackerCycle .. | .lockSet | .bzxEdge .. | .bzxCycleTimeout | .mainsLost => [.beam, .events]
  | .inputOverRange .. | .overRangeReturn .. | .settlingDone | .syncReset => [.beam, .loops]
  | .sourceChange .. => [.beam, .events, .loops]
  | .markEnable .. => [.beam, .marks, .events]
  | .registerWrite .. => [.mail, .sys, .rings, .est, .latch, .guard, .events, .recs, .load]
  | .sweepMark => [.sys, .beam, .marks, .rings, .sched, .est, .guard, .disp, .events, .store, .recs, .can, .upd]
  | .sweepLaunch => [.beam, .marks, .rings, .est, .guard, .disp, .events, .recs, .can]
  | .sweepRateRestore => [.marks, .sched, .events]
  | .rippleBurstSample .. => [.beam, .marks, .sched, .est]
  | .dispatchTick => [.beam, .marks, .guard, .disp, .events, .recs, .can]
  | .exchangeMark => [.mail, .sys, .beam, .marks, .sched, .rods, .est, .guard, .disp, .events, .store, .load]
  | .notificationMark .. => [.mail, .beam, .marks, .events]
  | .activationMark =>
    [.mail, .bulk, .mode, .run, .sys, .beam, .marks, .rings, .sched, .est, .latch, .guard, .disp, .events, .recs, .can, .upd]
  | .rxLock .. | .rxLockLost .. => [.rings, .nodes]
  | .faultSet .. | .enum .. => [.rings, .nodes, .events]
  | .ringRejoin .. | .collectFrameClosed .. | .skewLimit .. => [.rings, .events]
  | .clear .. | .collect .. | .leaseExpired .. | .leaseTimeout .. | .nodeSync .. | .nodeSample .. | .nodeProjectedSample ..
  | .keepalive .. | .switchWatchdogExpiry .. | .nodeStart .. | .readNode .. | .writeNode .. | .balance .. | .switch ..
  | .unwrap .. | .fwBlock .. | .fwActivate .. | .nodeFwRestart .. | .trip .. => [.nodes]
  | .ringEcho .. | .echoReply .. | .census .. | .collectLaunch .. | .keepaliveLaunch => [.rings]
  | .recordReceived .. | .balancingMismatch .. => [.rings, .est, .events]
  | .commandLaunch .. | .nodeRead .. | .nodeWrite .. => [.mail, .rings]
  | .response .. => [.mail, .rings, .est, .events, .upd]
  | .commandTimeout .. | .busyRetry .. | .nodeUpdate .. => [.mail, .rings, .events, .upd]
  | .tripBodyTimeout .. | .nodeHot .. => [.rings, .nodes, .est]
  | .invocationEnd .. => [.sched, .rods, .est, .fresh]
  | .windowClose .. | .tableWalk .. | .rodReload .. => [.sched, .rods, .est, .guard, .events, .store]
  | .publication => [.bulk, .mode, .rings, .sched, .est, .guard, .events, .recs]
  | .dieTempSample .. => [.sched, .rods, .est, .guard, .events]
  | .beamSlot => [.sched]
  | .classStarved .. => [.sched, .events]
  | .burstAbandoned .. => [.sched, .est, .events]
  | .rodTestDone .. => [.mail, .sched, .rods, .est, .guard, .events, .store]
  | .kernelRevert => [.beam, .marks, .sched, .events]
  | .nop .. | .vadd .. | .vsub .. | .vneg .. | .vabs .. | .vmax .. | .vmin .. | .vmov .. | .vmul .. | .vshr .. | .vshl ..
  | .vsel .. | .vcgt .. | .vceq .. | .qdiv .. | .vbcl .. | .amac .. | .amsu .. | .aldv .. | .aadv .. | .aext .. | .aclr ..
  | .arsum .. | .vrsum .. | .vbc .. | .sadd .. | .ssub .. | .smul .. | .sli .. | .vli .. | .scmp .. | .vld .. | .vst .. | .tlu ..
  | .tlu2 .. | .lmset .. | .lmget .. | .lmld .. | .lmand .. | .br .. | .loop .. | .call .. | .ret .. | .endPass .. | .kfence ..
  | .cst .. => [.sched, .rods, .events]
  | .observerRun .. => [.est, .events, .recs]
  | .observerBlend .. | .socCheckpoint => [.est, .recs]
  | .observerUnavailable .. | .restPoint .. | .estimatorHealth .. | .sensorRestored .. | .tinConversion .. | .tinFault ..
  | .tinRecovered .. => [.est, .events]
  | .rippleBurstStart .. => [.beam, .marks, .est, .events]
  | .learnedCheckpoint => [.mode, .est, .events, .recs]
  | .balancingReplan => [.est, .disp, .events]
  | .balancingQuiet .. => [.rings, .est]
  | .balancingExclusionEnd .. => [.est]
  | .compensationUpdate .. => [.beam, .est, .events]
  | .stopDeenergised .. | .stopLaneTenant0 | .stopLaneTenant .. | .comparatorCrossing .. | .stepTimeout .. =>
    [.rings, .est, .latch, .guard, .events, .recs, .load]
  | .stopRecompute => [.disp, .events, .can]
  | .stopDatagram .. => [.mail, .rings, .est, .latch, .guard, .events, .recs, .load]
  | .guardCycle .. => [.power, .mail, .mode, .rings, .est, .latch, .guard, .disp, .events, .recs, .load, .can]
  | .guardWatchdog => [.mail, .mode, .rings, .est, .latch, .guard, .disp, .events, .recs, .load]
  | .limitLevelCrossed .. | .weldCheck .. => [.est, .guard]
  | .contactorOpenDeadline => [.guard, .load]
  | .pcsMessageRepeat => [.guard, .can]
  | .curtailmentStarted | .curtailmentEnded | .externalSetpointFault => [.disp, .events]
  | .failsafeHoldExpiry => [.disp]
  | .rqTail .. | .requestFetch .. | .responsePost .. | .rsTail .. | .mailboxDatagram .. => [.mail, .events]
  | .epoch .. | .rqEn .. | .rsEn .. | .irqTimeout .. | .wakeCause .. | .identity .. | .status .. | .getParam .. | .whoami ..
  | .getAlloc .. | .readCell .. | .readTemp .. | .readString .. | .readStringThermal .. | .readBankThermal .. | .readLearned ..
  | .readImpedance .. | .cellGetParam .. | .readThermal .. | .tinRead .. | .getGroup .. | .kernelInfo .. | .readSchedule ..
  | .tenantRecord .. | .bankRecord .. | .getBinding .. | .dispatchGetParam .. | .protRead .. | .stringProt .. | .protGetParam ..
  | .readLimits .. | .readSeq .. | .beamTime .. | .ringStatus .. | .canStatus .. | .logState .. | .readCounters ..
  | .updateState .. | .rodStatus .. | .schedStatus .. | .linkStatus .. | .echo .. => [.mail]
  | .pcieReset .. | .d0Resume | .ethernetLink .. => [.mail, .sys, .events]
  | .d3hotEntry => [.sys]
  | .cursorExpiry .. => [.bulk]
  | .ptpMessage .. | .announceTimeout .. | .pcieLinkUp .. => [.sys, .events]
  | .setMode .. => [.mail, .mode, .sys, .rings, .est, .disp, .events, .store]
  | .connect .. => [.mail, .mode, .rings, .est, .guard, .disp, .events]
  | .disconnect .. | .clearTrip .. | .clearString .. => [.mail, .mode, .rings, .est, .latch, .guard, .disp, .events]
  | .shutdown .. => [.mail, .mode, .run, .est, .guard, .disp, .events, .recs, .loops, .load]
  | .setParam .. | .cellSetParam .. | .dispatchSetParam .. | .protSetParam .. => [.mail, .sys, .est, .disp, .events, .store]
  | .setAlloc .. => [.mail, .beam, .marks, .disp, .events, .store]
  | .installKey .. => [.mail, .events, .store]
  | .bulkCells .. | .bulkStrings .. | .bulkStringThermal .. | .bulkLearned .. | .bulkImpedance .. | .readImage ..
  | .readConfig .. | .capture .. => [.mail, .bulk]
  | .setTempMap .. | .tinWrite .. | .setGroup .. | .setBinding .. | .protWrite .. | .mapAlarm .. | .setSeverity .. =>
    [.mail, .conf, .store]
  | .getTempMap .. => [.mail, .fresh]
  | .writeThermal .. => [.mail, .est]
  | .resetLearned .. => [.mail, .est, .events, .store, .fresh]
  | .clearShort .. => [.mail, .est, .store]
  | .loadImage .. => [.mail, .bulk, .sched, .events, .fresh]
  | .exchange .. => [.mail, .sys, .beam, .marks, .events, .fresh]
  | .discard .. => [.mail, .sched, .est, .guard]
  | .submit .. => [.mail, .disp]
  | .resume .. | .writeLimits .. | .writeSeq .. => [.mail, .guard]
  | .ledgerAdjust .. => [.mail, .disp, .events]
  | .weldAck .. => [.mail, .est, .latch, .store]
  | .beamRead .. => [.mail, .beam]
  | .beamWrite .. => [.mail, .beam, .marks, .disp, .events, .loops]
  | .setSweep .. => [.mail, .beam, .marks, .sched, .store]
  | .setRingState .. => [.mail, .mode, .rings, .est, .guard, .disp, .events, .recs, .can]
  | .enumerate .. => [.mail, .rings, .nodes, .events]
  | .calibrate .. => [.mail, .rings, .nodes, .store]
  | .storeConfig .. => [.mail, .rings, .est, .store]
  | .loopRead .. => [.mail, .events, .recs, .loops]
  | .loopWrite .. => [.mail, .events, .store, .loops]
  | .axisTarget .. => [.mail, .loops]
  | .loadRead .. | .chStatus .. => [.mail, .load]
  | .loadWrite .. => [.mail, .events, .store, .load]
  | .setOutputs .. | .restart .. => [.mail, .events, .load]
  | .restartRecommand .. | .inEdge .. | .inrushWindowEnd .. | .slewRampComplete .. | .thermalRestart .. | .staggeredTurnOn
  | .inMinimumTimeEnd .. => [.load]
  | .canRead .. => [.mail, .events, .recs, .can, .fresh]
  | .canWrite .. => [.mail, .events, .can]
  | .canSend .. => [.mail, .can]
  | .readLog .. => [.mail, .bulk, .events, .recs]
  | .readRecent .. | .eventTailWrite => [.mail, .events, .recs]
  | .begin .. => [.mail, .store, .recs, .upd]
  | .writeBlock .. => [.mail, .bulk, .events, .recs, .upd]
  | .verify .. => [.power, .mail, .mode, .run, .sys, .events, .store, .upd]
  | .schedule .. | .rollback .. => [.mail, .beam, .marks, .events, .store, .upd]
  | .cancel .. => [.mail, .marks, .events, .upd]
  | .commit .. => [.mail, .events, .store, .upd]
  | .nodeReturnTimeout => [.events, .upd]
  | .rodRelease .. => [.mail, .rods]
  | .loopTick .. => [.beam, .events, .loops, .fresh]
  | .loopEnable .. => [.events, .store, .loops]
  | .loopRestart .. | .captureArm .. | .axisIndex .. | .axisStill .. | .ainBroken .. => [.loops]
  | .supervisionFault .. | .captureComplete .. | .axisWireFault .. | .axisAmplitudeFault .. | .faultev .. | .outputOpen .. =>
    [.events, .loops]
  | .loopConfigSave | .loadConfigSave => [.store, .recs]
  | .axisEdge .. => [.events, .recs, .loops]
  | .slewRampTimeout .. | .overcurrentLatch .. | .thermalSwitchOff .. | .vloadUnderVoltage .. | .reverseSupply ..
  | .loadGroundLost .. | .loadShed .. => [.guard, .events, .load]
  | .openLoadJudgement .. | .vloadRestored .. | .loadDump .. | .loadGroundRestored .. | .totalOverload .. => [.events, .load]
  | .canFrameReceived .. | .pcsStatusFrame .. | .alarmFrame .. => [.guard, .events, .recs, .can, .fresh]
  | .pcsUnitStale .. | .canTxComplete .. | .busOffRecovery .. | .aloneProbe .. | .aloneLeft .. | .canReceiveError .. =>
    [.events, .can]
  | .alarmSourceLost .. => [.guard, .events, .can]
  | .driveFramePeriod => [.loops, .can]
  | .pop .. | .canTimingWrite .. | .canDisable .. => [.can]
  | .logPageProgram => [.events, .store, .recs]
  | .flashBlockRetired .. | .operatingTimeCount => [.events, .recs]
  | .holdup .. | .flushComplete .. =>
    [.power, .mail, .bulk, .mode, .run, .conf, .sys, .beam, .marks, .rings, .sched, .rods, .est, .latch, .guard, .disp, .events,
      .store, .recs, .loops, .load, .can, .upd]
  | .powerUp .. => [.power, .sys, .beam, .est, .latch, .events, .loops]
  | .romHandover .. | .bootFail .. => [.power, .mail, .bulk, .mode, .run, .sys, .disp, .events, .loops, .load, .upd]
  | .reckonerStart .. =>
    [.power, .mail, .conf, .sys, .beam, .marks, .rings, .sched, .rods, .est, .guard, .disp, .events, .store, .recs, .loops,
      .load, .can, .upd]
  | .mailboxOpen .. => [.power, .mail, .mode, .run, .rings, .est, .disp, .events, .recs]
  | .ringRejoinConnect .. => [.rings, .est, .guard, .events]
  | .vmainLow .. | .holdupArmed .. => [.power, .events]
  | .supplyOverVoltage .. =>
    [.power, .mail, .bulk, .mode, .run, .conf, .sys, .beam, .marks, .rings, .sched, .rods, .est, .latch, .guard, .disp, .events,
      .store, .recs, .loops, .load, .can, .upd, .fresh]
  | .vanaLost .. => [.power, .guard, .events]
  | .vanaRestored .. => [.power, .mail, .mode, .beam, .rings, .est, .guard, .disp, .events, .recs, .loops]
  | .vioMismatch .. => [.power, .mail, .sys, .events, .load]
  | .vioReturn .. => [.power]
  | .activationExpiry => [.marks, .events, .upd]
  | .newFirmwareStart .. =>
    [.mail, .run, .conf, .sys, .beam, .marks, .rings, .sched, .rods, .est, .guard, .disp, .events, .store, .recs, .can, .upd]
  | .recoveryEntry .. => [.mail, .bulk, .mode, .run, .disp, .events, .loops, .load, .upd]
  | .recovRelease => [.power, .mode, .run, .sys, .upd]

end Sys2Proof.Machine
end

