-- ==== Sys2Proof/Certificates/Slice0/Obligations.lean ====
section
/-! DEFINITION. The statements for the provers. -/
open Sys2Proof Sys2Proof.Machine

/-- For every command c and state s, a step of s with c at the front of its queue is exec of c on s with the queue's rest
(the queue is the model's: log entries 3 and 12). -/
def Obligations.StepRunsFrontCommand : Prop :=
  ∀ (c : Instr) (rest : List Instr) (s : State), step { s with pending := c :: rest } = exec c { s with pending := rest }

/-- With an empty queue a step answers a next state: the clock has counted one tick, and only the beam's angles, the
servo's wall time and MB_LOAD may have moved; no event is raised, every mark unit, every status bit but SLEWING and the extended count
stand; MB_LOAD stays within its range (the tick is the model's: log entry 3). -/
def Obligations.IdleStepIsOneTick : Prop :=
  ∀ s : State, s.pending = [] → ∃ t, step s = .next t ∧ t = { s with clock := s.clock + 1, sys := t.sys, beam := t.beam } ∧
    t.sys = { s.sys with wall := t.sys.wall, ptpSlew := t.sys.ptpSlew, mbLoad := t.sys.mbLoad } ∧ t.sys.mbLoad ≤ 990 ∧
    t.beam.marks = s.beam.marks ∧ t.beam.ext = s.beam.ext ∧ t.beam.ctl = s.beam.ctl ∧
    (∀ i < 32, i ≠ 5 → bit t.beam.status i = bit s.beam.status i) ∧ t.beam.trackFreq = s.beam.trackFreq

/-- At reset every keyed table is in its canonical form and every waiting command (there is none) is well formed. -/
def Obligations.ResetMeetsInvariant : Prop := State.reset.Inv

/-- From every state that meets the invariant (every keyed table has strictly rising keys and lists no entry equal to what an
unlisted key reads as; every waiting command is well formed), reachable or not, a step that answers a next state answers one
that meets it: equal contents stay equal data. -/
def Obligations.StepKeepsInvariant : Prop := ∀ s t : State, s.Inv → step s = .next t → t.Inv

/-- Every command of the table, with any operands, well formed or not, in any state, answers a next state: neither a fault nor
a refusal. A request that the module refuses is answered with a response, and the block goes on. In that next state the commands
that wait behind it and the clock stand: commands take no time (log entry 12). -/
def Obligations.NoCommandStops : Prop :=
  ∀ (c : Instr) (s : State), goesOn (exec c s) ∧ ∀ t, exec c s = .next t → t.pending = s.pending ∧ t.clock = s.clock

/-- The frame of all 358 commands. The machine has 25 parts (supplies; mail; bulk transfers; the mode; RUNSTATE; committed settings;
system registers; beam; marks; rings; nodes; scheduler; rods; estimator; the guard's latch; the rest of the guard; dispatch; the event
queue; the configuration store's counters; the other records; loops; loads; CAN; firmware slots; free values). For every command the
list of parts that it may change is given: whatever it does, in any state and with any operands, every other part is unchanged. So no
read changes anything but its tenant's mail, only protection, mode, supply and start-up commands reach the guard's latch, and no rod
instruction reaches anything but rods, scheduler and event queue. -/
def Obligations.CommandsChangeOnlyTheirParts : Prop := ∀ (c : Instr) (s t : State), exec c s = .next t → OnlyParts (parts c) s t

/-- For every request row of the catalogue (108 commands, with the opcode, Tenants and Modes entries of chapter 11): while the
module runs, has not been shut down and is not in hold-up, the request's turn has come and its tenant is not disabled, a
tenant outside the Tenants entry is answered DENIED, and otherwise a mode outside the Modes entry is answered WRONG_MODE with
the mode's code in PARAM; in both cases the module's state gains that response and nothing else (two reads bring the
measurements of that moment first: log entry 42). -/
def Obligations.RequestsAreJudgedByTenantThenMode : Prop :=
  ∀ (c : Instr) (k : Column) (s : State), column? c = some k → s.sys.shut = false → s.sys.run = .running →
    s.sys.holdup = false → s.mayStart k.rq = true →
    (k.rq.tenant = 0 ∨ k.op / 256 < 3 ∨ ((s.tenant k.rq.tenant).exists_ = true ∧ (s.tenant k.rq.tenant).enabled = true)) →
    (k.who.admits k.rq.tenant = false → exec c s = .next ((measured c s).refuse k.rq k.op ⟨0x0010, 0, 0⟩)) ∧
    (k.who.admits k.rq.tenant = true → s.sys.mode ∉ k.modes →
      exec c s = .next ((measured c s).refuse k.rq k.op ⟨0x0005, 0, modeCode s.sys.mode⟩))

/-- From the hand-over of an activation until the new firmware answers (RUNSTATE restarting), every request of the catalogue
whose turn has come is answered RESTARTING with DETAIL 1 where it had been fetched before (its tag is outstanding) and 0
otherwise, and changes nothing else. -/
def Obligations.RestartingAnswersEveryRequest : Prop :=
  ∀ (c : Instr) (k : Column) (s : State), column? c = some k → s.sys.shut = false → s.sys.run = .restarting →
    s.sys.holdup = false → s.mayStart k.rq = true →
    exec c s = .next ((measured c s).refuse k.rq k.op
      ⟨0x0006, b2n ((s.page k.rq.tenant).outstanding.any (fun o => decide (o.1 = k.rq.tag))), 0⟩)

/-- In D0 a response joins the end of the responses that wait on its tenant's page (to be posted in that order), sets wake cause
4, and leaves every other page and every other part of the state alone. -/
def Obligations.RespondingTouchesOnlyThePage : Prop :=
  ∀ (s : State) (r : Resp), s.tablesOk = true → s.sys.d3 = false →
    (s.respond r).page r.rq.tenant =
      { s.page r.rq.tenant with waiting := (s.page r.rq.tenant).waiting ++ [r] } ∧
    (∀ k, k ≠ r.rq.tenant → (s.respond r).page k = s.page k) ∧
    bit (s.respond r).sys.wakeCause 4 = true ∧
    s.respond r = { s with sys := { s.sys with
      pages := (s.respond r).sys.pages, wakeCause := (s.respond r).sys.wakeCause,
      wakeNew := (s.respond r).sys.wakeNew, pme := (s.respond r).sys.pme,
      wakeOpen := (s.respond r).sys.wakeOpen, wakeDue := (s.respond r).sys.wakeDue } }

/-- LOCK_SET: with a source selected, LOCK clear and QUALIFY valid cycles counted, LOCK sets and 0x0701 is raised; while
MAINS_LOST is set it clears too, with 0x0704. MAINS_LOST: after STANDSTILL expected cycles without a valid one it sets with 0x0703
(not with no source selected), BEAM_FREQ reads 0, slewing ends and LOCK, if set, clears with 0x0702, uncounted.
BZX_CYCLE_TIMEOUT: 1/15 s after the last accepted edge LOCK clears with 0x0702 and the loss is counted. SLEW_COMPLETE: within 1 bu
the slew ends and the exposed angle runs on from where it stands. Only the named beam fields and the event queue change. -/
def Obligations.LockAndMainsLoss : Prop :=
  (∀ s : State, (s.beam.src = 1 ∨ s.beam.src = 2) → s.beam.lock = false → s.beam.qualify ≤ s.beam.validRun →
    ∃ t, exec .lockSet s = .next t ∧ t = { s with beam := t.beam, recs := t.recs } ∧
      t.beam.lock = true ∧ t.beam.lost = false ∧
      t.recs = (if s.beam.lost then (s.recs.push (mkEv 0x0701 [])).push (mkEv 0x0704 []) else s.recs.push (mkEv 0x0701 [])) ∧
      s.beam = { t.beam with status := s.beam.status, event := s.beam.event, newEvent := s.beam.newEvent,
                             freq := s.beam.freq, slew := s.beam.slew, hold := s.beam.hold }) ∧
  (∀ s : State, s.beam.lost = false → s.beam.standstillMax ≤ s.beam.standstill →
    ∃ t, exec .mainsLost s = .next t ∧ t = { s with beam := t.beam, recs := t.recs } ∧
      t.beam.lost = true ∧ t.beam.lock = false ∧ t.beam.freq = 0 ∧ t.beam.slew = 0 ∧ t.beam.faults = s.beam.faults ∧
      t.recs = (let r := if s.beam.src = 0 then s.recs else s.recs.push (mkEv 0x0703 [])
                if s.beam.lock then r.push (mkEv 0x0702 []) else r) ∧
      s.beam = { t.beam with status := s.beam.status, event := s.beam.event, newEvent := s.beam.newEvent,
                             freq := s.beam.freq, slew := s.beam.slew, hold := s.beam.hold, validRun := s.beam.validRun }) ∧
  (∀ (s : State) (a : Nat), s.beam.src = 2 → s.beam.bzxLast = some a → a + 13333334 ≤ s.clock →
    ∃ t, exec .bzxCycleTimeout s = .next t ∧ t = { s with beam := t.beam, recs := t.recs } ∧
      t.beam.lock = false ∧ t.beam.validRun = 0 ∧
      t.recs = (if s.beam.lock then s.recs.push (mkEv 0x0702 []) else s.recs) ∧
      (s.beam.lock = true → t.beam.faults = wset s.beam.faults 31 16 (sat16 (wfld s.beam.faults 31 16 + 1))) ∧
      (s.beam.lock = false → t.beam.faults = s.beam.faults) ∧
      s.beam = { t.beam with status := s.beam.status, event := s.beam.event, newEvent := s.beam.newEvent,
                             faults := s.beam.faults, oldFaults := s.beam.oldFaults, validRun := s.beam.validRun }) ∧
  (∀ s : State, s.beam.slew ≠ 0 → s.beam.dist = 0 →
    ∃ t, exec .slewComplete s = .next t ∧ bit t.beam.status 5 = false ∧
      t = { s with beam := { s.beam with status := t.beam.status, slew := 0 } })

/-- TRACKER_CYCLE on three phases: at or above FLOOR the tracked frequency is the loop's, held in 15 Hz to 70 Hz (15 Hz where the
grid's sequence is not the one that SEQ_REV shows), and the tracked angle is 0; below FLOOR both stand; a valid cycle (magnitude at or
above FLOOR, frequency in range, sequence as SEQ_REV shows) within 1 degree counts towards LOCK and ends the standstill count, a cycle
that is not valid or lies beyond 10 degrees throughout clears LOCK. BZX_EDGE: a level that holds for GLITCH while the filter has none
starts the filter and is no edge; the first edge only starts the measurement; an edge
closer than MINSPACE is counted as an edge fault with 0x070A; an edge whose period lies in 1/70 s to 1/15 s sets the frequency from
the period and the tracked angle to PHASE_TRIM. SOURCE_CHANGE: LOCK clears, qualification restarts, the sequence, window and slewing
flags clear, and a synchronising reset is issued. Nothing but the beam, the event queue and (after a reset) the inputs' SETTLING
flags changes. -/
def Obligations.TrackingAndSourceChange : Prop :=
  (∀ (mag freq errMax errMin : Nat) (rev : Bool) (s : State), s.beam.src = 1 → s.beam.refGain = 1 →
    ∃ t, exec (.trackerCycle mag freq errMax errMin rev) s = .next t ∧ t = { s with beam := t.beam, recs := t.recs } ∧
      t.beam.trackFreq = (if mag < wfld s.beam.window 23 16 * 10 then s.beam.trackFreq
        else if rev ≠ bit s.beam.status 2 ∨ freq < 983040 then 983040 else if 4587520 < freq then 4587520 else freq) ∧
      t.beam.trackFrac = (if mag < wfld s.beam.window 23 16 * 10 then s.beam.trackFrac else 0) ∧ t.beam.ampl = BitVec.ofNat 32 (sat16 mag) ∧
      t.beam.marks = s.beam.marks ∧ t.beam.ctl = s.beam.ctl ∧ t.beam.cycle = s.beam.cycle ∧ t.beam.frac = s.beam.frac ∧
      (wfld s.beam.window 23 16 * 10 ≤ mag → 983040 ≤ freq → freq ≤ 4587520 → rev = bit s.beam.status 2 →
        errMin ≤ 1820 →
        t.beam.standstill = 0 ∧ t.beam.lock = s.beam.lock ∧
        t.beam.validRun = (if errMax ≤ 182 then satN 15 (s.beam.validRun + 1) else 0)) ∧
      (mag < wfld s.beam.window 23 16 * 10 ∨ freq < 983040 ∨ 4587520 < freq ∨ rev ≠ bit s.beam.status 2 ∨ 1820 < errMin →
        t.beam.lock = false)) ∧
  (∀ (rising : Bool) (held : Nat) (s : State), s.power.vioOk = true → s.beam.src = 2 →
    wfld s.beam.pulse 23 16 * 1000 ≤ held → s.beam.bzxPin ≠ rising → s.beam.bzxLevel = some (!rising) →
    ∃ t, exec (.bzxEdge rising held) s = .next t ∧ t = { s with beam := t.beam, recs := t.recs } ∧
      t.beam.bzxLevel = some rising ∧ t.beam.bzxPin = rising ∧ t.beam.marks = s.beam.marks ∧ t.beam.ctl = s.beam.ctl ∧
      (rising = decide (wfld s.beam.ctl 2 2 = 0) →
        (s.beam.bzxLast = none → t.beam.bzxLast = some s.clock ∧ t.recs = s.recs ∧ t.beam.trackFreq = s.beam.trackFreq) ∧
        (∀ a, s.beam.bzxLast = some a → s.clock - a < s.beam.minSpace →
          t.beam.faults = wset s.beam.faults 15 0 (sat16 (wfld s.beam.faults 15 0 + 1)) ∧
          t.recs = s.recs.push (mkEv 0x070A []) ∧ t.beam.trackFreq = s.beam.trackFreq ∧ t.beam.bzxLast = some a) ∧
        (∀ a, s.beam.bzxLast = some a → s.beam.minSpace ≤ s.clock - a → 200000000 ≤ 70 * (s.clock - a) →
          15 * (s.clock - a) ≤ 200000000 →
          t.beam.trackFreq = (65536 * 200000000 * 2 + (s.clock - a)) / (2 * (s.clock - a)) ∧
          t.beam.bzxLast = some s.clock ∧ t.beam.standstill = 0 ∧ t.beam.validRun = satN 15 (s.beam.validRun + 1)))) ∧
  (∀ (rising : Bool) (held : Nat) (s : State), s.power.vioOk = true → s.beam.src = 2 →
    wfld s.beam.pulse 23 16 * 1000 ≤ held → s.beam.bzxPin ≠ rising → s.beam.bzxLevel = none →
    s.clock < s.beam.bzxSince + 200 * wfld s.beam.pulse 23 16 →
    exec (.bzxEdge rising held) s = .next { s with beam := { s.beam with bzxPin := rising, bzxSince := s.clock,
                                                                         bzxLevel := some rising } }) ∧
  (∀ (src : Nat) (s : State), src < 3 → s.beam.src ≠ src →
    ∃ t, exec (.sourceChange src) s = .next t ∧ t = { s with beam := t.beam, recs := t.recs, loops := t.loops } ∧
      t.beam.src = src ∧ t.beam.lock = false ∧ t.beam.validRun = 0 ∧ t.beam.standstill = 0 ∧ t.beam.slew = 0 ∧
      bit t.beam.status 2 = false ∧ bit t.beam.status 3 = false ∧ bit t.beam.status 4 = false ∧
      bit t.beam.status 6 = true ∧ t.beam.settleAt = some s.clock ∧
      t.recs = (if s.beam.lock then s.recs.push (mkEv 0x0702 []) else s.recs) ∧ t.beam.marks = s.beam.marks ∧
      s.loops = { t.loops with ainStat := s.loops.ainStat })

/-- EXPOSED_ANGLE_ZERO, where the angle passes 0 with this tick's advance, not yet taken: the advance is taken, the cycle count rises
by 1 modulo 2^16, the wall time and the new cycle count are latched, and the standstill count rises unless a valid cycle was
recognised in this tick; elsewhere nothing happens. BEAM_TIME_EXTEND: the extended count takes the 48-bit value whose low 16 bits are the
cycle count, at most 65,535 above the old one modulo 2^48. CYC_WALL_LO_READ freezes CYC_WALL_HI and CYC_TAG at the latched values.
SYNC_RESET sets SETTLING and starts its three samples. SETTLING_DONE, 9.6 us after the last
reset, clears SETTLING and sets SYNCDONE; earlier nothing happens. INPUT_OVER_RANGE: a converted
input beyond its level joins the over-range inputs. OVER_RANGE_RETURN: after 20 ms within its level it leaves them and a
synchronising reset is issued. -/
def Obligations.CycleTimeAndSettling : Prop :=
  (∀ s : State, 2 ^ 48 ≤ s.beam.frac.toNat + s.beam.exposedStep → s.beam.zeroAt ≠ some s.clock →
    exec .exposedAngleZero s = .next { s with beam := { s.beam with
      cycle := s.beam.cycle + 1, frac := s.beam.frac + BitVec.ofNat 48 s.beam.exposedStep, cycWall := s.wall,
      cycTag := s.beam.cycle + 1, zeroAt := some s.clock,
      standstill := if s.beam.validAt = some s.clock then s.beam.standstill else satN 15 (s.beam.standstill + 1) } }) ∧
  (∀ s : State, s.beam.frac.toNat + s.beam.exposedStep < 2 ^ 48 ∨ s.beam.zeroAt = some s.clock →
    exec .exposedAngleZero s = .next s) ∧
  (∀ s : State, ∃ t, exec .beamTimeExtend s = .next t ∧ t = { s with beam := { s.beam with ext := t.beam.ext } } ∧
      t.beam.ext.toNat % 65536 = s.beam.cycle.toNat ∧
      (t.beam.ext - s.beam.ext).toNat < 65536) ∧
  (∀ s : State, ∃ t, exec .cycWallLoRead s = .next t ∧
      t = { s with beam := { s.beam with frozenHi := some (BitVec.ofNat 32 (s.beam.cycWall.toNat / 2 ^ 32)),
                                         frozenTag := some s.beam.cycTag, readHi := false, readTag := false } }) ∧
  (∀ s : State, ∃ t, exec .syncReset s = .next t ∧ bit t.beam.status 6 = true ∧
      t = { s with beam := { s.beam with status := t.beam.status, settleAt := some s.clock },
                   loops := { s.loops with ainStat := t.loops.ainStat } }) ∧
  (∀ (a : Nat) (s : State), s.beam.settleAt = some a → s.clock < a + 1920 → exec .settlingDone s = .next s) ∧
  (∀ (a : Nat) (s : State), bit s.beam.status 6 = true → s.beam.settleAt = some a → a + 1920 ≤ s.clock → ∃ t, exec .settlingDone s = .next t ∧
      bit t.beam.status 6 = false ∧ bit t.beam.event 10 = true ∧
      t = { s with beam := { s.beam with status := t.beam.status, event := t.beam.event, newEvent := t.beam.newEvent,
                                         settleAt := none },
                   loops := { s.loops with ainStat := t.loops.ainStat } }) ∧
  (∀ (input : Nat) (value : Int) (s : State), s.converted input = true → s.beyondRange input value = true →
    ∃ t, exec (.inputOverRange input value) s = .next t ∧ input ∈ t.beam.overRange ∧
      t = { s with beam := { s.beam with overRange := t.beam.overRange },
                   loops := { s.loops with ainStat := t.loops.ainStat, ain := t.loops.ain } } ∧
      (input < 3 → t.loops = s.loops)) ∧
  (∀ (input heldMs : Nat) (s : State), input ∈ s.beam.overRange → 20 ≤ heldMs →
    ∃ t, exec (.overRangeReturn input heldMs) s = .next t ∧ t.beam.overRange = s.beam.overRange.erase input ∧
      bit t.beam.status 6 = true ∧
      t = { s with beam := { s.beam with overRange := t.beam.overRange, status := t.beam.status,
                                         settleAt := some s.clock },
                   loops := { s.loops with ainStat := t.loops.ainStat } })

/-- MARK_ENABLE on a unit M0 to M14 that is not enabled and has STEP other than 0 (and fires at most 100 times a second, for a
notification mark): EN sets, DONE clears and the run begins at the compare value; a compare value already reached sets LATE,
BEAM_EVENT bit 11 and event 0x070C. STEP 0, too many firings or an enabled unit: nothing changes. M15: EN sets, DONE clears.
NOTIFICATION_MARK: a unit M4 to M14 that is due, with no lower unit due, fires: FIRES rises by 1, after firing SUBDIV - 1 the compare
value advances by STEP (by the STEP before a write of this tick), after COUNT firings EN clears and DONE sets, the extended count is
brought up, and one MARK notification (opcode 0x07F0: unit, FIRES, beam time) waits on tenant 0's page. No other unit changes. -/
def Obligations.MarkUnitsRunAndNotify : Prop :=
  (∀ (n : Nat) (s : State), s.tablesOk = true → n < 15 → (s.mark n).step ≠ 0 → (s.mark n).en = false →
    (n < 4 ∨ (s.mark n).subdiv.toNat * s.beam.nominalFreq ≤ 100 * (s.mark n).step.toNat) →
    ∃ t, exec (.markEnable n) s = .next t ∧
      t.mark n = { s.mark n with en := true, done := false, k := 0, fired := 0, stepNow := (s.mark n).step, stepWas := none,
                                 owed := none, newStat := (t.mark n).newStat,
                                 late := (s.mark n).late || reached s.beam.angleWord (s.mark n).cmp.toNat } ∧
      (∀ j, j ≠ n → t.mark j = s.mark j) ∧
      bit t.beam.event 11 = (bit s.beam.event 11 || reached s.beam.angleWord (s.mark n).cmp.toNat) ∧
      t.recs = (if reached s.beam.angleWord (s.mark n).cmp.toNat then s.recs.push (mkEv 0x070C []) else s.recs)) ∧
  (∀ (n : Nat) (s : State), n < 15 → (s.mark n).step = 0 ∨ (s.mark n).en = true ∨
      (4 ≤ n ∧ 100 * (s.mark n).step.toNat < (s.mark n).subdiv.toNat * s.beam.nominalFreq) →
    exec (.markEnable n) s = .next s) ∧
  (∀ s : State, s.tablesOk = true → ∃ t, exec (.markEnable 15) s = .next t ∧
      t.mark 15 = { s.mark 15 with en := true, done := false } ∧ (∀ j, j ≠ 15 → t.mark j = s.mark j) ∧ t.recs = s.recs) ∧
  (∀ (n : Nat) (s : State), s.tablesOk = true → 4 ≤ n → n ≤ 14 → s.markDue n = true → (s.page 0).notes.length < 256 →
    ∃ t, exec (.notificationMark n) s = .next t ∧
      (t.mark n).fires = (s.mark n).fires + 1 ∧ (∀ j, j ≠ n → t.mark j = s.mark j) ∧
      (t.mark n).cmp = (if (s.mark n).subdiv.toNat ≤ (s.mark n).k + 1 then (s.mark n).cmp + (s.mark n).stepAt s.clock else (s.mark n).cmp) ∧
      ((s.mark n).count ≠ 0 → (s.mark n).count.toNat ≤ ((s.mark n).fired + 1) % 65536 →
        (t.mark n).en = false ∧ (t.mark n).done = true) ∧
      ((s.mark n).count = 0 ∨ ((s.mark n).fired + 1) % 65536 < (s.mark n).count.toNat →
        (t.mark n).en = (s.mark n).en ∧ (t.mark n).done = (s.mark n).done) ∧
      (∃ r : Resp, (t.page 0).notes = (s.page 0).notes ++ [r] ∧ r.opcode = 0x07F0 ∧ r.notify = true ∧ rdle r.payload 0 1 = n ∧
        rdle r.payload 2 2 = ((s.mark n).fires + 1).toNat ∧ rdle r.payload 4 8 = s.beamTime) ∧
      t.beam.ext.toNat = s.beam.extended ∧ (∀ k, k ≠ 0 → t.page k = s.page k) ∧ bit t.sys.wakeCause 5 = true)

/-- SWEEP_LAUNCH: when the exposed angle projected over LEAD has reached M0's compare value and its sweep has not been launched, a
launch less than 9.8 ms after the last accepted sweep is skipped; else the sample instant is LEAD (2 ms) after the launch, and each
ring that takes sweeps gets the SYNC of the next generation on both ends, after a trip sequence that occupies its TX, which counts as
a displaced SYNC with event 0x080A; other rings stand. SWEEP_MARK: M0 fires and closes the launch, and the extended count is brought
up; a launched sweep takes the next generation modulo 2^32, a skipped one sets M0's SKIPPED, BEAM_EVENT bit 12 and event 0x070D and
keeps the generation, and one not launched yet keeps it and waits for its launch. -/
def Obligations.SweepsAreLaunchedSampledOrSkipped : Prop :=
  (∀ s : State, s.launchDue = true → s.beam.launchOwed = false → s.tooSoon = true →
    exec .sweepLaunch s = .next { s with beam := { s.beam with skip := true, launched := some s.clock } }) ∧
  (∀ s : State, s.tablesOk = true → s.launchDue = true → s.beam.launchOwed = false → s.tooSoon = false →
    ∃ t, exec .sweepLaunch s = .next t ∧ t = { s with beam := t.beam, rings := t.rings, recs := t.recs } ∧
      t.beam = { s.beam with skip := false, launched := some s.clock, lastSweep := some (s.clock + 400000) } ∧
      (∀ p, p ∉ s.sweptPorts → t.ring p = s.ring p) ∧
      (∀ p ∈ s.sweptPorts, (s.ring p).tripUntil ≤ s.clock →
        t.ring p = (s.ring p).sendBoth s.clock (syncSet ((s.beam.sweepGen + 1) % 2 ^ 32 % 256))) ∧
      (∀ p ∈ s.sweptPorts, s.clock < (s.ring p).tripUntil →
        t.ring p = { (s.ring p).sendBoth (s.ring p).tripUntil (syncSet ((s.beam.sweepGen + 1) % 2 ^ 32 % 256)) with
          displaced := true, displacedCnt := (s.ring p).displacedCnt + 1 }) ∧
      (∀ p, s.sweptPorts = [p] → s.clock < (s.ring p).tripUntil →
        t.recs = s.recs.push (mkEv 0x080A [p, (5 * ((s.ring p).tripUntil - s.clock) : Nat)]))) ∧
  (∀ s : State, s.tablesOk = true → s.markDue 0 = true → s.beam.sweepConf = 0 →
    ∃ t, exec .sweepMark s = .next t ∧ t.beam.launched = none ∧ t.beam.skip = false ∧
      (t.mark 0).fires = (s.mark 0).fires + 1 ∧ (∀ j, j ≠ 0 → t.mark j = s.mark j) ∧
      t.beam.ext.toNat % 65536 = s.beam.cycle.toNat ∧
      (s.beam.skip = false → s.beam.launched.isSome = true →
        t.beam.sweepGen = (s.beam.sweepGen + 1) % 2 ^ 32 ∧ t.beam.event = s.beam.event) ∧
      (s.beam.skip = false → s.beam.launched = none →
        t.beam.sweepGen = s.beam.sweepGen ∧ t.beam.launchOwed = true ∧ t.beam.event = s.beam.event) ∧
      (s.beam.skip = true → t.beam.sweepGen = s.beam.sweepGen ∧ (t.mark 0).skipped = true ∧ bit t.beam.event 12 = true))
/-- RX_LOCK after 32 symbols with 4 commas sets the node's FWD_LOCK or REV_LOCK and clears FAULT_SEEN, or the port end's lock; fewer
change nothing. RX_LOCK_LOST (4 invalid symbols or 1 us of quiet) clears the lock and wraps the node to its working side; FAULT sets
FAULT_SEEN and wraps it. At a port end FAULT splits the ring once, with event 0x0801 and a ring resync owed. RING_REJOIN, when every
wrapped node is sound and a collection frame has closed since, ends the split, owes a ring resync, queues one UNWRAP broadcast and raises 0x0802.
Other nodes and rings keep their state. -/
def Obligations.LinkLocksBreaksAndRejoins : Prop :=
  (∀ (port place symbols commas : Nat) (fwd : Bool) (s : State), s.tablesOk = true → 1 ≤ place →
    ∃ t, exec (.rxLock port place fwd symbols commas) s = .next t ∧ t.rings = s.rings ∧
      (∀ j, j ≠ nodeKey port place → t.node j = s.node j) ∧
      t.node (nodeKey port place) = { s.node (nodeKey port place) with link := (t.node (nodeKey port place)).link } ∧
      (∀ i, i < 16 → bit (t.node (nodeKey port place)).link i =
        if 32 ≤ symbols ∧ 4 ≤ commas ∧ i = (if fwd then 0 else 1) then true
        else if 32 ≤ symbols ∧ 4 ≤ commas ∧ i = 4 then false else bit (s.node (nodeKey port place)).link i)) ∧
  (∀ (port : Nat) (fwd : Bool) (s : State), s.tablesOk = true →
    (∃ t, exec (.rxLock port 0 fwd 32 4) s = .next t ∧ t.nodes = s.nodes ∧ (∀ q, q ≠ port → t.ring q = s.ring q) ∧
      t.ring port = (if fwd then { s.ring port with lockA := true } else { s.ring port with lockB := true })) ∧
    (∃ t, exec (.rxLockLost port 0 fwd 4 0) s = .next t ∧ t.nodes = s.nodes ∧ (∀ q, q ≠ port → t.ring q = s.ring q) ∧
      t.ring port = (if fwd then { s.ring port with lockA := false } else { s.ring port with lockB := false }))) ∧
  (∀ (port place invalid quiet : Nat) (fwd : Bool) (s : State), s.tablesOk = true → 1 ≤ place → 4 ≤ invalid ∨ 1000 ≤ quiet →
    ∃ t, exec (.rxLockLost port place fwd invalid quiet) s = .next t ∧ t.rings = s.rings ∧
      (∀ j, j ≠ nodeKey port place → t.node j = s.node j) ∧
      t.node (nodeKey port place) = { s.node (nodeKey port place) with link := (t.node (nodeKey port place)).link } ∧
      (∀ i, i < 16 → bit (t.node (nodeKey port place)).link i =
        if i = (if fwd then 3 else 2) then true else if i = (if fwd then 0 else 1) then false
        else bit (s.node (nodeKey port place)).link i)) ∧
  (∀ (port place : Nat) (fwd : Bool) (s : State), s.tablesOk = true → 1 ≤ place →
    ∃ t, exec (.faultSet port place fwd) s = .next t ∧ t.rings = s.rings ∧ t.recs = s.recs ∧
      (∀ j, j ≠ nodeKey port place → t.node j = s.node j) ∧
      t.node (nodeKey port place) = { s.node (nodeKey port place) with link := (t.node (nodeKey port place)).link } ∧
      (∀ i, i < 16 → bit (t.node (nodeKey port place)).link i =
        if i = 4 ∨ i = (if fwd then 3 else 2) then true else bit (s.node (nodeKey port place)).link i)) ∧
  (∀ (port : Nat) (fwd : Bool) (s : State), s.tablesOk = true → (s.ring port).split = false →
    ∃ t, exec (.faultSet port 0 fwd) s = .next t ∧ t.nodes = s.nodes ∧ (∀ q, q ≠ port → t.ring q = s.ring q) ∧
      t.ring port = { s.ring port with split := true, tripped := (s.ring port).tripped || (s.ring port).collecting, resync := true,
                                       loopA := none, loopB := none, healed := false } ∧
      t.recs = s.recs.push (mkEv 0x0801 (((port :: s.wrappedPos port).take 5).map Int.ofNat))) ∧
  (∀ (port : Nat) (s : State), s.tablesOk = true → (s.ring port).split = true → (s.ring port).healed = true →
    (s.ring port).collecting = false →
    (∀ i ∈ s.places port, (s.node (nodeKey port i)).wrapped = true → (s.node (nodeKey port i)).sound = true) →
    ∃ t, exec (.ringRejoin port) s = .next t ∧ t.nodes = s.nodes ∧ (∀ q, q ≠ port → t.ring q = s.ring q) ∧
      (∃ c : LinkCmd, c.dst = 0xFFFF ∧ c.op = .unwrap ∧ c.origin = none ∧
        t.ring port = { s.ring port with queue := (s.ring port).queue ++ [c], split := false, healed := false,
                                         resync := true }) ∧
      t.recs = s.recs.push (mkEv 0x0802 [port]))

/-- On a ring in SERVICE: ENUM over a ring of unaddressed nodes gives place i position i and counts the nodes; a node that has a
position keeps it. CLEAR takes a node's position away. An ECHO to a node's position makes it owe one reply on the opposite path, and
the port end records that reply with its round trip, corrected for the crystal; an ECHO to another position does nothing. CENSUS (in ACTIVE and SERVICE) records
HIGH: 0xFFFF where a node has no position, else the highest position. -/
def Obligations.RingsAreEnumeratedAndSurveyed : Prop :=
  (∀ (port count : Nat) (s : State), s.tablesOk = true → count < 65535 → (s.ring port).state = .service →
    (∀ i, 1 ≤ i → i ≤ count → (s.node (nodeKey port i)).pos = 0) →
    ∃ t, exec (.enum port count) s = .next t ∧ (t.ring port).nodes = count ∧ (t.ring port).bresync = true ∧
      (∀ q, q ≠ port → t.ring q = s.ring q) ∧ t.recs = s.recs ∧
      (∀ i, 1 ≤ i → i ≤ count → t.node (nodeKey port i) = { s.node (nodeKey port i) with pos := i }) ∧
      (∀ j, (∀ i, 1 ≤ i → i ≤ count → j ≠ nodeKey port i) → t.node j = s.node j)) ∧
  (∀ (port count : Nat) (s : State) (j : Nat), s.tablesOk = true → (s.ring port).state = .service → (s.node j).pos ≠ 0 →
    ∃ t, exec (.enum port count) s = .next t ∧ t.node j = s.node j) ∧
  (∀ (port place : Nat) (s : State), s.tablesOk = true → (s.ring port).state = .service →
    ∃ t, exec (.clear port place) s = .next t ∧ t.node (nodeKey port place) = { s.node (nodeKey port place) with pos := 0 } ∧
      (∀ j, j ≠ nodeKey port place → t.node j = s.node j)) ∧
  (∀ (port place pos : Nat) (fwd : Bool) (s : State), s.tablesOk = true → (s.ring port).state = .service → pos ≠ 0 →
    ∃ t, exec (.ringEcho port place pos fwd) s = .next t ∧ (∀ q, q ≠ port → t.ring q = s.ring q) ∧
      t.ring port = (if (s.node (nodeKey port place)).pos = pos
        then { s.ring port with echoOut := (s.ring port).echoOut ++ [(pos, !fwd)] } else s.ring port)) ∧
  (∀ (port pos rtt : Nat) (endB : Bool) (s : State), s.tablesOk = true → (pos, endB) ∈ (s.ring port).echoOut →
    s.analogue = true → ∃ t, exec (.echoReply port pos endB rtt) s = .next t ∧ (∀ q, q ≠ port → t.ring q = s.ring q) ∧
      t.ring port = { s.ring port with echoOut := (s.ring port).echoOut.erase (pos, endB),
                                       echoes := (s.ring port).echoes ++ [(pos, b2n endB, s.portNs rtt)] }) ∧
  (∀ (port count : Nat) (s : State), s.tablesOk = true → (s.ring port).state ≠ .isolated → 1 ≤ count →
    (∀ i, 1 ≤ i → i ≤ count → (s.node (nodeKey port i)).pos < 0xFFFF) →
    ∃ t h, exec (.census port count) s = .next t ∧ (∀ q, q ≠ port → t.ring q = s.ring q) ∧
      t.ring port = { s.ring port with census := some h } ∧
      (h = 0xFFFF ↔ ∃ i, 1 ≤ i ∧ i ≤ count ∧ (s.node (nodeKey port i)).pos = 0) ∧
      (h ≠ 0xFFFF → (∃ i, 1 ≤ i ∧ i ≤ count ∧ (s.node (nodeKey port i)).pos = h) ∧
        ∀ i, 1 ≤ i → i ≤ count → (s.node (nodeKey port i)).pos ≤ h))

/-- COLLECT_LAUNCH on a swept ring 0.15 ms after the sample instant opens the collection of the sweep's generation, with its block
(RENEW only while the Reckoner runs). COLLECT of a new generation: a node that has sampled sends its record (and clears the flags it
reported), one that has not sets ADC_FAULT; its lease counter counts down by 1, or is renewed; a second COLLECT of the generation
changes nothing. LEASE_EXPIRED stops every duty and flags it; LEASE_TIMEOUT ends the lease. NODE_SYNC of a new tag starts the sample
delay, one of the current tag nothing. NODE_SAMPLE, COMP_A or COMP_B ns after the SYNC, takes the codes of the enabled inputs (0xFFFF
and 0x8000 elsewhere) and the duties that waited, earlier nothing; NODE_PROJECTED_SAMPLE, SWEEP_IVL after the last sample, sets NOSYNC,
and without a sample in the last 4 s ADC_FAULT. Only that node changes. -/
def Obligations.NodesSampleCollectAndLease : Prop :=
  (∀ (port t0 : Nat) (s : State), s.tablesOk = true → port ∈ s.sweptPorts → s.beam.lastSweep = some t0 → t0 + 30000 ≤ s.clock →
    (s.ring port).gen ≠ s.beam.sweepGen →
    ∃ t b, exec (.collectLaunch port) s = .next t ∧ (∀ q, q ≠ port → t.ring q = s.ring q) ∧
      t.ring port = { s.ring port with
        gen := s.beam.sweepGen, collecting := true, arrived := [], arrivedAt := [], resync := false, displaced := false,
        settling := (s.ring port).resync || s.beam.sweepSettle, block := some b,
        ends := if (s.ring port).split then [false, true] else [false],
        txA := (t.ring port).txA, txB := (t.ring port).txB, txUntil := (t.ring port).txUntil } ∧
      b = ⟨s.beam.sweepGen, (s.ring port).renew && decide (s.sys.run = .running), (s.ring port).resync || s.beam.sweepSettle,
           (s.ring port).displaced, s.beam.sampleAngle.toNat, s.sweepIvl⟩) ∧
  (∀ (port place : Nat) (b : Block) (s : State), s.tablesOk = true → (s.ring port).state = .active → (s.ring port).block = some b →
    (s.node (nodeKey port place)).lastGen ≠ some b.gen →
    ∃ t, exec (.collect port place none) s = .next t ∧ (∀ j, j ≠ nodeKey port place → t.node j = s.node j) ∧
      (t.node (nodeKey port place)).lastGen = some b.gen ∧ (t.node (nodeKey port place)).sweepIvl = b.ivl ∧
      (t.node (nodeKey port place)).lease = (if (s.node (nodeKey port place)).lease = 0 then 0
        else if b.renew then (s.node (nodeKey port place)).leaseLen else (s.node (nodeKey port place)).lease - 1) ∧
      ((s.node (nodeKey port place)).ready = true → (t.node (nodeKey port place)).sent = (s.node (nodeKey port place)).record ∧
        (t.node (nodeKey port place)).ready = false ∧ (t.node (nodeKey port place)).nodeReset = false ∧
        (t.node (nodeKey port place)).leaseExpired = false ∧ (t.node (nodeKey port place)).adcFault = false) ∧
      ((s.node (nodeKey port place)).ready = false → (t.node (nodeKey port place)).adcFault = true ∧
        (t.node (nodeKey port place)).sent = (s.node (nodeKey port place)).sent) ∧
      exec (.collect port place none) t = .next t) ∧
  (∀ (port place : Nat) (s : State), s.tablesOk = true → (s.node (nodeKey port place)).lease = 0 →
    (s.node (nodeKey port place)).leaseLen ≠ 0 →
    ∃ t, exec (.leaseExpired port place) s = .next t ∧ (∀ j, j ≠ nodeKey port place → t.node j = s.node j) ∧
      (∀ i, nth 0 (t.node (nodeKey port place)).duty i = 0) ∧ (t.node (nodeKey port place)).leaseExpired = true ∧
      (t.node (nodeKey port place)).leaseLen = 0 ∧ (t.node (nodeKey port place)).nextDuty = none) ∧
  (∀ (port place : Nat) (s : State), s.tablesOk = true → (s.node (nodeKey port place)).lease ≠ 0 →
    (s.node (nodeKey port place)).lastCollect + (s.node (nodeKey port place)).leaseLen * (s.node (nodeKey port place)).sweepIvl * 300 ≤ s.clock →
    ∃ t, exec (.leaseTimeout port place) s = .next t ∧ (∀ j, j ≠ nodeKey port place → t.node j = s.node j) ∧
      t.node (nodeKey port place) = { s.node (nodeKey port place) with lease := 0 }) ∧
  (∀ (port place tag : Nat) (fwd : Bool) (s : State), s.tablesOk = true → (s.ring port).state = .active →
    ∃ t, exec (.nodeSync port place tag fwd) s = .next t ∧ (∀ j, j ≠ nodeKey port place → t.node j = s.node j) ∧
      t.node (nodeKey port place) = (if (s.node (nodeKey port place)).tag = some tag then s.node (nodeKey port place)
        else { s.node (nodeKey port place) with tag := some tag, sampleDue := some (fwd, s.clock), nosync := false })) ∧
  (∀ (port place stack nodeT busI aux a : Nat) (cells temps : List Nat) (fwd bf it : Bool) (s : State), s.tablesOk = true →
    (s.node (nodeKey port place)).sampleDue = some (fwd, a) →
    ((s.clock - a) * 5 < (if fwd then (s.node (nodeKey port place)).compA else (s.node (nodeKey port place)).compB) →
      exec (.nodeSample port place cells temps stack nodeT busI aux bf it) s = .next s) ∧
    (a * 5 + (if fwd then (s.node (nodeKey port place)).compA else (s.node (nodeKey port place)).compB) ≤ s.clock * 5 →
    ∃ t, exec (.nodeSample port place cells temps stack nodeT busI aux bf it) s = .next t ∧
      (∀ j, j ≠ nodeKey port place → t.node j = s.node j) ∧
      (∀ i, i < 32 → nth 0 (t.node (nodeKey port place)).cells i =
        if bit (s.node (nodeKey port place)).cellEn i then nth 0xFFFF cells i else 0xFFFF) ∧
      (∀ i, i < 8 → nth 0 (t.node (nodeKey port place)).temps i =
        if bit (s.node (nodeKey port place)).tempEn i then nth 0x8000 temps i else 0x8000) ∧
      (t.node (nodeKey port place)).ready = it ∧ (t.node (nodeKey port place)).lastSample = some s.clock ∧
      bit (t.node (nodeKey port place)).nstat 1 = bf ∧
      (∀ d r, (s.node (nodeKey port place)).nextDuty = some (d, r) → (t.node (nodeKey port place)).duty = d ∧
        (t.node (nodeKey port place)).dir = r ∧ (t.node (nodeKey port place)).nextDuty = none))) ∧
  (∀ (port place tag stack nodeT busI aux : Nat) (cells temps : List Nat) (bf it : Bool) (s : State), s.tablesOk = true →
    (s.node (nodeKey port place)).tag ≠ some tag →
    (∀ a, (s.node (nodeKey port place)).lastSample = some a → a + 200 * (s.node (nodeKey port place)).sweepIvl ≤ s.clock) →
    ∃ t, exec (.nodeProjectedSample port place tag cells temps stack nodeT busI aux bf it) s = .next t ∧
      (∀ j, j ≠ nodeKey port place → t.node j = s.node j) ∧
      (t.node (nodeKey port place)).tag = some tag ∧ (t.node (nodeKey port place)).nosync = true ∧
      ((∀ a, (s.node (nodeKey port place)).lastSample = some a → a + 800000000 ≤ s.clock) →
        (t.node (nodeKey port place)).adcFault = true ∧ (t.node (nodeKey port place)).ready = true) ∧
      (∀ a, (s.node (nodeKey port place)).lastSample = some a → s.clock < a + 800000000 →
        (t.node (nodeKey port place)).lastSample = some s.clock))

/-- RECORD_RECEIVED: during a collection, the node's first record with a good CRC-32C and its own, configured position arrives and is
staged under the ring's generation; with NODE_RESET it asks for resynchronisation with event 0x0804; one that fails the CRC-32C or
carries another position changes nothing. COLLECT_FRAME_CLOSED of the last frame closes the collection: every configured position
without a record counts as missing, each with event 0x080B (here: none, or one); off a split it updates the skew figure, one above
250 ns counting a run, any other ending it; a frame that returns to its own end declares the split with event 0x0801. SKEW_LIMIT after
10 such sweeps sets it with event 0x0803. -/
def Obligations.RecordsArriveOrGoMissing : Prop :=
  (∀ (port place : Nat) (bytes : List Byte) (s : State), s.tablesOk = true → s.analogue = true → (s.ring port).collecting = true →
    recordGood bytes = true → rdle bytes 0 2 = (s.node (nodeKey port place)).pos → rdle bytes 0 2 ∉ (s.ring port).arrived →
    (s.ring port).config.any (fun n => decide (n.pos = rdle bytes 0 2)) = true →
    ∃ t, exec (.recordReceived port place bytes) s = .next t ∧ (∀ q, q ≠ port → t.ring q = s.ring q) ∧
      rdle bytes 0 2 ∈ (t.ring port).arrived ∧
      (∀ p, p ≠ rdle bytes 0 2 → (p ∈ (t.ring port).arrived ↔ p ∈ (s.ring port).arrived)) ∧
      t.staged port (rdle bytes 0 2) = ((s.ring port).gen, bytes) ∧
      (t.ring port).gen = (s.ring port).gen ∧ (t.ring port).missing = (s.ring port).missing ∧
      ((rdle bytes 2 1).testBit 1 = false → t.recs = s.recs ∧ (t.ring port).synced = (s.ring port).synced) ∧
      ((rdle bytes 2 1).testBit 1 = true → t.recs = s.recs.push (mkEv 0x0804 [port, rdle bytes 0 2]) ∧
        (t.ring port).bresync = true ∧ (t.ring port).synced = (s.ring port).synced.erase (rdle bytes 0 2))) ∧
  (∀ (port place : Nat) (bytes : List Byte) (s : State),
    recordGood bytes = false ∨ rdle bytes 0 2 ≠ (s.node (nodeKey port place)).pos →
    exec (.recordReceived port place bytes) s = .next s) ∧
  (∀ (port fNow : Nat) (s : State), s.tablesOk = true → (s.ring port).ends = [false] → (s.ring port).split = false →
    (∀ n ∈ (s.ring port).config, n.pos ∈ (s.ring port).arrived) →
    ∃ t, exec (.collectFrameClosed port fNow false false) s = .next t ∧ (∀ q, q ≠ port → t.ring q = s.ring q) ∧ t.recs = s.recs ∧
      (t.ring port).collecting = false ∧ (t.ring port).tripped = false ∧ (t.ring port).ends = [] ∧
      (t.ring port).missing = (s.ring port).missing ∧ (t.ring port).fNow = s.portNs fNow ∧
      (t.ring port).skew = sat16 (skewFigure (s.ring port).fCal (s.ring port).rCal (s.portNs fNow)) ∧
      (t.ring port).skewRun = (if 250 < skewFigure (s.ring port).fCal (s.ring port).rCal (s.portNs fNow)
        then satN 15 ((s.ring port).skewRun + 1) else 0)) ∧
  (∀ (port fNow : Nat) (n : NodeId) (s : State), s.tablesOk = true → (s.ring port).ends = [false] → (s.ring port).config = [n] →
    n.pos ∉ (s.ring port).arrived → (s.ring port).tripped = false → s.power.vanaLost = false → port ∉ s.power.recheck →
    ∃ t, exec (.collectFrameClosed port fNow false false) s = .next t ∧ (∀ q, q ≠ port → t.ring q = s.ring q) ∧
      (t.ring port).collecting = false ∧ (t.ring port).missing = ((s.ring port).missing + 1) % 2 ^ 32 ∧
      t.recs = s.recs.push (mkEv 0x080B [port, n.pos, ((s.ring port).gen : Nat)])) ∧
  (∀ (port fNow : Nat) (s : State), s.tablesOk = true → (s.ring port).ends = [false] → (s.ring port).split = false →
    (∀ n ∈ (s.ring port).config, n.pos ∈ (s.ring port).arrived) →
    ∃ t, exec (.collectFrameClosed port fNow false true) s = .next t ∧ (∀ q, q ≠ port → t.ring q = s.ring q) ∧
      (t.ring port).split = true ∧ (t.ring port).resync = true ∧ (t.ring port).loopA = some (s.portNs fNow) ∧
      (t.ring port).skew = (s.ring port).skew ∧ (t.ring port).collecting = false ∧
      t.recs = s.recs.push (mkEv 0x0801 (((port :: s.wrappedPos port).take 5).map Int.ofNat))) ∧
  (∀ (port : Nat) (s : State), s.tablesOk = true → 10 ≤ (s.ring port).skewRun → (s.ring port).skewLimit = false →
    ∃ t, exec (.skewLimit port) s = .next t ∧ (∀ q, q ≠ port → t.ring q = s.ring q) ∧
      t.ring port = { s.ring port with skewLimit := true } ∧
      t.recs = s.recs.push (mkEv 0x0803 [port, (s.ring port).skew]))

/-- KEEPALIVE_LAUNCH, 20 ms after a ring's last one or at its first, reaches exactly the rings that are not ISOLATED, while the ports
are fed. A valid KEEPALIVE restarts a string-switch node's watchdog, one that fails a check does not; at its expiry the outputs open and
LATCH_WD sets. NODE_START keeps what is non-volatile, opens the outputs with NODE_RESET set, LATCH_WD on a string-switch node and
NV_FAULT as found, unsynchronised. TRIP: the first good copy that names the node stops its balancing and, unless its scope is balancing,
opens and latches a string-switch node; what waits in the node's buffer is lost; a copy of the same TRIP_ID within 1 ms acts no more; a
bad copy only waits for a good one; TRIP_BODY_TIMEOUT 10 us after the ordered set stops balancing. NODE_HOT: a hot board stops
balancing. Only that node changes. -/
def Obligations.NodesGuardTheirOutputs : Prop :=
  (∀ s : State, s.tablesOk = true → s.guard.guardOk = true → s.portsUp = true →
    ∃ t, exec .keepaliveLaunch s = .next t ∧
      (∀ p < 128, (s.ring p).state ≠ .isolated → (∀ a, (s.ring p).kaAt = some a → a + 4000000 ≤ s.clock) →
        (t.ring p).kaAt = some s.clock ∧ t.ring p = { s.ring p with
          kaAt := (t.ring p).kaAt, txA := (t.ring p).txA, txB := (t.ring p).txB, txUntil := (t.ring p).txUntil }) ∧
      (∀ p, (s.ring p).state = .isolated ∨ (∃ a, (s.ring p).kaAt = some a ∧ s.clock < a + 4000000) → t.ring p = s.ring p)) ∧
  (∀ (port place : Nat) (s : State), s.tablesOk = true → (s.ring port).state ≠ .isolated →
    (s.node (nodeKey port place)).type = 2 →
    (∃ t, exec (.keepalive port place none) s = .next t ∧ (∀ j, j ≠ nodeKey port place → t.node j = s.node j) ∧
      t.node (nodeKey port place) = { s.node (nodeKey port place) with wdSince := s.clock }) ∧
    ∀ raw, parseFrame raw = none → ∃ t, exec (.keepalive port place (some raw)) s = .next t ∧
      (∀ j, j ≠ nodeKey port place → t.node j = s.node j) ∧
      t.node (nodeKey port place) = { s.node (nodeKey port place) with crcErr := sat16 ((s.node (nodeKey port place)).crcErr + 1) }) ∧
  (∀ (port place : Nat) (s : State), s.tablesOk = true → (s.node (nodeKey port place)).type = 2 →
    (s.node (nodeKey port place)).wdSince + (s.node (nodeKey port place)).switchWd * 200000 ≤ s.clock →
    ∃ t, exec (.switchWatchdogExpiry port place) s = .next t ∧ (∀ j, j ≠ nodeKey port place → t.node j = s.node j) ∧
      t.node (nodeKey port place) = { s.node (nodeKey port place) with out := 0, latchWd := true }) ∧
  (∀ (port place : Nat) (nv : Bool) (s : State), s.tablesOk = true →
    ∃ t, exec (.nodeStart port place nv) s = .next t ∧ (∀ j, j ≠ nodeKey port place → t.node j = s.node j) ∧
      (t.node (nodeKey port place)).out = 0 ∧
      (t.node (nodeKey port place)).latchWd = decide ((s.node (nodeKey port place)).type = 2) ∧
      bit (t.node (nodeKey port place)).nstat 3 = nv ∧
      (t.node (nodeKey port place)).nodeReset = true ∧ (t.node (nodeKey port place)).usync = false ∧
      (t.node (nodeKey port place)).bsync = false ∧ (t.node (nodeKey port place)).lease = 0 ∧
      (t.node (nodeKey port place)).pos = (s.node (nodeKey port place)).pos ∧
      (t.node (nodeKey port place)).string = (s.node (nodeKey port place)).string ∧
      (t.node (nodeKey port place)).cellEn = (s.node (nodeKey port place)).cellEn ∧
      (t.node (nodeKey port place)).switchWd = (s.node (nodeKey port place)).switchWd) ∧
  (∀ (port place id scope target cause : Nat) (s : State), s.tablesOk = true →
    (s.ring port).tripBody = some (id, scope, target, cause) → id < 65536 → scope < 256 → target < 65536 → cause < 65536 →
    ((∀ i a, (s.node (nodeKey port place)).lastTrip = some (i, a) → i ≠ id ∨ a + 200000 ≤ s.clock) →
      ∃ t, exec (.trip port place none) s = .next t ∧ (∀ j, j ≠ nodeKey port place → t.node j = s.node j) ∧
        (t.node (nodeKey port place)).lastTrip = some (id, s.clock) ∧ (t.node (nodeKey port place)).tripSeen = none ∧
        (t.node (nodeKey port place)).ready = false ∧ (t.node (nodeKey port place)).answer = none ∧
        (scope ≠ 2 ∨ (s.node (nodeKey port place)).string = target → (t.node (nodeKey port place)).lease = 0 ∧
          ∀ i, nth 0 (t.node (nodeKey port place)).duty i = 0) ∧
        (scope ≠ 3 → (scope ≠ 2 ∨ (s.node (nodeKey port place)).string = target) → (s.node (nodeKey port place)).type = 2 →
          (t.node (nodeKey port place)).out = 0 ∧ (t.node (nodeKey port place)).latchTrip = true) ∧
        (scope = 2 → (s.node (nodeKey port place)).string ≠ target →
          t.node (nodeKey port place) = { s.node (nodeKey port place) with
            lastTrip := some (id, s.clock), tripSeen := none, ready := false, answer := none })) ∧
    (∀ a, (s.node (nodeKey port place)).lastTrip = some (id, a) → s.clock < a + 200000 →
      ∃ t, exec (.trip port place none) s = .next t ∧ (∀ j, j ≠ nodeKey port place → t.node j = s.node j) ∧
        t.node (nodeKey port place) = { s.node (nodeKey port place) with tripSeen := none, ready := false, answer := none }) ∧
    (∀ raw, crcGood 8 raw = false → (s.node (nodeKey port place)).lastTrip = none →
      ∃ t, exec (.trip port place (some raw)) s = .next t ∧ (∀ j, j ≠ nodeKey port place → t.node j = s.node j) ∧
        t.node (nodeKey port place) = { s.node (nodeKey port place) with
          tripSeen := some ((s.node (nodeKey port place)).tripSeen.getD s.clock), ready := false, answer := none })) ∧
  (∀ (port place a : Nat) (s : State), s.tablesOk = true → (s.node (nodeKey port place)).tripSeen = some a → a + 2000 ≤ s.clock →
    ∃ t, exec (.tripBodyTimeout port place) s = .next t ∧ (∀ j, j ≠ nodeKey port place → t.node j = s.node j) ∧
      (t.node (nodeKey port place)).lease = 0 ∧ (∀ i, nth 0 (t.node (nodeKey port place)).duty i = 0) ∧
      (t.node (nodeKey port place)).tripSeen = none ∧ (t.node (nodeKey port place)).out = (s.node (nodeKey port place)).out) ∧
  (∀ (port place : Nat) (hot : Bool) (s : State), s.tablesOk = true →
    ∃ t, exec (.nodeHot port place hot) s = .next t ∧ (∀ j, j ≠ nodeKey port place → t.node j = s.node j) ∧
      bit (t.node (nodeKey port place)).nstat 2 = hot ∧
      (hot = true → (t.node (nodeKey port place)).lease = 0 ∧ ∀ i, nth 0 (t.node (nodeKey port place)).duty i = 0))
/-- For a unicast command that reaches the node and whose number it accepts (RESYNC, or 1 to 0x7FFF ahead while synchronised), the node keeps the number
and the answer, and: READ answers the register bytes; WRITE of writable registers in range is applied, so that every byte reads back
and no other register byte below 0x24 changes, a refused one (status 1, 2, 3) changes no register, and a busy memory answers 4 and
commits nothing; BALANCE takes lease and duties for the next sample, or refuses a duty on a disabled input with 3; SWITCH drives the
outputs on a guard frame, answers 6 without one and 7 on a cell node; CLEAR releases both latches. No other node changes. -/
def Obligations.NodesExecuteUnicastCommands : Prop :=
  (∀ (port place seq addr count : Nat) (resync : Bool) (s : State), s.tablesOk = true → 1 ≤ count → count ≤ 240 →
    addr + count ≤ 65536 → s.reaches port place 0x20 false = true → (s.node (nodeKey port place)).inSequence seq resync false = true →
    ∃ t bs, exec (.readNode port place seq resync addr count none) s = .next t ∧ (∀ j, j ≠ nodeKey port place → t.node j = s.node j) ∧
      bs.length = count ∧ (∀ i, i < count → nth 0 bs i = (s.node (nodeKey port place)).regByte (addr + i)) ∧
      t.node (nodeKey port place) = { (s.node (nodeKey port place)).accepted seq 0 bs with
        crcErr := (t.node (nodeKey port place)).crcErr, staleCnt := (t.node (nodeKey port place)).staleCnt } ∧
      (addr + count ≤ 0x28 ∨ 0x2C ≤ addr → t.node (nodeKey port place) = (s.node (nodeKey port place)).accepted seq 0 bs) ∧
      (addr ≤ 0x28 → 0x2A ≤ addr + count → (t.node (nodeKey port place)).crcErr = 0)) ∧
  (∀ (port place seq addr : Nat) (data : List Byte) (resync : Bool) (s : State), s.tablesOk = true → 1 ≤ data.length →
    data.length ≤ 240 → s.reaches port place 0x21 false = true → (s.node (nodeKey port place)).inSequence seq resync false = true →
    ((s.node (nodeKey port place)).writeStatus addr data = 0 →
      ∃ t, exec (.writeNode port place seq resync false addr data false none) s = .next t ∧
        (∀ j, j ≠ nodeKey port place → t.node j = s.node j) ∧ (t.node (nodeKey port place)).answer = some (seq, 0, []) ∧
        (∀ i, i < data.length → (t.node (nodeKey port place)).regByte (addr + i) = nth 0 data i) ∧
        (∀ a, a < 0x24 → a < addr ∨ addr + data.length ≤ a →
          (t.node (nodeKey port place)).regByte a = (s.node (nodeKey port place)).regByte a)) ∧
    ((s.node (nodeKey port place)).writeStatus addr data ≠ 0 → ∀ busy,
      ∃ t, exec (.writeNode port place seq resync false addr data busy none) s = .next t ∧
        (∀ j, j ≠ nodeKey port place → t.node j = s.node j) ∧
        t.node (nodeKey port place) = (s.node (nodeKey port place)).accepted seq ((s.node (nodeKey port place)).writeStatus addr data) []) ∧
    ((s.node (nodeKey port place)).writeStatus addr data = 0 →
      ∃ t, exec (.writeNode port place seq resync false addr data true none) s = .next t ∧
        (∀ j, j ≠ nodeKey port place → t.node j = s.node j) ∧
        t.node (nodeKey port place) = { s.node (nodeKey port place) with answer := some (seq, 4, []) })) ∧
  (∀ (port place seq lease dir : Nat) (duty : List Nat) (resync : Bool) (s : State), s.tablesOk = true → duty.length = 32 →
    1 ≤ lease → lease ≤ 255 → s.reaches port place 0x22 false = true → (s.node (nodeKey port place)).inSequence seq resync false = true →
    ((∀ i, i < 32 → nth 0 duty i ≠ 0 → bit (s.node (nodeKey port place)).cellEn i = true) →
      bit (s.node (nodeKey port place)).nstat 2 = false →
      ∃ t, exec (.balance port place seq resync lease dir duty none) s = .next t ∧ (∀ j, j ≠ nodeKey port place → t.node j = s.node j) ∧
        t.node (nodeKey port place) = { (s.node (nodeKey port place)).accepted seq 0 [] with
          lease := lease, leaseLen := lease, nextDuty := some (duty, BitVec.ofNat 32 dir) }) ∧
    (∀ i, i < 32 → nth 0 duty i ≠ 0 → bit (s.node (nodeKey port place)).cellEn i = false →
      ∃ t, exec (.balance port place seq resync lease dir duty none) s = .next t ∧ (∀ j, j ≠ nodeKey port place → t.node j = s.node j) ∧
        t.node (nodeKey port place) = (s.node (nodeKey port place)).accepted seq 3 [])) ∧
  (∀ (port place seq out : Nat) (resync : Bool) (s : State), s.tablesOk = true → fld out 6 3 = 0 → out < 256 →
    s.reaches port place 0x23 false = true → (s.node (nodeKey port place)).inSequence seq resync false = true →
    ((s.node (nodeKey port place)).type = 2 → out.testBit 7 = true ∨ (s.node (nodeKey port place)).latched = false →
      ∃ t, exec (.switch port place seq resync true out none) s = .next t ∧ (∀ j, j ≠ nodeKey port place → t.node j = s.node j) ∧
        (t.node (nodeKey port place)).out.toNat = out % 8 ∧ (t.node (nodeKey port place)).latched = false ∧
        (t.node (nodeKey port place)).answer = some (seq, 0, [])) ∧
    ((s.node (nodeKey port place)).type = 2 → ∃ t, exec (.switch port place seq resync false out none) s = .next t ∧
        (∀ j, j ≠ nodeKey port place → t.node j = s.node j) ∧
        t.node (nodeKey port place) = (s.node (nodeKey port place)).accepted seq 6 []) ∧
    ((s.node (nodeKey port place)).type ≠ 2 → ∀ g, ∃ t, exec (.switch port place seq resync g out none) s = .next t ∧
        (∀ j, j ≠ nodeKey port place → t.node j = s.node j) ∧
        t.node (nodeKey port place) = (s.node (nodeKey port place)).accepted seq 7 []))

/-- A WRITE whose number a node does not accept executes nothing: an unsynchronised node answers NOT_SYNCED (5) to a unicast command
and nothing to a broadcast, a duplicate repeats the stored answer, an earlier number counts in STALE_CNT. UNWRAP ends the wrap of a
node whose two RX are locked without FAULT, of no other. FW_BLOCK stores its data at its offset, at offset 0 as the whole image; a block
beyond the capacity answers 1 and stores nothing. FW_ACTIVATE answers 0 for a complete image with the named CRC-32C, which the node then
restarts into, 3 for any other. NODE_FW_RESTART: the node starts anew without a stored image, in the new version, or in the old one where
it did not start. A frame that fails the checks of R64 and R67 is counted in CRC_ERR and does nothing else, whatever it was. -/
def Obligations.NodesKeepSequenceAndFirmware : Prop :=
  (∀ (port place seq addr : Nat) (data : List Byte) (busy : Bool) (s : State), s.tablesOk = true → 1 ≤ data.length →
    data.length ≤ 240 → seq < 65536 →
    (s.reaches port place 0x21 false = true → (s.node (nodeKey port place)).usync = false →
      ∃ t, exec (.writeNode port place seq false false addr data busy none) s = .next t ∧
        (∀ j, j ≠ nodeKey port place → t.node j = s.node j) ∧
        t.node (nodeKey port place) = { s.node (nodeKey port place) with answer := some (seq, 5, []) }) ∧
    (∀ st bs, s.reaches port place 0x21 false = true → (s.node (nodeKey port place)).usync = true →
      (s.node (nodeKey port place)).lastSeq = seq → (s.node (nodeKey port place)).stored = some (st, bs) →
      ∃ t, exec (.writeNode port place seq false false addr data busy none) s = .next t ∧
        (∀ j, j ≠ nodeKey port place → t.node j = s.node j) ∧
        t.node (nodeKey port place) = { s.node (nodeKey port place) with answer := some (seq, st, bs) }) ∧
    (s.reaches port place 0x21 false = true → (s.node (nodeKey port place)).usync = true →
      seq + 0x8000 = (s.node (nodeKey port place)).lastSeq →
      ∃ t, exec (.writeNode port place seq false false addr data busy none) s = .next t ∧
        (∀ j, j ≠ nodeKey port place → t.node j = s.node j) ∧
        t.node (nodeKey port place) = { s.node (nodeKey port place) with
          staleCnt := sat16 ((s.node (nodeKey port place)).staleCnt + 1) }) ∧
    (s.reaches port place 0x21 true = true → (s.node (nodeKey port place)).bsync = false →
      ∃ t, exec (.writeNode port place seq false true addr data busy none) s = .next t ∧
        (∀ j, t.node j = s.node j))) ∧
  (∀ (port place seq : Nat) (resync bcast : Bool) (s : State), s.tablesOk = true → s.reaches port place 0x24 bcast = true →
    (s.node (nodeKey port place)).inSequence seq resync bcast = true →
    ∃ t, exec (.unwrap port place seq resync bcast none) s = .next t ∧ (∀ j, j ≠ nodeKey port place → t.node j = s.node j) ∧
      t.node (nodeKey port place) = { (s.node (nodeKey port place)).took seq bcast 0 [] with
        link := if (s.node (nodeKey port place)).sound then putBit (putBit (s.node (nodeKey port place)).link 2 false) 3 false
                else (s.node (nodeKey port place)).link }) ∧
  (∀ (port place seq off : Nat) (data : List Byte) (resync bcast : Bool) (s : State), s.tablesOk = true → 1 ≤ data.length →
    data.length ≤ 240 → s.reaches port place 0x40 bcast = true → (s.node (nodeKey port place)).inSequence seq resync bcast = true →
    ∃ t area, exec (.fwBlock port place seq resync bcast off data none) s = .next t ∧
      (∀ j, j ≠ nodeKey port place → t.node j = s.node j) ∧
      t.node (nodeKey port place) = (if Config.nodeCapacity < off + data.length then (s.node (nodeKey port place)).took seq bcast 1 []
        else { (s.node (nodeKey port place)).took seq bcast 0 [] with fwArea := area }) ∧
      (∀ a, tfind? area a = if off ≤ a ∧ a < off + data.length then some (nth 0 data (a - off))
        else if off = 0 then none else tfind? (s.node (nodeKey port place)).fwArea a) ∧
      (off = 0 → data.length ≤ Config.nodeCapacity → (t.node (nodeKey port place)).image? = some data)) ∧
  (∀ (port place seq crc : Nat) (resync bcast : Bool) (s : State), s.tablesOk = true → crc < 2 ^ 32 →
    s.reaches port place 0x41 bcast = true → (s.node (nodeKey port place)).inSequence seq resync bcast = true →
    ((s.node (nodeKey port place)).image?.map crc32c = some crc →
      ∃ t, exec (.fwActivate port place seq resync bcast crc none) s = .next t ∧
        (∀ j, j ≠ nodeKey port place → t.node j = s.node j) ∧
        t.node (nodeKey port place) = { (s.node (nodeKey port place)).took seq bcast 0 [] with fwNext := some crc }) ∧
    ((s.node (nodeKey port place)).image?.map crc32c ≠ some crc →
      ∃ t, exec (.fwActivate port place seq resync bcast crc none) s = .next t ∧
        (∀ j, j ≠ nodeKey port place → t.node j = s.node j) ∧
        t.node (nodeKey port place) = (s.node (nodeKey port place)).took seq bcast 3 [])) ∧
  (∀ (port place ver : Nat) (started : Bool) (s : State), s.tablesOk = true → (s.node (nodeKey port place)).fwNext ≠ none →
    ∃ t, exec (.nodeFwRestart port place ver started) s = .next t ∧ (∀ j, j ≠ nodeKey port place → t.node j = s.node j) ∧
      t.node (nodeKey port place) = { (s.node (nodeKey port place)).start s.clock with
        fwNext := none, fwArea := [], fwVer := if started then ver else (s.node (nodeKey port place)).fwVer }) ∧
  (∀ (port place seq a b : Nat) (x y z : Bool) (l raw : List Byte) (duty : List Nat) (s : State),
    (s.ring port).state ≠ .isolated → parseFrame raw = none →
    ∀ c ∈ [Instr.readNode port place seq x a b (some raw), .writeNode port place seq x y a l z (some raw),
           .balance port place seq x a b duty (some raw), .switch port place seq x y a (some raw),
           .unwrap port place seq x y (some raw), .fwBlock port place seq x y a l (some raw),
           .fwActivate port place seq x y a (some raw), .keepalive port place (some raw)],
      exec c s = .next (s.modNode (nodeKey port place) fun n => { n with crcErr := sat16 (n.crcErr + 1) }))

/-- COMMAND_LAUNCH takes the first command that may leave: unicast, it gets the node's next number (RESYNC where the node is not
synchronised), and is outstanding; a broadcast leaves and is done, its request answered OK. RESPONSE with the number outstanding ends
the command and answers its request with the data, or with NODE_STATUS; BUSY keeps it waiting, NOT_SYNCED resends it with RESYNC while
the ring's state admits it; another number, or a port that is not fed, changes nothing. COMMAND_TIMEOUT retransmits three times while
the ring's state admits the command, then gives up with event 0x0805 and NODE_TIMEOUT; BUSY_RETRY resends after 10 ms and gives up after
1 s. Commands of a node update in progress are not meant here. -/
def Obligations.ModuleCommandsAreAnsweredOrGivenUp : Prop :=
  (∀ (port : Nat) (c : LinkCmd) (s : State), s.tablesOk = true → s.nextCmd? port = some c →
    ∃ t, exec (.commandLaunch port) s = .next t ∧ (∀ q, q ≠ port → t.ring q = s.ring q) ∧
      (t.ring port).queue = (s.ring port).queue.erase c ∧
      (c.dst ≠ 0xFFFF → t.sys = s.sys ∧ c.dst ∈ (t.ring port).synced ∧
        (t.ring port).out = (s.ring port).out ++ [{ c with
          seq := (tget (0 : Nat) (s.ring port).useq c.dst + 1) % 65536, at_ := s.clock,
          resync := !(s.ring port).synced.contains c.dst }]) ∧
      (c.dst = 0xFFFF → (t.ring port).out = (s.ring port).out ∧ (t.ring port).bseq = ((s.ring port).bseq + 1) % 65536 ∧
        (t.ring port).bresync = false ∧
        (∀ rq op, c.origin = some (rq, op) → t.sys = (s.ok rq op []).sys) ∧ (c.origin = none → t.sys = s.sys))) ∧
  (∀ (port pos seq status : Nat) (data : List Byte) (c : LinkCmd) (s : State), s.tablesOk = true → s.upd.node = none →
    (s.ring port).outAt? pos = some c →
    ∃ t, exec (.response port pos seq status data none) s = .next t ∧ (∀ q, q ≠ port → t.ring q = s.ring q) ∧
      (seq ≠ c.seq ∨ s.portsUp = false → t = s) ∧
      (s.portsUp = true → seq = c.seq → status = 4 → (t.ring port).out = (s.ring port).out.map (fun o => if o = c then
        { c with busySince := some (c.busySince.getD s.clock), at_ := s.clock, waits := true } else o)) ∧
      (s.portsUp = true → seq = c.seq → status = 5 → (s.ring port).state.admits c.op = true →
        (t.ring port).out = (s.ring port).out.map (fun o => if o = c then { c with resync := true, at_ := s.clock } else o)) ∧
      (s.portsUp = true → seq = c.seq → status ≠ 4 → status ≠ 5 → (t.ring port).out = (s.ring port).out.erase c ∧
        (c.origin = none → t.sys = s.sys) ∧
        (∀ rq op, c.origin = some (rq, op) → status = 0 → t.sys = (s.ok rq op data).sys) ∧
        (∀ rq op, c.origin = some (rq, op) → status ≠ 0 → t.sys = (s.refuse rq op ⟨0x0018, status, pos⟩).sys))) ∧
  (∀ (port pos : Nat) (c : LinkCmd) (s : State), s.tablesOk = true → s.upd.node = none → (s.ring port).outAt? pos = some c →
    c.waits = false → c.at_ + (s.ring port).timeout ≤ s.clock →
    ∃ t, exec (.commandTimeout port pos) s = .next t ∧ (∀ q, q ≠ port → t.ring q = s.ring q) ∧
      (c.tries < 3 → (s.ring port).state.admits c.op = true →
        t.sys = s.sys ∧ t.recs = s.recs ∧ (t.ring port).out = (s.ring port).out.map (fun o => if o = c then
          { c with tries := c.tries + 1, retry := true, at_ := s.clock } else o)) ∧
      (3 ≤ c.tries → (t.ring port).out = (s.ring port).out.erase c ∧ (t.ring port).synced = (s.ring port).synced.erase pos ∧
        t.recs = s.recs.push (mkEv 0x0805 [port, pos, c.op.type]) ∧
        (∀ rq op, c.origin = some (rq, op) → t.sys = (s.refuse rq op ⟨0x0012, port, pos⟩).sys))) ∧
  (∀ (port pos a : Nat) (c : LinkCmd) (s : State), s.tablesOk = true → s.upd.node = none → (s.ring port).outAt? pos = some c →
    c.waits = true → c.busySince = some a →
    ∃ t, exec (.busyRetry port pos) s = .next t ∧ (∀ q, q ≠ port → t.ring q = s.ring q) ∧
      (a + 200000000 ≤ s.clock → (t.ring port).out = (s.ring port).out.erase c ∧
        (∀ rq op, c.origin = some (rq, op) → t.sys = (s.refuse rq op ⟨0x0018, 4, pos⟩).sys)) ∧
      (s.clock < a + 200000000 → c.at_ + 2000000 ≤ s.clock → (s.ring port).state.admits c.op = true → t.sys = s.sys ∧
        (t.ring port).out = (s.ring port).out.map (fun o => if o = c then { c with at_ := s.clock, retry := true, waits := false } else o)))

/-- NOP, VADD, VSUB, VNEG, VABS, VMAX, VMIN, VMOV, VMUL, VSHR, VSHL, VSEL, VCGT, VCEQ, QDIV and VBCL complete on a rod that is
about to issue their word: each writes its destination by cell as R132 says (the pass B column included), the next words enter the
window, PC advances by one and the cycles by the row's number and the stall; every other rod, every other register of the rod and
the event queue stay. QDIV asks for divisors that are not 0 in the occupied cells, VBCL for a cell number of 0 to 15. -/
def Obligations.VectorInstructionsCompute : Prop :=
  (∀ (rod stall : Nat), Runs (.nop rod stall) rod 0 (1 + stall) always fun _ c => c) ∧
  (∀ (rod stall d a b : Nat), Runs (.vadd rod stall d a b) rod (kR 0x01 d a b 0 0) (1 + stall) always fun _ c => c.vput d fun i => satQ (c.vc a i + c.vc b i)) ∧
  (∀ (rod stall d a b : Nat), Runs (.vsub rod stall d a b) rod (kR 0x02 d a b 0 0) (1 + stall) always fun _ c => c.vput d fun i => satQ (c.vc a i - c.vc b i)) ∧
  (∀ (rod stall d a : Nat), Runs (.vneg rod stall d a) rod (kR 0x03 d a 0 0 0) (1 + stall) always fun _ c => c.vput d fun i => -(c.vc a i)) ∧
  (∀ (rod stall d a : Nat), Runs (.vabs rod stall d a) rod (kR 0x04 d a 0 0 0) (1 + stall) always fun _ c => c.vput d fun i => if c.passB then -((c.vc a i).natAbs : Int) else ((c.vc a i).natAbs : Int)) ∧
  (∀ (rod stall d a b : Nat), Runs (.vmax rod stall d a b) rod (kR 0x05 d a b 0 0) (1 + stall) always fun _ c => c.vput d fun i => if c.passB then min (c.vc a i) (c.vc b i) else max (c.vc a i) (c.vc b i)) ∧
  (∀ (rod stall d a b : Nat), Runs (.vmin rod stall d a b) rod (kR 0x06 d a b 0 0) (1 + stall) always fun _ c => c.vput d fun i => if c.passB then max (c.vc a i) (c.vc b i) else min (c.vc a i) (c.vc b i)) ∧
  (∀ (rod stall d a : Nat), Runs (.vmov rod stall d a) rod (kR 0x07 d a 0 0 0) (1 + stall) always fun _ c => c.vput d fun i => c.vc a i) ∧
  (∀ (rod stall d a b : Nat), Runs (.vmul rod stall d a b) rod (kR 0x08 d a b 0 0) (1 + stall) always fun _ c => c.vput d fun i => satQ (rnd (c.data (c.vc a i * c.vc b i)) 15)) ∧
  (∀ (rod stall d a n : Nat), Runs (.vshr rod stall d a n) rod (kR 0x09 d a 0 0 n) (1 + stall) always fun _ c => c.vput d fun i => rnd (c.vc a i) (n % 16)) ∧
  (∀ (rod stall d a n : Nat), Runs (.vshl rod stall d a n) rod (kR 0x0A d a 0 0 n) (1 + stall) always fun _ c => c.vput d fun i => satQ (c.vc a i * 2 ^ (n % 16))) ∧
  (∀ (rod stall d a b : Nat), Runs (.vsel rod stall d a b) rod (kR 0x0B d a b 0 0) (1 + stall) always fun _ c => c.vput d fun i => if bit c.lm i then c.vc a i else c.vc b i) ∧
  (∀ (rod stall a b : Nat), Runs (.vcgt rod stall a b) rod (kR 0x0C 0 a b 0 0) (1 + stall) always fun _ c => c.lmPut fun i =>
    decide (c.data (c.vc b i) < c.data (c.vc a i))) ∧
  (∀ (rod stall a b : Nat), Runs (.vceq rod stall a b) rod (kR 0x0D 0 a b 0 0) (1 + stall) always fun _ c => c.lmPut fun i => decide (c.vc a i = c.vc b i)) ∧
  (∀ (rod stall d a b : Nat), Runs (.qdiv rod stall d a b) rod (kR 0x0E d a b 0 0) (8 + stall) (fun _ c => ∀ i < min c.n 16, c.vc b i ≠ 0) fun _ c => c.vput d fun i => 
    if i < c.n then satQ (rdiv (c.data (c.vc a i * 32768)) (c.vc b i)) else 0) ∧
  (∀ (rod stall d a b : Nat), Runs (.vbcl rod stall d a b) rod (kR 0x0F d a b 0 0) (1 + stall) (fun _ c => (c.sx_ b).toNat ≤ 15) fun _ c =>
    c.vput d fun _ => c.vc a (c.sx_ b).toNat)

/-- AMAC, AMSU, ALDV, AADV, AEXT, ACLR, ARSUM, VRSUM, VBC, SADD, SSUB, SMUL, SLI, VLI and SCMP complete on a rod that is about to
issue their word, with the results of R132: products and immediates negated in pass B, 40-bit saturation of accumulators and data
scalars, wrapping index scalars, an exact sum for VRSUM, a sum that saturates at each step for ARSUM, and SCMP comparing the data as
pass A has them (so that LT and GT are exchanged in pass B) or the index scalars unsigned. -/
def Obligations.AccumulatorsAndScalarsCompute : Prop :=
  (∀ (rod stall k a b : Nat), Runs (.amac rod stall k a b) rod (kR 0x10 0 a b k 0) (1 + stall) always fun _ c =>
    c.aput k fun i => sat40 (c.ac k i + c.data (c.vc a i * c.vc b i))) ∧
  (∀ (rod stall k a b : Nat), Runs (.amsu rod stall k a b) rod (kR 0x11 0 a b k 0) (1 + stall) always fun _ c =>
    c.aput k fun i => sat40 (c.ac k i - c.data (c.vc a i * c.vc b i))) ∧
  (∀ (rod stall k a n : Nat), Runs (.aldv rod stall k a n) rod (kR 0x12 0 a 0 k n) (1 + stall) always fun _ c => c.aput k fun i => c.vc a i * 2 ^ (n % 16)) ∧
  (∀ (rod stall k a n : Nat), Runs (.aadv rod stall k a n) rod (kR 0x13 0 a 0 k n) (1 + stall) always fun _ c =>
    c.aput k fun i => sat40 (c.ac k i + c.vc a i * 2 ^ (n % 16))) ∧
  (∀ (rod stall d k n : Nat), Runs (.aext rod stall d k n) rod (kR 0x14 d 0 0 k n) (1 + stall) always fun _ c => c.vput d fun i => satQ (rnd (c.ac k i) (n % 16))) ∧
  (∀ (rod stall k : Nat), Runs (.aclr rod stall k) rod (kR 0x15 0 0 0 k 0) (1 + stall) always fun _ c => c.aput k fun _ => 0) ∧
  (∀ (rod stall d k : Nat), Runs (.arsum rod stall d k) rod (kR 0x16 d 0 0 k 0) (2 + stall) always fun _ c =>
    c.sdPut d ((List.range 16).foldl (fun t i => sat40 (t + c.ac k i)) 0)) ∧
  (∀ (rod stall d a : Nat), Runs (.vrsum rod stall d a) rod (kR 0x17 d a 0 0 0) (2 + stall) always fun _ c => c.sdPut d ((List.range 16).map (c.vc a)).sum) ∧
  (∀ (rod stall d a n : Nat), Runs (.vbc rod stall d a n) rod (kR 0x18 d a 0 0 n) (1 + stall) always fun _ c => c.vput d fun _ => satQ (rnd (c.sd_ a) (n % 16))) ∧
  (∀ (rod stall d a b : Nat), Runs (.sadd rod stall d a b) rod (kR 0x19 d a b 0 0) (1 + stall) always fun _ c =>
    if d % 16 < 8 then c.sdPut d (sat40 (c.sd_ a + c.sd_ b)) else c.sxPut d (c.sx_ a + c.sx_ b)) ∧
  (∀ (rod stall d a b : Nat), Runs (.ssub rod stall d a b) rod (kR 0x1A d a b 0 0) (1 + stall) always fun _ c =>
    if d % 16 < 8 then c.sdPut d (sat40 (c.sd_ a - c.sd_ b)) else c.sxPut d (c.sx_ a - c.sx_ b)) ∧
  (∀ (rod stall d a b : Nat), Runs (.smul rod stall d a b) rod (kR 0x1B d a b 0 0) (1 + stall) always fun _ c => c.sxPut d (c.sx_ a * c.sx_ b)) ∧
  (∀ (rod stall d : Nat) (imm : Int), -2097152 ≤ imm → imm < 2097152 →
    Runs (.sli rod stall d imm) rod (kI 0x1C d imm) (1 + stall) always fun _ c =>
      if d % 16 < 8 then c.sdPut d (c.data imm) else c.sxPut d (BitVec.ofInt 32 imm)) ∧
  (∀ (rod stall d imm : Nat), imm < 65536 → Runs (.vli rod stall d imm) rod (kI 0x1D d imm) (1 + stall) always fun _ c =>
    c.vput d fun _ => c.data (if 32768 ≤ imm then (imm : Int) - 65536 else imm)) ∧
  (∀ (rod stall a b : Nat), Runs (.scmp rod stall a b) rod (kR 0x1E 0 a b 0 0) (1 + stall) always fun _ c =>
    if a % 16 < 8 then
      let x := c.data (c.sd_ a)
      let y := c.data (c.sd_ b)
      { c with lt := decide (x < y), eq := decide (x = y), gt := decide (y < x) }
    else { c with lt := (c.sx_ a).ult (c.sx_ b), eq := c.sx_ a == c.sx_ b, gt := (c.sx_ b).ult (c.sx_ a) })

/-- VLD reads the row of the pass's bank at an aligned address in the work area; VST writes it and folds the row into the
signature of the pass; TLU and TLU2 look the true keys up and negate key and result in pass B; LMSET, LMGET, LMLD and LMAND move the
lane mask; CST puts a code word into the overlay of an image with SELF_WRITE, at an aligned address in the code section, at most 64
distinct ones. -/
def Obligations.LoadsStoresTablesAndMasksCompute : Prop :=
  (∀ (rod stall d x off : Nat), Runs (.vld rod stall d x off) rod (kM 0x20 d x off) (1 + stall) (fun _ c => (c.sx_ x).toNat + off % 262144 ≤ 0x1FFFF ∧ 32 ∣ (c.sx_ x).toNat + off % 262144) fun _ c =>
    c.vput d fun i =>
      nth 0 (tget (List.replicate 16 0) (if c.passB then c.bankB else c.bankA) (((c.sx_ x).toNat + off % 262144) / 32)) i) ∧
  (∀ (rod stall d x off : Nat) (s : State), s.tablesOk = true → s.fetches rod (kM 0x21 d x off) (1 + stall) = true →
    let c := (s.rod rod).ctx
    let a := (c.sx_ x).toNat + off % 262144
    a ≤ 0x1FFFF → 32 ∣ a →
    ∃ t, exec (.vst rod stall d x off) s = .next t ∧
      t.rod rod =
        (if c.passB then
          { s.rod rod with sigB := foldRow true (s.rod rod).sigB (c.vget d),
                           ctx := (c.fetched (s.rodImage rod) (1 + stall)).rowPut (a / 32) (c.vget d) }
        else
          { s.rod rod with sigA := foldRow false (s.rod rod).sigA (c.vget d),
                           ctx := (c.fetched (s.rodImage rod) (1 + stall)).rowPut (a / 32) (c.vget d) }) ∧
      (∀ j, j ≠ rod → t.rod j = s.rod j) ∧ t.recs = s.recs) ∧
  (∀ (rod stall d a tab : Nat), Runs (.tlu rod stall d a tab) rod (kT 0x22 d a 0 tab) (4 + stall) (fun im _ => (im.table? (tab % 64)).isSome = true) fun im c =>
    let h := ((im.table? (tab % 64)).getD ([], [])).1
    let ys := ((im.table? (tab % 64)).getD ([], [])).2
    c.vput d fun i => c.data (tabLookup h ys 0 (c.data (c.vc a i)))) ∧
  (∀ (rod stall d a b tab : Nat), Runs (.tlu2 rod stall d a b tab) rod (kT 0x23 d a b tab) (6 + stall) (fun im _ => (im.table? (tab % 64)).isSome = true) fun im c =>
    let h := ((im.table? (tab % 64)).getD ([], [])).1
    let ys := ((im.table? (tab % 64)).getD ([], [])).2
    c.vput d fun i => c.data (tabLookup2 h ys (c.data (c.vc a i)) (c.data (c.vc b i)))) ∧
  (∀ (rod stall imm : Nat), imm < 65536 → Runs (.lmset rod stall imm) rod (kI 0x24 0 imm) (1 + stall) always fun _ c =>
    { c with lm := BitVec.ofNat 16 imm }) ∧
  (∀ (rod stall d : Nat), Runs (.lmget rod stall d) rod (kR 0x25 d 0 0 0 0) (1 + stall) always fun _ c => c.sxPut d (c.lm.setWidth 32)) ∧
  (∀ (rod stall a : Nat), Runs (.lmld rod stall a) rod (kR 0x26 0 a 0 0 0) (1 + stall) always fun _ c => { c with lm := (c.sx_ a).setWidth 16 }) ∧
  (∀ (rod stall a : Nat), Runs (.lmand rod stall a) rod (kR 0x27 0 a 0 0 0) (1 + stall) always fun _ c => { c with lm := c.lm &&& (c.sx_ a).setWidth 16 }) ∧
  (∀ (rod stall d x off : Nat), Runs (.cst rod stall d x off) rod (kM 0x36 d x off) (1 + stall) (fun im c =>
    im.selfWrite = true ∧ ∃ a, (c.sx_ x).toNat + off % 262144 = 4 * a ∧ a < im.code.length ∧
      (c.overlay.length < 64 ∨ (tfind? c.overlay a).isSome = true)) fun _ c =>
    { c with overlay := tput c.overlay (((c.sx_ x).toNat + off % 262144) / 4) (c.sx_ d) })

/-- LOOP counts its index scalar down and, while it is not 0, goes on at PC plus OFF at 2 cycles more with the window refilled
there; CALL pushes the next address on a stack of at most 8; RET pops it; KFENCE refills the window from the next word; END ends
pass B, and after pass A starts pass B with the registers of R128. The targets lie in the code section. -/
def Obligations.JumpsAndPassEnds : Prop :=
  (∀ (rod stall x : Nat) (off : Int) (s : State), s.tablesOk = true →
    s.fetches rod (kB 0x31 0 x off) (1 + stall) = true → -32768 ≤ off → off < 32768 →
    let im := s.rodImage rod
    let c := (s.rod rod).ctx
    let target := (c.pc : Int) + off
    let f := (c.fetched im (1 + stall)).sxPut x (c.sx_ x - 1)
    (c.sx_ x ≠ 1 → 0 ≤ target ∧ target < im.code.length ∧ c.passCycles + 3 + stall ≤ c.maxCycles) →
    ∃ t, exec (.loop rod stall x off) s = .next t ∧
      t.rod rod = { s.rod rod with
        ctx := if c.sx_ x = 1 then f
               else ({ f with pc := target.toNat, passCycles := f.passCycles + 2 }).fill im target.toNat false } ∧
      (∀ j, j ≠ rod → t.rod j = s.rod j) ∧ t.recs = s.recs) ∧
  (∀ (rod stall : Nat) (off : Int), -32768 ≤ off → off < 32768 → Runs (.call rod stall off) rod (kB 0x32 0 0 off) (3 + stall)
    (fun im c => c.stack.length < 8 ∧ 0 ≤ (c.pc : Int) + off ∧ (c.pc : Int) + off < im.code.length) fun im c =>
      ({ c with stack := c.pc :: c.stack, pc := ((c.pc : Int) - 1 + off).toNat }).fill im ((c.pc : Int) - 1 + off).toNat false) ∧
  (∀ rod stall p : Nat, Runs (.ret rod stall) rod (kR 0x33 0 0 0 0 0) (3 + stall)
    (fun im c => c.stack.head? = some p ∧ p < im.code.length) fun im c =>
      ({ c with stack := c.stack.tail, pc := p }).fill im p false) ∧
  (∀ rod stall : Nat, Runs (.kfence rod stall) rod (kR 0x35 0 0 0 0 0) (3 + stall) always fun im c => c.fill im c.pc false) ∧
  (∀ rod stall : Nat, Runs (.endPass rod stall) rod (kR 0x34 0 0 0 0 0) (1 + stall)
    (fun im c => c.passB = false → ((im.entry? c.entry).map (fun e => e.2.1)).getD 0 < im.code.length) fun im c =>
      if c.passB then { c with ended := true, cycles := c.cycles + c.passCycles, passCycles := 0 }
      else { c with cycles := c.cycles + c.passCycles }.begin im true)

/-- A BR of condition 0x0 to 0x9 goes to PC plus OFF where its condition holds (AL always, EQ, NE, LT, GE, GT and LE by the flags
as they stand, ANY, ALL and NONE by LM and S8) and on to the next word where it does not, whichever pass the rod is in (the statement
holds for every context, pass A or pass B, and the test reads neither the pass nor anything negated in it); a data SCMP gives LT, EQ
and GT of the values as pass A holds them; a BR word of condition 0xA to 0xF is illegal. -/
def Obligations.BranchesTestTheirCondition : Prop :=
  (∀ (rod stall cc : Nat) (off : Int) (holds : Bool) (s : State), s.tablesOk = true →
    s.fetches rod (kB 0x30 cc 0 off) (1 + stall) = true → -32768 ≤ off → off < 32768 →
    let im := s.rodImage rod
    let c := (s.rod rod).ctx
    let target := (c.pc : Int) + off
    let f := c.fetched im (1 + stall)
    let m := c.lm.setWidth 32 &&& c.sx_ 8
    (cc, holds) ∈ [(0, true), (1, c.eq), (2, !c.eq), (3, c.lt), (4, !c.lt), (5, c.gt), (6, !c.gt), (7, m != 0), (8, m == c.sx_ 8),
      (9, m == 0)] →
    (holds = true → 0 ≤ target ∧ target < im.code.length ∧ c.passCycles + 3 + stall ≤ c.maxCycles) →
    ∃ t, exec (.br rod stall cc off) s = .next t ∧
      t.rod rod = { s.rod rod with
        ctx := if holds then ({ f with pc := target.toNat, passCycles := f.passCycles + 2 }).fill im target.toNat false else f } ∧
      (∀ j, j ≠ rod → t.rod j = s.rod j) ∧ t.recs = s.recs) ∧
  (∀ (rod stall a b : Nat) (s : State), s.tablesOk = true → s.fetches rod (kR 0x1E 0 a b 0 0) (1 + stall) = true → a % 16 < 8 →
    ∃ t, exec (.scmp rod stall a b) s = .next t ∧
      let c := (s.rod rod).ctx
      let x := if c.passB then -(c.sd_ a) else c.sd_ a
      let y := if c.passB then -(c.sd_ b) else c.sd_ b
      (t.rod rod).ctx.lt = decide (x < y) ∧ (t.rod rod).ctx.eq = decide (x = y) ∧ (t.rod rod).ctx.gt = decide (y < x)) ∧
  (∀ (cc : Nat) (off : Int), 10 ≤ cc → cc < 16 → kLegal (kB 0x30 cc 0 off) = false)

/-- An instruction that divides by 0 in an occupied cell, addresses outside the work area or misaligned, stores code that may not
be stored, calls with 8 on the stack, returns with none, or goes outside the code section ends the pass with the code of R145 at its
own address. A fetched word that is illegal is ILLEGAL. Whatever instruction of a pass leaves a fault: the pass is ended; in pass A
the window is tainted and event 0x0401 carries the image, entry and code, address, port and string; in pass B no event comes and
the window is to mismatch. -/
def Obligations.KernelFaultsEndThePass : Prop :=
  (∀ rod stall d a b : Nat, Faults (.qdiv rod stall d a b) rod (kR 0x0E d a b 0 0) (8 + stall)
    (fun _ c => ∃ i < 16, i < c.n ∧ c.vc b i = 0) 4) ∧
  (∀ rod stall d a b : Nat, Faults (.vbcl rod stall d a b) rod (kR 0x0F d a b 0 0) (1 + stall) (fun _ c => 15 < (c.sx_ b).toNat) 2) ∧
  (∀ rod stall d x off : Nat, Faults (.vld rod stall d x off) rod (kM 0x20 d x off) (1 + stall)
    (fun _ c => 0x1FFFF < c.addr x off ∨ ¬ 32 ∣ c.addr x off) 2) ∧
  (∀ rod stall d x off : Nat, Faults (.vst rod stall d x off) rod (kM 0x21 d x off) (1 + stall)
    (fun _ c => 0x1FFFF < c.addr x off ∨ ¬ 32 ∣ c.addr x off) 2) ∧
  (∀ rod stall d x off : Nat, Faults (.cst rod stall d x off) rod (kM 0x36 d x off) (1 + stall)
    (fun im c => im.selfWrite = false ∨ ¬ 4 ∣ c.addr x off ∨ im.code.length * 4 ≤ c.addr x off ∨
      (64 ≤ c.overlay.length ∧ tfind? c.overlay (c.addr x off / 4) = none)) 3) ∧
  (∀ (rod stall : Nat) (off : Int), Faults (.call rod stall off) rod (kB 0x32 0 0 off) (3 + stall)
    (fun _ c => 8 ≤ c.stack.length) 6) ∧
  (∀ rod stall : Nat, Faults (.ret rod stall) rod (kR 0x33 0 0 0 0 0) (3 + stall) (fun _ c => c.stack = []) 6) ∧
  (∀ (rod stall : Nat) (off : Int), -32768 ≤ off → off < 32768 → Faults (.br rod stall 0 off) rod (kB 0x30 0 0 off) (1 + stall)
    (fun im c => (c.pc : Int) + off < 0 ∨ (im.code.length : Int) ≤ (c.pc : Int) + off) 7) ∧
  (∀ (i : Instr) (s t : State) (r : Nat) (w : BitVec 32), rodOf? i = some r → s.tablesOk = true → (s.rod r).inPass = true →
    (s.rod r).ctx.word? (s.rodImage r) = some w → kLegal w.toNat = false → exec i s = .next t →
    (t.rod r).ctx.fault = some (1, (s.rod r).ctx.pc)) ∧
  (∀ (i : Instr) (s t : State) (r f pc : Nat), rodOf? i = some r → s.tablesOk = true → (s.rod r).ctx.fault = none →
    exec i s = .next t → (t.rod r).ctx.fault = some (f, pc) →
    (t.rod r).ctx.ended = true ∧
    ((s.rod r).ctx.passB = false → (t.rod r).tainted = true ∧ (t.rod r).ctx.faultA = some (f, pc) ∧
      t.recs = s.recs.push (mkEv 0x0401 [(s.rodImage r).id, ((s.rod r).ctx.entry * 256 + f : Nat), pc,
        keyPort (s.rod r).ctx.string, keyId (s.rod r).ctx.string])) ∧
    ((s.rod r).ctx.passB = true → (t.rod r).forced = true ∧ t.recs = s.recs))

/-- Duplicate execution (R105, R129, R132): take any instruction of a pass (END apart) and a state, and the state whose rod stands in
the other pass at the same point, with every datum negated in the other bank and the two signatures exchanged. Where the instruction
leaves the pass running (without a fault), running it in the mirrored state gives the mirrored result: the same PC, cycles, flags, mask
and index scalars, every vector, accumulator, data scalar and bank value negated, and the same signatures for the two passes. So a
rod without a defect ends both passes with equal signatures. -/
def Obligations.PassBMirrorsPassA : Prop :=
  ∀ (i : Instr) (s t : State) (r : Nat), rodOf? i = some r → s.tablesOk = true → exec i s = .next t →
    (t.rod r).ctx.ended = false → exec i (s.mirror r) = .next (t.mirror r)

/-- INVOCATION_END on a rod whose invocation has ended both passes, with nothing to take next: its energy (cycles times WEIGHT over
256) is charged to its class, the invocation joins the open window and the rod is idle. Cells keep the words and estimates in force:
an UPDATE writes the other half only, another entry writes no cell. On an idle rod the first item of a rerun starts again, in pass A;
an item that waits and is served next starts on a HEALTHY rod without a due window that runs its image, and is taken off its queue;
either opens a window with both signatures at 0xFFFFFFFF where none is open. No other rod changes. -/
def Obligations.InvocationsJoinWindows : Prop :=
  (∀ (rod : Nat) (s : State), s.tablesOk = true → (s.rod rod).ctx.entry ≠ 0 → (s.rod rod).ctx.ended = true →
    (s.rod rod).redo = [] →
    ∃ t i, exec (.invocationEnd rod none) s = .next t ∧
      t.rod rod = { s.rod rod with items := (s.rod rod).items ++ [i], invs := (s.rod rod).invs + 1, ctx := RodCtx.reset } ∧
      i.string = (s.rod rod).ctx.string ∧ i.base = (s.rod rod).ctx.base ∧ i.n = (s.rod rod).ctx.n ∧
      i.entry = (s.rod rod).ctx.entry ∧ i.gen = (s.rod rod).ctx.gen ∧ i.cls = (s.rod rod).ctx.cls ∧
      (∀ j, j ≠ rod → t.rod j = s.rod j) ∧
      t.sched.spent = s.sched.spent + (s.rod rod).ctx.cycles * (s.rodImage rod).weight / 256 ∧
      t.sched.released = s.sched.released ∧ t.recs = s.recs ∧
      (∀ p, (t.cell p).half = (s.cell p).half ∧ (t.cell p).words = (s.cell p).words ∧ (t.cell p).pub = (s.cell p).pub) ∧
      ((s.rod rod).ctx.entry ≠ 1 → t.est = s.est)) ∧
  (∀ (rod : Nat) (next : Option (Nat × Nat × Nat × Nat)) (i : Item) (rest : List Item) (s : State), s.tablesOk = true →
    s.sys.holdup = false → (s.rod rod).ctx.entry = 0 → (s.rod rod).redo = i :: rest → i.entry ≠ 0 →
    ∃ t, exec (.invocationEnd rod next) s = .next t ∧ t.est = s.est ∧ (∀ j, j ≠ rod → t.rod j = s.rod j) ∧
      (t.rod rod).redo = rest ∧ (t.rod rod).inPass = true ∧ (t.rod rod).ctx.passB = false ∧
      (t.rod rod).ctx.string = i.string ∧ (t.rod rod).ctx.base = i.base ∧ (t.rod rod).ctx.entry = i.entry ∧
      (t.rod rod).items = (s.rod rod).items ∧
      ((s.rod rod).items = [] → (t.rod rod).sigA = 0xFFFFFFFF ∧ (t.rod rod).sigB = 0xFFFFFFFF ∧
        (t.rod rod).opened = some s.clock)) ∧
  (∀ (rod port sid base entry : Nat) (s : State), s.tablesOk = true → (s.rod rod).ctx.entry = 0 → (s.rod rod).redo = [] →
    s.sys.holdup = false → (s.rod rod).state = .healthy → s.sched.suspended = false → s.windowDue rod = false →
    s.imageFits rod (strKey port sid) entry = true → s.itemWaits (strKey port sid) base entry = true →
    s.mayServe entry (strKey port sid) base = true → entry ≠ 0 →
    ∃ t, exec (.invocationEnd rod (some (port, sid, base, entry))) s = .next t ∧ (∀ j, j ≠ rod → t.rod j = s.rod j) ∧
      (t.rod rod).inPass = true ∧ (t.rod rod).ctx.passB = false ∧ (t.rod rod).ctx.string = strKey port sid ∧
      (t.rod rod).ctx.base = base ∧ (t.rod rod).ctx.entry = entry ∧
      (t.rod rod).ctx.cls = s.classOf entry (strKey port sid) base ∧ t.recs = s.recs ∧
      (entry = 1 → ∀ p ∈ s.invCells (strKey port sid) base, (t.cell p).taken = some (s.ring (keyPort (strKey port sid))).gen))

/-- WINDOW_CLOSE on a due window. With a kernel fault in it, its results are discarded and the window does not count. With equal
signatures (and no fault of pass B alone) its invocations are released in order and the rod is HEALTHY. A first mismatch makes the rod
RETRYING, counts a retry, queues the window's invocations for a rerun and raises 0x0E01; a second mismatch, on the rerun, releases
nothing, sets the rod QUARANTINED, records it and raises 0x0E02 with cause 1. The window number advances, and no other rod changes. -/
def Obligations.WindowsAreJudgedBySignature : Prop :=
  (∀ (rod : Nat) (s : State), s.tablesOk = true → s.windowDue rod = true → (s.rod rod).tainted = true →
    ∃ t, exec (.windowClose rod) s = .next t ∧ (t.rod rod).state = .healthy ∧ (t.rod rod).items = [] ∧
      (t.rod rod).redo = [] ∧ (t.rod rod).windows = (s.rod rod).windows ∧ (t.rod rod).wseq = (s.rod rod).wseq + 1 ∧
      t.sched.released = s.sched.released ∧ t.recs = s.recs ∧ (∀ j, j ≠ rod → t.rod j = s.rod j)) ∧
  (∀ (rod : Nat) (s : State), s.tablesOk = true → s.windowDue rod = true → (s.rod rod).tainted = false →
    (s.rod rod).sigA = (s.rod rod).sigB → (s.rod rod).forced = false →
    ∃ t, exec (.windowClose rod) s = .next t ∧
      t.rod rod = { s.rod rod with state := .healthy, items := [], invs := 0, opened := none, wseq := (s.rod rod).wseq + 1,
                                   windows := ((s.rod rod).windows + 1) % 2 ^ 32, sigA := 0xFFFFFFFF, sigB := 0xFFFFFFFF } ∧
      t.sched.released = s.sched.released ++ (s.rod rod).items ∧ t.recs = s.recs ∧ (∀ j, j ≠ rod → t.rod j = s.rod j) ∧
      t.est = { s.est with pubGen := t.est.pubGen }) ∧
  (∀ (rod : Nat) (s : State), s.tablesOk = true → s.windowDue rod = true → (s.rod rod).tainted = false →
    (s.rod rod).sigA ≠ (s.rod rod).sigB ∨ (s.rod rod).forced = true → (s.rod rod).state = .healthy →
    ∃ t, exec (.windowClose rod) s = .next t ∧ (t.rod rod).state = .retrying ∧ (t.rod rod).items = [] ∧
      (t.rod rod).redo = (s.rod rod).items ∧ (t.rod rod).retries = sat16 ((s.rod rod).retries + 1) ∧
      t.sched.released = s.sched.released ∧ (∀ j, j ≠ rod → t.rod j = s.rod j) ∧
      t.recs = s.recs.push (mkEv 0x0E01 [rod, ((s.rod rod).wseq.toNat % 65536 : Nat)])) ∧
  (∀ (rod : Nat) (s : State), s.tablesOk = true → s.windowDue rod = true → (s.rod rod).tainted = false →
    (s.rod rod).sigA ≠ (s.rod rod).sigB ∨ (s.rod rod).forced = true → (s.rod rod).state = .retrying →
    (∃ j < 128, j ≠ rod ∧ (s.rod j).state = .healthy) →
    ∃ t, exec (.windowClose rod) s = .next t ∧ (t.rod rod).state = .quarantined ∧ (t.rod rod).items = [] ∧
      (t.rod rod).ctx = RodCtx.reset ∧ rod ∈ t.sched.recorded ∧
      t.sched.released = s.sched.released ∧ (∀ j, j ≠ rod → t.rod j = s.rod j) ∧ t.recs.cfgValid = true ∧
      t.recs.queue = (s.recs.push (mkEv 0x0E02 [rod, 1])).queue)

/-- TABLE_WALK, of the rods in their turns, charges 1,024 cycles of class 5; a good walk is timed, a failed one is counted and raises 0x0E04, and where the reload
fails the rod is QUARANTINED. ROD_TEST_DONE: a good signature makes a rod in test HEALTHY (HALTED while the die is shut down), a bad
one QUARANTINED with cause 3. ROD_RELOAD: a drained rod runs the new image
once no item of the old one waits. CLASS_STARVED raises 0x0E0D once; BURST_ABANDONED drops a
burst not started in 10 s and raises 0x0E10; KERNEL_REVERT, with 16 kernel faults in 10 s under a tenant-0 image, makes the exchange
wait and arms M3. -/
def Obligations.RodsAreTestedWalkedAndReloaded : Prop :=
  (∀ (rod table : Nat) (good reloaded : Bool) (s : State), rod ≠ s.sched.walkTurn →
    exec (.tableWalk rod table good reloaded) s = .next s) ∧
  (∀ (rod table : Nat) (reloaded : Bool) (s : State), s.tablesOk = true → rod < 128 → s.sched.walkTurn = rod →
    ∃ t, exec (.tableWalk rod table true reloaded) s = .next t ∧ t.rod rod = { s.rod rod with walked := s.wall } ∧
      (∀ j, j ≠ rod → t.rod j = s.rod j) ∧ t.recs = s.recs ∧ t.est = s.est ∧
      t.sched.spent = s.sched.spent + 1024 * (s.rodImage rod).weight / 256 ∧ t.sched.eSweep = s.sched.eSweep ∧
      t.sched.walkTurn = (rod + 1) % 128) ∧
  (∀ (rod table : Nat) (s : State), s.tablesOk = true → rod < 128 → s.sched.walkTurn = rod →
    ∃ t, exec (.tableWalk rod table false true) s = .next t ∧
      t.rod rod = { s.rod rod with tableFaults := sat16 ((s.rod rod).tableFaults + 1) } ∧
      (∀ j, j ≠ rod → t.rod j = s.rod j) ∧ t.est = s.est ∧
      t.recs = s.recs.push (mkEv 0x0E04 [rod, table, wallSecs16 (s.rod rod).walked])) ∧
  (∀ (rod table : Nat) (s : State), s.tablesOk = true → rod < 128 → s.sched.walkTurn = rod → (s.rod rod).state ≠ .quarantined →
    ∃ t, exec (.tableWalk rod table false false) s = .next t ∧ (t.rod rod).state = .quarantined ∧ (t.rod rod).items = [] ∧
      rod ∈ t.sched.recorded ∧ (∀ j, j ≠ rod → t.rod j = s.rod j)) ∧
  (∀ (rod : Nat) (s : State), s.tablesOk = true → (s.rod rod).state = .testing → rod ∉ s.sched.recorded → s.est.stale = false →
    s.sys.held = [] →
    ∃ t, exec (.rodTestDone rod Config.rodTestGood) s = .next t ∧ t.recs = s.recs ∧
      t.rod rod = { s.rod rod with state := if s.sched.shutdown then .halted else .healthy } ∧
      (∀ j, j ≠ rod → t.rod j = s.rod j)) ∧
  (∀ (rod sig : Nat) (s : State), s.tablesOk = true → (s.rod rod).state = .testing → rod ∉ s.sched.recorded →
    sig ≠ Config.rodTestGood →
    ∃ t, exec (.rodTestDone rod sig) s = .next t ∧ (t.rod rod).state = .quarantined ∧ rod ∈ t.sched.recorded ∧
      (∀ j, j ≠ rod → t.rod j = s.rod j)) ∧
  (∀ (rod loads : Nat) (s : State), s.tablesOk = true → (s.rod rod).reload = true → (s.rod rod).ctx.entry = 0 →
    (s.rod rod).items = [] → (s.rod rod).redo = [] → s.guard.owed = none → s.oldWaits = false →
    ∃ t, exec (.rodReload rod loads true) s = .next t ∧ t.rod rod = { s.rod rod with reload := false, img := s.sched.xgen } ∧
      t.rodImage rod = s.image ∧ (∀ j, j ≠ rod → t.rod j = s.rod j) ∧ t.recs = s.recs) ∧
  (∀ (cls a : Nat) (s : State), s.classWaits cls = true → cls ∉ s.sched.starved → tget (0 : Nat) s.sched.classAt cls = a →
    a + 2000000000 ≤ s.clock →
    ∃ t, exec (.classStarved cls) s = .next t ∧ cls ∈ t.sched.starved ∧ t.recs = s.recs.push (mkEv 0x0E0D [cls]) ∧
      t.sched = { s.sched with starved := t.sched.starved }) ∧
  (∀ (port sid a : Nat) (s : State), s.tablesOk = true → (strKey port sid, a, 0) ∈ s.sched.bursts → a + 2000000000 ≤ s.clock →
    ∃ t, exec (.burstAbandoned port sid) s = .next t ∧ t.recs = s.recs.push (mkEv 0x0E10 [port, sid]) ∧
      t.sched = { s.sched with bursts := s.sched.bursts.filter (fun b => decide (b.1 ≠ strKey port sid)) } ∧
      (t.str (strKey port sid)).burst = none ∧ ∀ k, k ≠ strKey port sid → t.str k = s.str k) ∧
  (∀ s : State, 16 ≤ (s.sched.faults.filter (fun f => decide (s.clock < f + 2000000000))).length → 0x10000 ≤ s.image.id →
    s.tablesOk = true → (s.mark 0).step ≠ 0 →
    ∃ t, exec .kernelRevert s = .next t ∧ t.sched = { s.sched with revert := true } ∧ (t.mark 3).en = true ∧
      ((s.mark 3).en = true → t.beam = s.beam) ∧ ∀ j, j ≠ 3 → t.mark j = s.mark j)

/-- DIE_TEMP_SAMPLE with eight valid diodes within 10 K of one another: the die temperature is the highest; the warning sets from
95 C and clears below 90 C, the throttle from 100 C and below 95 C, the shutdown from 115 C and below 110 C; the budget factor follows.
With no valid diode the temperature counts as 115 C and the die is shut down. BEAM_SLOT gives the slot its budget and spends nothing.
SWEEP_RATE_RESTORE after 60 s of calm halves M0's STEP, not below the configured one; once that is reached the lowering ends, with
event 0x0E0B. -/
def Obligations.DieTemperatureAndEnergyBudget : Prop :=
  (∀ (temps : List Int) (s : State), temps.length = 8 → (∀ x ∈ temps, x ≠ -32768 ∧ ∀ y ∈ temps, x - y ≤ 1000) →
    (∀ x ∈ temps, -32767 ≤ x) →
    ∃ t, exec (.dieTempSample temps) s = .next t ∧ t.sched.dieT ∈ temps ∧ (∀ x ∈ temps, x ≤ t.sched.dieT) ∧
      t.sched.diodes = 8 ∧ t.sched.excluded = [] ∧ t.sched.factor = budgetFactor t.sched.dieT ∧
      t.sched.warn = (if 9500 ≤ t.sched.dieT then true else if t.sched.dieT < 9000 then false else s.sched.warn) ∧
      t.sched.throttle = (if 10000 ≤ t.sched.dieT then true else if t.sched.dieT < 9500 then false else s.sched.throttle) ∧
      t.sched.shutdown = (if 11500 ≤ t.sched.dieT then true else if t.sched.dieT < 11000 then false else s.sched.shutdown) ∧
      t.sched.budget = s.sched.budget ∧ t.sched.spent = s.sched.spent) ∧
  (∀ s : State, ∃ t, exec (.dieTempSample (List.replicate 8 (-32768))) s = .next t ∧ t.sched.dieT = 11500 ∧ t.sched.diodes = 0 ∧
      t.sched.shutdown = true ∧ (s.sched.shutdown = false → 0x0E09 ∈ t.guard.present ∧
        (s.tablesOk = true → ∀ j < 128, (t.rod j).state ≠ .healthy ∧ (t.rod j).state ≠ .retrying))) ∧
  (∀ s : State, ∃ t, exec .beamSlot s = .next t ∧ t = { s with sched := { s.sched with budget := t.sched.budget, spent := 0 } } ∧
      t.sched.budget = ((List.range 128).filter (fun n => decide ((s.rod n).state = .healthy))).length * 100000000 * 65536 *
        s.sched.factor / (max 1 s.beam.exposedFreq * 1000)) ∧
  (∀ (a : Nat) (s : State), s.tablesOk = true → s.sched.lowered = true → s.sched.suspended = false → s.sched.calmSince = some a →
    a + 12000000000 ≤ s.clock →
    let step := max s.beam.confStep ((s.mark 0).step.toNat / 2)
    ∃ t, exec .sweepRateRestore s = .next t ∧ (t.mark 0).step = BitVec.ofNat 32 step ∧ (∀ j, j ≠ 0 → t.mark j = s.mark j) ∧
      t.sched.floorOver = false ∧ t.sched.calmSince = none ∧ t.sched.lowered = !decide (step = s.beam.confStep) ∧
      t.recs = (if step = s.beam.confStep then s.recs.push (mkEv 0x0E0B [s.beam.stepMs step]) else s.recs))
/-- PUBLICATION runs only while the Reckoner runs and not in hold-up; it empties the released list, and a released UPDATE gives each cell of its invocation
the sweep generation and makes the cell's other half current. OBSERVER_RUN, once a string's sweep is complete: with fewer usable cells
than the setting asks for, the current holds, its variance grows by (rated/4)^2 per second and HOLD sets; with enough, the variance is the
inverse of the sum of inverses and the current moves by it times result 0. OBSERVER_BLEND corrects every string of a measured group by
its share of the difference to the measured current. OBSERVER_UNAVAILABLE after HOLD_MAX raises 0x0304. Other strings stay. -/
def Obligations.EstimatesArePublishedAndObserved : Prop :=
  (∀ s : State, s.sys.run ≠ .running ∨ s.sys.holdup = true → exec .publication s = .next s) ∧
  (∀ s : State, s.sys.run = .running → s.sys.holdup = false → ∃ t, exec .publication s = .next t ∧ t.sched.released = [] ∧ t.sched.rods = s.sched.rods) ∧
  (∀ (i : Item) (s : State), s.tablesOk = true → s.sys.run = .running → s.sys.holdup = false → s.sched.released = [i] →
    i.entry = 1 → (s.str i.string).cells.Nodup →
    ∃ t, exec .publication s = .next t ∧ ∀ p ∈ s.invCells i.string i.base,
      (t.cell p).pub.gen = i.gen ∧ (t.cell p).half = !(s.cell p).half ∧ (t.cell p).at_ = some i.at_ ∧ (t.cell p).discards = 0) ∧
  (∀ (port sid o : Nat) (s : State), s.tablesOk = true →
    let k := strKey port sid
    let q := s.str k
    let rated : Rat := (s.iRated k : Rat) / 1000
    let pre := q.pVar + rated / 4 * (rated / 4) * (((s.sampleAt - o : Nat) : Rat) / 200000000)
    q.doneGen ≠ none → q.doneGen ≠ q.runGen → q.obsAt = some o → q.unavailable = false →
    ∃ t, exec (.observerRun port sid) s = .next t ∧ (∀ j, j ≠ k → t.str j = s.str j) ∧ (t.str k).runGen = q.doneGen ∧
      (t.str k).obsAt = some s.sampleAt ∧ (t.str k).stepped = true ∧ (t.str k).stepTicks = s.sampleAt - o ∧ t.recs.queue = s.recs.queue ∧
      ((floorN (nth 0 q.results 2) : Int) < s.par 0x3102 →
        (t.str k).iHat = q.iHat ∧ (t.str k).pVar = pre ∧ bit (t.str k).sflags 2 = true ∧
        (t.str k).heldSince = some (q.heldSince.getD s.clock)) ∧
      (s.par 0x3102 ≤ (floorN (nth 0 q.results 2) : Int) → pre ≠ 0 →
        (t.str k).pVar = 1 / (1 / pre + nth 0 q.results 1) ∧
        (t.str k).iHat = q.iHat + (t.str k).pVar * nth 0 q.results 0 ∧ bit (t.str k).sflags 2 = false ∧
        (t.str k).heldSince = none)) ∧
  (∀ (group : Nat) (x : Rat) (g ks : List Nat) (s : State), s.tablesOk = true → tget [] s.est.groups group = g → g.drop 3 = ks →
    s.groupAmps? g = some x → ks ≠ [] → ks.Nodup → (∀ k ∈ ks, (s.str k).stepped = true ∧ (s.source k).1 = 3) →
    let rm : Rat := (s.parGrp 0x3104 group : Rat) / 100000 * (((ks.map s.iRated).sum : Rat) / 1000)
    let sv := (ks.map (fun k => (s.str k).pVar)).sum + rm * rm
    let nu := x - (ks.map (fun k => (s.str k).iHat)).sum
    ∃ t, exec (.observerBlend group) s = .next t ∧ (∀ j, j ∉ ks → t.str j = s.str j) ∧ t.recs.queue = s.recs.queue ∧
      ∀ k ∈ ks, (t.str k).stepped = false ∧
        (sv = 0 → (t.str k).iHat = (s.str k).iHat ∧ (t.str k).pVar = (s.str k).pVar) ∧
        (sv ≠ 0 → (t.str k).iHat = (s.str k).iHat + (s.str k).pVar * nu / sv ∧
          (t.str k).pVar = (s.str k).pVar - (s.str k).pVar * (s.str k).pVar / sv)) ∧
  (∀ (port sid a : Nat) (s : State), s.tablesOk = true →
    (s.str (strKey port sid)).unavailable = false → (s.str (strKey port sid)).heldSince = some a →
    a + 200000 * (s.par 0x3103).toNat ≤ s.clock →
    ∃ t, exec (.observerUnavailable port sid) s = .next t ∧
      t.str (strKey port sid) = { s.str (strKey port sid) with unavailable := true } ∧
      (∀ j, j ≠ strKey port sid → t.str j = s.str j) ∧
      t.recs = s.recs.push (mkEv 0x0304 [port, sid, (s.str (strKey port sid)).nobs]))

/-- REST_POINT: at a multiple of REST_HOLD each cell of the resting string keeps its point (voltage, temperature, SOC, throughput, wall time).
ESTIMATOR_HEALTH sets or clears UNHEALTHY of the cell by its conditions, and keeps it where neither holds. SOC_CHECKPOINT after
60 s and LEARNED_CHECKPOINT when due put a slot with the next sequence number, the wall time and the cells' codes or records ahead of
their pools. RIPPLE_BURST_START begins a burst with no samples on a due string and sets M1 for 384 firings of 1/24 cycle;
RIPPLE_BURST_SAMPLE fires M1 and adds one sample to each cell, and the 384th ends the burst and queues it for the rods; on a sweep's
tick the cells' sample is left to the sweep, and a burst whose conditions no longer hold is dropped. -/
def Obligations.RestsHealthAndBursts : Prop :=
  (∀ (port sid a : Nat) (s : State), s.tablesOk = true →
    let k := strKey port sid
    (s.str k).restSince = some a → a + 200000 * (s.par 0x310B).toNat * ((s.str k).restPoints + 1) ≤ s.clock →
    ∃ t, exec (.restPoint port sid) s = .next t ∧ (t.str k).restPoints = (s.str k).restPoints + 1 ∧ (t.str k).quiet = (s.str k).quiet ∧
      bit (t.str k).sflags 0 = true ∧ (∀ j, j ≠ k → t.str j = s.str j) ∧
      (∀ p ∈ (s.str k).cells, (t.cell p).rest = some ((s.cell p).point s.wall)) ∧
      (∀ p, p ∉ (s.str k).cells → t.cell p = s.cell p) ∧
      ((s.str k).first = none → (t.str k).first = some (s.clock, s.wall) ∧
        ∀ p ∈ (s.str k).cells, (t.cell p).first = some ((s.cell p).point s.wall))) ∧
  (∀ (p : Nat) (s : State), s.tablesOk = true →
    ∃ t, exec (.estimatorHealth p) s = .next t ∧ (∀ j, j ≠ p → t.cell j = s.cell j) ∧
      bit (t.cell p).pub.flags 3 =
        (if (s.healthNow p).1 then true else if (s.healthNow p).2 then false else bit (s.cell p).pub.flags 3) ∧
      (t.cell p).learned = (s.cell p).learned ∧ (t.cell p).words = (s.cell p).words) ∧
  (∀ s : State, s.sys.run = .running → s.sys.holdup = false → s.est.socAt + 12000000000 ≤ s.clock →
    ∃ t, exec .socCheckpoint s = .next t ∧ t.est = { s.est with socAt := s.clock } ∧
      t.recs = { s.recs with ckSeq := t.recs.ckSeq, socPool := t.recs.socPool } ∧ ∃ e : SocSlot,
      t.recs.socPool = (e :: s.recs.socPool).take 2048 ∧ e.wall = s.wall ∧ e.gen = s.est.pubGen.getD 0 ∧ e.points = s.cellPoints ∧
      e.seq = (tget (0 : Nat) s.recs.ckSeq 1 + 1) % 4294967296 ∧ e.codes = s.cellPoints.map (fun p =>
        codeN 65535 (socOf (s.imageAt (s.cell p).xgen) (s.cell p).words * 65536))) ∧
  (∀ s : State, s.tablesOk = true → s.sys.run = .running → s.sys.holdup = false →
    s.sys.ckDue = true ∨ s.est.ckAt + 200000 * (s.par 0x311A).toNat ≤ s.clock →
    ∃ t, exec .learnedCheckpoint s = .next t ∧ t.est.strs = s.est.strs ∧ t.sys.ckDue = false ∧ t.est.ckAt = s.clock ∧
      (∀ p, (t.cell p).learned.cap = (s.cell p).learned.cap ∧ (t.cell p).pub = (s.cell p).pub) ∧ ∃ e : LearnedSlot,
      t.recs.learnedPool = (e :: s.recs.learnedPool).take 256 ∧ e.wall = s.wall ∧ e.points = s.cellPoints ∧
      e.seq = (tget (0 : Nat) s.recs.ckSeq 2 + 1) % 4294967296 ∧ e.recs = s.cellPoints.map (fun p => (t.cell p).learned)) ∧
  (∀ (cells : List (Nat × Nat)) (fpi : List (Nat × Int)) (k n : Nat) (s : State), s.tablesOk = true → s.markDue 1 = true →
    s.est.configured = [k] → (s.str k).burst = some n → (s.str k).cells.Nodup → s.burstHolds k = true →
    s.beam.sweptAt ≠ some s.clock →
    ∃ t, exec (.rippleBurstSample cells fpi) s = .next t ∧ (t.mark 1).fires = (s.mark 1).fires + 1 ∧
      (∀ j, j ≠ 1 → t.mark j = s.mark j) ∧ (∀ j, j ≠ k → t.str j = s.str j) ∧
      (∀ p ∈ (s.str k).cells, ∀ v, cells.find? (fun e => decide (e.1 = p)) = some (p, v) →
        (t.cell p).burst = (s.cell p).burst ++ [v]) ∧
      (∀ p ∈ (s.str k).cells, cells.find? (fun e => decide (e.1 = p)) = none →
        (t.cell p).burst = (s.cell p).burst ++ [0xFFFF]) ∧
      (t.str k).fpiBurst.length = (s.str k).fpiBurst.length + 1 ∧
      (n + 1 < 384 → (t.str k).burst = some (n + 1) ∧ t.sched = s.sched) ∧
      (384 ≤ n + 1 → (t.str k).burst = none ∧ (t.str k).lastBurst = some s.clock ∧
        t.sched.bursts = s.sched.bursts ++ [(k, s.clock, 0)])) ∧
  (∀ (cells : List (Nat × Nat)) (fpi : List (Nat × Int)) (k n : Nat) (s : State), s.tablesOk = true → s.markDue 1 = true →
    s.est.configured = [k] → (s.str k).burst = some n → n < 383 → s.burstHolds k = true → s.beam.sweptAt = some s.clock →
    (s.str k).cells.Nodup →
    ∃ t, exec (.rippleBurstSample cells fpi) s = .next t ∧ (t.str k).merge = some (s.beam.sweepGen, n) ∧
      (∀ p ∈ (s.str k).cells, (t.cell p).burst = (s.cell p).burst ++ [0xFFFF])) ∧
  (∀ (cells : List (Nat × Nat)) (fpi : List (Nat × Int)) (k n : Nat) (s : State), s.tablesOk = true → s.markDue 1 = true →
    s.est.configured = [k] → (s.str k).burst = some n → s.burstHolds k = false →
    ∃ t, exec (.rippleBurstSample cells fpi) s = .next t ∧ (t.mark 1).fires = (s.mark 1).fires + 1 ∧ t.sched = s.sched ∧
      t.str k = { s.str k with burst := none, fpiBurst := [], merge := none } ∧ (∀ p ∈ (s.str k).cells, (t.cell p).burst = [])) ∧
  (∀ (port sid : Nat) (s : State), s.tablesOk = true →
    let k := strKey port sid
    k ∈ s.est.configured → (s.str k).closed = true → s.sys.mode = .online → s.sys.run = .running → 4 ∉ s.sched.starved →
    (s.str k).lastBurst = none → (∀ j ∈ s.stringsOf port, (s.str j).burst = none) → s.burstMay = true →
    s.disp.tickAt = some s.clock → (s.mark 1).en = false → (s.mark 0).en = true →
    ∃ t, exec (.rippleBurstStart port sid) s = .next t ∧
      t.str k = { s.str k with burst := some 0, fpiBurst := [] } ∧ (∀ j, j ≠ k → t.str j = s.str j) ∧
      (∀ p ∈ (s.str k).cells, (t.cell p).burst = []) ∧ (∀ p, p ∉ (s.str k).cells → t.cell p = s.cell p) ∧
      (t.mark 1).en = true ∧ (t.mark 1).count = 384 ∧ (t.mark 1).subdiv = 24 ∧ (t.mark 1).step = 0x10000 ∧
      (t.mark 1).fired = 0 ∧ (∀ j, j ≠ 1 → t.mark j = s.mark j) ∧
      (reached s.beam.angleWord (s.burstCycle * 65536) = false → t.recs = s.recs ∧ (t.mark 1).late = (s.mark 1).late) ∧
      (reached s.beam.angleWord (s.burstCycle * 65536) = true → (t.mark 1).late = true))

/-- BALANCING_REPLAN (R197, R198): in every state in which the Reckoner runs and a replan is due, every configured string gets a plan of this moment whose
duties do not exceed the largest duty setting, and the heat of all plans together, the loss per unit of duty times the duties, stays
below the heat allowance the state then shows, rounded up to the next watt. Where the bank may not balance (mode, cooling not set) every
plan is empty. -/
def Obligations.PlansStayWithinHeatAllowance : Prop :=
  ∀ s t : State, s.tablesOk = true → s.sys.run = .running → s.replanDue = true → s.est.configured.Nodup →
    exec .balancingReplan s = .next t →
    t.est.configured = s.est.configured ∧
    (∀ k ∈ s.est.configured, (t.str k).planned = some s.clock ∧ (t.str k).planGen = s.beam.sweepGen ∧
      (∀ x ∈ (t.str k).plan, x.2.1 ≤ (s.par 0x3304).toNat) ∧ (s.bankMayBalance = false → (t.str k).plan = [])) ∧
    (t.est.configured.map (fun k =>
      (s.par 0x3306 : Rat) / 1000 * ((((t.str k).plan.map (fun x => x.2.1)).sum : Nat) : Rat) / 256)).sum < (t.est.balAllow : Rat) + 1

/-- BALANCING_REPLAN sets the allowance when a replan is due. BALANCING_QUIET makes a resting string quiet and its nodes due nothing.
BALANCING_MISMATCH after 3 sweeps excludes a node, raises 0x0319 and leaves it nothing due; BALANCING_EXCLUSION_END after 1 h ends that.
SENSOR_RESTORED after 60 s within limits uses the reading again. TIN_CONVERSION: a reading out of its electrical limits counts towards a
fault and leaves the value; TIN_FAULT after 3 gives the invalid code and 0x031C; TIN_RECOVERED after 10 good ones clears it and takes the last.
COMPENSATION_UPDATE: a diode within 10 K of the rod median gives the reference gain by Config's coefficients, one beyond falls back to
the median. -/
def Obligations.BalancingStopsAndTemperatureInputs : Prop :=
  (∀ s : State, s.sys.run = .running → s.replanDue = true →
    ∃ t, exec .balancingReplan s = .next t ∧ t.est.replanAt = some s.clock ∧ t.est.balAllow = floorN s.allowance.1 ∧
      t.nodes = s.nodes ∧ t.rings = s.rings ∧ t.guard = s.guard) ∧
  (∀ s : State, s.sys.run = .running → s.replanDue = false → exec .balancingReplan s = .next s) ∧
  (∀ (port sid a : Nat) (s : State), s.tablesOk = true →
    let k := strKey port sid
    (s.str k).restSince = some a → a + 200000 * ((s.par 0x310B).toNat - (s.par 0x330D).toNat) ≤ s.clock →
    (s.str k).restPoints = 0 → (s.str k).quiet = false →
    ∃ t, exec (.balancingQuiet port sid) s = .next t ∧ t.str k = { s.str k with quiet := true } ∧
      (∀ j, j ≠ k → t.str j = s.str j) ∧ (∀ pos, t.dutyDue k pos = noDuty) ∧ t.nodes = s.nodes) ∧
  (∀ (port pos k : Nat) (s : State), s.tablesOk = true →
    (s.balNode (nodeKey port pos)).excl = none → 3 ≤ (s.balNode (nodeKey port pos)).mism → s.stringAt? port pos = some k →
    keyPort k = port →
    ∃ t, exec (.balancingMismatch port pos) s = .next t ∧ (t.balNode (nodeKey port pos)).excl = some s.clock ∧
      (t.balNode (nodeKey port pos)).mism = 0 ∧ t.dutyDue k pos = noDuty ∧
      (∀ j, j ≠ nodeKey port pos → t.balNode j = s.balNode j) ∧
      ∃ r, t.recs = s.recs.push (mkEv 0x0319 ([(port : Int), pos] ++ r))) ∧
  (∀ (port pos a : Nat) (s : State), s.tablesOk = true → (s.balNode (nodeKey port pos)).excl = some a →
    a + 720000000000 ≤ s.clock →
    ∃ t, exec (.balancingExclusionEnd port pos) s = .next t ∧
      t.balNode (nodeKey port pos) = { s.balNode (nodeKey port pos) with excl := none } ∧
      (∀ j, j ≠ nodeKey port pos → t.balNode j = s.balNode j) ∧ t.recs = s.recs) ∧
  (∀ (port pos input g : Nat) (s : State), s.tablesOk = true →
    let p := cellPoint port pos input
    (s.tempIn p).subst = true → (s.tempIn p).goodSince = some g → g + 12000000000 ≤ s.sampleAt →
    ∃ t, exec (.sensorRestored port pos input) s = .next t ∧
      t.tempIn p = { s.tempIn p with subst := false, used := (s.tempIn p).raw, run := 0, goodSince := none } ∧
      (∀ j, j ≠ p → t.tempIn j = s.tempIn j) ∧ t.recs = s.recs.push (mkEv 0x0316 [port, pos, input])) ∧
  (∀ (input a b : Nat) (s : State), s.tablesOk = true → (s.tin input).type = 1 ∨ (s.tin input).type = 2 →
    (s.tin input).bad? (s.referred a).toNat (s.referred b).toNat ≠ 0 →
    ∃ t, exec (.tinConversion input a b) s = .next t ∧ t.recs = s.recs ∧
      t.tin input = { s.tin input with bad := satN 3 ((s.tin input).bad + 1), good := 0,
                                       badKind := (s.tin input).bad? (s.referred a).toNat (s.referred b).toNat } ∧
      (∀ j, j ≠ input → t.tin j = s.tin j)) ∧
  (∀ (input a b : Nat) (s : State), s.tablesOk = true → (s.tin input).type = 1 ∨ (s.tin input).type = 2 →
    (s.tin input).bad? (s.referred a).toNat (s.referred b).toNat = 0 →
    ∃ t, exec (.tinConversion input a b) s = .next t ∧ (t.tin input).bad = 0 ∧ (∀ j, j ≠ input → t.tin j = s.tin j) ∧
      ((s.tin input).faulty = true → (t.tin input).good = satN 10 ((s.tin input).good + 1) ∧
        (t.tin input).val = (s.tin input).val ∧ (t.tin input).alarm = (s.tin input).alarm) ∧
      ((s.tin input).faulty = false → (t.tin input).val = BitVec.ofNat 32 (ux 16 (t.tin input).last) ∧
        -32767 ≤ (t.tin input).last ∧ (t.tin input).last ≤ 32767)) ∧
  (∀ (input : Nat) (s : State), s.tablesOk = true → 3 ≤ (s.tin input).bad → (s.tin input).faulty = false →
    ∃ t, exec (.tinFault input) s = .next t ∧ t.tin input = { s.tin input with faulty := true, good := 0, val := 0x8000 } ∧
      (∀ j, j ≠ input → t.tin j = s.tin j) ∧ t.recs = s.recs.push (mkEv 0x031C [input, (s.tin input).badKind])) ∧
  (∀ (input : Nat) (s : State), s.tablesOk = true → (s.tin input).faulty = true → 10 ≤ (s.tin input).good →
    ∃ t, exec (.tinRecovered input) s = .next t ∧ t.tin input =
      { s.tin input with faulty := false, bad := 0, good := 0, val := BitVec.ofNat 32 (ux 16 (s.tin input).next),
                         last := (s.tin input).next, alarm := ((s.tin input).alarmNext (s.tin input).next).1 } ∧
      (∀ j, j ≠ input → t.tin j = s.tin j) ∧ (((s.tin input).alarmNext (s.tin input).next).2 = [] → t.recs = s.recs)) ∧
  (∀ (tRef tOsc : Int) (s : State),
    let m := s.rodMedian
    let x : Rat := (if 1000 < (tRef - m).natAbs then (m : Rat) else (tRef : Rat)) / 100 - 25
    let den := 1 + Config.refA.1 * x + Config.refA.2 * x * x
    ∃ t, exec (.compensationUpdate tRef tOsc) s = .next t ∧ (den ≠ 0 → t.beam.refGain * den = 1) ∧
      (1 ∈ t.est.fallback ↔ 1000 < (tRef - m).natAbs ∨ (1 ∈ s.est.fallback.erase 1 ∧ (tRef - m).natAbs ≤ 1000)) ∧
      t.beam.marks = s.beam.marks ∧ t.est.cells = s.est.cells ∧
      ((tRef - m).natAbs ≤ 1000 → (tOsc - m).natAbs ≤ 1000 → t.recs = s.recs))

/-- Dispatch safety (R250 to R252, R259): after a dispatch tick or a recomputation that ran, the bank set-point is the sum of the powers
delivered to tenant 0 and the enabled tenants and lies between minus the charge limit and the discharge limit; no tenant gets more than it
asked for, nor power of the other sign; a stopped tenant, and every tenant while ZERO or STOP holds or the bank may not dispatch, gets
nothing. -/
def Obligations.SetPointStaysWithinLimits : Prop :=
  ∀ (c : Instr) (s t : State), s.tablesOk = true → exec c s = .next t →
    (c = .dispatchTick ∧ s.sys.run = .running ∧ s.markDue 2 = true) ∨
      (c = .stopRecompute ∧ s.sys.run = .running ∧ s.disp.held = none ∧ s.stopFresh = true) →
    t.disp.pBank = (t.tickTenants.map (fun n => (t.tenant n).deliv)).sum ∧
    -(t.disp.lChg : Int) ≤ t.disp.pBank ∧ t.disp.pBank ≤ (t.disp.lDis : Int) ∧
    (∀ n ∈ t.tickTenants, (0 ≤ (t.tenant n).req → 0 ≤ (t.tenant n).deliv ∧ (t.tenant n).deliv ≤ (t.tenant n).req) ∧
      ((t.tenant n).req ≤ 0 → (t.tenant n).req ≤ (t.tenant n).deliv ∧ (t.tenant n).deliv ≤ 0)) ∧
    (∀ n ∈ t.tickTenants, n ∈ t.guard.stops ∨ t.zeroHeld = true ∨ t.mayDispatch = false → (t.tenant n).deliv = 0)

/-- DISPATCH_TICK while the Reckoner runs: M2 fires, slot and tick follow the extended cycle count, and a ledger copy is written; while it
does not run, the tick is only counted. STOP_RECOMPUTE, for a stop bit not yet served, computes and sends at once without moving slot,
tick or term. CURTAILMENT_STARTED and
ENDED after 10 ticks on either side raise 0x0502 and 0x0503. EXTERNAL_SETPOINT_FAULT raises 0x0508 and applies FAILSAFE;
FAILSAFE_HOLD_EXPIRY sets the term to 0. PCS_MESSAGE_REPEAT: ZERO and STOP go out again after 50 ms with COUNT one higher, RELEASE after
10 ms while sends are left, and 50 ms after the last the message ends. -/
def Obligations.TicksCurtailmentAndPcsMessages : Prop :=
  (∀ s : State, s.tablesOk = true → s.markDue 2 = true → s.sys.run = .running → s.disp.slotNext = none →
    ∃ t, exec .dispatchTick s = .next t ∧ (t.mark 2).fires = (s.mark 2).fires + 1 ∧ (∀ j, j ≠ 2 → t.mark j = s.mark j) ∧
      t.disp.slot = s.beam.extended / max 1 s.disp.slotCyc % 2 ^ 32 ∧ t.disp.tick = s.beam.extended % max 1 s.disp.slotCyc ∧
      t.disp.tickAt = some s.clock ∧ t.disp.settleAt = s.clock ∧ t.disp.held = none ∧
      t.recs.ledgerStamp = (t.disp.slot, t.disp.tick) ∧ t.recs.lseq = (s.recs.lseq + 1) % 2 ^ 32) ∧
  (∀ s : State, s.tablesOk = true → s.markDue 2 = true → s.sys.run ≠ .running →
    ∃ t, exec .dispatchTick s = .next t ∧ (t.mark 2).fires = (s.mark 2).fires + 1 ∧ (∀ j, j ≠ 2 → t.mark j = s.mark j) ∧
      t.disp = { s.disp with dt := t.disp.dt, tickAt := some s.clock, held := s.disp.held.map (· + 1), settleAt := s.clock,
                             slot := s.beam.extended / max 1 s.disp.slotCyc % 2 ^ 32, tick := s.beam.extended % max 1 s.disp.slotCyc,
                             slotWall := t.disp.slotWall } ∧
      t.recs = s.recs) ∧
  (∀ s : State, s.sys.run = .running → s.disp.held = none → s.stopFresh = true →
    ∃ t, exec .stopRecompute s = .next t ∧ t.disp.settleAt = s.clock ∧ t.disp.slot = s.disp.slot ∧ t.disp.tick = s.disp.tick ∧
      t.disp.tickAt = s.disp.tickAt ∧ t.disp.term = s.disp.term ∧ t.disp.needRun = s.disp.needRun ∧
      t.disp.stopSeen = s.guard.stopRings ∧ t.beam = s.beam ∧ t.guard.stops = s.guard.stops) ∧
  (∀ s : State, 10 ≤ s.disp.needRun.1 → s.disp.curtDis = none → s.disp.needRun.2 < 10 ∨ s.disp.curtChg ≠ none →
    exec .curtailmentStarted s = .next { s with
      disp := { s.disp with curtDis := some s.clock }
      recs := s.recs.push (mkEv 0x0502 [1, (min 65535 (s.disp.lDis / 1000000) : Nat)]) }) ∧
  (∀ s : State, 10 ≤ s.disp.needRun.2 → s.disp.curtChg = none → s.disp.needRun.1 < 10 ∨ s.disp.curtDis ≠ none →
    exec .curtailmentStarted s = .next { s with
      disp := { s.disp with curtChg := some s.clock }
      recs := s.recs.push (mkEv 0x0502 [2, (min 65535 (s.disp.lChg / 1000000) : Nat)]) }) ∧
  (∀ (a : Nat) (s : State), 10 ≤ s.disp.freeRun.1 → s.disp.curtDis = some a → s.disp.freeRun.2 < 10 ∨ s.disp.curtChg = none →
    ∃ sec : Nat, exec .curtailmentEnded s = .next { s with
      disp := { s.disp with curtDis := none }
      recs := s.recs.push (mkEv 0x0503 [1, sec]) } ∧ sec ≤ 65535) ∧
  (∀ (a : Nat) (s : State), 10 ≤ s.disp.freeRun.2 → s.disp.curtChg = some a → s.disp.freeRun.1 < 10 ∨ s.disp.curtDis = none →
    ∃ sec : Nat, exec .curtailmentEnded s = .next { s with
      disp := { s.disp with curtChg := none }
      recs := s.recs.push (mkEv 0x0503 [2, sec]) } ∧ sec ≤ 65535) ∧
  (∀ s : State, s.disp.binding.src ≠ 0 → s.extInput = none → s.disp.extFault = false →
    ∃ t, exec .externalSetpointFault s = .next t ∧ t.recs = s.recs.push (mkEv 0x0508 [s.disp.binding.src, s.disp.binding.ch]) ∧
      t.disp = { s.disp with extFault := true, term := t.disp.term, holdUntil := t.disp.holdUntil } ∧
      (s.disp.binding.failsafe = 1 → t.disp.term = s.disp.term ∧ t.disp.holdUntil = some (s.clock + 200000000)) ∧
      (s.disp.binding.failsafe ≠ 1 → t.disp.term = 0)) ∧
  (∀ (u : Nat) (s : State), s.disp.holdUntil = some u → u ≤ s.clock →
    exec .failsafeHoldExpiry s = .next { s with disp := { s.disp with term := 0, holdUntil := none } }) ∧
  (∀ (a : Nat) (s : State), s.guard.pcsCmd = 1 ∨ s.guard.pcsCmd = 2 → s.guard.pcsAt = some a → a + 10000000 ≤ s.clock →
    s.guard.failed = false →
    ∃ t, exec .pcsMessageRepeat s = .next t ∧ t.recs = s.recs ∧ t.guard.pcsAt = some s.clock ∧ t.guard.pcsCmd = s.guard.pcsCmd ∧
      t.guard.pcsId = s.guard.pcsId ∧
      (s.pcsEn = true → t.guard.pcsCount = (s.guard.pcsCount + 1) % 256 ∧ t.can.guardTx = some t.guard.frame)) ∧
  (∀ (a : Nat) (s : State), s.guard.pcsCmd = 3 → 0 < s.guard.releases → s.guard.pcsAt = some a → a + 2000000 ≤ s.clock →
    s.guard.failed = false →
    ∃ t, exec .pcsMessageRepeat s = .next t ∧ t.guard.releases = s.guard.releases - 1 ∧ t.guard.pcsAt = some s.clock ∧
      (s.pcsEn = true → t.guard.pcsCount = (s.guard.pcsCount + 1) % 256 ∧ t.can.guardTx = some t.guard.frame)) ∧
  (∀ (a : Nat) (s : State), s.guard.pcsCmd = 3 → s.guard.releases = 0 → s.guard.pcsAt = some a → a + 10000000 ≤ s.clock →
    exec .pcsMessageRepeat s = .next { s with guard := { s.guard with pcsCmd := 0 }, can := { s.can with guardTx := none } })
/-- STOP_DEENERGISED (50 us) and STOP_LANE_TENANT0: every TRIP output stops conducting, every contactor command is off, every configured
string is off, a BANK trip with the action's TRIP_ID is on every ring (while the ports run), and an emergency bank action is asked for. The TRIP_ID is a new one
unless an action still waits for its cycle. STOP_ENERGISED energises the chain again. STOP_LANE_TENANT sets that tenant's stop bit.
COMPARATOR_CROSSING after its filter time: an event-only one raises its event once; scope BANK acts as above; scope STRING trips its
ring and opens its string; another releases the outputs of its mask and asks for a record. COMPARATOR_REARM lets it fire again. -/
def Obligations.HardwareActionsReleaseAtOnce : Prop :=
  let bankAction (c : Instr) (cause : Nat) (s : State) : Prop :=
    ∃ t r, exec c s = .next t ∧ (∀ n, n < 8 → t.tripConducts n = false) ∧ t.guard.cmd = 0 ∧ t.guard.hwTrip = true ∧
      t.guard.tripId = (if s.guard.hwPending then s.guard.tripId else nextTripId s.guard.tripId) ∧ t.guard.hwPending = true ∧
      (s.portsUp = true → ∀ p, p < 128 → ∃ cs, (t.ring p).tripBody = some (t.guard.tripId, 1, 0xFFFF, cs)) ∧
      (∀ k ∈ s.est.configured, (t.str k).sw = 0 ∧ (t.str k).closed = false) ∧
      t.guard.reqs = s.guard.reqs ++ [r] ∧ r.kind = 1 ∧ r.string = none ∧ r.cause = cause
  (∀ (us_ : Nat) (s : State), s.tablesOk = true → s.power.pwrgd = true → s.guard.stopOk = true → 50 ≤ us_ →
    bankAction (.stopDeenergised us_) 0x0601 s) ∧
  (∀ (us_ : Nat) (s : State), s.power.pwrgd = true → s.guard.stopOk = true → 50 ≤ us_ →
    ∃ t, exec (.stopDeenergised us_) s = .next t ∧ t.guard.stopOk = false) ∧
  (∀ s : State, s.tablesOk = true → s.power.pwrgd = true → bankAction .stopLaneTenant0 0x060A s) ∧
  (∀ (us_ : Nat) (s : State), s.power.pwrgd = true → 50 ≤ us_ →
    exec (.stopEnergised us_) s = .next { s with guard := { s.guard with stopOk := true } }) ∧
  (∀ (n : Nat) (s : State), s.power.pwrgd = true → n ≠ 0 →
    ∃ t, exec (.stopLaneTenant n) s = .next t ∧ n ∈ t.guard.stops ∧ (∀ m, m ≠ n → (m ∈ t.guard.stops ↔ m ∈ s.guard.stops)) ∧
      t = { s with guard := { s.guard with stops := t.guard.stops, stopRings := t.guard.stopRings, stopAt := t.guard.stopAt } }) ∧
  (∀ (f : Nat) (hi : Bool) (ns : Nat) (s : State), s.tablesOk = true → s.power.pwrgd = true → s.analogue = true →
    bit (s.fpi f).cfg (if hi then 0 else 1) = true → wfld (s.fpi f).cfg 31 28 * 20 ≤ ns →
    let cause := if hi then 0x0602 else 0x0603
    ((s.fpi f).eventOnly = true → (s.fpi f).fired = false →
      ∃ t, exec (.comparatorCrossing f hi ns) s = .next t ∧ (t.fpi f).fired = true ∧ (t.fpi f).latched = (s.fpi f).latched ∧
        (∀ j, j ≠ f → t.fpi j = s.fpi j) ∧ t.recs = s.recs.push (mkEv cause [0, f, ((s.fpi f).val.toNat % 65536 : Nat)])) ∧
    ((s.fpi f).eventOnly = false → (s.fpi f).latched ≠ 0 →
      ∃ t, exec (.comparatorCrossing f hi ns) s = .next t ∧ t.fpi f = { s.fpi f with beyond := true } ∧ t.recs = s.recs ∧
        (∀ j, j ≠ f → t.fpi j = s.fpi j)) ∧
    ((s.fpi f).eventOnly = false → (s.fpi f).latched = 0 → (s.fpi f).scope = 1 →
      bankAction (.comparatorCrossing f hi ns) cause s) ∧
    ((s.fpi f).latched = 0 → (s.fpi f).scope = 2 →
      ∃ t r, exec (.comparatorCrossing f hi ns) s = .next t ∧ (t.fpi f).latched = (if hi then 1 else 2) ∧
        (∀ n, n < 8 → f < 16 → (s.fpi f).mask.testBit n = true → t.tripConducts n = false) ∧
        (s.portsUp = true → (t.ring (keyPort (s.fpi f).target)).tripBody = some (t.guard.tripId, 2, keyId (s.fpi f).target, cause)) ∧
        (t.str (s.fpi f).target).sw = 0 ∧ (t.str (s.fpi f).target).closed = false ∧ (t.str (s.fpi f).target).tripHold = true ∧
        (∀ j, j ≠ (s.fpi f).target → t.str j = s.str j) ∧
        t.guard.reqs = s.guard.reqs ++ [r] ∧ r.kind = 3 ∧ r.string = some (s.fpi f).target ∧ r.cause = cause) ∧
    ((s.fpi f).eventOnly = false → (s.fpi f).latched = 0 → (s.fpi f).scope = 0 →
      ∃ t r, exec (.comparatorCrossing f hi ns) s = .next t ∧ (t.fpi f).latched = (if hi then 1 else 2) ∧
        (∀ n, n < 8 → f < 16 → (s.fpi f).mask.testBit n = true → t.tripConducts n = false) ∧
        t.guard.reqs = s.guard.reqs ++ [r] ∧ r.kind = 6 ∧ r.cause = cause ∧ t.rings = s.rings ∧ t.est = s.est)) ∧
  (∀ (f : Nat) (s : State), s.tablesOk = true →
    ∃ t, exec (.comparatorRearm f) s = .next t ∧ t.fpi f = { s.fpi f with fired := false, beyond := false } ∧
      (∀ j, j ≠ f → t.fpi j = s.fpi j))

/-- GUARD_CYCLE (R222, R223): in every state in which the guard runs and its 100 us have passed, a cycle whose signatures match is completed and recorded. If an
emergency bank action has been asked for, and no clear command waits, then after that one cycle TRIPPED is latched, no contactor is
commanded on, no TRIP output conducts, STOP is the message on the PCS bus, the bank is not connected and no sequence runs, whatever else
was asked for. A second mismatch, or the watchdog after 1 ms without a cycle, is a guard fault: the same holds, and no TRIP output
conducts again. -/
def Obligations.EmergencyRequestsTripInOneCycle : Prop :=
  (∀ (convs : List Int) (m : Bool) (x : Nat) (s : State), s.power.pwrgd = true → s.guard.failed = false → s.sys.shut = false →
    s.cycleDue = true → ∃ t, exec (.guardCycle convs m false x) s = .next t ∧ t.guard.lastCycle = some s.clock ∧ t.guard.guardOk = true ∧
      t.guard.cycles = (if m then 0 else satN 100 (s.guard.cycles + 1))) ∧
  (∀ (convs : List Int) (m : Bool) (x : Nat) (r : Req) (s t : State), s.tablesOk = true →
    s.power.pwrgd = true → s.guard.failed = false → s.sys.shut = false → r ∈ s.guard.reqs → r.kind = 1 → r.string = none →
    s.cycleDue = true → s.guard.clears = [] → exec (.guardCycle convs m false x) s = .next t →
    t.guard.tripped = true ∧ t.guard.cmd = 0 ∧ t.guard.pcsCmd = 2 ∧ t.guard.connected = false ∧ t.guard.seq = none ∧
    (∀ n, t.tripConducts n = false) ∧ ∀ k ∈ s.est.configured, (t.str k).sw = 0 ∧ (t.str k).closed = false) ∧
  (∀ (convs : List Int) (x a : Nat) (c : Instr) (s : State), s.tablesOk = true →
    s.power.pwrgd = true → s.guard.failed = false → s.sys.shut = false →
    (c = .guardCycle convs true true x ∧ s.cycleDue = true) ∨ (c = .guardWatchdog ∧ s.guard.lastCycle = some a ∧ a + 200000 ≤ s.clock) →
    ∃ t, exec c s = .next t ∧ t.guard.failed = true ∧ t.guard.guardOk = false ∧ t.guard.tripped = true ∧ t.guard.cmd = 0 ∧
      (∀ n, t.tripConducts n = false) ∧ (s.portsUp = true → ∀ p, p < 128 → (t.ring p).tripBody = some (t.guard.tripId, 1, 0xFFFF, 0x060D)) ∧
      ∀ k ∈ s.est.configured, (t.str k).sw = 0 ∧ (t.str k).closed = false)

/-- HEARTBEAT is taken while the Reckoner runs and withdraws its loss; HEARTBEAT_TIMEOUT marks the Reckoner silent and asks for an
ordinary bank disconnection. LIMIT_LEVEL_CROSSED marks the level and asks for the action of R226 (ordinary for OV1, UV1, OC1, OT1,
emergency else) on its string. NODE_LOSS after four missing records asks for an emergency action for a switch node, an ordinary one
else. WELD_CHECK of the bank (port 255) and of a string asks for an emergency bank action where voltage, contact or current have not
followed in time, and only closes the window where they have. RING_REJOIN_CONNECT begins section 2 for the ring's strings that are
neither closed nor locked. -/
def Obligations.CausesAskTheGuard : Prop :=
  (∀ s : State, s.sys.run = .running → ∃ t, exec .heartbeat s = .next t ∧
    t.guard = { s.guard with beatAt := some s.clock, beatMs := 1000, silent := false, present := s.guard.present.erase 0x060B } ∧
    t.sys.bootFails = 0 ∧ t.upd.handAt = none ∧ t.sched.suspended = false ∧ t.recs = s.recs) ∧
  (∀ (a : Nat) (s : State), s.power.pwrgd = true → s.guard.failed = false → s.guard.silent = false → s.guard.beatAt = some a →
    a + 200000 * s.guard.beatMs ≤ s.clock →
    ∃ t r, exec .heartbeatTimeout s = .next t ∧ t.guard.silent = true ∧ 0x060B ∈ t.guard.present ∧
      t.guard.reqs = s.guard.reqs ++ [r] ∧ r.kind = 2 ∧ r.cause = 0x060B ∧ t.recs = s.recs) ∧
  (∀ (port sid level : Nat) (s : State), s.tablesOk = true → level < 10 →
    let k := strKey port sid
    k ∈ s.est.configured → level ∉ (s.str k).crossed → s.levelDue k level = true →
    ∃ t r rest, exec (.limitLevelCrossed port sid level) s = .next t ∧ level ∈ (t.str k).crossed ∧
      (∀ j, j ≠ k → t.str j = s.str j) ∧ t.guard.reqs = s.guard.reqs ++ r :: rest ∧
      r.kind = (if level ∈ [0, 3, 6, 8] then 4 else 3) ∧ r.string = some k ∧
      r.cause = nth 0 [0x604, 0x604, 0x604, 0x605, 0x605, 0x605, 0x606, 0x606, 0x607, 0x607] level ∧
      (level ≠ 8 → rest = []) ∧ t.recs = s.recs) ∧
  (∀ (port pos : Nat) (n : NodeId) (s : State), (s.ring port).config.find? (fun n => decide (n.pos = pos)) = some n →
    (s.ring port).state = .active → 4 ≤ tget (0 : Nat) (s.ring port).missRun pos → strKey port n.string ∈ s.est.configured →
    (s.ring port).rejoinPending = false → s.guard.seq = none →
    ∃ t r, exec (.nodeLoss port pos) s = .next t ∧ t = { s with guard := { s.guard with reqs := s.guard.reqs ++ [r] } } ∧
      r.kind = (if n.type = 2 then 3 else 4) ∧ r.string = some (strKey port n.string) ∧ r.cause = 0x0608) ∧
  (∀ (sid a v : Nat) (s : State), s.guard.openedAt = some (a, v) → a + 200000 * (max 0 (s.par 0x6106)).toNat ≤ s.clock →
    ∃ t, exec (.weldCheck 255 sid) s = .next t ∧ t.guard.openedAt = none ∧
      ((s.fpiRole? 3).isNone = true ∨ (s.linkFell v = true ∧ s.clock = a + 200000 * (max 0 (s.par 0x6106)).toNat) → t = { s with guard := { s.guard with openedAt := none } }) ∧
      ((s.fpiRole? 3).isSome = true → s.linkFell v = false ∨ a + 200000 * (max 0 (s.par 0x6106)).toNat < s.clock → ∃ r, t.guard.reqs = s.guard.reqs ++ [r] ∧ r.kind = 1 ∧ r.cause = 0x060E)) ∧
  (∀ (port sid a : Nat) (x y : Bool) (s : State), s.tablesOk = true → port < 128 →
    let k := strKey port sid
    tfind? s.guard.strOpened k = some (a, x, y) →
    (a + 40000000 ≤ s.clock ∧ x = false ∧ (s.auxOpen k = false ∨ a + 40000000 < s.clock)) ∨
      (a + 100000000 ≤ s.clock ∧ y = false ∧ (s.currentFell k = false ∨ a + 100000000 < s.clock)) →
    ∃ t r, exec (.weldCheck port sid) s = .next t ∧ (t.str k).welded = true ∧ (∀ j, j ≠ k → t.str j = s.str j) ∧
      t.guard.reqs = s.guard.reqs ++ [r] ∧ r.kind = 1 ∧ r.cause = 0x060E ∧ t.guard.strOpened = tdel s.guard.strOpened k) ∧
  (∀ (port sid a : Nat) (s : State), port < 128 → tfind? s.guard.strOpened (strKey port sid) = some (a, true, true) →
    a + 100000000 ≤ s.clock → exec (.weldCheck port sid) s =
      .next { s with guard := { s.guard with strOpened := tdel s.guard.strOpened (strKey port sid) } }) ∧
  (∀ (port : Nat) (s : State), s.tablesOk = true → (s.ring port).rejoinPending = true → (s.ring port).state = .active →
    3 ≤ (s.ring port).unflagged → s.guard.connected = true → s.guard.seq = none → s.sys.run = .running →
    ∃ t q, exec (.ringRejoinConnect port) s = .next t ∧ t.ring port = { s.ring port with rejoinPending := false } ∧
      (∀ p, p ≠ port → t.ring p = s.ring p) ∧ t.guard.seq = some q ∧ q.section_ = 2 ∧ q.cause = port + 1 ∧
      q.table = s.guard.table ∧
      ∀ r ∈ q.runs, r.string ∈ s.stringsOf port ∧ s.isLocked r.string = false ∧ (s.str r.string).closed = false)

/-- STEP_TIMEOUT of a bank step: where its condition holds, there is none, or ON_FAIL is 1, the next step begins; ON_FAIL 2 begins it and
asks for an emergency bank action; ON_FAIL 0 raises 0x060F and begins the next step in DISCONNECT, while in CONNECT the disconnect table
begins instead. Of a string step that fails with ON_FAIL 0: the string is opened and counted as not joined. PRECHARGE_HALF_CHECK below
half of its condition asks for an emergency action. CONTACTOR_OPEN_DEADLINE, 200 ms after ZERO, opens both main contactors. -/
def Obligations.SequenceStepsEnd : Prop :=
  (∀ (q : SeqRun) (s : State), s.guard.seq = some q → q.acted = true → q.section_ = 1 ∨ q.section_ = 3 → q.runs = [] →
    q.since + 200000 * q.now.timeout ≤ s.clock →
    let next : State := { s with guard := { s.guard with seq := some { q with step := q.step + 1, acted := false, since := s.clock, half := false } } }
    (q.now.cond = 0 ∨ s.condHolds q.now 0 0 = true ∨ q.now.onFail = 1 → exec (.stepTimeout none) s = .next next) ∧
    (q.now.cond ≠ 0 → s.condHolds q.now 0 0 = false → q.now.onFail = 2 →
      ∃ r, exec (.stepTimeout none) s = .next { next with guard := { next.guard with reqs := s.guard.reqs ++ [r] } } ∧
        r.kind = 1 ∧ r.cause = 0x060F) ∧
    (q.now.cond ≠ 0 → s.condHolds q.now 0 0 = false → q.now.onFail = 0 → q.section_ = 3 →
      exec (.stepTimeout none) s = .next { next with recs := s.recs.push (mkEv 0x060F [3, q.step + 1, q.now.cond]) }) ∧
    (q.now.cond ≠ 0 → s.condHolds q.now 0 0 = false → q.now.onFail = 0 → q.section_ = 1 →
      ∃ t q', exec (.stepTimeout none) s = .next t ∧ t.guard.seq = some q' ∧ q'.section_ = 3 ∧ q'.step = 0 ∧ q'.acted = false ∧
        q'.cause = 0x060F ∧ t.guard.released = false ∧ t.guard.preSince = none ∧
        t.guard.tripId = (if s.guard.hwPending = true ∨ s.guard.idAt = some s.clock then s.guard.tripId
          else nextTripId s.guard.tripId) ∧
        (q.table.chan 3 < 24 → bit t.guard.cmd (q.table.chan 3) = false) ∧
        t.recs.queue = (s.recs.push (mkEv 0x060F [1, q.step + 1, q.now.cond])).queue)) ∧
  (∀ (q : SeqRun) (r : StrRun) (p : Nat) (s : State), s.tablesOk = true → s.guard.seq = some q →
    q.runs.find? (fun r => decide (keyPort r.string = p)) = some r → r.acted = true →
    r.since + 200000 * (q.nowOf r).timeout ≤ s.clock →
    ((q.nowOf r).cond = 0 ∨ s.condHolds (q.nowOf r) r.string r.gen = true ∨ (q.nowOf r).onFail = 1 →
      ∃ t, exec (.stepTimeout (some p)) s = .next t ∧ t.est = s.est ∧
        { r with step := r.step + 1, acted := false, since := s.clock } ∈ ((t.guard.seq.map SeqRun.runs).getD [])) ∧
    ((q.nowOf r).cond ≠ 0 → s.condHolds (q.nowOf r) r.string r.gen = false → (q.nowOf r).onFail = 0 →
      ∃ t, exec (.stepTimeout (some p)) s = .next t ∧ (t.str r.string).sw = 0 ∧ (t.str r.string).closed = false ∧
        (t.str r.string).notJoined = true ∧ (∀ j, j ≠ r.string → t.str j = s.str j) ∧
        t.guard.seq.map SeqRun.left = some (q.left + 1))) ∧
  (∀ (q : SeqRun) (s : State), s.guard.seq = some q → q.acted = true → q.section_ = 1 → q.now.op = 1 → q.now.role = 3 →
    q.now.cond = 1 → q.half = false → q.since + 100000 * q.now.timeout ≤ s.clock → s.guard.vlink * 2000 < (q.now.val : Int) * s.guard.vbank →
    ∃ r, exec .prechargeHalfCheck s = .next { s with guard := { s.guard with reqs := s.guard.reqs ++ [r] } } ∧
      r.kind = 1 ∧ r.cause = 0x060F) ∧
  (∀ (q : SeqRun) (a : Nat) (s : State), s.tablesOk = true → s.guard.seq = some q → q.section_ = 3 → q.zeroAt = some a →
    a + 40000000 ≤ s.clock → s.roleOn q.table 1 = true ∨ s.roleOn q.table 2 = true →
    ∃ t, exec .contactorOpenDeadline s = .next t ∧ t.roleOn q.table 1 = false ∧ t.roleOn q.table 2 = false ∧
      t.guard.connected = false ∧ t.guard.openedAt = some (s.clock, s.guard.vbank) ∧
      t.guard.seq = some (if q.acted then { q with step := q.step + 1, acted := false, since := s.clock, half := false } else q))

/-- While the host may write: RQ_TAIL and RS_TAIL take their value, and a ring then more than 64 ahead is a ring fault, once, with event
0x0145; EPOCH empties the tenant's outstanding tags and stored responses; RQ_EN and RS_EN reset their indices; writing STOP with 0x53544F50
rings the tenant's lane, another value only counts; CNT_A clears on a read. REQUEST_FETCH, in the tenant's turn: an error completion is a ring fault; else RQ_HEAD advances, a request of
another epoch or a busy tag is counted and discarded, and a correct one is outstanding. RESPONSE_POST places the oldest waiting response
with the next SEQ, frees its tag, or drops it where its epoch has passed. IRQ_TIMEOUT sends the message. Other pages stay. -/
def Obligations.RingsAreFetchedAndPosted : Prop :=
  (∀ (n v : Nat) (s : State), s.tablesOk = true → s.hostWrites = true →
    ∃ t, exec (.rqTail n v) s = .next t ∧ (t.page n).rqTail = v % 65536 ∧ (t.page n).rqHead = (s.page n).rqHead ∧
      (∀ j, j ≠ n → t.page j = s.page j) ∧
      (t.page n).rqFault = ((s.page n).rqFault ||
        ((s.page n).rqEn && decide (64 < (v % 65536 + 65536 - (s.page n).rqHead) % 65536))) ∧
      t.recs = (if (t.page n).rqFault = true ∧ (s.page n).rqFault = false
        then s.recs.push (mkEv 0x0145 [n, (s.page n).rqHead, (v % 65536 : Nat)]) else s.recs)) ∧
  (∀ (n v : Nat) (s : State), s.tablesOk = true → s.hostWrites = true →
    ∃ t, exec (.rsTail n v) s = .next t ∧ (t.page n).rsTail = v % 65536 ∧ (∀ j, j ≠ n → t.page j = s.page j) ∧
      (t.page n).rqFault = ((s.page n).rqFault ||
        ((s.page n).rsEn && decide (64 < ((s.page n).rsHead + 65536 - v % 65536) % 65536)))) ∧
  (∀ (n v : Nat) (s : State), s.tablesOk = true → s.hostWrites = true → (s.page n).epoch ≠ v % 256 →
    ∃ t, exec (.epoch n v) s = .next t ∧ t.page n = { s.page n with epoch := v % 256, outstanding := [], stored := [] } ∧
      (∀ j, j ≠ n → t.page j = s.page j) ∧ t.recs = s.recs) ∧
  (∀ (n : Nat) (s : State), s.tablesOk = true → s.hostWrites = true → (s.page n).rqEn = false →
    ∃ t, exec (.rqEn n) s = .next t ∧ t.page n = { s.page n with rqEn := true, rqHead := 0, rqTail := 0, rqFault := false } ∧
      (∀ j, j ≠ n → t.page j = s.page j)) ∧
  (∀ (n : Nat) (s : State), s.tablesOk = true → s.hostWrites = true → (s.page n).rsEn = false →
    ∃ t, exec (.rsEn n) s = .next t ∧ t.page n = { s.page n with rsEn := true, rsHead := 0, rsTail := 0, seq := 0 } ∧
      (∀ j, j ≠ n → t.page j = s.page j)) ∧
  (∀ (n : Nat) (s : State), s.hostWrites = true → s.power.pwrgd = true → n ≠ 0 →
    exec (.registerWrite n 0x030 (some 0x53544F50)) s = exec (.stopLaneTenant n) s) ∧
  (∀ s : State, s.hostWrites = true → s.power.pwrgd = true →
    exec (.registerWrite 0 0x030 (some 0x53544F50)) s = exec .stopLaneTenant0 s) ∧
  (∀ (n v : Nat) (s : State), s.tablesOk = true → s.hostWrites = true → v ≠ 0x53544F50 →
    ∃ t, exec (.registerWrite n 0x030 (some v)) s = .next t ∧ t.page n =
        { s.page n with cntStray := sat16 ((s.page n).cntStray + 1), cntBOld := noteOld s.clock (s.page n).cntBOld (s.page n).cntB } ∧
      t.guard = s.guard ∧ ∀ j, j ≠ n → t.page j = s.page j) ∧
  (∀ (n : Nat) (s : State), s.tablesOk = true → s.hostWrites = true → (s.page n).cntAOld.1 ≠ s.clock →
    ∃ t, exec (.registerWrite n 0x038 none) s = .next t ∧ (t.page n).cntStale = 0 ∧ (t.page n).cntLate = 0 ∧
      t.page n = { s.page n with cntStale := 0, cntLate := 0, cntAOld := (t.page n).cntAOld } ∧ ∀ j, j ≠ n → t.page j = s.page j) ∧
  (∀ (n : Nat) (slot : List Byte) (s : State), s.tablesOk = true → s.fetchable n = true → s.inTurn n = true →
    ∃ t, exec (.requestFetch n slot false) s = .next t ∧ (t.page n).rqFault = true ∧ (t.page n).rqHead = (s.page n).rqHead ∧
      (∀ j, j ≠ n → t.page j = s.page j)) ∧
  (∀ (n : Nat) (slot : List Byte) (s : State), s.fetchable n = false ∨ s.inTurn n = false →
    exec (.requestFetch n slot true) s = .next s) ∧
  (∀ (n : Nat) (slot : List Byte) (s : State), s.tablesOk = true → s.fetchable n = true → s.inTurn n = true →
    let h := Hdr.of slot
    h.epoch ≠ (s.page n).epoch ∨ (s.page n).busyTag h.tag = true →
    ∃ t, exec (.requestFetch n slot true) s = .next t ∧ (∀ j, j ≠ n → t.page j = s.page j) ∧
      t.page n = { s.page n with rqHead := ((s.page n).rqHead + 1) % 65536, cntStale := sat16 ((s.page n).cntStale + 1),
                                 cntAOld := noteOld s.clock (s.page n).cntAOld (s.page n).cntA }) ∧
  (∀ (n : Nat) (slot : List Byte) (s : State), s.tablesOk = true → s.fetchable n = true → s.inTurn n = true →
    let h := Hdr.of slot
    h.epoch = (s.page n).epoch → (s.page n).busyTag h.tag = false → s.sys.run ≠ .restarting →
    h.check false n ((slot.drop 16).take (min h.len 240)) = none →
    ∃ t, exec (.requestFetch n slot true) s = .next t ∧ (t.page n).rqHead = ((s.page n).rqHead + 1) % 65536 ∧
      (h.tag, false, s.guard.stopRings) ∈ (t.page n).outstanding ∧
      ((∀ m, (s.page m).arrived = []) → (∀ j, j ≠ n → t.page j = s.page j) ∧
        t.page n = { s.page n with rqHead := ((s.page n).rqHead + 1) % 65536,
                                   outstanding := (s.page n).outstanding ++ [(h.tag, false, s.guard.stopRings)] })) ∧
  (∀ (n : Nat) (r : Resp) (s : State), s.tablesOk = true → s.sys.d3 = false → (s.page n).rsEn = true → (s.page n).rsFull = false →
    n ≠ 0 ∨ s.sys.wakeDue = none → (s.page n).waitingFor? false = some r → r.rq.epoch = (s.page n).epoch →
    ∃ t, exec (.responsePost n false true) s = .next t ∧ (∀ j, j ≠ n → t.page j = s.page j) ∧
      (t.page n).seq = nextSeqNo (s.page n).seq ∧ (t.page n).rsHead = ((s.page n).rsHead + 1) % 65536 ∧
      (t.page n).posted = ((nextSeqNo (s.page n).seq, r) :: (s.page n).posted).take 64 ∧
      (t.page n).waiting = (s.page n).waiting.erase r ∧
      (t.page n).outstanding = (s.page n).outstanding.filter (fun o => decide (o.1 ≠ r.rq.tag)) ∧
      tfind? (t.page n).stored r.rq.tag = some r) ∧
  (∀ (n : Nat) (r : Resp) (s : State), s.tablesOk = true → s.sys.d3 = false → (s.page n).rsEn = true → (s.page n).rsFull = false →
    n ≠ 0 ∨ s.sys.wakeDue = none → (s.page n).waitingFor? false = some r → r.rq.epoch ≠ (s.page n).epoch →
    ∃ t, exec (.responsePost n false true) s = .next t ∧ (∀ j, j ≠ n → t.page j = s.page j) ∧
      t.page n =
        { s.page n with waiting := (s.page n).waiting.erase r, cntLate := sat16 ((s.page n).cntLate + 1),
                        cntAOld := noteOld s.clock (s.page n).cntAOld (s.page n).cntA }) ∧
  (∀ (n : Nat) (r : Resp) (s : State), s.tablesOk = true → s.sys.eth0 = true ∨ s.sys.eth1 = true →
    (s.page n).waitingFor? true = some r → r.rq.epoch = (s.page n).epoch →
    ∃ t, exec (.responsePost n true true) s = .next t ∧ (∀ j, j ≠ n → t.page j = s.page j) ∧
      (r.bulk = [] → (t.page n).ethSeq = nextSeqNo (s.page n).ethSeq) ∧ (t.page n).wire.length = (r.bulk.length + 1023) / 1024 + 1 ∧
      (t.page n).seq = (s.page n).seq ∧
      (t.page n).waiting = (s.page n).waiting.erase r ∧
      (t.page n).outstanding = (s.page n).outstanding.filter (fun o => decide (o.1 ≠ r.rq.tag))) ∧
  (∀ (n a : Nat) (s : State), s.tablesOk = true → bit (s.page n).irqMod 31 = true → wfld (s.page n).irqMod 15 0 ≠ 0 →
    (s.page n).irqSince = some a → a + 200 * wfld (s.page n).irqMod 15 0 ≤ s.clock →
    ∃ t, exec (.irqTimeout n) s = .next t ∧ (∀ j, j ≠ n → t.page j = s.page j) ∧
      t.page n = { s.page n with irqs := (s.page n).irqs + 1, irqPend := 0, irqSince := none })

/-- MAILBOX_DATAGRAM on an open port: a wrong length or MAC is counted in AUTH_DROP, a SEQ that is not fresh in REPLAY_DROP, and neither is
answered; a fresh authentic one records its SEQ and, of the current epoch with a free tag and correct, is outstanding, or waits where it is not its tenant's turn. STOP_DATAGRAM, checked
by its own replay counter, rings the tenant's lane. CURSOR_EXPIRY releases a cursor 10 s old. PTP_MESSAGE: an offset above 1 ms steps wall
time with 0x0148, a smaller one slews; 16 intervals within 1 us make wall time valid. ANNOUNCE_TIMEOUT moves to the other port or into
holdover. ETHERNET_LINK changes the port's state with 0x0142. -/
def Obligations.DatagramsAreAuthenticatedAndFresh : Prop :=
  (∀ (port : Nat) (b : List Byte) (net : Bool) (s : State), s.tablesOk = true → s.ethOpen port = true → s.sys.holdup = false →
    s.serving = true →
    let h := Hdr.of b
    let body := b.take (16 + h.len)
    let i := fld h.flags 4 4
    let n := h.tenant
    (b.length ≠ 48 + h.len ∨ (s.firstKey port h (body.drop 16) net = false ∧ s.macOk n i body (b.drop (16 + h.len)) = false) →
      ∃ t, exec (.mailboxDatagram port b net) s = .next t ∧ t.sys.authDrop = (s.sys.authDrop + 1) % 2 ^ 32 ∧
        t.sys.pages = s.sys.pages ∧ t.sys.replayDrop = s.sys.replayDrop) ∧
    (b.length = 48 + h.len → s.firstKey port h (body.drop 16) net = false → s.macOk n i body (b.drop (16 + h.len)) = true →
      (s.page n).fresh i h.seq = false →
      ∃ t, exec (.mailboxDatagram port b net) s = .next t ∧ t.sys.replayDrop = (s.sys.replayDrop + 1) % 2 ^ 32 ∧
        t.sys.pages = s.sys.pages ∧ t.sys.authDrop = s.sys.authDrop) ∧
    (b.length = 48 + h.len → s.firstKey port h (body.drop 16) net = false → s.macOk n i body (b.drop (16 + h.len)) = true →
      (s.page n).fresh i h.seq = true → h.flags.testBit 2 = false → h.flags.testBit 1 = false → h.epoch = (s.page n).epoch →
      (s.page n).busyTag h.tag = false → ((s.page n).outstanding.filter (fun o => o.2.1)).length < 64 →
      s.sys.run ≠ .restarting → h.check true n (body.drop 16) = none → (∀ m, (s.page m).arrived = []) →
      ∃ t, exec (.mailboxDatagram port b net) s = .next t ∧ (∀ j, j ≠ n → t.page j = s.page j) ∧
        (s.inTurn n = true → t.page n = { (s.page n).accept i h.seq with
          lastSlot := i, ethPeer := true
          outstanding := (s.page n).outstanding ++ [(h.tag, true, s.guard.stopRings)] }) ∧
        (s.inTurn n = false → t.page n = { (s.page n).accept i h.seq with
          lastSlot := i, ethPeer := true
          arrived := [body] }))) ∧
  (∀ (port : Nat) (b : List Byte) (s : State), s.tablesOk = true → s.ethOpen port = true → s.power.pwrgd = true →
    let h := Hdr.of b
    let i := fld h.flags 4 4
    h.op = 0 → h.tag = 0 → h.len = 0 → h.flags = i * 16 → b.length = 48 →
    (s.macOk h.tenant i (b.take 16) (b.drop 16) = false →
      ∃ t, exec (.stopDatagram port b) s = .next t ∧ t.guard = s.guard ∧ t.sys.authDrop = (s.sys.authDrop + 1) % 2 ^ 32) ∧
    (s.macOk h.tenant i (b.take 16) (b.drop 16) = true → (s.page h.tenant).fresh (2 + i) h.seq = false →
      ∃ t, exec (.stopDatagram port b) s = .next t ∧ t.guard = s.guard ∧ t.sys.replayDrop = (s.sys.replayDrop + 1) % 2 ^ 32) ∧
    (s.macOk h.tenant i (b.take 16) (b.drop 16) = true → (s.page h.tenant).fresh (2 + i) h.seq = true → h.tenant ≠ 0 →
      ∃ t r, exec (.stopDatagram port b) s = .next t ∧ h.tenant ∈ t.guard.stops ∧ t.guard.stopRings = s.guard.stopRings + 1 ∧
        (t.page h.tenant).posted = ((nextSeqNo (s.page h.tenant).ethSeq, r) :: (s.page h.tenant).posted).take 64 ∧
        r.opcode = 0 ∧ r.status = 0 ∧ bit t.sys.wakeCause 1 = true)) ∧
  (∀ (c : Cursor) (s : State), s.sys.cursors.find? (fun d => decide (d.id = c.id)) = some c → c.since + 2000000000 ≤ s.clock →
    ∃ t, exec (.cursorExpiry c.id) s = .next t ∧ t.sys.cursors = s.sys.cursors.filter (fun d => decide (d.id ≠ c.id)) ∧
      tfind? t.sys.expired c.id = some c.tenant ∧ t.sys.pages = s.sys.pages) ∧
  (∀ (port domain : Nat) (m : BitVec 64) (s : State), port = s.sys.ptpPort → (domain : Int) = s.parC 0x110B →
    let off : Int := (s.sys.wall.toNat : Int) - m.toNat
    (1000000 < off.natAbs →
      ∃ t e, exec (.ptpMessage port domain m) s = .next t ∧ t.sys.wall = m ∧ t.sys.ptpGood = 0 ∧ t.sys.ptpLock = s.sys.ptpLock ∧
        t.recs = s.recs.push (mkEv 0x0148 [e])) ∧
    (off.natAbs ≤ 1000000 →
      ∃ t, exec (.ptpMessage port domain m) s = .next t ∧ t.sys.wall = s.sys.wall ∧ t.sys.ptpSlew = -off ∧
        t.sys.ptpGood = (if off.natAbs ≤ 1000 then min 16 (s.sys.ptpGood + 1) else 0) ∧
        t.sys.ptpLock = (s.sys.ptpLock || decide (t.sys.ptpGood = 16)))) ∧
  (∀ s : State, ∃ t, exec (.announceTimeout true) s = .next t ∧
    t = { s with sys := { s.sys with ptpPort := 1 - s.sys.ptpPort, ptpGood := 0 } }) ∧
  (∀ s : State, ∃ t, exec (.announceTimeout false) s = .next t ∧ t.sys.holdover = s.sys.ptpLock ∧ t.sys.ptpLock = s.sys.ptpLock ∧
    t.sys.wall = s.sys.wall ∧
    t.recs = (if s.sys.ptpLock = true ∧ s.sys.holdover = false then s.recs.push (mkEv 0x0147 [s.sys.ptpPort]) else s.recs)) ∧
  (∀ (up : Bool) (s : State), s.sys.eth0 ≠ up →
    ∃ t, exec (.ethernetLink 0 up) s = .next t ∧ t.sys.eth0 = up ∧ t.sys.eth1 = s.sys.eth1 ∧ bit t.sys.wakeCause 6 = true ∧
      t.recs = s.recs.push (mkEv 0x0142 [0, if up then 1 else 0]))

/-- For the two commands by which requests arrive (a datagram, a fetched slot) and every tenant: if at most 64 of the tenant's requests are
outstanding over Ethernet before it, begun or waiting for the tenant's turn, at most 64 are after it. A fresh authentic request of the
current epoch with a free tag (no retry) that arrives while 64 are outstanding leaves both lists as they are and is answered with STATUS
0x0007 (QUEUE_FULL), on the page that the datagram left. Nothing of it is executed: the queue of commands is as it was. -/
def Obligations.EthernetQueueHolds64 : Prop :=
  (∀ (c : Instr) (s t : State) (n : Nat), s.tablesOk = true →
    (∃ port b net, c = .mailboxDatagram port b net) ∨ (∃ m slot ok, c = .requestFetch m slot ok) → exec c s = .next t →
    ((s.page n).outstanding.filter (fun o => o.2.1)).length + (s.page n).arrived.length ≤ 64 →
    ((t.page n).outstanding.filter (fun o => o.2.1)).length + (t.page n).arrived.length ≤ 64) ∧
  (∀ (port : Nat) (b : List Byte) (net : Bool) (s : State), s.tablesOk = true → s.ethOpen port = true → s.sys.holdup = false →
    s.serving = true → s.sys.d3 = false →
    let h := Hdr.of b
    let body := b.take (16 + h.len)
    let i := fld h.flags 4 4
    let n := h.tenant
    b.length = 48 + h.len → s.firstKey port h (body.drop 16) net = false → s.macOk n i body (b.drop (16 + h.len)) = true →
    (s.page n).fresh i h.seq = true → h.flags.testBit 2 = false → h.flags.testBit 1 = false → h.epoch = (s.page n).epoch →
    (s.page n).busyTag h.tag = false →
    64 ≤ ((s.page n).outstanding.filter (fun o => o.2.1)).length + (s.page n).arrived.length →
    ∃ t r, exec (.mailboxDatagram port b net) s = .next t ∧ (t.page n).outstanding = (s.page n).outstanding ∧
      (t.page n).arrived = (s.page n).arrived ∧
      (t.page n).waiting = (s.page n).waiting ++ [r] ∧ r.status = 0x0007 ∧ r.rq.tag = h.tag ∧ r.opcode = h.op ∧
      t.pending = s.pending)

/-- PCIE_RESET clears every page register but EPOCH, drops responses not yet posted over PCI Express, keeps outstanding requests, and
raises 0x0141; the bank, the guard and the Ethernet ports stay. PCIE_LINK_UP sets the link with width and rate. D3HOT_ENTRY puts the
function into D3hot. D0_RESUME takes it out; with PME asserted it withdraws PME, counts the wake once, keeps WAKE_CAUSE and raises 0x0149.
WAKE_CAUSE latches its bit, and in D3hot an enabled cause asserts PME. -/
def Obligations.EndpointResetsAndWakes : Prop :=
  (∀ (stays : Bool) (s : State), s.tablesOk = true →
    ∃ t, exec (.pcieReset stays) s = .next t ∧ t.guard = s.guard ∧ t.est = s.est ∧ t.sys.eth0 = s.sys.eth0 ∧
      t.sys.eth1 = s.sys.eth1 ∧ t.sys.d3 = false ∧ t.sys.pcieUp = (stays && s.sys.pcieUp) ∧
      (∀ n ∈ tkeys s.sys.pages, (t.page n).rqEn = false ∧ (t.page n).rsEn = false ∧ (t.page n).rqTail = 0 ∧
        (t.page n).rqHead = 0 ∧ (t.page n).rsTail = 0 ∧ (t.page n).rsHead = 0 ∧ (t.page n).rqBase = 0 ∧ (t.page n).rsBase = 0 ∧
        (t.page n).rqFault = false ∧ (t.page n).epoch = (s.page n).epoch ∧ (t.page n).outstanding = (s.page n).outstanding ∧
        (t.page n).waiting = (s.page n).waiting.filter (fun r => r.rq.eth)) ∧
      (∀ n, n ∉ tkeys s.sys.pages → t.page n = s.page n) ∧
      (s.sys.pme = false →
        t.recs = s.recs.push (mkEv 0x0141 [if t.sys.pcieUp then 1 else 0, s.sys.pcieMode.1, s.sys.pcieMode.2]))) ∧
  (∀ (w r : Nat) (s : State), s.sys.pcieUp = false → s.power.pwrgd = true →
    ∃ t, exec (.pcieLinkUp w r) s = .next t ∧
      t = { s with sys := { s.sys with pcieUp := true, pcieMode := (w, r) }, recs := s.recs.push (mkEv 0x0141 [1, w, r]) }) ∧
  (∀ s : State, s.sys.pcieUp = true → exec .d3hotEntry s = .next { s with sys := { s.sys with d3 := true } }) ∧
  (∀ s : State, s.sys.d3 = true → s.sys.pme = false → exec .d0Resume s = .next { s with sys := { s.sys with d3 := false } }) ∧
  (∀ s : State, s.sys.d3 = true → s.sys.pme = true →
    ∃ t, exec .d0Resume s = .next t ∧ t.sys.d3 = false ∧ t.sys.pme = false ∧ t.sys.wakeCause = s.sys.wakeCause ∧
      t.sys.pmeCount = min 65535 (s.sys.pmeCount + 1) ∧
      t.recs = s.recs.push (mkEv 0x0149 [s.sys.wakeCause.toNat, t.sys.pmeCount])) ∧
  (∀ (n : Nat) (s : State), n < 7 →
    ∃ t, exec (.wakeCause n) s = .next t ∧ bit t.sys.wakeCause n = true ∧ (∀ m, m ≠ n → bit t.sys.wakeCause m = bit s.sys.wakeCause m) ∧
      t.sys.pme = (s.sys.pme || (s.sys.d3 && bit s.sys.wakeEn n)) ∧ t.sys.pages = s.sys.pages)

/-- A request that is served and meets its own rules completes. IDENTITY, STATUS, LINK_STATUS, WHOAMI, GET_ALLOC and ECHO answer their
records and do nothing else. SET_MODE to COMMISSION or STANDBY changes the mode and the stored mode, CONNECT starts the connect section
in the mode CONNECT, each unless a condition of R446 fails: then TRANSITION_REFUSED with the mask and event 0x0103. DISCONNECT starts the
disconnect section without a trip. SHUTDOWN answers, releases every output command and stops in OFF. SET_ALLOC arms M3, and the tenant's
allocation waits for it; a removal needs no delivered power. INSTALL_KEY installs a key with its counters at 0. SET_PARAM of the four
groups commits the value at every key of its scope, in force at the next sweep, and refuses an unknown code, scope or value;
GET_PARAM answers VALUE, DEFAULT, MIN, MAX. -/
def Obligations.SystemAndSettingsRequestsComplete : Prop :=
  (∀ (rq : Rq) (s : State), s.takes (.identity rq) = true → s.replies (.identity rq) rq 0x0100 48
    [(16, 8, Config.serial), (24, 1, 66), (25, 1, if Config.gradeX then 88 else 69), (28, 4, s.upd.active.ver), (32, 4, Config.romVer),
     (36, 4, s.image.id), (40, 4, s.image.ver), (44, 4, s.recs.cfgGen)]) ∧
  (∀ (rq : Rq) (s : State), s.takes (.status rq) = true → s.replies (.status rq) rq 0x0101 40
    [(0, 1, modeCode s.sys.mode), (1, 1, 3), (2, 2, s.statusFlags), (4, 2, s.guard.tripId),
     (6, 2, if s.guard.tripped then s.guard.tripCause else 0), (8, 8, s.wall.toNat), (16, 8, s.beamTime), (24, 4, s.newestGen),
     (28, 4, s.recs.newest), (32, 1, s.activePorts.length), (35, 1, s.healthyRods), (36, 4, 0)]) ∧
  (∀ (rq : Rq) (s : State), s.takes (.linkStatus rq) = true → s.replies (.linkStatus rq) rq 0x0E03 32
    [(2, 2, s.sys.mbLoad), (4, 4, s.sys.authDrop), (8, 4, s.sys.replayDrop), (12, 4, s.sys.lateDrop), (16, 4, s.sys.staleReq),
     (20, 2, s.sys.cursors.length), (22, 2, s.sys.notifDrop), (24, 4, s.sys.ptpOffset), (28, 4, 0)]) ∧
  (∀ (rq : Rq) (s : State), s.takes (.whoami rq) = true → s.replies (.whoami rq) rq 0x0200 4
    [(0, 1, rq.tenant), (1, 1, b2n (s.tenEnabled rq.tenant)), (2, 1, (s.page rq.tenant).epoch)]) ∧
  (∀ (rq : Rq) (t : Nat) (a : Nat × Nat × Nat) (s : State), s.takes (.getAlloc rq t) = true → s.accepted? t = some a →
    s.replies (.getAlloc rq t) rq 0x0202 32
      [(0, 1, t), (1, 1, 1), (4, 4, a.1), (8, 4, a.2.1), (16, 8, a.2.2), (24, 8, whOf (s.tenant t).mj)]) ∧
  (∀ (rq : Rq) (t : Nat) (s : State), s.takes (.getAlloc rq t) = true → s.accepted? t = none →
    exec (.getAlloc rq t) s = .next (s.refuse rq 0x0202 ⟨0x0014, 0, 0⟩)) ∧
  (∀ (rq : Rq) (p : List Byte) (s : State), s.takes (.echo rq p) = true → exec (.echo rq p) s = .next (s.ok rq 0x0E04 p)) ∧
  (∀ (rq : Rq) (target : Nat) (s : State), s.takes (.setMode rq target) = true → target = 2 ∨ target = 3 →
    let m : Mode := if target = 2 then .commission else .standby
    (s.sys.mode = m → exec (.setMode rq target) s = .next (s.ok rq 0x0102 [])) ∧
    (s.sys.mode ≠ m → s.modeMask target ≠ 0 → exec (.setMode rq target) s =
      .next ((s.raise 0x0103 [target, (s.modeMask target % 65536 : Nat)]).refuse rq 0x0102 ⟨0x0101, target, s.modeMask target⟩)) ∧
    (s.sys.mode ≠ m → s.modeMask target = 0 → s.nvOk = true → ∃ t : State, exec (.setMode rq target) s = .next (t.okNv rq 0x0102) ∧
      t.sys.mode = m ∧ t.sys.storedCommission = decide (target = 2) ∧ t.guard = s.guard)) ∧
  (∀ (rq : Rq) (s : State), s.takes (.connect rq) = true → s.disconnecting = false → s.bankSet = true → s.guard.weld = none →
    (s.connectMask ≠ 0 → exec (.connect rq) s =
      .next ((s.raise 0x0103 [4, (s.connectMask % 65536 : Nat)]).refuse rq 0x0103 ⟨0x0101, 4, s.connectMask⟩)) ∧
    (s.connectMask = 0 → ∃ t : State, exec (.connect rq) s = .next (t.ok rq 0x0103 []) ∧ t.sys.mode = .connect ∧
      t.guard = { s.guard with seq := some (s.newRun 1 0 false) })) ∧
  (∀ (rq : Rq) (s : State), s.takes (.disconnect rq) = true → s.disconnecting = false → s.bankUp = true →
    ∃ t : State, exec (.disconnect rq) s = .next (t.ok rq 0x0104 []) ∧ t.sys = s.sys ∧
      t.guard = { s.guard with seq := some (s.newRun 3 0 false), released := false, strDisc := none }) ∧
  (∀ (rq : Rq) (s : State), s.tablesOk = true → s.takes (.shutdown rq) = true → s.sys.exchange = none → s.nvOk = true → s.sys.d3 = false →
    ∃ t, exec (.shutdown rq) s = .next t ∧ t.sys.mode = .off ∧ t.sys.shut = true ∧ t.guard.cmd = 0 ∧ t.guard.seq = none ∧
      t.loops.started = false ∧ answer rq 0x0105 okStatus true ∈ (t.page rq.tenant).waiting) ∧
  (∀ (rq : Rq) (i dis chg e init : Nat) (s : State), s.tablesOk = true → s.takes (.setAlloc rq i true dis chg e init) = true →
    i ≠ 0 → 1 ≤ e → e ≤ 2 ^ 62 → (s.accepted? i).isSome = true ∨ init ≤ e → s.bankSet = true → s.allocExceeds i dis chg e = none →
    s.nvOk = true → (s.mark 3).en = true ∨ (s.mark 0).step ≠ 0 →
    ∃ t : State, exec (.setAlloc rq i true dis chg e init) s = .next (t.okNv rq 0x0201) ∧ (t.mark 3).en = true ∧
      t.tenant i = { s.tenant i with
        nextAlloc := some (true, dis, chg, e)
        mj := if (s.tenant i).exists_ = true ∨ (s.tenant i).nextAlloc.isSome = true then (s.tenant i).mj else (init : Int) * 3600000 } ∧
      ∀ j, j ≠ i → t.tenant j = s.tenant j) ∧
  (∀ (rq : Rq) (i dis chg e init : Nat) (s : State), s.tablesOk = true → s.takes (.setAlloc rq i false dis chg e init) = true →
    i ≠ 0 → 1 ≤ e → e ≤ 2 ^ 62 → (s.accepted? i).isSome = true →
    ((s.tenant i).deliv ≠ 0 → exec (.setAlloc rq i false dis chg e init) s =
      .next (s.refuse rq 0x0201 ⟨0x0202, 0, ux 32 (s.tenant i).deliv⟩)) ∧
    ((s.tenant i).deliv = 0 → s.nvOk = true → (s.mark 3).en = true ∨ (s.mark 0).step ≠ 0 → ∃ t : State, exec (.setAlloc rq i false dis chg e init) s = .next (t.okNv rq 0x0201) ∧
      (t.mark 3).en = true ∧ (t.tenant i).nextAlloc = some (false, dis, chg, e) ∧ ∀ j, j ≠ i → t.tenant j = s.tenant j)) ∧
  (∀ (rq : Rq) (n slot key : Nat) (s : State), s.tablesOk = true → s.takes (.installKey rq n slot key) = true → slot < 2 →
    rq.tenant = 0 ∨ rq.eth = false ∨ rq.slot ≠ slot → s.nvOk = true →
    ∃ t : State, exec (.installKey rq n slot key) s = .next (t.okNv rq 0x0203) ∧ (∀ j, j ≠ n → t.page j = s.page j) ∧
      t.page n = { s.page n with
        keys := tput (s.page n).keys slot key
        replay := tset 0 (s.page n).replay slot 0
        windows := tset [] (s.page n).windows slot []
        ethSeq := 0
        epochSeq := tset 0 (s.page n).epochSeq slot 0 }) ∧
  (∀ g ∈ ([(Instr.setParam, 0x0110), (Instr.cellSetParam, 0x0310), (Instr.dispatchSetParam, 0x0510), (Instr.protSetParam, 0x0610)] :
      List ((Rq → Nat → Nat → Nat → Int → Instr) × Nat)),
    ∀ (rq : Rq) (param port string : Nat) (v : Int) (s : State), s.takes (g.1 rq param port string v) = true →
    (rowFor? g.2 param = none → exec (g.1 rq param port string v) s = .next (s.refuse rq g.2 ⟨0x0014, 0, 0⟩)) ∧
    (∀ r, rowFor? g.2 param = some r →
      (s.scopeOk r port string false = false → exec (g.1 rq param port string v) s = .next (s.refuse rq g.2 ⟨0x0014, 2, 0⟩)) ∧
      (s.scopeOk r port string false = true → s.valueOk r v = false →
        exec (g.1 rq param port string v) s = .next (s.refuse rq g.2 ⟨0x0013, 8, 0⟩)) ∧
      (s.scopeOk r port string false = true → s.valueOk r v = true →
        param ≠ 0x3101 ∨ s.csrcFailure v (s.scopeStrings port string) = none → s.nvOk = true →
        ∃ t : State, exec (g.1 rq param port string v) s = .next (t.okNv rq g.2) ∧ t.est.live = s.est.live ∧ t.guard = s.guard ∧
          (tok r.unset s.est.params = true → ∀ k ∈ s.rowKeys r port string, tget r.unset t.est.params k = v) ∧
          ∀ k, k ∉ s.rowKeys r port string → tget r.unset t.est.params k = tget r.unset s.est.params k))) ∧
  (∀ g ∈ ([(Instr.getParam, 0x0111), (Instr.cellGetParam, 0x0311), (Instr.dispatchGetParam, 0x0511), (Instr.protGetParam, 0x0611)] :
      List ((Rq → Nat → Nat → Nat → Instr) × Nat)),
    ∀ (rq : Rq) (param port string : Nat) (r : ParamRow) (s : State), s.takes (g.1 rq param port string) = true →
      rowFor? g.2 param = some r → s.scopeOk r port string true = true →
      s.replies (g.1 rq param port string) rq g.2 32
        [(0, 8, s.rowValue r port string), (8, 8, s.rowDefault r), (16, 8, r.lo), (24, 8, s.rowMax r)])

/-- The point address of R15: bit 31 is KIND, bits 30 to 28 are zero, bits 27 to 21 the port (0 to 127), bits 20 to 5 the position (1 to
65,534), bits 4 to 0 the input (0 to 31 of a cell, 0 to 7 of a temperature). Every port, position and input of these ranges is read
back from its address; an address that names none is refused by each of the four requests that take one: UNKNOWN_POINT (0x0011) with
the address where bits 30 to 28 are zero. -/
def Obligations.PointAddressesNameTheirFields : Prop :=
  (∀ (port pos input : Nat) (temp : Bool), port < 128 → 1 ≤ pos → pos ≤ 65534 → input < (if temp then 8 else 32) →
    let p := (if temp then 2 ^ 31 else 0) + port * 2 ^ 21 + pos * 2 ^ 5 + input
    pointPort p = port ∧ pointPos p = pos ∧ pointInput p = input ∧ pointTemp p = temp ∧ pointOk p = true) ∧
  (∀ (rq : Rq) (p : Nat) (s : State),
    (∀ (port pos input : Nat) (temp : Bool), port < 128 → 1 ≤ pos → pos ≤ 65534 → input < (if temp then 8 else 32) →
      p ≠ (if temp then 2 ^ 31 else 0) + port * 2 ^ 21 + pos * 2 ^ 5 + input) →
    let refused (c : Instr) (op : Nat) : Prop := s.takes c = true → ∃ r : Refuse, exec c s = .next (s.refuse rq op r) ∧
      r.status ≠ 0 ∧ (p / 2 ^ 28 % 8 = 0 → r = ⟨0x0011, 0, p⟩)
    refused (.readCell rq p) 0x0300 ∧ refused (.readTemp rq p) 0x0301 ∧ refused (.readLearned rq p) 0x0305 ∧
      refused (.readImpedance rq p) 0x0306)

/-- Each cell data request that is served and meets its own rules completes. READ_CELL, READ_TEMP, READ_STRING, READ_STRING_THERMAL,
READ_BANK_THERMAL, READ_LEARNED, READ_IMPEDANCE answer their records at R150 to R335's offsets; an unknown cell and a bank without a
publication are refused. The five bulk reads deliver whole records from the start of their selection and keep a cursor for the rest; a
cursor beyond R300's limits is refused; a call on an open cursor goes on where it stood, and CLOSE releases it. SET_TEMP_MAP commits a
map, which GET_TEMP_MAP reads; WRITE_THERMAL stages a table and leaves the one in service, READ_THERMAL reads either; TIN_READ and
TIN_WRITE read and commit words; SET_GROUP and GET_GROUP commit and read groups; RESET_LEARNED gives its cells their string's nameplate;
CLEAR_SHORT clears the suspicion on every cell of its strings. -/
def Obligations.CellDataRequestsComplete : Prop :=
  (∀ (rq : Rq) (p : Nat) (s : State), s.takes (.readCell rq p) = true →
    (p / 2 ^ 28 % 8 = 0 → s.cellKnown p = false → exec (.readCell rq p) s = .next (s.refuse rq 0x0300 ⟨0x0011, 0, p⟩)) ∧
    (p / 2 ^ 28 % 8 = 0 → s.cellKnown p = true → s.est.pubGen = none → exec (.readCell rq p) s = .next (s.refuse rq 0x0300 ⟨0x0016, 1, 0⟩)) ∧
    (p / 2 ^ 28 % 8 = 0 → s.cellKnown p = true → s.est.pubGen ≠ none →
      let c := s.cell p
      s.replies (.readCell rq p) rq 0x0300 32
        [(0, 2, c.pub.v), (2, 2, c.pub.t), (4, 2, c.pub.socInt), (6, 2, c.pub.socUse), (8, 2, c.pub.sigma), (10, 1, c.pub.conf),
         (11, 1, c.pub.flags.toNat), (12, 2, c.learned.cap), (14, 2, c.learned.r0), (16, 2, c.pub.zrel2), (18, 2, c.pub.zrel6),
         (20, 2, c.pub.idis), (22, 2, c.pub.ichg), (24, 2, c.pub.resid), (26, 2, c.pub.erem), (28, 4, c.pub.gen)])) ∧
  (∀ (rq : Rq) (p : Nat) (s : State), s.takes (.readTemp rq p) = true → p / 2 ^ 28 % 8 = 0 → s.tempKnown p = true →
    let t := s.tempIn (cellPoint (pointPort p) (pointPos p) (pointInput p))
    let on := bit (s.at_ (pointPort p) (pointPos p)).tempEn (pointInput p)
    s.replies (.readTemp rq p) rq 0x0301 12
      [(0, 2, if on then t.raw else -32768), (2, 2, if on then t.used else -32768),
       (4, 1, if on = false then 2 else if t.subst then 1 else if t.unjudged then 3 else 0), (8, 4, t.gen)]) ∧
  (∀ (rq : Rq) (port string : Nat) (s : State), s.takes (.readString rq port string) = true → s.oneString port string = true →
    s.est.pubGen ≠ none →
    let k := strKey port string
    let q := s.str k
    s.replies (.readString rq port string) rq 0x0302 32
      [(0, 1, keyPort k), (1, 1, q.sflags.toNat), (2, 2, keyId k), (4, 2, q.i), (6, 2, q.iSigma), (8, 2, q.nobs), (10, 1, q.src),
       (12, 4, (min 4294967295 q.pdis : Nat)), (16, 4, (min 4294967295 q.pchg : Nat)), (20, 4, (min 4294967295 q.euse : Nat)),
       (24, 4, (min 4294967295 q.ehead : Nat)), (28, 2, q.socUse), (30, 2, 0)]) ∧
  (∀ (rq : Rq) (port string : Nat) (s : State), s.takes (.readStringThermal rq port string) = true → s.oneString port string = true →
    s.est.pubGen ≠ none →
    let k := strKey port string
    let q := s.str k
    s.replies (.readStringThermal rq port string) rq 0x0303 32
      [(0, 1, keyPort k), (1, 1, q.tflags.toNat), (2, 2, keyId k), (4, 2, q.tHot), (6, 2, q.tCold), (8, 2, q.hotCell),
       (10, 2, q.fDis.getD 0), (12, 2, q.fChg.getD 0), (14, 1, s.bstate k q), (15, 1, q.substN), (16, 2, q.spread),
       (20, 2, dutyCount q.plan true), (22, 2, dutyCount q.plan false), (24, 4, q.planGen)]) ∧
  (∀ (rq : Rq) (s : State), s.takes (.readBankThermal rq) = true → s.est.pubGen ≠ none → s.replies (.readBankThermal rq) rq 0x0304 16
    [(0, 4, (min 4294967295 s.est.pthDis : Nat)), (4, 4, (min 4294967295 s.est.pthChg : Nat)),
     (8, 4, (min 2147483647 s.est.balAllow : Nat)), (12, 4, (min 2147483647 s.est.balReq : Nat))]) ∧
  (∀ (rq : Rq) (p : Nat) (s : State), s.takes (.readLearned rq p) = true → p / 2 ^ 28 % 8 = 0 → s.cellKnown p = true →
    let l := (s.cell p).learned
    s.replies (.readLearned rq p) rq 0x0305 32
      [(0, 2, l.cap), (2, 2, l.r0), (4, 2, l.diff), (6, 2, l.sdr), (12, 2, flag l.idChanged 0 + flag l.neverLearned 1), (14, 2, l.cnt),
       (16, 4, l.tag), (20, 8, 0), (28, 4, crc32c ((s.learnedRecord p).take 28))]) ∧
  (∀ (rq : Rq) (p : Nat) (s : State), s.takes (.readImpedance rq p) = true → p / 2 ^ 28 % 8 = 0 → s.cellKnown p = true →
    let c := s.cell p
    s.replies (.readImpedance rq p) rq 0x0306 16
      [(0, 2, c.pub.zrel2), (2, 2, c.pub.zrel6), (4, 2, c.zabs2), (6, 2, c.zabs6), (8, 8, c.burstWall.toNat)]) ∧
  (∀ (rq : Rq) (b : Bulk) (g : Nat) (s : State), s.bulkStarts (.bulkCells rq b none) rq b (some g) → s.est.pubGen = some g →
    (∀ k ∈ s.bulkSelChecks b, k.1 = true) → s.sys.snaps = [] →
    (∀ p ∈ s.bulkPoints b, p < 2 ^ 32 ∧ seqOlder g (s.cell p).pub.gen = false) →
    s.delivers (.bulkCells rq b none) rq 0x0320 b (some g) ((s.bulkPoints b).map (le 4)) ((s.bulkPoints b).map s.cellBytes)) ∧
  (∀ (rq : Rq) (b : Bulk) (g : Nat) (s : State), s.bulkStarts (.bulkStrings rq b none) rq b (some g) → s.est.pubGen = some g →
    (∀ k ∈ s.bulkSelChecks b, k.1 = true) →
    let l := (s.bulkStrings b).map (fun k => stringRecord k (s.strPinned k))
    s.delivers (.bulkStrings rq b none) rq 0x0321 b (some g) l l) ∧
  (∀ (rq : Rq) (b : Bulk) (g : Nat) (s : State), s.bulkStarts (.bulkStringThermal rq b none) rq b (some g) → s.est.pubGen = some g →
    (∀ k ∈ s.bulkSelChecks b, k.1 = true) →
    let l := (s.bulkStrings b).map (fun k => s.thermalRecord k (s.strPinned k))
    s.delivers (.bulkStringThermal rq b none) rq 0x0322 b (some g) l l) ∧
  (∀ (rq : Rq) (b : Bulk) (s : State), s.bulkStarts (.bulkLearned rq b none) rq b none → (∀ k ∈ s.bulkSelChecks b, k.1 = true) →
    let l := (s.bulkPoints b).map s.learnedRecord
    s.delivers (.bulkLearned rq b none) rq 0x0323 b none l l) ∧
  (∀ (rq : Rq) (b : Bulk) (s : State), s.bulkStarts (.bulkImpedance rq b none) rq b none → (∀ k ∈ s.bulkSelChecks b, k.1 = true) →
    let l := (s.bulkPoints b).map s.impedanceRecord
    s.delivers (.bulkImpedance rq b none) rq 0x0324 b none l l) ∧
  (∀ g ∈ ([(Instr.bulkLearned, 0x0323), (Instr.bulkImpedance, 0x0324)] : List ((Rq → Bulk → Option Nat → Instr) × Nat)),
    ∀ (rq : Rq) (b : Bulk) (dma : Option Nat) (s : State), s.takes (g.1 rq b dma) = true → s.sys.holdup = false →
    (∀ k ∈ bufferChecks rq b, k.1 = true) → s.cursorOld rq b.cursor = false →
    (b.cursor ≠ 0 → s.openCursor? rq b.cursor = none → exec (g.1 rq b dma) s = .next (s.refuse rq g.2 ⟨0x000A, 0, 0⟩)) ∧
    (b.cursor = 0 → s.openCursor? rq 0 = none → (∀ k ∈ s.bulkSelChecks b, k.1 = true) → s.cursorFits rq.tenant none = false →
      exec (g.1 rq b dma) s = .next (s.refuse rq g.2 ⟨0x000B, 0, s.cursorsOf rq.tenant⟩))) ∧
  (∀ g ∈ ([(Instr.bulkCells, 0x0320), (Instr.bulkStrings, 0x0321), (Instr.bulkStringThermal, 0x0322), (Instr.bulkLearned, 0x0323),
      (Instr.bulkImpedance, 0x0324)] : List ((Rq → Bulk → Option Nat → Instr) × Nat)),
    ∀ (rq : Rq) (b : Bulk) (c : Cursor) (s : State), s.takes (g.1 rq b none) = true → s.tablesOk = true → s.sys.holdup = false →
    s.sys.d3 = false → (∀ k ∈ bufferChecks rq b, k.1 = true) → s.cursorOld rq b.cursor = false →
    s.openCursor? rq b.cursor = some c → c.opcode = g.2 → c.sel = (b.port, b.string, b.arg) →
    (closes rq = true → ∃ t : State, exec (g.1 rq b none) s = .next t ∧ t.sys.cursors = s.sys.cursors.filter (fun d => decide (d.id ≠ c.id)) ∧
      (t.page rq.tenant).waiting = (s.page rq.tenant).waiting ++
        [⟨g.2, rq, 0, 0, 0, bulkBlock 0 (c.gen.getD 0) 0 0 0, [], false, false, false⟩]) ∧
    (closes rq = false →
      let n := b.len / max 1 (s.bulkItem c (c.items.headD [])).length
      let data := (c.items.take n).flatMap (s.bulkItem c)
      ∃ (t : State) (r : Resp), exec (g.1 rq b none) s = .next t ∧
        (t.page rq.tenant).waiting = (s.page rq.tenant).waiting ++ [r] ∧ r.bulk = data ∧ r.status = 0 ∧
        (c.items.length ≤ n → r.more = false ∧ t.sys.cursors = s.sys.cursors.filter (fun d => decide (d.id ≠ c.id))) ∧
        (n < c.items.length → c.id ≠ 0 → r.more = true ∧ t.sys.cursors =
          s.sys.cursors.map (fun d => if d.id = c.id then { c with items := c.items.drop n } else d)))) ∧
  (∀ (rq : Rq) (port pos : Nat) (map : List Nat) (s : State), s.takes (.setTempMap rq port pos map) = true →
    (∀ k ∈ s.nodeChecks port pos, k.1 = true) →
    (∀ r, s.mapRefuse port pos map = some r → exec (.setTempMap rq port pos map) s = .next (s.refuse rq 0x0330 r)) ∧
    (s.mapRefuse port pos map = none → s.nvOk = true → exec (.setTempMap rq port pos map) s =
      .next ((s.onConf (fun c => { c with maps := tput c.maps (nodeKey port pos) map })).okNv rq 0x0330))) ∧
  (∀ (rq : Rq) (port pos : Nat) (s : State), s.takes (.getTempMap rq port pos) = true → (∀ k ∈ s.nodeChecks port pos, k.1 = true) →
    (∀ m, tfind? s.sys.conf.maps (nodeKey port pos) = some m →
      exec (.getTempMap rq port pos) s = .next (s.free.2.ok rq 0x0331 (nibbles m))) ∧
    exec (.getTempMap rq port pos) s = .next (s.free.2.ok rq 0x0331 (nibbles (s.mapOf port pos (ux 128 s.free.1))))) ∧
  (∀ (rq : Rq) (port string : Nat) (levels : List Int) (s : State), s.takes (.writeThermal rq port string levels) = true →
    s.someString port string = true →
    (∀ i < 7, (∀ j < i, (nth (0, 0) thermalRanges j).1 ≤ nth 0 levels j ∧ nth 0 levels j ≤ (nth (0, 0) thermalRanges j).2) →
      ¬((nth (0, 0) thermalRanges i).1 ≤ nth 0 levels i ∧ nth 0 levels i ≤ (nth (0, 0) thermalRanges i).2) →
      exec (.writeThermal rq port string levels) s = .next (s.refuse rq 0x0332 ⟨0x0013, 4 + 2 * i, 0⟩)) ∧
    ((∀ i < 7, (nth (0, 0) thermalRanges i).1 ≤ nth 0 levels i ∧ nth 0 levels i ≤ (nth (0, 0) thermalRanges i).2) →
      s.sys.exchange = none →
      ∃ t : State, exec (.writeThermal rq port string levels) s = .next (t.ok rq 0x0332 []) ∧ (∀ k, t.str k = s.str k) ∧
        ∃ l, t.est.thermalStaged = some l ∧ (∀ k ∈ s.scopeStrings port string, tfind? l k = some (Thermal.ofFields levels)) ∧
          ∀ k, k ∉ s.scopeStrings port string → tfind? l k = tfind? (s.est.thermalStaged.getD []) k)) ∧
  (∀ (rq : Rq) (port string buf : Nat) (s : State), s.takes (.readThermal rq port string buf) = true → s.oneString port string = true →
    buf < 2 →
    let t := s.thermalOf (strKey port string) buf
    s.replies (.readThermal rq port string buf) rq 0x0333 16
      [(0, 2, t.warn), (2, 2, t.thr), (4, 2, t.sd), (6, 2, t.lwarn), (8, 2, t.lthr), (10, 2, t.lsd), (12, 2, t.hyst), (14, 2, 0)]) ∧
  (∀ (rq : Rq) (off count : Nat) (s : State), s.takes (.tinRead rq off count) = true → off % 4 = 0 → 1 ≤ count → count ≤ 56 →
    off + 4 * count ≤ 0x100 →
    exec (.tinRead rq off count) s = .next (s.ok rq 0x0334 ((wordOffsets off count).flatMap (fun o => leW (s.tinValue o))))) ∧
  (∀ (rq : Rq) (off : Nat) (data : List Nat) (s : State), s.takes (.tinWrite rq off data) = true → off % 4 = 0 → 1 ≤ data.length →
    data.length ≤ 56 → off + 4 * data.length ≤ 0x100 → reservedData? 0x0335 off data = none →
    let l := (wordOffsets off data.length).zip data
    let t := l.foldl (fun t e => t.tinPut e.1 e.2) s
    (∀ e, l.findSome? (fun x => t.tinJudge x.1 x.2) = some e → exec (.tinWrite rq off data) s = .next (s.refuse rq 0x0335 e)) ∧
    (l.findSome? (fun x => t.tinJudge x.1 x.2) = none → s.nvOk = true →
      exec (.tinWrite rq off data) s = .next (t.okNv rq 0x0335) ∧ t.est = s.est)) ∧
  (∀ (rq : Rq) (g src ch unit : Nat) (l : List (Nat × Nat)) (s : State), s.takes (.setGroup rq g src ch unit l) = true →
    g < 64 → src < 3 → (∀ k ∈ s.groupSource src ch unit, k.1 = true) → s.nvOk = true →
    (src ≠ 0 → 1 ≤ l.length → l.length ≤ 58 → s.groupUnknown l = none →
      s.groupRefuse g (l.map (fun x => strKey x.1 x.2)).eraseDups = none →
      exec (.setGroup rq g src ch unit l) s = .next ((s.onConf (fun c =>
        { c with groups := tput c.groups g ([src, ch, unit] ++ (l.map (fun x => strKey x.1 x.2)).eraseDups) })).okNv rq 0x0340)) ∧
    (src = 0 → l.length ≤ 58 → (tfind? s.sys.conf.groups g).isSome = true → s.groupRefuse g [] = none →
      exec (.setGroup rq g src ch unit l) s = .next ((s.onConf (fun c => { c with groups := tdel c.groups g })).okNv rq 0x0340))) ∧
  (∀ (rq : Rq) (g src ch unit : Nat) (ks : List Nat) (s : State), s.takes (.getGroup rq g) = true → g < 64 →
    tfind? s.sys.conf.groups g = some (src :: ch :: unit :: ks) →
    s.replies (.getGroup rq g) rq 0x0341 (8 + 4 * ks.length)
      [(0, 1, g), (1, 1, src), (2, 1, ch), (3, 1, unit), (4, 1, ks.length), (5, 3, 0)]) ∧
  (∀ (rq : Rq) (scope port id input : Nat) (s : State), s.tablesOk = true → s.takes (.resetLearned rq scope port id input) = true →
    scope ≤ 4 → port < 128 ∨ scope = 4 → (scope = 0 → input < 32 ∧ s.cellKnown (cellPoint port id input) = true) →
    (scope = 1 → s.stored port id = true) → (scope = 2 → s.oneString port id = true) → s.nvOk = true →
    let ps := s.resetCells scope port id input
    (∀ p ∈ ps, ∀ k, s.stringOf? p = some k → (s.str k).first = none) →
    ∃ t : State, exec (.resetLearned rq scope port id input) s = .next (t.okNv rq 0x0350) ∧
      t.recs = s.recs.push (mkEv 0x0308 [scope, port, id]) ∧ (∀ q, q ∉ ps → t.cell q = s.cell q) ∧
      ∀ p ∈ ps, ∀ k, s.stringOf? p = some k → (t.cell p).learned =
        { s.nameplate k (s.cell p).learned with idChanged := false }) ∧
  (∀ (rq : Rq) (port string : Nat) (s : State), s.tablesOk = true → s.takes (.clearShort rq port string) = true →
    s.someString port string = true → s.nvOk = true →
    ∃ t : State, exec (.clearShort rq port string) s = .next (t.okNv rq 0x0351) ∧
      (∀ k ∈ s.scopeStrings port string, bit (t.str k).sflags 4 = false ∧ ∀ p ∈ (s.str k).cells, bit (t.cell p).pub.flags 6 = false) ∧
      ∀ q, (∀ k ∈ s.scopeStrings port string, q ∉ (s.str k).cells) → t.cell q = s.cell q)

/-- LOAD_IMAGE keeps a cursor until all ARG bytes have come; then an image without a fault enters the inactive buffer with event 0x0402, a
faulty one is refused with event 0x0403, and the image in service stays. WRITE_LIMITS and WRITE_SEQ stage tables and leave those in
service; a field outside its range is refused at its offset. EXCHANGE of filled buffers without a staged fault arms M3 and owes its answer;
an empty buffer or a faulty table is refused. EXCHANGE_MARK, when M3 is due: the image, limits, thermal and sequence tables that the mask
names go into service, the others stay, accepted allocations take effect, removed tenants are reset, and the answer carries the
generation; tables that a start has taken from the store go into service there when they keep the guard's bounds; when not due it changes nothing. DISCARD empties the buffers of its mask. KERNEL_INFO, READ_IMAGE, READ_LIMITS and READ_SEQ
answer what is in service or staged. -/
def Obligations.StagedTablesAreExchanged : Prop :=
  (∀ (rq : Rq) (s : State), s.takes (.kernelInfo rq) = true → s.replies (.kernelInfo rq) rq 0x0400 20
    [(0, 4, s.image.id), (4, 4, s.image.ver), (8, 4, (s.sched.inactive.map Image.id).getD 0),
     (12, 4, (s.sched.inactive.map Image.ver).getD 0), (16, 1, s.sched.inactiveKind), (17, 1, s.stagedMask), (18, 2, 0)]) ∧
  (∀ (rq : Rq) (b : Bulk) (data : List Byte) (s : State), s.bulkStarts (.loadImage rq b data none) rq b none →
    b.port < 128 ∨ b.port = 255 → s.sys.exchange = none →
    let l := (s.hostStores rq b data).bulkSource rq b data b.arg
    (l.length < b.arg → ∃ (t : State) (r : Resp), exec (.loadImage rq b data none) s = .next t ∧ t.sched = s.sched ∧
      (t.page rq.tenant).waiting = (s.page rq.tenant).waiting ++ [r] ∧ r.status = 0 ∧ r.more = true ∧
      r.payload = bulkBlock s.sys.nextCursor 0 l.length 0 (b.arg - l.length) ∧ t.sys.cursors = s.sys.cursors ++
        [⟨s.sys.nextCursor, rq.tenant, 0x0401, (b.port, b.string, b.arg), none, [], b.arg, l, s.clock⟩]) ∧
    (l.length = b.arg → imageFault l = none → ∃ (t : State) (r : Resp), exec (.loadImage rq b data none) s = .next t ∧
      t.sched = { s.sched with inactive := some (imageOf l), inactiveKind := 1 } ∧ t.sys.cursors = s.sys.cursors ∧
      t.recs = s.recs.push (mkEv 0x0402 [((imageOf l).id % 65536 : Nat), ((imageOf l).id / 65536 : Nat), ((imageOf l).ver % 65536 : Nat)]) ∧
      (t.page rq.tenant).waiting = (s.page rq.tenant).waiting ++ [r] ∧ r.status = 0 ∧ r.more = false) ∧
    (∀ c p, l.length = b.arg → imageFault l = some (c, p) →
      let q := p.getD (ux 32 s.free.1)
      ∃ t : State, exec (.loadImage rq b data none) s = .next t ∧ t.sched = s.sched ∧
        t.recs = s.recs.push (mkEv 0x0403 [c, (q % 65536 : Nat)]) ∧
        (t.page rq.tenant).waiting = (s.page rq.tenant).waiting ++ [answer rq 0x0401 ⟨0x0401, c, q⟩ false])) ∧
  (∀ (rq : Rq) (b : Bulk) (s : State), s.bulkStarts (.readImage rq b none) rq b none → b.port = 255 → b.string = 65535 →
    b.arg = 0 ∨ (b.arg = 1 ∧ s.sched.inactive.isSome = true) →
    let bytes := if b.arg = 0 then s.image.bytes else (s.sched.inactive.map Image.bytes).getD []
    s.delivers (.readImage rq b none) rq 0x0404 b none (chunks bytes.length bytes) (chunks bytes.length bytes)) ∧
  (∀ (rq : Rq) (port string : Nat) (f : List Nat) (s : State), s.takes (.writeLimits rq port string f) = true →
    s.someString port string = true →
    let good (i : Nat) : Prop := (nth (0, 0) limitRanges i).1 ≤ nth 0 f i ∧ nth 0 f i ≤ (nth (0, 0) limitRanges i).2
    (∀ i < 20, (∀ j < i, good j) → ¬good i →
      exec (.writeLimits rq port string f) s = .next (s.refuse rq 0x0620 ⟨0x0013, 4 + nth 0 limitOffs i, 0⟩)) ∧
    ((∀ i < 20, good i) → s.sys.exchange = none →
      ∃ t : State, exec (.writeLimits rq port string f) s = .next (t.ok rq 0x0620 []) ∧ (∀ k, t.str k = s.str k) ∧
        ∃ l, t.guard = { s.guard with limitsStaged := some l } ∧
          (∀ k ∈ s.scopeStrings port string, tfind? l k = some (Limits.ofFields f)) ∧
          ∀ k, k ∉ s.scopeStrings port string → tfind? l k = tfind? (s.guard.limitsStaged.getD []) k)) ∧
  (∀ (rq : Rq) (port string buf : Nat) (f : List Nat) (s : State), s.takes (.readLimits rq port string buf) = true →
    s.oneString port string = true → buf < 2 → f.length = 20 → s.limitsOf (strKey port string) buf = Limits.ofFields f →
    s.replies (.readLimits rq port string buf) rq 0x0621 48 ((List.range 20).map (fun i => (nth 0 limitOffs i, 2, ((nth 0 f i : Nat) : Int))))) ∧
  (∀ (rq : Rq) (sect first : Nat) (roles : List Nat) (words : List (List Nat)) (s : State),
    s.takes (.writeSeq rq sect first roles words) = true →
    let steps := words.map SeqStep.ofFields
    let tab := s.guard.tableStaged.getD s.guard.table
    (sect = 0 → first = 0 → badRole roles = none → s.sys.exchange = none → exec (.writeSeq rq sect first roles words) s =
      .next ((s.onGuard fun g => { g with tableStaged := some { tab with roles := roles } }).ok rq 0x0622 [])) ∧
    (1 ≤ sect → sect ≤ 3 → first < sectionMax sect → 1 ≤ steps.length → steps.length ≤ 14 → first + steps.length ≤ sectionMax sect →
      (badStep sect steps = none → s.sys.exchange = none → exec (.writeSeq rq sect first roles words) s =
        .next ((s.onGuard fun g => { g with tableStaged := some (tab.place sect first steps) }).ok rq 0x0622 [])) ∧
      ∀ r, badStep sect steps = some r → exec (.writeSeq rq sect first roles words) s = .next (s.refuse rq 0x0622 r))) ∧
  (∀ (rq : Rq) (sect first count buf : Nat) (s : State), s.takes (.readSeq rq sect first count buf) = true → buf < 2 →
    let tab := if buf = 0 then s.guard.table else s.guard.tableStaged.getD s.guard.table
    (sect = 0 → first = 0 → count = 1 →
      exec (.readSeq rq sect first count buf) s = .next (s.ok rq 0x0623 ((padTo 4 0xFF tab.roles).flatMap (le 1)))) ∧
    (1 ≤ sect → sect ≤ 3 → first < sectionMax sect → 1 ≤ count → count ≤ 14 → first + count ≤ sectionMax sect →
      exec (.readSeq rq sect first count buf) s =
        .next (s.ok rq 0x0623 ((List.range count).flatMap (fun i => (nth SeqStep.blank (tab.steps sect) (first + i)).bytes))))) ∧
  (∀ (rq : Rq) (mask : Nat) (s : State), s.tablesOk = true → s.takes (.exchange rq mask) = true → mask < 16 → s.sys.exchange = none →
    (∀ i < 4, (∀ j < i, mask.testBit j = true → s.stagedMask.testBit j = true) → mask.testBit i = true → s.stagedMask.testBit i = false →
      exec (.exchange rq mask) s = .next (s.refuse rq 0x0402 ⟨0x0403, 2 ^ i, 0⟩)) ∧
    ((∀ i < 4, mask.testBit i = true → s.stagedMask.testBit i = true) →
      (∀ d row hi lo, s.stagedFault mask = some (d, some row, hi, lo) → exec (.exchange rq mask) s =
        .next ((s.free.2.raise 0x0614 [d, row, lo]).refuse rq 0x0402 ⟨0x0402, d, row * 65536 + hi * 256 + lo⟩)) ∧
      (s.stagedFault mask = none → s.nvOk = true → (s.mark 3).en = true ∨ (s.mark 0).step ≠ 0 →
        ∃ t : State, exec (.exchange rq mask) s = .next t ∧
        t.sys = { s.sys with exchange := some (rq, mask) } ∧ (t.mark 3).en = true ∧ t.guard = s.guard ∧ t.sched = s.sched))) ∧
  (∀ s : State, s.markDue 3 = false → exec .exchangeMark s = .next s) ∧
  (∀ s : State, s.tablesOk = true → s.markDue 3 = true → ∃ t : State, exec .exchangeMark s = .next t ∧ t.mark 3 = (s.mark 3).fire s.clock ∧
    t.sys.exchange = none ∧ t.guard.owed = none ∧
    (∀ i d c e, (s.tenant i).nextAlloc = some (true, d, c, e) → t.tenant i =
      { s.tenant i with exists_ := true, enabled := true, pDis := d, pChg := c, eAlloc := e, nextAlloc := none }) ∧
    (∀ i d c e, (s.tenant i).nextAlloc = some (false, d, c, e) → t.tenant i = Tenant.reset) ∧
    (∀ i, (s.tenant i).nextAlloc = none → t.tenant i = s.tenant i)) ∧
  (∀ (rq : Rq) (mask : Nat) (s : State), s.tablesOk = true → s.markDue 3 = true → s.sys.exchange = some (rq, mask) → s.sys.d3 = false →
    s.guard.owed = none →
    let gen := if s.beam.sweptAt = some s.clock then s.beam.sweepGen else (s.beam.sweepGen + 1) % 2 ^ 32
    ∃ t : State, exec .exchangeMark s = .next t ∧
      (t.page rq.tenant).waiting = (s.page rq.tenant).waiting ++ [⟨0x0402, rq, 0, 0, 0, le 4 gen, [], false, false, true⟩] ∧
      (mask.testBit 0 = true → ∀ im, s.sched.inactive = some im → t.sched.service = some im ∧ t.sched.inactive = some s.image ∧
        t.sched.inactiveKind = 2 ∧ t.sched.xgen = s.sched.xgen + 1) ∧
      (mask.testBit 0 = false → s.sched.revert = false → t.sched.service = s.sched.service ∧ t.sched.inactive = s.sched.inactive) ∧
      (mask.testBit 1 = true → t.guard.limitsStaged = none ∧ ∀ l, s.guard.limitsStaged = some l → keysRise l = true →
        ∀ k, (t.str k).limits = tget (s.str k).limits l k) ∧
      (mask.testBit 1 = false → t.guard.limitsStaged = s.guard.limitsStaged ∧ ∀ k, (t.str k).limits = (s.str k).limits) ∧
      (mask.testBit 2 = true → t.est.thermalStaged = none ∧ ∀ l, s.est.thermalStaged = some l → keysRise l = true →
        ∀ k, (t.str k).thermal = tget (s.str k).thermal l k) ∧
      (mask.testBit 2 = false → t.est.thermalStaged = s.est.thermalStaged ∧ ∀ k, (t.str k).thermal = (s.str k).thermal) ∧
      (mask.testBit 3 = true → ∀ tab, s.guard.tableStaged = some tab → t.guard.table = tab ∧ t.guard.tableStaged = none) ∧
      (mask.testBit 3 = false → t.guard.table = s.guard.table ∧ t.guard.tableStaged = s.guard.tableStaged)) ∧
  (∀ (o : Tables) (s : State), s.tablesOk = true → s.markDue 3 = true → s.sys.exchange = none → s.guard.owed = some o →
    ∃ t : State, exec .exchangeMark s = .next t ∧ t.guard.limitsStaged = s.guard.limitsStaged ∧
      (∀ k, (t.str k).limits = if (tget Limits.lfp o.limits k).fits then tget Limits.lfp o.limits k else (s.str k).limits) ∧
      (∀ k, (t.str k).thermal = if (tget Thermal.lfp o.thermal k).ordered then tget Thermal.lfp o.thermal k else (s.str k).thermal) ∧
      t.guard.table = if o.seq.loadFault.isNone && !s.rolesRefused o.seq then o.seq else s.guard.table) ∧
  (∀ (rq : Rq) (mask : Nat) (s : State), s.takes (.discard rq mask) = true → mask < 16 →
    (s.sys.exchange ≠ none → exec (.discard rq mask) s = .next (s.refuse rq 0x0403 ⟨0x0015, 0x0402, 0⟩)) ∧
    (s.sys.exchange = none → ∃ t : State, exec (.discard rq mask) s = .next (t.ok rq 0x0403 []) ∧
      t.sched.inactive = (if mask.testBit 0 then none else s.sched.inactive) ∧ t.sched.service = s.sched.service ∧
      t.guard.limitsStaged = (if mask.testBit 1 then none else s.guard.limitsStaged) ∧ t.guard.table = s.guard.table ∧
      t.est.thermalStaged = (if mask.testBit 2 then none else s.est.thermalStaged) ∧ t.est.strs = s.est.strs ∧
      t.guard.tableStaged = (if mask.testBit 3 then none else s.guard.tableStaged)))

/-- RING_STATUS answers R342's record. SET_RING_STATE: to its present state it answers at once; towards ACTIVE the ring becomes ACTIVE
where every check of R451 passes, else it is left in SERVICE and the first failing check is the answer; away from ACTIVE it changes at
once with none of its strings closed, else the change and the answer wait for the disconnection; between SERVICE and ISOLATED it changes
after a census.
ENUMERATE, CALIBRATE and STORE_CONFIG want a ring in SERVICE without a command in progress: positions are given in place order and NODES
answered; the compensation is derived, written and stored with F, R and SKEW; the identity of every node is stored and its strings become
the configured ones. NODE_READ and NODE_WRITE queue a READ or WRITE on the ring that owes the answer; identity and compensation registers
are closed on an ACTIVE ring, and every register of an ISOLATED one. READ_CONFIG delivers the stored identities. -/
def Obligations.RingRequestsComplete : Prop :=
  (∀ (rq : Rq) (port : Nat) (s : State), s.takes (.ringStatus rq port) = true → port < 128 →
    let r := s.ring port
    s.replies (.ringStatus rq port) rq 0x0800 24
      [(0, 1, port), (1, 1, ringCode r.state),
       (2, 1, flag r.split 0 + flag r.skewLimit 1 + flag (decide (r.calib ≠ [])) 2 + flag (decide (r.config ≠ [])) 3), (4, 2, r.nodes),
       (6, 2, r.skew), (8, 4, r.fCal), (12, 4, r.rCal), (16, 4, r.missing), (20, 4, 0)]) ∧
  (∀ (rq : Rq) (port : Nat) (s : State), s.takes (.ringStatus rq port) = true → 128 ≤ port →
    exec (.ringStatus rq port) s = .next (s.refuse rq 0x0800 ⟨0x0013, 0, 0⟩)) ∧
  (∀ (rq : Rq) (port state count : Nat) (mute : List Nat) (s : State), s.tablesOk = true →
    s.takes (.setRingState rq port state count mute) = true → port < 128 → state < 3 →
    let c := Instr.setRingState rq port state count mute
    let st := ringStateOf state
    let old := (s.ring port).state
    ((s.ring port).busy ≠ 0 → exec c s = .next (s.refuse rq 0x0801 ⟨0x0015, (s.ring port).busy, 0⟩)) ∧
    ((s.ring port).busy = 0 →
      (old = st → exec c s = .next (s.ok rq 0x0801 [])) ∧
      (st = .active → old ≠ .active → s.ringMisfit ⟨port, count, mute⟩ = none →
        ∃ t : State, exec c s = .next (t.ok rq 0x0801 []) ∧ (t.ring port).state = .active ∧ (t.ring port).resync = true ∧
          ∀ j, j ≠ port → t.ring j = s.ring j) ∧
      (∀ m, st = .active → old ≠ .active → s.ringMisfit ⟨port, count, mute⟩ = some m →
        ∃ t : State, exec c s = .next (t.refuse rq 0x0801 m.refuse) ∧ (t.ring port).state = .service ∧ ∀ j, j ≠ port → t.ring j = s.ring j) ∧
      (st ≠ .active → old = .active → (∀ k ∈ s.closedStrings, keyPort k ≠ port) →
        ∃ t : State, exec c s = .next (t.ok rq 0x0801 []) ∧ (t.ring port).state = st ∧ (t.ring port).busy = 0) ∧
      (∀ k ∈ s.closedStrings, st ≠ .active → old = .active → keyPort k = port →
        ∃ t : State, exec c s = .next t ∧ (t.ring port).state = .active ∧ (t.ring port).goal = some st ∧ (t.ring port).busy = 0x0801 ∧
          t.sys.pages = s.sys.pages ∧ t.sys.held = s.sys.held ++ [(ringHeldKey port, answer rq 0x0801 okStatus false)]) ∧
      (st ≠ .active → old ≠ .active → old ≠ st →
        ∃ t : State, exec c s = .next (t.ok rq 0x0801 []) ∧ (t.ring port).state = st ∧
          (t.ring port).census = some (s.censusOf port count) ∧ ∀ j, j ≠ port → t.ring j = s.ring j))) ∧
  (∀ (rq : Rq) (port count : Nat) (s : State), s.tablesOk = true → s.takes (.enumerate rq port count) = true → port < 128 →
    (s.ring port).busy = 0 →
    ((s.ring port).state ≠ .service →
      exec (.enumerate rq port count) s = .next (s.refuse rq 0x0802 ⟨0x0802, 0, ringCode (s.ring port).state⟩)) ∧
    ((s.ring port).state = .service → (enumPass port count 1 1 s).2.2 = true →
      exec (.enumerate rq port count) s = .next ((s.enumerate port count).refuse rq 0x0802 ⟨0x0801, 0x0809, 0⟩)) ∧
    ((s.ring port).state = .service → (enumPass port count 1 1 s).2.2 = false → ∃ t : State,
      exec (.enumerate rq port count) s = .next (t.ok rq 0x0802 (le 2 (t.ring port).nodes ++ le 2 0)) ∧ (t.ring port).bresync = true ∧
      t = s.enumerate port count) ∧
    ((s.ring port).state = .service → count ≤ 65534 → (∀ i, 1 ≤ i → i ≤ count → (s.node (nodeKey port i)).pos = 0) → ∃ t : State,
      exec (.enumerate rq port count) s = .next (t.ok rq 0x0802 (le 2 count ++ le 2 0)) ∧ (t.ring port).nodes = count ∧
      (∀ i, 1 ≤ i → i ≤ count → (t.node (nodeKey port i)).pos = i) ∧ ∀ j, j ≠ port → t.ring j = s.ring j)) ∧
  (∀ (rq : Rq) (port f r : Nat) (s : State), s.tablesOk = true → s.takes (.calibrate rq port f r) = true → port < 128 →
    (s.ring port).busy = 0 → (s.ring port).state = .service →
    let a := s.portNs f
    let b := s.portNs r
    (∀ p l, s.wrappedPos port ++ s.unheard port = p :: l → exec (.calibrate rq port f r) s = .next (s.refuse rq 0x0803 ⟨0x0012, port, p⟩)) ∧
    (s.wrappedPos port ++ s.unheard port = [] → a + b = 0 ∨ 2000000 < a + b →
      exec (.calibrate rq port f r) s = .next (s.refuse rq 0x0803 ⟨0x0801, 0x0806, (a + b) / 1000⟩)) ∧
    (s.wrappedPos port ++ s.unheard port = [] → 0 < a + b → a + b ≤ 2000000 → ∃ t : State,
      exec (.calibrate rq port f r) s = .next (t.ok rq 0x0803 (le 4 a ++ le 4 b ++ le 2 (t.ring port).skew ++ le 2 0)) ∧
      (t.ring port).calib = s.calibration port a b ∧ (t.ring port).fCal = a ∧ (t.ring port).rCal = b ∧ (t.ring port).resync = true ∧
      t.recs.cfgGen = (s.recs.cfgGen + 1) % 2 ^ 32 ∧ (∀ j, j ≠ port → t.ring j = s.ring j) ∧
      ∀ i ∈ s.addressed port, ∀ e, (s.calibration port a b).find? (fun x => decide (x.1 = (s.node (nodeKey port i)).pos)) = some e →
        t.node (nodeKey port i) = { s.node (nodeKey port i) with compA := e.2.1, compB := e.2.2 })) ∧
  (∀ (rq : Rq) (port pos addr count : Nat) (s : State), s.tablesOk = true → s.takes (.nodeRead rq port pos addr count) = true → port < 128 →
    1 ≤ pos → pos ≤ 65534 → 1 ≤ count → count ≤ 240 →
    ((s.ring port).state = .isolated → exec (.nodeRead rq port pos addr count) s = .next (s.refuse rq 0x0804 ⟨0x0802, 0, 2⟩)) ∧
    ((s.ring port).state ≠ .isolated → ∃ t : State, exec (.nodeRead rq port pos addr count) s = .next t ∧ t.sys = s.sys ∧
      t.ring port = { s.ring port with
        queue := (s.ring port).queue ++ [⟨pos, .read addr count, 0, false, false, 0, 0, none, false, some (rq, 0x0804)⟩] } ∧
      ∀ j, j ≠ port → t.ring j = s.ring j)) ∧
  (∀ (rq : Rq) (port pos addr : Nat) (data : List Byte) (s : State), s.tablesOk = true →
    s.takes (.nodeWrite rq port pos addr data) = true → port < 128 → 1 ≤ pos → pos ≤ 65535 → 1 ≤ data.length → data.length ≤ 232 →
    let st := (s.ring port).state
    (st = .isolated ∨ (st = .active ∧ addr ≤ 0x23 ∧ 0x12 < addr + data.length) →
      exec (.nodeWrite rq port pos addr data) s = .next (s.refuse rq 0x0805 ⟨0x0802, 0, ringCode st⟩)) ∧
    (st ≠ .isolated → (st = .active → 0x23 < addr ∨ addr + data.length ≤ 0x12) →
      ∃ t : State, exec (.nodeWrite rq port pos addr data) s = .next t ∧ t.sys = s.sys ∧
        t.ring port = { s.ring port with
          queue := (s.ring port).queue ++ [⟨pos, .write addr data, 0, false, false, 0, 0, none, false, some (rq, 0x0805)⟩] } ∧
        ∀ j, j ≠ port → t.ring j = s.ring j)) ∧
  (∀ (rq : Rq) (port : Nat) (mute : List Nat) (s : State), s.tablesOk = true → s.takes (.storeConfig rq port mute) = true → port < 128 →
    (s.ring port).busy = 0 → (s.ring port).state = .service → s.sys.d3 = false →
    (∀ i l, (s.addressed port).filter mute.contains = i :: l →
      exec (.storeConfig rq port mute) s = .next (s.refuse rq 0x0806 ⟨0x0012, port, (s.node (nodeKey port i)).pos⟩)) ∧
    ((s.addressed port).filter mute.contains = [] → s.nvOk = true → ∃ t : State, exec (.storeConfig rq port mute) s = .next t ∧
      t.ring port = { s.ring port with config := s.identity port } ∧ (∀ j, j ≠ port → t.ring j = s.ring j) ∧
      t.est.configured = sortN (s.est.configured.filter (fun k => decide (keyPort k ≠ port)) ++ (t.ring port).stringIds.map (strKey port)) ∧
      (t.page rq.tenant).waiting = (s.page rq.tenant).waiting ++
        [⟨0x0806, rq, 0, 0, 0, le 2 (s.identity port).length ++ le 2 0, [], false, false, true⟩])) ∧
  (∀ (rq : Rq) (b : Bulk) (s : State), s.bulkStarts (.readConfig rq b none) rq b none → b.port < 128 ∨ b.port = 255 → b.arg = 0 →
    b.string = 65535 ∨ s.configItems b ≠ [] →
    let l := (s.configItems b).map NodeId.bytes
    s.delivers (.readConfig rq b none) rq 0x0807 b none l l)

/-- SUBMIT accepts a tenant's entries whole where each keeps every row of R247, and refuses them while a new SLOT_CYC waits or an entry
comes too early. READ_SCHEDULE, TENANT_RECORD, BANK_RECORD and GET_BINDING answer their records. RESUME clears a stop rung before its
fetch, and only such a one. LEDGER_ADJUST sets a ledger with event 0x0505, SET_BINDING commits a binding. PROT_READ and PROT_WRITE read and
commit words. STRING_PROT answers R238's record. CLEAR_TRIP and CLEAR_STRING wait for the guard's next cycle, or are judged at once where
it has failed; R237's judgement is stated. WELD_ACK with the weld's TRIP_ID forgets the weld. MAP_ALARM maps a source or deletes its
mapping. BEAM_READ answers words in order, each with its read effect; BEAM_WRITE writes words in order, and the first refused one is the
answer with nothing written. SET_SWEEP commits the interval. BEAM_TIME, ROD_STATUS and SCHED_STATUS answer their records. A reserved bit written with 1
refuses a register write at its byte. ROD_RELEASE takes a quarantined rod to TESTING, after SHUTDOWN where that halts it, and owes the
answer. -/
def Obligations.DispatchProtectionBeamAndRodRequestsComplete : Prop :=
  (∀ (rq : Rq) (l : List (Nat × Int × Nat × Bool)) (s : State), s.tablesOk = true → s.takes (.submit rq l) = true →
    (s.disp.slotNext.isSome = true → exec (.submit rq l) s = .next (s.refuse rq 0x0500 ⟨0x0015, 0x0510, 0⟩)) ∧
    (∀ e r, l = e :: r → s.disp.slotNext = none → (∀ i, i + 1 < l.length →
        (nth (0, 0, 0, false) l i).1 < (nth (0, 0, 0, false) l (i + 1)).1) → e.1 * s.slotLen < s.leadTime →
      exec (.submit rq l) s = .next (s.refuse rq 0x0500 ⟨0x0501, 0, s.firstOpen % 2 ^ 32⟩)) ∧
    (s.disp.slotNext = none → (∀ i, i + 1 < l.length → (nth (0, 0, 0, false) l i).1 < (nth (0, 0, 0, false) l (i + 1)).1) →
      (∀ e ∈ l, s.leadTime ≤ e.1 * s.slotLen ∧ e.2.1 ≤ (s.alloc rq.tenant true : Int) ∧ -e.2.1 ≤ (s.alloc rq.tenant false : Int) ∧
        (e.2.2.2 = true → ∃ x ∈ (s.tenant rq.tenant).pending, x.slot = e.1)) →
      (l.foldl applyEntry (s.tenant rq.tenant).pending).length ≤ 1024 →
      ∃ t : State, exec (.submit rq l) s = .next (t.ok rq 0x0500 (le 2 (t.tenant rq.tenant).pending.length ++ le 2 0)) ∧
        t.tenant rq.tenant = { s.tenant rq.tenant with pending := l.foldl applyEntry (s.tenant rq.tenant).pending } ∧
        (∀ j, j ≠ rq.tenant → t.tenant j = s.tenant j) ∧ t.sys = s.sys)) ∧
  (∀ (rq : Rq) (i slot : Nat) (s : State), s.takes (.readSchedule rq i slot) = true →
    (s.tenEnabled i = false → exec (.readSchedule rq i slot) s = .next (s.refuse rq 0x0501 ⟨0x0014, 0, 0⟩)) ∧
    (s.tenEnabled i = true → exec (.readSchedule rq i slot) s = .next (s.ok rq 0x0501
      ((((s.tenant i).pending.filter (fun e => decide (slot ≤ e.slot))).take 15).flatMap
        (fun e => le 4 e.slot ++ leI 4 e.target ++ le 4 e.ramp ++ le 4 0))))) ∧
  (∀ (rq : Rq) (i : Nat) (s : State), s.takes (.tenantRecord rq i) = true → s.tenEnabled i = true →
    let q := s.tenant i
    s.replies (.tenantRecord rq i) rq 0x0502 64
      [(0, 1, i), (1, 1, s.dflags i), (2, 2, q.pending.length), (4, 4, clampI (-2147483647) 2147483647 q.sched),
       (8, 4, clampI (-2147483647) 2147483647 q.deliv),
       (12, 4, (q.pending.head?.map Entry.slot).getD 0xFFFFFFFF), (16, 8, if i = 0 then whOf s.remainder else whOf q.mj),
       (32, 8, whOf q.disSum), (40, 8, whOf q.chgSum), (48, 8, whOf q.curtSum), (56, 8, 0)]) ∧
  (∀ (rq : Rq) (s : State), s.takes (.bankRecord rq) = true →
    let d := s.disp
    let w := clampI (-2147483647) 2147483647
    s.replies (.bankRecord rq) rq 0x0503 56
      [(0, 4, d.slot), (4, 2, d.tick), (6, 1, d.bflags.toNat), (8, 8, d.slotWall.toNat), (16, 4, s.beam.freq.toNat), (20, 4, w d.pBank),
       (24, 4, w d.pReq), (28, 4, w d.lDis), (32, 4, w d.lChg), (36, 4, w d.sop.1), (40, 4, w d.sop.2), (44, 4, w d.prot.1),
       (48, 4, w d.prot.2), (52, 4, w d.pDisp)]) ∧
  (∀ (rq : Rq) (i : Nat) (s : State), s.takes (.resume rq i) = true →
    (s.tenEnabled i = false → exec (.resume rq i) s = .next (s.refuse rq 0x0504 ⟨0x0014, 0, 0⟩)) ∧
    (s.tenEnabled i = true → tget 0 s.guard.stopAt i ≤ s.ringsAtFetch rq → exec (.resume rq i) s =
      .next ((s.onGuard fun g => { g with stops := g.stops.filter (fun x => decide (x ≠ i)) }).ok rq 0x0504 [])) ∧
    (s.tenEnabled i = true → s.ringsAtFetch rq < tget 0 s.guard.stopAt i → exec (.resume rq i) s = .next (s.ok rq 0x0504 []))) ∧
  (∀ (rq : Rq) (i e : Nat) (a : Nat × Nat × Nat) (s : State), s.tablesOk = true → s.takes (.ledgerAdjust rq i e) = true → 1 ≤ i →
    s.accepted? i = some a → e ≤ a.2.2 →
    ((s.tenant i).deliv ≠ 0 → exec (.ledgerAdjust rq i e) s = .next (s.refuse rq 0x0505 ⟨0x0504, 0, ux 32 (s.tenant i).deliv⟩)) ∧
    ((s.tenant i).deliv = 0 → ∃ t : State, exec (.ledgerAdjust rq i e) s = .next (t.ok rq 0x0505 []) ∧
      t.tenant i = { s.tenant i with mj := (e : Int) * 3600000 } ∧ (∀ j, j ≠ i → t.tenant j = s.tenant j) ∧
      t.recs = s.recs.push (mkEv 0x0505 ((i : Int) :: wh48 ((e : Int) - whOf (s.tenant i).mj))))) ∧
  (∀ (rq : Rq) (src ch mode fs : Nat) (x0 : Int) (db : Nat) (gain : Int) (pmax : Nat) (s : State),
    s.takes (.setBinding rq src ch mode fs x0 db gain pmax) = true → src ≤ 3 → ch ≤ bindingCh src ∨ src = 0 →
    (1 < mode → exec (.setBinding rq src ch mode fs x0 db gain pmax) s = .next (s.refuse rq 0x0506 ⟨0x0013, 2, 0⟩)) ∧
    (mode ≤ 1 → fs ≤ 1 → s.nvOk = true → exec (.setBinding rq src ch mode fs x0 db gain pmax) s =
      .next ((s.onConf fun c => { c with binding := ⟨src, ch, mode, fs, x0, db, gain, pmax⟩ }).okNv rq 0x0506))) ∧
  (∀ (rq : Rq) (s : State), s.takes (.getBinding rq) = true →
    let b := s.sys.conf.binding
    s.replies (.getBinding rq) rq 0x0507 24
      [(0, 1, b.src), (1, 1, b.ch), (2, 1, b.mode), (3, 1, b.failsafe), (4, 4, b.x0), (8, 4, b.db), (12, 4, b.gain), (16, 4, b.pmax),
       (20, 4, 0)]) ∧
  (∀ (rq : Rq) (off count : Nat) (s : State), s.takes (.protRead rq off count) = true → off % 4 = 0 → 1 ≤ count → count ≤ 56 →
    (wordOffsets off count).all protKnown = true →
    exec (.protRead rq off count) s = .next (s.ok rq 0x0600 ((wordOffsets off count).flatMap (fun o => leW (s.protValue o))))) ∧
  (∀ (rq : Rq) (off : Nat) (data : List Nat) (s : State), s.takes (.protWrite rq off data) = true → off % 4 = 0 → 1 ≤ data.length →
    data.length ≤ 56 → (wordOffsets off data.length).all protKnown = true →
    let l := (wordOffsets off data.length).zip data
    let t := l.foldl (fun t e => t.protPut e.1 e.2) s
    (∀ b, reservedData? 0x0601 off data = some b → exec (.protWrite rq off data) s = .next (s.refuse rq 0x0601 ⟨0x0001, b, 0⟩)) ∧
    (∀ e, reservedData? 0x0601 off data = none → l.findSome? (fun x => t.protJudge x.1 x.2) = some e → exec (.protWrite rq off data) s = .next (s.refuse rq 0x0601 e)) ∧
    (reservedData? 0x0601 off data = none → l.findSome? (fun x => t.protJudge x.1 x.2) = none → s.nvOk = true →
      exec (.protWrite rq off data) s = .next (t.okNv rq 0x0601) ∧ t.guard = s.guard)) ∧
  (∀ (rq : Rq) (port string : Nat) (s : State), s.takes (.stringProt rq port string) = true → s.oneString port string = true →
    let k := strKey port string
    let l := (s.str k).locked.getD (0, 0)
    s.replies (.stringProt rq port string) rq 0x0602 8
      [(0, 1, keyPort k), (1, 1, (s.str k).pflags), (2, 2, keyId k), (4, 2, l.1), (6, 2, l.2)]) ∧
  (∀ (rq : Rq) (id : Nat) (s : State), s.takes (.clearTrip rq id) = true →
    (s.guard.failed = false → exec (.clearTrip rq id) s = .next (s.onGuard fun g => { g with clears := g.clears ++ [(rq, 0x0603, id)] })) ∧
    (s.guard.failed = true → id ≠ s.guard.tripId → exec (.clearTrip rq id) s = .next (s.refuse rq 0x0603 ⟨0x0602, 0, s.guard.tripId⟩)) ∧
    (s.guard.failed = true → id = s.guard.tripId → s.clearMask ≠ 0 → exec (.clearTrip rq id) s =
      .next ((s.raise 0x0613 [s.clearMask]).refuse rq 0x0603 ⟨0x0601, 0, s.clearMask⟩))) ∧
  (∀ (rq : Rq) (port string : Nat) (s : State), s.takes (.clearString rq port string) = true → s.oneString port string = true →
    let k := strKey port string
    (s.guard.failed = false →
      exec (.clearString rq port string) s = .next (s.onGuard fun g => { g with clears := g.clears ++ [(rq, 0x0604, k)] })) ∧
    (∀ e, s.guard.failed = true → s.stillCaused k = some e →
      exec (.clearString rq port string) s = .next (s.refuse rq 0x0604 ⟨0x0603, 0, e⟩)) ∧
    (s.guard.failed = true → s.stillCaused k = none → s.isLocked k = false →
      exec (.clearString rq port string) s = .next (s.ok rq 0x0604 []))) ∧
  (∀ (rq : Rq) (id : Nat) (s : State), s.tablesOk = true → s.takes (.weldAck rq id) = true →
    (s.guard.weld ≠ some id → exec (.weldAck rq id) s = .next (s.refuse rq 0x0605 ⟨0x0602, 0, s.guard.weld.getD 0⟩)) ∧
    (s.guard.weld = some id → s.nvOk = true → ∃ t : State, exec (.weldAck rq id) s = .next (t.okNv rq 0x0605) ∧
      t.guard = { s.guard with weld := none } ∧ ∀ k, t.str k = { s.str k with welded := false })) ∧
  (∀ (rq : Rq) (ch source kind port string : Nat) (s : State), s.takes (.mapAlarm rq ch source kind port string) = true →
    ch < 8 → source < 64 → kind ≤ 5 → alarmScopeOk kind port string = true → s.someString port string = true → s.nvOk = true →
    let l := if kind = 0 then tdel s.sys.conf.alarms (ch * 64 + source)
      else tput s.sys.conf.alarms (ch * 64 + source) [kind, port, string]
    (s.planOk l = false → exec (.mapAlarm rq ch source kind port string) s = .next (s.refuse rq 0x0606 ⟨0x0013, 0, 0⟩)) ∧
    (s.planOk l = true →
      exec (.mapAlarm rq ch source kind port string) s = .next ((s.onConf fun c => { c with alarms := l }).okNv rq 0x0606))) ∧
  (∀ (rq : Rq) (off count : Nat) (s : State), s.takes (.beamRead rq off count) = true → off % 4 = 0 → 1 ≤ count → count ≤ 56 →
    (wordOffsets off count).all beamOffset = true →
    let r := readWords (fun u o => BitVec.ofNat 32 (u.beamRead o)) State.beamReadEffect (wordOffsets off count) s
    exec (.beamRead rq off count) s = .next (r.2.ok rq 0x0700 r.1) ∧ r.2.beam.marks = s.beam.marks ∧ r.1.length = 4 * count ∧
      (count = 1 → r.1 = leW (BitVec.ofNat 32 (s.beamRead off)) ∧ (off = 0x028 → r.2.beam.faults =
        BitVec.ofNat 32 (rcLeft s.clock s.beam.oldFaults s.beam.faults.toNat)))) ∧
  (∀ (rq : Rq) (off : Nat) (data : List Nat) (s : State), s.takes (.beamWrite rq off data) = true → off % 4 = 0 → 1 ≤ data.length →
    data.length ≤ 56 → (wordOffsets off data.length).all beamOffset = true →
    let r := writeWords State.beamJudge State.beamPut ((wordOffsets off data.length).zip data) s
    (∀ b, reservedData? 0x0701 off data = some b → exec (.beamWrite rq off data) s = .next (s.refuse rq 0x0701 ⟨0x0001, b, 0⟩)) ∧
    (∀ e, reservedData? 0x0701 off data = none → r.1 = some e → exec (.beamWrite rq off data) s = .next (s.refuse rq 0x0701 e)) ∧
    (reservedData? 0x0701 off data = none → r.1 = none → exec (.beamWrite rq off data) s = .next (r.2.ok rq 0x0701 [])) ∧
    (∀ w, data = [w] → 0x100 ≤ off → off < 0x200 → s.markLocked off w = true → r.1 = some ⟨0x0701, off, 0⟩)) ∧
  (∀ (rq : Rq) (step : Nat) (s : State), s.tablesOk = true → s.takes (.setSweep rq step) = true →
    (∀ p, s.sweepUnfit step = some p → exec (.setSweep rq step) s = .next (s.refuse rq 0x0702 ⟨0x0702, 2, p⟩)) ∧
    (s.sweepUnfit step = none → s.beam.sweepOk step = false → exec (.setSweep rq step) s = .next (s.refuse rq 0x0702 ⟨0x0702, 1, 0⟩)) ∧
    (s.sweepUnfit step = none → s.beam.sweepOk step = true → s.nvOk = true →
      ∃ t : State, exec (.setSweep rq step) s = .next (t.okNv rq 0x0702) ∧ t.beam.sweepConf = BitVec.ofNat 32 step ∧
        (s.sched.lowered = false → (t.mark 0).step = BitVec.ofNat 32 step) ∧ ∀ n, n ≠ 0 → t.mark n = s.mark n)) ∧
  (∀ (rq : Rq) (s : State), s.takes (.beamTime rq) = true →
    s.replies (.beamTime rq) rq 0x0703 16 [(0, 8, s.beamTime), (8, 4, s.beam.freq.toNat), (12, 4, s.beam.status.toNat)]) ∧
  (∀ (rq : Rq) (first count : Nat) (s : State), s.takes (.rodStatus rq first count) = true → first < 128 → 1 ≤ count → count ≤ 15 →
    first + count ≤ 128 → s.replies (.rodStatus rq first count) rq 0x0E00 (16 * count) ((List.range count).flatMap (fun i =>
      let r := s.rod (i + first)
      [(16 * i, 1, ((i + first : Nat) : Int)), (16 * i + 1, 1, (rodCode r.state : Int)), (16 * i + 2, 2, (r.retries : Int)),
       (16 * i + 4, 4, (r.windows : Int)), (16 * i + 8, 2, (r.tableFaults : Int)), (16 * i + 12, 4, (s.rodBusy (i + first) : Int))]))) ∧
  (∀ (rq : Rq) (s : State), s.takes (.schedStatus rq) = true →
    let q := s.sched
    s.replies (.schedStatus rq) rq 0x0E01 36
      [(0, 2, q.dieT), (2, 1, q.dflags), (3, 1, s.healthyRods), (4, 2, q.factor), (6, 1, q.diodes), (8, 4, s.sweepIvl),
       (12, 4, (s.beam.nsAtNominal s.beam.confStep / 1000 : Nat)),
       (16, 4, s.classEnergy 1), (20, 4, s.classEnergy 2), (24, 4, s.classEnergy 3), (28, 4, s.classEnergy 4), (32, 4, s.classEnergy 5)]) ∧
  (∀ (rq : Rq) (n : Nat) (s : State), s.tablesOk = true → s.takes (.rodRelease rq n) = true → n < 128 →
    ((s.rod n).state ≠ .quarantined →
      exec (.rodRelease rq n) s = .next (s.refuse rq 0x0E02 ⟨0x0E01, n, rodCode (s.rod n).state⟩)) ∧
    ((s.rod n).state = .quarantined → s.nvOk = true → ∃ t : State, exec (.rodRelease rq n) s = .next t ∧
      t.rod n = (if s.sched.shutdown then { s.rod n with state := .halted, testing := true } else { s.rod n with state := .testing }) ∧
      (∀ j, j ≠ n → t.rod j = s.rod j) ∧ t.sys.pages = s.sys.pages ∧
      t.sys.held = s.sys.held ++ [(heldKey 0x0E02 n, answer rq 0x0E02 okStatus false)]))

/-- LOOP_READ, LOAD_READ and CAN_READ answer their words in order, each with its read effect. LOOP_WRITE, LOAD_WRITE and CAN_WRITE write every
word, or refuse at the first byte with a reserved bit, then at the first word that breaks a range or rule on the block as the whole write would
leave it, and write nothing; a load
write that would change a guard-owned channel is refused whole with event 0x0A0C. Accepted loop and load writes owe the configuration store
a copy. AXIS_TARGET sets a target within the soft limits; one beyond them is refused with the limit. CAPTURE delivers the 4,096 items of a
finished capture. SET_OUTPUTS gives the masked channels their values and leaves the others' commands, an off-to-on command clearing the
latches; RESTART commands latched channels off and owes them a re-command; neither touches a guard-owned channel. CH_STATUS and CAN_STATUS
answer their records. CAN_SEND queues a message, which a free controller begins to send, and answers the free places; a reserved identifier and a full queue are refused. -/
def Obligations.LoopLoadAndCanRequestsComplete : Prop :=
  (∀ (rq : Rq) (off count : Nat) (s : State), s.takes (.loopRead rq off count) = true → off % 4 = 0 → 1 ≤ count → count ≤ 56 →
    (wordOffsets off count).all loopKnown = true →
    let r := readWords State.loopValue State.loopAfter (wordOffsets off count) s
    exec (.loopRead rq off count) s = .next (r.2.ok rq 0x0900 r.1) ∧ r.1.length = 4 * count ∧
      (count = 1 → r.1 = leW (s.loopValue off)) ∧ r.2.loops.regs = s.loops.regs) ∧
  (∀ (rq : Rq) (off : Nat) (data : List Nat) (s : State), s.takes (.loopWrite rq off data) = true → off % 4 = 0 → 1 ≤ data.length →
    data.length ≤ 56 → (wordOffsets off data.length).all loopKnown = true →
    let l := (wordOffsets off data.length).zip data
    (∀ b, reservedData? 0x0901 off data = some b → exec (.loopWrite rq off data) s = .next (s.refuse rq 0x0901 ⟨0x0001, b, 0⟩)) ∧
    (∀ e, reservedData? 0x0901 off data = none → l.find? (fun e => !(s.loopProposed l).engWordOk s e.1) = some e →
      exec (.loopWrite rq off data) s = .next (s.refuse rq 0x0901 ⟨0x0013, e.1, 0⟩)) ∧
    (reservedData? 0x0901 off data = none → l.find? (fun e => !(s.loopProposed l).engWordOk s e.1) = none → ∃ t : State,
      exec (.loopWrite rq off data) s = .next (t.ok rq 0x0901 []) ∧ t = s.loopWriteAll l ∧ 9 ∈ t.recs.cfgPending ∧ t.sys = s.sys)) ∧
  (∀ (rq : Rq) (ax : Nat) (v : Int) (s : State), s.tablesOk = true → s.takes (.axisTarget rq ax v) = true → ax < 16 →
    (s.axLim ax = true → v < (s.axLimits ax).1 →
      exec (.axisTarget rq ax v) s = .next (s.refuse rq 0x0902 ⟨0x0901, 0, ux 32 (s.axLimits ax).1⟩)) ∧
    (s.axLim ax = true → (s.axLimits ax).1 ≤ v → (s.axLimits ax).2 < v →
      exec (.axisTarget rq ax v) s = .next (s.refuse rq 0x0902 ⟨0x0901, 0, ux 32 (s.axLimits ax).2⟩)) ∧
    ((s.axLim ax = true → (s.axLimits ax).1 ≤ v ∧ v ≤ (s.axLimits ax).2) →
      ∃ t : State, exec (.axisTarget rq ax v) s = .next (t.ok rq 0x0902 []) ∧ (∀ j, j ≠ ax → t.axis j = s.axis j) ∧
        t.axis ax = { s.axis ax with target := v, arrived := (s.axis ax).arrived && decide (v * 65536 = (s.axis ax).p) })) ∧
  (∀ (rq : Rq) (b : Bulk) (s : State), s.bulkStarts (.capture rq b none) rq b none → b.port = 255 → b.string = 65535 → b.arg < 32 →
    (s.loop b.arg).capBusy = false →
    let l := padTo 4096 (le 8 0) ((s.loop b.arg).capBuf.map captureItem)
    s.delivers (.capture rq b none) rq 0x0903 b none l l) ∧
  (∀ (rq : Rq) (off count : Nat) (meas : List (Nat × Int)) (vload : Int) (mean : Nat) (s : State),
    s.takes (.loadRead rq off count meas vload mean) = true → off % 4 = 0 → 1 ≤ count → count ≤ 56 →
    (wordOffsets off count).all loadKnown = true →
    let r := readWords State.loadValue State.loadAfter (wordOffsets off count) (s.takeMeas meas vload mean)
    exec (.loadRead rq off count meas vload mean) s = .next (r.2.ok rq 0x0A00 r.1) ∧ r.1.length = 4 * count ∧
      (count = 1 → r.1 = leW ((s.takeMeas meas vload mean).loadValue off)) ∧ r.2.load.cmd = s.load.cmd) ∧
  (∀ (rq : Rq) (meas : List (Nat × Int)) (vload : Int) (mean : Nat) (s : State), s.takes (.chStatus rq meas vload mean) = true →
    let u := s.takeMeas meas vload mean
    ∃ p, exec (.chStatus rq meas vload mean) s = .next (u.ok rq 0x0A03 p) ∧ p.length = 192 ∧ holds p ((List.range 24).flatMap (fun n =>
      let c := u.chan n
      [(8 * n, 1, ((flag c.on 0 + flag (u.cmdWord.testBit n) 1 + flag (bit u.load.pins n) 2 + flag (u.owned n) 3 + flag c.oc 4 +
          flag c.dtLatch 5 + flag c.openLoad 6 : Nat) : Int)), (8 * n + 1, 1, (u.profile n : Int)),
       (8 * n + 2, 2, ((rdiv c.i 10).toNat : Int)), (8 * n + 4, 2, c.dt), (8 * n + 6, 2, 0)])) = true) ∧
  (∀ (rq : Rq) (off : Nat) (data : List Nat) (s : State), s.takes (.loadWrite rq off data) = true → off % 4 = 0 → 1 ≤ data.length →
    data.length ≤ 56 → (wordOffsets off data.length).all loadKnown = true →
    let l := (wordOffsets off data.length).zip data
    let touched := l.foldl (fun m e => m ||| s.ownedTouched e.1 e.2) 0
    (∀ b, reservedData? 0x0A01 off data = some b → exec (.loadWrite rq off data) s = .next (s.refuse rq 0x0A01 ⟨0x0001, b, 0⟩)) ∧
    (reservedData? 0x0A01 off data = none → touched ≠ 0 → exec (.loadWrite rq off data) s =
      .next ((s.raise 0x0A0C [touched % 65536, touched / 65536]).refuse rq 0x0A01 ⟨0x0A01, 0, maskOf (chanNums.filter s.owned)⟩)) ∧
    (∀ e, reservedData? 0x0A01 off data = none → touched = 0 → l.find? (fun e => !s.loadWordOk l e.1 e.2) = some e →
      exec (.loadWrite rq off data) s = .next (s.refuse rq 0x0A01 ⟨0x0013, e.1, 0⟩)) ∧
    (reservedData? 0x0A01 off data = none → touched = 0 → l.find? (fun e => !s.loadWordOk l e.1 e.2) = none → ∃ t : State,
      exec (.loadWrite rq off data) s = .next (t.ok rq 0x0A01 []) ∧ 10 ∈ t.recs.cfgPending ∧ t.sys = s.sys ∧
      t.load.cfg = (l.foldl (fun t e => t.loadPut e.1 e.2) s).load.cfg ∧ t.load.cmd = (l.foldl (fun t e => t.loadPut e.1 e.2) s).load.cmd)) ∧
  (∀ (rq : Rq) (mask value : Nat) (s : State), s.tablesOk = true → s.takes (.setOutputs rq mask value) = true → mask < 2 ^ 24 →
    value < 2 ^ 24 →
    (∀ n < 24, s.owned n = true → mask.testBit n = true → exec (.setOutputs rq mask value) s =
      .next ((s.raise 0x0A0C [s.ownedOf mask % 65536, s.ownedOf mask / 65536]).refuse rq 0x0A02 ⟨0x0A01, 0, maskOf (chanNums.filter s.owned)⟩)) ∧
    ((∀ n < 24, mask.testBit n = true → s.owned n = false) →
      (∀ n < 24, mask.testBit n = true → value.testBit n = true → s.profile n = 0 →
        exec (.setOutputs rq mask value) s = .next (s.refuse rq 0x0A02 ⟨0x0013, 4, 0⟩)) ∧
      ((∀ n < 24, mask.testBit n = true → value.testBit n = true → s.profile n ≠ 0) →
        ∃ t : State, exec (.setOutputs rq mask value) s = .next (t.ok rq 0x0A02 []) ∧
          ∀ n < 24, bit t.load.cmd n = (if mask.testBit n then value.testBit n else bit s.load.cmd n) ∧
            (mask.testBit n = true → value.testBit n = true → bit s.load.cmd n = false → (s.chan n).latchAt ≠ some s.clock →
              (t.chan n).oc = false ∧ (t.chan n).dtLatch = false)))) ∧
  (∀ (rq : Rq) (mask : Nat) (s : State), s.tablesOk = true → s.takes (.restart rq mask) = true → mask < 2 ^ 24 →
    (∀ n < 24, s.owned n = true → mask.testBit n = true → exec (.restart rq mask) s =
      .next ((s.raise 0x0A0C [s.ownedOf mask % 65536, s.ownedOf mask / 65536]).refuse rq 0x0A04 ⟨0x0A01, 0, maskOf (chanNums.filter s.owned)⟩)) ∧
    ((∀ n < 24, mask.testBit n = true → s.owned n = false) → ∃ t : State, exec (.restart rq mask) s = .next (t.ok rq 0x0A04 []) ∧
      ∀ n < 24, if mask.testBit n = true ∧ ((s.chan n).oc = true ∨ (s.chan n).dtLatch = true)
        then (t.chan n).recmd = some s.clock ∧ bit t.load.cmd n = false
        else t.chan n = s.chan n ∧ bit t.load.cmd n = bit s.load.cmd n)) ∧
  (∀ (rq : Rq) (off count : Nat) (s : State), s.takes (.canRead rq off count) = true → off % 4 = 0 → 1 ≤ count → count ≤ 56 →
    (wordOffsets off count).all canKnown = true →
    let r := readWords State.canValue State.canAfter (wordOffsets off count) s
    exec (.canRead rq off count) s = .next (r.2.ok rq 0x0B00 r.1) ∧ r.1.length = 4 * count ∧
      (count = 1 → r.1 = leW (s.canValue off)) ∧ r.2.can.regs = s.can.regs) ∧
  (∀ (rq : Rq) (off : Nat) (data : List Nat) (s : State), s.takes (.canWrite rq off data) = true → off % 4 = 0 → 1 ≤ data.length →
    data.length ≤ 56 → (wordOffsets off data.length).all canKnown = true →
    let l := (wordOffsets off data.length).zip data
    (∀ b, reservedData? 0x0B01 off data = some b → exec (.canWrite rq off data) s = .next (s.refuse rq 0x0B01 ⟨0x0001, b, 0⟩)) ∧
    (∀ e, reservedData? 0x0B01 off data = none → l.find? (fun e => !(s.canProposed l).canWordOk e.1) = some e →
      exec (.canWrite rq off data) s = .next (s.refuse rq 0x0B01 ⟨0x0013, e.1, 0⟩)) ∧
    (reservedData? 0x0B01 off data = none → l.find? (fun e => !(s.canProposed l).canWordOk e.1) = none → ∃ t : State,
      exec (.canWrite rq off data) s = .next (t.ok rq 0x0B01 []) ∧ t = l.foldl (fun t e => t.canPut e.1 e.2) s ∧ t.sys = s.sys)) ∧
  (∀ (rq : Rq) (ch flags id : Nat) (data : List Byte) (s : State), s.tablesOk = true → s.takes (.canSend rq ch flags id data) = true →
    ch < 8 → (flags.testBit 1 = true → s.canFd ch = true) → (flags.testBit 2 = true → flags.testBit 1 = true) →
    dlenOk (flags.testBit 1) data.length = true → (flags.testBit 0 = true → id < 2 ^ 29) → (flags.testBit 0 = false → id < 0x800) →
    (flags.testBit 0 = false → id = 0 ∨ s.idReserved ch id = true →
      exec (.canSend rq ch flags id data) s = .next (s.refuse rq 0x0B02 ⟨0x0B01, 0, ch⟩)) ∧
    ((flags.testBit 0 = false → id ≠ 0 ∧ s.idReserved ch id = false) →
      (64 ≤ (s.ctrl ch).queue.length → exec (.canSend rq ch flags id data) s = .next (s.refuse rq 0x0B02 ⟨0x0B02, 0, ch⟩)) ∧
      ((s.ctrl ch).queue.length < 64 → ∃ t : State, exec (.canSend rq ch flags id data) s =
        .next (t.ok rq 0x0B02 (le 2 (63 - (s.ctrl ch).queue.length) ++ le 2 0)) ∧
        t.ctrl ch = { s.ctrl ch with
          queue := (s.ctrl ch).queue ++ [⟨⟨flags.testBit 0, flags.testBit 1, flags.testBit 2, id, data⟩, s.canRetry ch, 0⟩]
          onBus := (t.ctrl ch).onBus
          busAt := (t.ctrl ch).busAt } ∧
        (s.sends ch = true → s.guardWaits ch = false → (s.ctrl ch).onBus = none → (t.ctrl ch).onBus = (t.ctrl ch).next) ∧
        (∀ w, (s.ctrl ch).onBus = some w → (s.ctrl ch).busAt ≠ s.clock → (t.ctrl ch).onBus = some w) ∧
        ∀ j, j ≠ ch → t.ctrl j = s.ctrl j))) ∧
  (∀ (rq : Rq) (s : State), s.takes (.canStatus rq) = true → s.replies (.canStatus rq) rq 0x0B03 64 ((List.range 8).flatMap (fun n =>
    let c := s.ctrl n
    [(8 * n, 1, (c.estate : Int)), (8 * n + 1, 1, ((min 255 c.tec : Nat) : Int)), (8 * n + 2, 1, (c.rec_ : Int)), (8 * n + 3, 1, 0),
     (8 * n + 4, 2, (c.queue.length : Int)), (8 * n + 6, 2, (c.noAck : Int))])))

/-- LOOP_TICK (outside OFF and RECOVERY, 50 us after the last): a disabled loop stands, an enabled one that is not due counts down, a due one reloads DIV - 1 and
afterwards its output lies within OUT_MIN and OUT_MAX, or is SAFE_OUT while it stands in its safe state; one period of a plain PI loop is
R364's, its integrator held at a limit. LOOP_ENABLE makes a permitted loop take over at its next period and owes the store a copy;
LOOP_RESTART owes a restart, which clears the fault latches with event 0x0903. SUPERVISION_FAULT latches with event 0x0901, CAPTURE_ARM
discards the buffer, CAPTURE_COMPLETE ends a full capture. LOOP_CONFIG_SAVE copies the registers. AXIS_EDGE: an accepted transition of A
counts by the quadrature sequence, one of both signals is an edge fault. AXIS_INDEX latches the position; a wire fault from 1 us and an
amplitude beyond its window for 100 us latch FAULT with event 0x0904; AXIS_STILL zeroes the speed; FAULTEV clears. OUTPUT_OPEN and AIN_BROKEN judge
their channels. DRIVE_FRAME_PERIOD places each frame with a driven slot. -/
def Obligations.LoopEngineAndAxesFollowTheirRules : Prop :=
  (∀ (ains : List Int) (s : State), s.tickDue = false → exec (.loopTick ains) s = .next s) ∧
  (∀ (ains : List Int) (s : State), s.tablesOk = true → s.engineOn = true →
    (∀ a, s.loops.tickAt = some a → a + 10000 ≤ s.clock) →
    ∃ t, exec (.loopTick ains) s = .next t ∧ t.loops.ticks = s.loops.ticks + 1 ∧ t.loops.tickAt = some s.clock ∧ ∀ n < 32,
      (s.loopEn n = false → t.loop n = s.loop n) ∧
      (s.loopEn n = true → (s.loop n).left ≠ 0 → t.loop n = { s.loop n with left := (s.loop n).left - 1 }) ∧
      (s.loopEn n = true → (s.loop n).left = 0 → (t.loop n).left = wfld (s.lreg n 4) 15 0 - 1 ∧
        let lo := sx 16 (wfld (s.lreg n 0x10) 15 0)
        let hi := sx 16 (wfld (s.lreg n 0x10) 31 16)
        (t.loopSafe n = true → (t.loop n).u = satQ (sx 16 (s.lreg n 0x30).toNat)) ∧
        (t.loopSafe n = false → lo ≤ hi → lo ≤ (t.loop n).u ∧ (t.loop n).u ≤ hi))) ∧
  (∀ (n : Nat) (pv sp : Int) (s : State), s.tablesOk = true → (s.loop n).takeOver = false → wfld (s.lreg n 0x14) 31 16 = 0 →
    bit (s.lreg n 0) 2 = false → bit (s.lreg n 0) 3 = false → bit (s.lreg n 0) 4 = false →
    let l := s.loop n
    let g : Int := 2 ^ wfld (s.lreg n 4) 19 16
    let lo := sx 16 (wfld (s.lreg n 0x10) 15 0)
    let hi := sx 16 (wfld (s.lreg n 0x10) 31 16)
    let e := satQ (sp - pv)
    let ki := sx 16 (wfld (s.lreg n 8) 15 0)
    let ff := satQ (sx 16 (wfld (s.lreg n 0x30) 31 16)) * 32768
    let i := clampI (lo * 32768) (hi * 32768)
      (if (l.u = hi ∧ 0 < e * ki) ∨ (l.u = lo ∧ e * ki < 0) then l.i else sat40 (l.i + e * ki * g))
    (s.pidStep n pv sp 0).loop n = { l with
      spPrev := sp
      pvPrev := pv
      i := i
      u := clampI lo hi (satQ (rnd (sat40 (e * sx 16 (wfld (s.lreg n 8) 31 16) * g + i + ff)) 15))
      takeOver := false
      afterFault := false }) ∧
  (∀ (n : Nat) (s : State), s.tablesOk = true → n < 32 → s.loopEn n = false →
    let w := (s.lreg n 0).toNat ||| 1
    (s.loopProposed [(0x1000 + 0x80 * n, w)]).lctlOk s n = true →
    ∃ t, exec (.loopEnable n) s = .next t ∧ t.loopEn n = true ∧ (t.loop n).takeOver = true ∧ (t.loop n).left = 0 ∧
      t.loops.started = true ∧ 9 ∈ t.recs.cfgPending ∧ ∀ j, j ≠ n → t.loop j = s.loop j) ∧
  (∀ (n : Nat) (s : State), s.tablesOk = true → n < 32 →
    (s.loopEn n = false → exec (.loopRestart n) s = .next s) ∧
    (s.loopEn n = true → ∃ t, exec (.loopRestart n) s = .next t ∧ t.loop n = { s.loop n with restart := true } ∧
      ∀ j, j ≠ n → t.loop j = s.loop j)) ∧
  (∀ (n : Nat) (s : State), s.tablesOk = true → (s.loop n).restart = true →
    (s.restartStep n).recs = s.recs.push (mkEv 0x0903 [n]) ∧ ((s.restartStep n).loop n).inFault = false ∧
      ((s.restartStep n).loop n).takeOver = true ∧ ((s.restartStep n).loop n).restart = false) ∧
  (∀ (n : Nat) (s : State), s.tablesOk = true → s.engineOn = true → s.loopEn n = true → s.residualLong n = true → (s.loop n).supFault = false →
    (s.loop n).capBusy = false →
    ∃ t, exec (.supervisionFault n) s = .next t ∧ t.recs = s.recs.push (mkEv 0x0901 [n, (s.loop n).res, (s.loop n).u]) ∧
      t.loop n = { s.loop n with
        supFault := true
        u := if bit (s.lreg n 0) 5 then satQ (sx 16 (s.lreg n 0x30).toNat) else (s.loop n).u } ∧
      ∀ j, j ≠ n → t.loop j = s.loop j) ∧
  (∀ (n : Nat) (s : State), s.tablesOk = true → n < 32 → ∃ t, exec (.captureArm n) s = .next t ∧ (t.loop n).capBuf = [] ∧
    (t.loop n).capDone = false ∧ (t.loop n).capBusy = decide (wfld (s.lreg n 0x40) 1 0 ≠ 0) ∧ (t.loop n).u = (s.loop n).u ∧
    (t.loop n).injOn = decide (wfld (s.lreg n 0x40) 1 0 = 1 ∧ wfld (s.lreg n 0x38) 31 30 ≠ 0) ∧ ∀ j, j ≠ n → t.loop j = s.loop j) ∧
  (∀ (n : Nat) (s : State), s.tablesOk = true → (s.loop n).capBusy = true → (s.loop n).capFull = true →
    ∃ t, exec (.captureComplete n) s = .next t ∧ t.loop n = { s.loop n with capBusy := false, capDone := true, injOn := false } ∧
      t.recs = s.recs.push (mkEv 0x0908 [n, (s.loop n).capMode, 0]) ∧ ∀ j, j ≠ n → t.loop j = s.loop j) ∧
  (∀ s : State, 9 ∈ s.recs.cfgPending → s.nvOk = true → ∃ t, exec .loopConfigSave s = .next t ∧ t.recs = { s.recs with
    cfgPending := s.recs.cfgPending.erase 9
    cfgLoop := s.loops.regs
    cfgGen := (s.recs.cfgGen + 1) % 2 ^ 32
    cfgValid := true }) ∧
  (∀ (ax : Nat) (a b : Bool) (x y : Int) (s : State), s.tablesOk = true → ax < 16 → s.axMode ax = 1 →
    let ca := decide (a ≠ (s.axis ax).quad.testBit 1)
    let cb := decide (b ≠ (s.axis ax).quad.testBit 0)
    ((s.axis ax).quad = 4 → ∃ t, exec (.axisEdge ax a b x y) s = .next t ∧ t.axis ax = { s.axis ax with quad := b2n a * 2 + b2n b } ∧
      t.recs = s.recs) ∧
    ((s.axis ax).quad ≠ 4 → ca = true → cb = true → bit (s.axreg ax 0) 5 = false → ∃ t, exec (.axisEdge ax a b x y) s = .next t ∧
      (t.axis ax).pos = (s.axis ax).pos ∧ (t.axis ax).edgeFaults = sat16 ((s.axis ax).edgeFaults + 1) ∧ (t.axis ax).fault = (s.axis ax).fault) ∧
    ((s.axis ax).quad ≠ 4 → ca = true → cb = false → s.edgeAccepted ax 0 = true → ∃ t, exec (.axisEdge ax a b x y) s = .next t ∧
      (t.axis ax).pos = BitVec.ofInt 32 ((s.axis ax).position + (if (a != b) = s.axInv ax then -1 else 1)) ∧
      (t.axis ax).dir = decide ((a != b) ≠ s.axInv ax) ∧ (t.axis ax).still = false ∧ ∀ j, j ≠ ax → t.axis j = s.axis j) ∧
    ((s.axis ax).quad ≠ 4 → ca = false → cb = true → s.edgeAccepted ax 1 = true → ∃ t, exec (.axisEdge ax a b x y) s = .next t ∧
      (t.axis ax).pos = BitVec.ofInt 32 ((s.axis ax).position + (if (a == b) = s.axInv ax then -1 else 1)) ∧
      ∀ j, j ≠ ax → t.axis j = s.axis j)) ∧
  (∀ (ax : Nat) (s : State), s.tablesOk = true → ax < 16 → s.axMode ax = 1 → bit (s.axreg ax 0) 4 = true →
    ∃ t, exec (.axisIndex ax) s = .next t ∧ (∀ j, j ≠ ax → t.axis j = s.axis j) ∧
      t.axis ax = { s.axis ax with
        index := (s.axis ax).pos
        event := putBit (s.axis ax).event 2 true
        evNew := noteBits s.clock (s.axis ax).evNew 4 }) ∧
  (∀ (ax pair ns : Nat) (s : State), s.tablesOk = true → s.pairWatched ax pair = true →
    (ns < 1000 → ∃ t, exec (.axisWireFault ax pair ns) s = .next t ∧
      t.axis ax = { s.axis ax with wire := putBit (s.axis ax).wire pair false } ∧ t.recs = s.recs) ∧
    (1000 ≤ ns → (s.axis ax).fault = false → ∃ t, exec (.axisWireFault ax pair ns) s = .next t ∧
      t.recs = s.recs.push (mkEv 0x0904 [ax, (pair + 1 : Nat)]) ∧ t.axis ax = { s.axis ax with
        wire := putBit (s.axis ax).wire pair true
        fault := true
        kind := pair + 1
        event := putBit (s.axis ax).event 1 true
        evNew := noteBits s.clock (s.axis ax).evNew 2
        p := (s.axis ax).position * 65536
        v := 0 })) ∧
  (∀ (ax : Nat) (high : Bool) (s : State), s.tablesOk = true → ax < 16 → s.axMode ax = 2 →
    let since := if high then (s.axis ax).highSince else (s.axis ax).lowSince
    ((∀ a, since = some a → s.clock < a + 20000) → exec (.axisAmplitudeFault ax high) s = .next s) ∧
    (∀ a, since = some a → a + 20000 ≤ s.clock → ∃ t, exec (.axisAmplitudeFault ax high) s = .next t ∧ (t.axis ax).fault = true ∧
      (t.axis ax).ampHigh = ((s.axis ax).ampHigh || high) ∧ (t.axis ax).ampLow = ((s.axis ax).ampLow || !high) ∧
      t.recs = (if (s.axis ax).fault then s.recs else s.recs.push (mkEv 0x0904 [ax, if high then 5 else 4])))) ∧
  (∀ (ax : Nat) (s : State), s.tablesOk = true → ax < 16 → s.axMode ax ≠ 0 →
    (((s.axis ax).edges.head?.map Prod.fst).getD 0) + 200000 * wfld (s.axreg ax 4) 15 0 ≤ s.clock →
    ∃ t, exec (.axisStill ax) s = .next t ∧ t.axis ax = { s.axis ax with speed := 0, still := true }) ∧
  (∀ (ax : Nat) (s : State), s.tablesOk = true → ax < 16 → (s.axis ax).evNew.1 ≠ s.clock →
    ∃ t, exec (.faultev ax) s = .next t ∧
    t.axis ax = { s.axis ax with event := putBit (s.axis ax).event 1 false, fault := false } ∧
    t.recs = (if (s.axis ax).fault = true ∧ (s.axis ax).cause = 0 then s.recs.push (mkEv 0x0905 [ax]) else s.recs)) ∧
  (∀ (n us_ : Nat) (s : State), n < 8 → bit (s.loopReg (0x2500 + 0x10 * n)) 0 = true → bit (s.loopReg (0x2500 + 0x10 * n)) 1 = true →
    (1000 ≤ us_ → ∃ t, exec (.outputOpen n us_) s = .next t ∧ n ∈ t.loops.open_ ∧
      t.recs = (if n ∈ s.loops.open_ then s.recs else s.recs.push (mkEv 0x0909 [n]))) ∧
    (us_ < 1000 → ∃ t, exec (.outputOpen n us_) s = .next t ∧ n ∉ t.loops.open_ ∧ t.recs = s.recs)) ∧
  (∀ (n : Nat) (v : Int) (s : State), n < 8 → bit (s.ainCfg n) 0 = true → bit (s.ainCfg n) 1 = true →
    bit (tget (0 : BitVec 3) s.loops.ainStat n) 2 = false → ∃ t, exec (.ainBroken n v) s = .next t ∧ t.loops = { s.loops with
      ainStat := tmod (0 : BitVec 3) s.loops.ainStat n (fun w => putBit w 1 (s.ainCurrent n && decide (v < 3600)))
      ain := tset (0 : Int) s.loops.ain n (rround (v * s.tinFactor (16 + n))) }) ∧
  (∀ (s : State), s.tablesOk = true → s.engineOn = true → s.drvEn = true → s.canEn s.drvCh = true →
    (∀ a, s.loops.drvAt = some a → a + 200000 * wfld (s.canReg 8) 15 0 ≤ s.clock) →
    ∃ t, exec .driveFramePeriod s = .next t ∧ t.loops = { s.loops with drvAt := some s.clock } ∧
      (∀ j, j ≠ s.drvCh → t.ctrl j = s.ctrl j) ∧
      (∀ k < 4, (s.driveSlots k).any Option.isSome = true →
        tfind? (t.ctrl s.drvCh).ded (s.drvBase + k) = some ((s.driveSlots k).flatMap (fun v => leI 2 (v.getD (-32768))))) ∧
      (keysRise (s.ctrl s.drvCh).ded = true → ∀ k < 4, (s.driveSlots k).any Option.isSome = false →
        tfind? (t.ctrl s.drvCh).ded (s.drvBase + k) = none))

/-- RESTART_RECOMMAND, 1 ms after RESTART, commands the channel on with its latches clear. IN_EDGE notes the level, and the channel follows once
its minimum time is over, IN_MINIMUM_TIME_END at its end. INRUSH_WINDOW_END and SLEW_RAMP_COMPLETE close the window. OVERCURRENT_LATCH (20 us)
and SLEW_RAMP_TIMEOUT (200 ms) latch with the stage and event 0x0A01 and switch off; a guard-owned channel drops out of the guard's command
and asks for an emergency action. THERMAL_SWITCH_OFF from 60 K switches off, and latches with 0x0A02 on the eighth time in 10 s or at once
when guard-owned; THERMAL_RESTART below 45 K ends the cool-down. OPEN_LOAD_JUDGEMENT, after 100 ms on, sets and clears open load. STAGGERED_TURN_ON switches
the next waiting channel on. Under-voltage, lost ground and a reverse supply without VMAIN switch every channel off, a reverse supply with
VMAIN all on; each logs its event, and so do their returns. LOAD_DUMP keeps the peak. TOTAL_OVERLOAD sets above 40 A and clears after 5 s;
LOAD_SHED latches the highest free channel in stage 3. LOAD_CONFIG_SAVE copies the registers. -/
def Obligations.LoadChannelsFollowTheirRules : Prop :=
  (∀ (n a : Nat) (s : State), s.tablesOk = true → n < 24 → (s.chan n).recmd = some a → a + 200000 ≤ s.clock →
    ∃ t, exec (.restartRecommand n) s = .next t ∧ (t.chan n).recmd = none ∧ (∀ m < 24, m ≠ n → bit t.load.cmd m = bit s.load.cmd m) ∧
      (s.owned n = false → bit s.load.cmd n = false → (s.chan n).latchAt ≠ some s.clock →
        bit t.load.cmd n = true ∧ (t.chan n).oc = false ∧ (t.chan n).dtLatch = false)) ∧
  (∀ (n : Nat) (high : Bool) (s : State), s.tablesOk = true → n < 24 →
    (s.power.vioOk = false → exec (.inEdge n high) s = .next s) ∧
    (s.power.vioOk = true → s.minDone n = false ∨ s.inEn n = false → ∃ t, exec (.inEdge n high) s = .next t ∧
      bit t.load.pins n = high ∧ t.load.chans = s.load.chans) ∧
    (s.power.vioOk = true → s.inEn n = true → s.minDone n = true → s.owned n = false → s.load.reverseOn = false →
      s.load.stagger = [] → s.mayConduct n = true → bit s.load.cmd n = false → ∃ t, exec (.inEdge n high) s = .next t ∧
        bit t.load.pins n = high ∧ (t.chan n).on = high ∧ ∀ j, j ≠ n → t.chan j = s.chan j)) ∧
  (∀ (n : Nat) (s : State), s.tablesOk = true → n < 24 → s.inEn n = true → s.minDone n = true → s.owned n = false →
    s.load.reverseOn = false → s.load.stagger = [] → s.mayConduct n = true →
    ∃ t, exec (.inMinimumTimeEnd n) s = .next t ∧ (t.chan n).on = (bit s.load.cmd n || bit s.load.pins n) ∧
      ∀ j, j ≠ n → t.chan j = s.chan j) ∧
  (∀ (n a : Nat) (s : State), s.tablesOk = true → n < 22 → (s.chan n).on = true → (s.chan n).inrush = true → (s.chan n).onAt = some a →
    a + 200000 * inrushMs (s.profile n) ≤ s.clock →
    ∃ t, exec (.inrushWindowEnd n) s = .next t ∧ t.chan n = { s.chan n with inrush := false } ∧ ∀ j, j ≠ n → t.chan j = s.chan j) ∧
  (∀ (n : Nat) (vout vload : Int) (s : State), s.tablesOk = true → 22 ≤ n → n < 24 → (s.chan n).on = true → (s.chan n).inrush = true →
    (200 < vload - vout → exec (.slewRampComplete n vout vload) s = .next s) ∧
    (vload - vout ≤ 200 → ∃ t, exec (.slewRampComplete n vout vload) s = .next t ∧ t.chan n = { s.chan n with inrush := false })) ∧
  (∀ (n a ma : Nat) (s : State), s.tablesOk = true → 22 ≤ n → n < 24 → (s.chan n).on = true → (s.chan n).inrush = true →
    (s.chan n).onAt = some a → a + 200 * 200000 ≤ s.clock → s.load.reverseOn = false →
    ∃ t, exec (.slewRampTimeout n ma) s = .next t ∧ (t.chan n).oc = true ∧ (t.chan n).stage = 1 ∧ (t.chan n).on = false ∧
      t.recs = s.recs.push (mkEv 0x0A01 [n, 1, rdiv ma 10])) ∧
  (∀ (n ma us_ : Nat) (s : State), s.tablesOk = true → n < 24 → (s.chan n).on = true →
    (us_ < 20 ∨ ma * 1000 ≤ s.threshold n → exec (.overcurrentLatch n ma us_) s = .next s) ∧
    (20 ≤ us_ → s.threshold n < ma * 1000 → s.load.reverseOn = false →
      let ps : List Int := [n, if (s.chan n).inrush then 1 else 2, rdiv ma 10]
      ∃ t, exec (.overcurrentLatch n ma us_) s = .next t ∧ (t.chan n).oc = true ∧ (t.chan n).on = false ∧
        (t.chan n).stage = (if (s.chan n).inrush then 1 else 2) ∧ (t.chan n).ocTrips = sat16 ((s.chan n).ocTrips + 1) ∧
        bit t.load.event 5 = true ∧ t.recs = s.recs.push (mkEv 0x0A01 ps) ∧ (∀ j, j ≠ n → t.chan j = s.chan j) ∧
        (s.owned n = false → t.guard = s.guard) ∧
        (s.owned n = true → bit s.guard.cmd n = true → bit t.guard.cmd n = false ∧
          t.guard.reqs = s.guard.reqs ++ [⟨1, none, 0x0A01, ps.map (ux 16), false, false, 3, false⟩]))) ∧
  (∀ (n : Nat) (dt : Int) (s : State), s.tablesOk = true → n < 24 → (s.chan n).on = true →
    (dt < 6000 → exec (.thermalSwitchOff n dt) s = .next s) ∧
    (6000 ≤ dt → s.load.reverseOn = false →
      let last := s.owned n || decide (7 ≤ ((s.chan n).dtAt.filter (fun a => decide (s.clock ≤ a + 2000000000))).length)
      ∃ t, exec (.thermalSwitchOff n dt) s = .next t ∧ (t.chan n).dtOff = true ∧ (t.chan n).on = false ∧
        (t.chan n).dtOffs = sat16 ((s.chan n).dtOffs + 1) ∧ (t.chan n).dtLatch = ((s.chan n).dtLatch || last) ∧
        t.recs = (if last then s.recs.push (mkEv 0x0A02 [n, dt]) else s.recs))) ∧
  (∀ (n : Nat) (dt : Int) (s : State), s.tablesOk = true → n < 24 → (s.chan n).dtOff = true →
    (4500 ≤ dt → exec (.thermalRestart n dt) s = .next s) ∧
    (dt < 4500 → ∃ t, exec (.thermalRestart n dt) s = .next t ∧ (t.chan n).dtOff = false ∧ t.recs = s.recs ∧
      ∀ j, j ≠ n → t.chan j = s.chan j)) ∧
  (∀ (n : Nat) (l : List Nat) (s : State), s.tablesOk = true → n < 24 → l ≠ [] → (s.chan n).on = true →
    let thr := if bit (s.chanCfg n) 1 then 2 else 20
    ((s.chan n).onTime s.clock < 20000000 → exec (.openLoadJudgement n l) s = .next s) ∧
    (20000000 ≤ (s.chan n).onTime s.clock → (∀ v ∈ l, v < thr) → (s.chan n).openLoad = false → ∃ t, exec (.openLoadJudgement n l) s = .next t ∧
      t.chan n = { s.chan n with onAcc := 0, onFrom := s.clock, openLoad := true } ∧ t.recs = s.recs.push (mkEv 0x0A03 [n, rdiv l.sum l.length]) ∧
      bit t.load.event 6 = true) ∧
    (20000000 ≤ (s.chan n).onTime s.clock → (s.chan n).openLoad = true → 3 * thr * l.length < 2 * l.sum → ∃ t, exec (.openLoadJudgement n l) s = .next t ∧
      t.chan n = { s.chan n with onAcc := 0, onFrom := s.clock, openLoad := false } ∧ t.recs = s.recs.push (mkEv 0x0A04 [n]))) ∧
  (∀ (n a : Nat) (rest : List Nat) (s : State), s.tablesOk = true → s.load.stagger = n :: rest → s.load.staggerAt = some a →
    a + 200000 ≤ s.clock → (s.chan n).on = false → s.conducts n = true →
    ∃ t, exec .staggeredTurnOn s = .next t ∧ (t.chan n).on = true ∧ (t.chan n).inrush = true ∧ (t.chan n).onAt = some s.clock ∧
      t.load.stagger = rest ∧ t.load.staggerAt = some s.clock ∧ ∀ j, j ≠ n → t.chan j = s.chan j) ∧
  (∀ (v : Int) (us_ : Nat) (s : State), s.tablesOk = true → v < 3000 → 100 ≤ us_ → s.supFlag 0 = false → s.load.reverseOn = false →
    let on := maskOf (chanNums.filter (fun n => (s.chan n).on))
    ∃ t, exec (.vloadUnderVoltage v us_) s = .next t ∧ t.supFlag 0 = true ∧ bit t.load.event 0 = true ∧ t.load.vload = v ∧
      t.recs = s.recs.push (mkEv 0x0A05 [rdiv v 10, on % 65536, on / 65536]) ∧ ∀ n < 24, (t.chan n).on = false) ∧
  (∀ (v : Int) (ms_ : Nat) (s : State), 3300 < v → 10 ≤ ms_ → s.supFlag 0 = true ∨ s.supFlag 2 = true →
    ∃ t, exec (.vloadRestored v ms_) s = .next t ∧ t.supFlag 0 = false ∧ t.supFlag 2 = false ∧ t.load.reverseOn = false ∧
      t.recs = if s.supFlag 0 then s.recs.push (mkEv 0x0A06 [(sat16 (s.msSince s.load.uvAt) : Nat)]) else s.recs) ∧
  (∀ (v : Int) (s : State),
    (s.supFlag 1 = false → v ≤ 8000 → exec (.loadDump v) s = .next s) ∧
    (s.supFlag 1 = false → 8000 < v → ∃ t, exec (.loadDump v) s = .next t ∧ t.supFlag 1 = true ∧ t.load.dump = (s.clock, v) ∧ t.recs = s.recs) ∧
    (s.supFlag 1 = true → 7600 ≤ v → ∃ t, exec (.loadDump v) s = .next t ∧ t.supFlag 1 = true ∧
      t.load.dump = (s.load.dump.1, max s.load.dump.2 v)) ∧
    (s.supFlag 1 = true → v < 7600 → ∃ t, exec (.loadDump v) s = .next t ∧ t.supFlag 1 = false ∧
      t.recs = s.recs.push (mkEv 0x0A07 [rdiv s.load.dump.2 10, (sat16 (s.msSince s.load.dump.1) : Nat)]))) ∧
  (∀ (v : Int) (us_ : Nat) (s : State), s.tablesOk = true → v < -500 → 100 ≤ us_ → s.supFlag 2 = false →
    ∃ t, exec (.reverseSupply v us_) s = .next t ∧ t.supFlag 2 = true ∧ t.load.reverseOn = s.power.vmain ∧
      t.recs = s.recs.push (mkEv 0x0A08 [rdiv v 10, b2n s.power.vmain]) ∧ ∀ n < 24, (t.chan n).on = s.power.vmain) ∧
  (∀ (o : Int) (us_ : Nat) (s : State), s.tablesOk = true → 3000 < o.natAbs → 1000 ≤ us_ → s.supFlag 3 = false → s.load.reverseOn = false →
    ∃ t, exec (.loadGroundLost o us_) s = .next t ∧ t.supFlag 3 = true ∧ t.recs = s.recs.push (mkEv 0x0A09 [rdiv o 100]) ∧
      ∀ n < 24, (t.chan n).on = false) ∧
  (∀ (o : Int) (ms_ : Nat) (s : State), o.natAbs ≤ 1000 → 10 ≤ ms_ → s.supFlag 3 = true →
    ∃ t, exec (.loadGroundRestored o ms_) s = .next t ∧ t.supFlag 3 = false ∧
      t.recs = s.recs.push (mkEv 0x0A0A [(sat16 (s.msSince s.load.gndAt) : Nat)])) ∧
  (∀ (m : Nat) (s : State),
    (4000 < m → s.supFlag 4 = false → ∃ t, exec (.totalOverload m) s = .next t ∧ t.supFlag 4 = true ∧ t.load.itot1s = satN 65535 m ∧
      t.recs = s.recs.push (mkEv 0x0A0B [(sat16 m : Nat), 0])) ∧
    (4000 < m → s.supFlag 4 = true → ∃ t, exec (.totalOverload m) s = .next t ∧ t.supFlag 4 = true ∧ t.recs = s.recs) ∧
    (∀ a, m ≤ 4000 → s.supFlag 4 = true → s.load.calmSince = some a → ∃ t, exec (.totalOverload m) s = .next t ∧
      t.load.overSince = none ∧ t.supFlag 4 = decide (s.clock < a + 1000000000))) ∧
  (∀ (m n a : Nat) (s : State), s.tablesOk = true → 4000 < m → s.load.overSince = some a → a + 1000000000 ≤ s.clock → s.supFlag 0 = false →
    (∀ b, s.load.shedAt = some b → b + 100 * 200000 ≤ s.clock) → s.load.reverseOn = false →
    n < 24 → (s.chan n).on = true → s.owned n = false → (∀ k, n < k → k < 24 → (s.chan k).on = false ∨ s.owned k = true) →
    ∃ t, exec (.loadShed m) s = .next t ∧ (t.chan n).oc = true ∧ (t.chan n).stage = 3 ∧ (t.chan n).on = false ∧
      t.load.shed = s.load.shed + 1 ∧ t.load.shedAt = some s.clock ∧ ∀ j, j ≠ n → t.chan j = s.chan j) ∧
  (∀ s : State, 10 ∈ s.recs.cfgPending → s.nvOk = true → ∃ t, exec .loadConfigSave s = .next t ∧ t.recs = { s.recs with
    cfgPending := s.recs.cfgPending.erase 10
    cfgLoad := s.load.cfg
    cfgSense := s.load.sense
    cfgGen := (s.recs.cfgGen + 1) % 2 ^ 32
    cfgValid := true })

/-- CAN_FRAME_RECEIVED on a live controller: a format the controller does not run is a protocol exception; else REC falls, and the frame
enters the FIFO of the first filter element that matches and stores, with its angle; a full FIFO counts it. PCS_STATUS_FRAME and
ALARM_FRAME bring a unit's and a source's figures; a stale unit and a lost source are told once, and a source that enters alarm asks for its
mapped action. CAN_TX_COMPLETE: none succeeds while the guard's frame
wins; success ends the frame in progress, lowers TEC and the next one begins; a failure raises it by 8, counts the attempt, and at
the limit counts the message as failed or, unacknowledged, enters ALONE; TEC above 255 is bus-off. ALONE_PROBE and ALONE_LEFT end ALONE on an
acknowledgement; BUS_OFF_RECOVERY rejoins after 1 s and 128 sequences. POP drops the head frame; CAN_TIMING_WRITE, CAN_DISABLE and
CAN_RECEIVE_ERROR have the effects of R400, R418, R403. A controller that is not live is left alone. -/
def Obligations.CanControllersFollowTheirRules : Prop :=
  (∀ (ch id result lec : Nat) (xtd fdf brs remote primary ack : Bool) (data : List Byte) (s : State), s.canLive ch = false →
    exec (.canFrameReceived ch xtd fdf brs remote id data) s = .next s ∧ exec (.aloneProbe ch result) s = .next s ∧
    exec (.canTxComplete ch false result) s = .next s ∧ exec (.aloneLeft ch ack) s = .next s ∧ exec (.canReceiveError ch lec primary) s = .next s) ∧
  (∀ (ch id : Nat) (xtd brs remote : Bool) (data : List Byte) (s : State), s.tablesOk = true → s.canLive ch = true → s.canFd ch = false →
    s.guardWins ch = false →
    ∃ t, exec (.canFrameReceived ch xtd true brs remote id data) s = .next t ∧
      t.ctrl ch = { s.ctrl ch with pxe := true, integrating := true } ∧ ∀ j, j ≠ ch → t.ctrl j = s.ctrl j) ∧
  (∀ (ch id : Nat) (xtd fdf brs : Bool) (data : List Byte) (s : State), s.tablesOk = true → s.canLive ch = true →
    (fdf = true → s.canFd ch = true) → (s.ctrl ch).rec_ ≤ 127 → (s.ctrl ch).estate = (s.ctrl ch).ofCounters → (s.ctrl ch).tec ≤ 127 →
    s.sys.run ≠ .running → s.guardWins ch = false →
    let f : Frame := ⟨xtd, fdf, brs, id, data⟩
    ∃ t, exec (.canFrameReceived ch xtd fdf brs false id data) s = .next t ∧ (t.ctrl ch).rec_ = (s.ctrl ch).rec_ - 1 ∧
      (∀ j, j ≠ ch → t.ctrl j = s.ctrl j) ∧
      (∀ k, s.filterFor? ch f = some k → bit (s.canReg (0x1004 + 0x1000 * ch + 8 * k)) 31 = true →
        ((s.ctrl ch).fifo.length < 128 → (t.ctrl ch).fifo = (s.ctrl ch).fifo ++ [⟨f, k, BitVec.ofNat 32 s.beam.angleWord⟩]) ∧
        (128 ≤ (s.ctrl ch).fifo.length → (t.ctrl ch).fifo = (s.ctrl ch).fifo ∧ (t.ctrl ch).ovr = true ∧
          (t.ctrl ch).rxLost = sat16 ((s.ctrl ch).rxLost + 1))) ∧
      (s.filterFor? ch f = none → (t.ctrl ch).fifo = (s.ctrl ch).fifo)) ∧
  (∀ (u vDc state count : Nat) (iDc : Int) (s : State), s.tablesOk = true → s.pcsEn = true → u < s.pcsUnits → s.canLive s.pcsCh = true →
    s.guardWins s.pcsCh = false →
    s.sys.run = .running → -(2 ^ 31) ≤ iDc → iDc < 2 ^ 31 → vDc < 65536 → state < 256 → count < 256 →
    ∃ t, exec (.pcsStatusFrame u iDc vDc state count) s = .next t ∧ (t.unit u).iDc = iDc ∧ (t.unit u).vDc = vDc ∧
      (t.unit u).state = BitVec.ofNat 8 state ∧ (t.unit u).count = some count ∧ (t.unit u).at_ = some s.clock ∧
      ((s.unit u).count ≠ some count → (t.unit u).stale = false) ∧ ((s.unit u).count = some count → (s.unit u).same = 2 → (t.unit u).stale = true) ∧
      ∀ j, j ≠ u → t.unit j = s.unit j) ∧
  (∀ (u : Nat) (s : State), s.tablesOk = true → s.pcsEn = true → u < s.pcsUnits → s.sys.run = .running →
    ((∃ a, (s.unit u).at_ = some a ∧ (s.unit u).stale = false ∧ a + (s.canStale u + 1) ≤ s.clock) ∨
      ((s.unit u).at_ = none ∧ (s.unit u).told = false ∧ s.can.pcsAt + s.canStale u ≤ s.clock)) →
    ∃ t, exec (.pcsUnitStale u) s = .next t ∧ t.unit u = { s.unit u with told := true, stale := true } ∧
      t.recs = s.recs.push (mkEv 0x0B07 [u]) ∧ ∀ j, j ≠ u → t.unit j = s.unit j) ∧
  (∀ (ch src state count : Nat) (m : List Nat) (s : State), s.tablesOk = true → s.canLive ch = true →
    tfind? s.guard.alarms (ch * 64 + src) = some m → src < 64 → state < 256 → count < 256 → s.sys.run = .running →
    s.guardWins ch = false →
    ∃ t, exec (.alarmFrame ch src state count) s = .next t ∧ (t.alarm (ch * 64 + src)).state = min 3 state ∧
      (t.alarm (ch * 64 + src)).count = some count ∧ (∀ j, j ≠ ch * 64 + src → t.alarm j = s.alarm j) ∧
      (2 ≤ state → (s.alarm (ch * 64 + src)).state < 2 → (s.alarm (ch * 64 + src)).silent = false → nth 0 m 0 ≤ 2 →
        t.guard.reqs = s.guard.reqs ++ [⟨nth 0 m 0, none, 0x060C, ([(ch : Int), (src : Int), ((nth 0 m 0 : Nat) : Int)] : List Int).map (ux 16), true, true, 3, false⟩]) ∧
      (state < 2 → t.guard = s.guard)) ∧
  (∀ (ch src a : Nat) (m : List Nat) (s : State), s.tablesOk = true → tfind? s.guard.alarms (ch * 64 + src) = some m → s.sys.run = .running →
    (s.alarm (ch * 64 + src)).silent = false → (s.alarm (ch * 64 + src)).at_ = some a → a + s.almLost ≤ s.clock →
    ∃ t, exec (.alarmSourceLost ch src) s = .next t ∧ t.alarm (ch * 64 + src) = { s.alarm (ch * 64 + src) with silent := true } ∧
      t.recs = s.recs.push (mkEv 0x0B0B [ch, src, 2]) ∧
      (2 ≤ (s.alarm (ch * 64 + src)).state → t.guard = s.guard) ∧
      ((s.alarm (ch * 64 + src)).state < 2 → nth 0 m 0 ≤ 2 →
        t.guard.reqs = s.guard.reqs ++ [⟨nth 0 m 0, none, 0x060C, ([(ch : Int), (src : Int), ((nth 0 m 0 : Nat) : Int)] : List Int).map (ux 16), true, true, 3, false⟩])) ∧
  (∀ (ch result : Nat) (s : State), s.guardWins ch = true → exec (.canTxComplete ch false 0) s = .next s ∧
    ((s.ctrl ch).onBus = none → exec (.canTxComplete ch false result) s = .next s)) ∧
  (∀ (ch p : Nat) (m : TxMsg) (s : State), s.tablesOk = true → s.sends ch = true → (s.ctrl ch).estate = (s.ctrl ch).ofCounters →
    (s.ctrl ch).tec ≤ 119 → (s.ctrl ch).rec_ ≤ 127 → (s.ctrl ch).onBus.isSome = true ∨ s.guardWaits ch = false →
    (s.ctrl ch).onBus.or (s.ctrl ch).next = some (.message p) → (s.ctrl ch).queue[p]? = some m →
    (s.guardWins ch = false → ∃ t, exec (.canTxComplete ch false 0) s = .next t ∧ t.ctrl ch = { s.ctrl ch with
      integrating := false
      tec := (s.ctrl ch).tec - 1
      queue := (s.ctrl ch).queue.eraseIdx p
      onBus := (t.ctrl ch).onBus
      busAt := (t.ctrl ch).busAt } ∧ (s.guardWaits ch = false → (t.ctrl ch).onBus = (t.ctrl ch).next) ∧ ∀ j, j ≠ ch → t.ctrl j = s.ctrl j) ∧
    (∀ code, 1 ≤ code → m.tries + 1 ≤ m.limit → ∃ t, exec (.canTxComplete ch false code) s = .next t ∧ t.ctrl ch = { s.ctrl ch with
      integrating := false
      lec := code
      tec := (s.ctrl ch).tec + 8
      queue := putNth (s.ctrl ch).queue p { m with tries := m.tries + 1 }
      onBus := (t.ctrl ch).onBus
      busAt := (t.ctrl ch).busAt }) ∧
    (∀ code, 1 ≤ code → code ≠ 3 → m.limit < m.tries + 1 → ∃ t, exec (.canTxComplete ch false code) s = .next t ∧
      (t.ctrl ch).failed = (s.ctrl ch).failed + 1 ∧ (t.ctrl ch).queue = headFirst ((s.ctrl ch).queue.eraseIdx p) ∧ t.recs = s.recs) ∧
    (m.limit < m.tries + 1 → ∃ t, exec (.canTxComplete ch false 3) s = .next t ∧ (t.ctrl ch).estate = 3 ∧
      (t.ctrl ch).noAck = sat16 ((s.ctrl ch).noAck + 1) ∧ (t.ctrl ch).probeAt = some s.clock ∧ (t.ctrl ch).onBus = none ∧
      t.recs = s.recs.push (mkEv 0x0B04 [ch, (m.frame.id % 65536 : Nat)]))) ∧
  (∀ (ch i code : Nat) (renewed : Bool) (s : State), s.tablesOk = true → s.sends ch = true → (s.ctrl ch).estate = 1 →
    248 ≤ (s.ctrl ch).tec → (s.ctrl ch).tec ≤ 255 → (s.ctrl ch).onBus = some (.buffer i renewed) → 1 ≤ code → code ≠ 3 →
    ∃ t, exec (.canTxComplete ch false code) s = .next t ∧ (t.ctrl ch).estate = 2 ∧ (t.ctrl ch).offAt = some s.clock ∧
      (t.ctrl ch).busOffs = sat16 ((s.ctrl ch).busOffs + 1) ∧ (t.ctrl ch).onBus = none ∧ (t.ctrl ch).ded = (s.ctrl ch).ded ∧
      t.recs = s.recs.push (mkEv 0x0B02 [ch, code])) ∧
  (∀ (ch : Nat) (s : State), s.tablesOk = true → s.guardOn ch = true → s.analogue = true → s.can.guardTx.isSome = true →
    ∃ t, exec (.canTxComplete ch true 0) s = .next t ∧ t.can.guardTx = none ∧ t.can.guardTec = s.can.guardTec - 1 ∧
      (s.sends ch = true → (t.ctrl ch).onBus = (s.ctrl ch).next) ∧ ∀ j, j ≠ ch → t.ctrl j = s.ctrl j) ∧
  (∀ (ch a : Nat) (s : State), s.tablesOk = true → s.canLive ch = true → (s.ctrl ch).estate = 3 → (s.ctrl ch).queue ≠ [] →
    s.canListen ch = false → (s.ctrl ch).probeAt = some a → a + 100 * 200000 ≤ s.clock →
    (∃ t, exec (.aloneProbe ch 0) s = .next t ∧ (t.ctrl ch).estate = { s.ctrl ch with tec := (s.ctrl ch).tec - 1 }.ofCounters ∧
      (t.ctrl ch).queue = (s.ctrl ch).queue.drop 1 ∧ t.recs = s.recs.push (mkEv 0x0B05 [ch, (sat16 ((s.ctrl ch).probes + 1) : Nat)])) ∧
    (∀ code, 1 ≤ code → (s.ctrl ch).tec ≤ 119 → ∃ t, exec (.aloneProbe ch code) s = .next t ∧ (t.ctrl ch).estate = 3 ∧
      (t.ctrl ch).probes = (s.ctrl ch).probes + 1 ∧ (t.ctrl ch).queue = (s.ctrl ch).queue ∧ t.recs = s.recs)) ∧
  (∀ (ch : Nat) (s : State), s.tablesOk = true → s.canLive ch = true → (s.ctrl ch).estate = 3 →
    ∃ t, exec (.aloneLeft ch false) s = .next t ∧ (t.ctrl ch).estate = (s.ctrl ch).ofCounters ∧ (t.ctrl ch).queue = (s.ctrl ch).queue ∧
      t.recs = s.recs.push (mkEv 0x0B05 [ch, (sat16 (s.ctrl ch).probes : Nat)])) ∧
  (∀ (ch q a : Nat) (s : State), s.tablesOk = true → ch < 8 → s.canEn ch = true → (s.ctrl ch).estate = 2 → bit (s.canCfg ch) 2 = true →
    (s.ctrl ch).offAt = some a → a + 200000000 ≤ s.clock →
    (q < 128 → exec (.busOffRecovery ch q) s = .next s) ∧
    (128 ≤ q → ∃ t, exec (.busOffRecovery ch q) s = .next t ∧ (t.ctrl ch).estate = 0 ∧ (t.ctrl ch).tec = 0 ∧ (t.ctrl ch).rec_ = 0 ∧
      (t.ctrl ch).queue = (s.ctrl ch).queue ∧ t.recs = s.recs.push (mkEv 0x0B03 [ch, (sat16 (s.msSince a) : Nat)]))) ∧
  (∀ (ch : Nat) (s : State), s.tablesOk = true → ch < 8 → ∃ t, exec (.pop ch) s = .next t ∧
    t.ctrl ch = { s.ctrl ch with fifo := (s.ctrl ch).fifo.drop 1, ovr := false } ∧ ∀ j, j ≠ ch → t.ctrl j = s.ctrl j) ∧
  (∀ (ch : Nat) (s : State), s.tablesOk = true → ch < 8 → s.canEn ch = true → (s.ctrl ch).estate < 2 →
    ∀ r, (s.ctrl ch).retime = some r →
      ((s.ctrl ch).onBus.isSome = true → (s.ctrl ch).busAt < r → exec (.canTimingWrite ch) s = .next s) ∧
      ((s.ctrl ch).onBus = none ∨ r ≤ (s.ctrl ch).busAt → ∃ t, exec (.canTimingWrite ch) s = .next t ∧
        t.ctrl ch = { s.ctrl ch with retime := none, tec := 0, rec_ := 0, estate := 0, integrating := true })) ∧
  (∀ (ch : Nat) (s : State), s.tablesOk = true → ch < 8 → s.canEn ch = true → ∃ t, exec (.canDisable ch) s = .next t ∧
    t.ctrl ch = { s.ctrl ch with queue := [], ded := [], onBus := none, fifo := [], retime := none } ∧ ∀ j, j ≠ ch → t.ctrl j = s.ctrl j) ∧
  (∀ (ch lec : Nat) (primary : Bool) (s : State), s.tablesOk = true → s.canLive ch = true → (s.ctrl ch).estate = 0 → (s.ctrl ch).tec ≤ 127 →
    (s.ctrl ch).rec_ + (if primary then 8 else 1) ≤ 127 →
    ∃ t, exec (.canReceiveError ch lec primary) s = .next t ∧ t.ctrl ch = { s.ctrl ch with
      lec := lec
      rec_ := (s.ctrl ch).rec_ + (if primary then 8 else 1)
      onBus := (t.ctrl ch).onBus
      busAt := (t.ctrl ch).busAt } ∧ ∀ j, j ≠ ch → t.ctrl j = s.ctrl j)

/-- LOG_STATE, READ_COUNTERS and UPDATE_STATE answer their records. READ_LOG delivers whole records from ARG to the newest, and keeps a
cursor at the first that does not fit; READ_RECENT answers up to 7; a position that has left the log is SEQ_GONE with OLDEST; a record
of flash that fails its CRC comes with CODE 0xFFFF and is reported once. SET_SEVERITY stores its values. BEGIN opens a reception and
marks the area; WRITE_BLOCK stores a block that passes its checks, and the last one completes the reception, or answers IMAGE_INVALID
with its event; VERIFY puts the image in its place, or discards the reception where the digest differs; in RECOVERY the slot is selected
as committed. SCHEDULE and ROLLBACK set the gate and enable M15, CANCEL ends it, COMMIT commits the running slot. NODE_UPDATE broadcasts
the payload twice, then activates the first node of the image's type. -/
def Obligations.LogAndUpdateRequestsComplete : Prop :=
  (∀ (rq : Rq) (s : State), s.takes (.logState rq) = true →
    s.replies (.logState rq) rq 0x0C00 16 [(0, 4, s.recs.oldest), (4, 4, s.recs.newest), (8, 8, 0)]) ∧
  (∀ (rq : Rq) (b : Bulk) (s : State), s.bulkStarts (.readLog rq b [] none) rq b none → b.port = 255 → b.string = 65535 →
    seqOlder b.arg s.recs.oldest = false →
    let all := s.recs.fromSeq b.arg
    let n := b.len / 32
    ∃ (t : State) (r : Resp), exec (.readLog rq b [] none) s = .next t ∧ t.recs = s.recs ∧
      (t.page rq.tenant).waiting = (s.page rq.tenant).waiting ++ [r] ∧ r.rq = rq ∧ r.status = 0 ∧
      r.bulk = (all.take n).flatMap Rec.bytes ∧ r.more = decide (n < all.length) ∧
      r.payload = bulkBlock (if n < all.length then s.sys.nextCursor else 0) 0 (32 * min n all.length) (min n all.length) (all.length - n) ∧
      t.sys.cursors = s.sys.cursors ++ ((all.drop n).head?.map (fun e =>
        (⟨s.sys.nextCursor, rq.tenant, 0x0C01, (b.port, b.string, b.arg), none, [], e.seq, [], s.clock⟩ : Cursor))).toList) ∧
  (∀ (rq : Rq) (first count : Nat) (s : State), s.takes (.readRecent rq first count []) = true → 1 ≤ count → count ≤ 7 →
    (seqOlder first s.recs.oldest = false → exec (.readRecent rq first count []) s =
      .next (s.ok rq 0x0C02 (((s.recs.fromSeq first).take count).flatMap Rec.bytes))) ∧
    (seqOlder first s.recs.oldest = true → exec (.readRecent rq first count []) s =
      .next (s.refuse rq 0x0C02 ⟨0x0C01, 0, s.recs.oldest⟩))) ∧
  (∀ (rq : Rq) (first count : Nat) (e : Rec) (l : List Byte) (s : State), s.takes (.readRecent rq first count [(e.seq, l)]) = true →
    1 ≤ count → count ≤ 7 → seqOlder first s.recs.oldest = false → (s.recs.fromSeq first).take count = [e] →
    (∀ x ∈ s.recs.tail, x.seq ≠ e.seq) →
    ∃ t : State, exec (.readRecent rq first count [(e.seq, l)]) s =
        .next (t.ok rq 0x0C02 ((padTo 32 0 l).take 4 ++ le 2 0xFFFF ++ (padTo 32 0 l).drop 6)) ∧
      (e.seq ∉ s.recs.corrupt → t.recs = { s.recs with corrupt := insN e.seq s.recs.corrupt }.push
        (mkEv 0x0C0A [(e.seq % 65536 : Nat), (e.seq / 65536 : Nat)])) ∧
      (e.seq ∈ s.recs.corrupt → t = s)) ∧
  (∀ (rq : Rq) (wake note : Nat) (s : State), s.takes (.setSeverity rq wake note) = true → s.nvOk = true →
    (wake < 8 → note < 8 → ∃ t : State, exec (.setSeverity rq wake note) s = .next (t.okNv rq 0x0C03) ∧
      t.sys.conf = { s.sys.conf with sev := (wake, note) } ∧ t.recs = s.recs) ∧
    (8 ≤ wake → exec (.setSeverity rq wake note) s = .next (s.refuse rq 0x0C03 ⟨0x0013, 0, 0⟩)) ∧
    (wake < 8 → 8 ≤ note → exec (.setSeverity rq wake note) s = .next (s.refuse rq 0x0C03 ⟨0x0013, 1, 0⟩))) ∧
  (∀ (rq : Rq) (port string : Nat) (s : State), s.takes (.readCounters rq port string) = true → s.someString port string = true →
    let bank := decide (port = 255 ∧ string = 65535)
    let n := if bank then 8 else 5
    ∃ p, exec (.readCounters rq port string) s = .next (s.ok rq 0x0C04 p) ∧ p.length = 2 + 10 * n ∧ rdle p 0 2 = n ∧
      ∀ i < n, ∀ d < 5, rdle p (2 + 10 * i + 2 * d) 2 =
        (nth 0 (tget cnt0 s.recs.counters (cntKey (if bank then 1 else 2) (if bank then 0 else strKey port string) i)) d).toNat) ∧
  (∀ (rq : Rq) (s : State), s.takes (.updateState rq) = true →
    let i := s.upd.inactive.getD ⟨0, 0⟩
    s.replies (.updateState rq) rq 0x0D00 32
      [(0, 4, s.upd.active.id), (4, 4, s.upd.active.ver), (8, 4, i.id), (12, 4, i.ver), (16, 1, uCode s.upd.ustate),
       (17, 1, s.sys.bootFails), (18, 2, 0), (20, 8, if s.upd.ustate = .scheduled then (s.upd.actWall.toNat : Int) else -1),
       (28, 4, s.upd.nodeId)]) ∧
  (∀ (rq : Rq) (target id len : Nat) (s : State), s.takes (.begin rq target id len) = true → target < 2 → s.nvOk = true →
    let c := Instr.begin rq target id len
    let u := s.upd
    let slot := if target = 1 then 2 else if u.slotB then 0 else 1
    (u.ustate = .scheduled → exec c s = .next (s.refuse rq 0x0D01 ⟨0x0D04, 0, s.beam.actGate.toNat % 2 ^ 32⟩)) ∧
    (u.ustate = .uncommitted → target = 0 → exec c s = .next (s.refuse rq 0x0D01 ⟨0x0015, 0x0D06, 0⟩)) ∧
    (u.ustate ≠ .scheduled → target = 1 → u.node.isSome = true → exec c s = .next (s.refuse rq 0x0D01 ⟨0x0015, 0x0D08, 0⟩)) ∧
    (u.ustate ≠ .scheduled → u.ustate ≠ .uncommitted ∨ target = 1 → target = 0 ∨ u.node = none →
      (lengthOk target len = false → exec c s = .next (s.refuse rq 0x0D01 ⟨0x0013, 8, 0⟩)) ∧
      (lengthOk target len = true → ∃ t : State, exec c s = .next (t.okNv rq 0x0D01) ∧ t.upd.begun = some (target, id, len) ∧
        t.upd.blocks = [] ∧ (target = 0 → t.upd.ustate = .receiving ∧ t.upd.inactive = none ∧ t.upd.nodeId = u.nodeId) ∧
        (target = 1 → t.upd.nodeId = 0 ∧ t.upd.inactive = u.inactive) ∧ t.upd.active = u.active ∧
        t.recs.markers = s.recs.markers.filter (fun k => decide (k.1 ≠ 4)) ++ [(4, slot)]))) ∧
  (∀ (off : Nat) (l : List Byte) (s : State),
    (s.upd.begun = none → s.blockFault off l =
      if off % 4096 ≠ 0 then 1 else if off ≠ 0 then 4 else if s.sys.run = .recovery ∧ signatureGood l = false then 3 else 5) ∧
    (∀ target id len, s.upd.begun = some (target, id, len) →
      (off % 4096 ≠ 0 ∨ len ≤ off → s.blockFault off l = 1) ∧
      (off % 4096 = 0 → off < len → ∀ old, tfind? s.upd.blocks off = some old → s.blockFault off l = if old = l then 0 else 1) ∧
      (off % 4096 = 0 → off < len → tfind? s.upd.blocks off = none →
        (tfind? s.upd.blocks 0 = none → off ≠ 0 → s.blockFault off l = 4) ∧
        (off = 0 → (s.blockFault off l = 3 ↔ signatureGood l = false)) ∧
        (∀ h, tfind? s.upd.blocks 0 = some h → s.blockFault off l = if blockGood (h.take 96) off l = true then 0 else 2)))) ∧
  (∀ (rq : Rq) (b : Bulk) (data : List Byte) (s : State), s.bulkStarts (.writeBlock rq b data none) rq b none → b.len = 4096 →
    b.port = 255 → b.string = 65535 → (rq.eth = true → 4096 ≤ data.length) →
    let c := Instr.writeBlock rq b data none
    let l := (s.hostStores rq b data).bulkSource rq b data 4096
    (∀ target id len, s.upd.begun = some (target, id, len) → s.blockFault b.arg l = 0 → ∃ (t : State) (r : Resp), exec c s = .next t ∧
      t.upd.blocks = tput s.upd.blocks b.arg l ∧ t.upd.begun = s.upd.begun ∧ t.sys.cursors = s.sys.cursors ∧
      (t.page rq.tenant).waiting = (s.page rq.tenant).waiting ++ [r] ∧ r.rq = rq ∧ r.status = 0 ∧ r.payload = bulkBlock 0 0 4096 0 0 ∧
      ((tput s.upd.blocks b.arg l).length * 4096 < len → t.upd.ustate = s.upd.ustate ∧ t.recs = s.recs) ∧
      (len ≤ (tput s.upd.blocks b.arg l).length * 4096 → tfind? s.upd.blocks b.arg = none →
        t.upd.ustate = (if target = 0 then .complete else s.upd.ustate) ∧
        t.recs = { s.recs with markers := s.recs.markers.filter (fun k => decide (k.1 ≠ 4)) }.push
          (mkEv 0x0D01 [target, (id % 65536 : Nat), (id / 65536 : Nat)]))) ∧
    (∀ d, d ≠ 0 → s.blockFault b.arg l = d → ∃ t : State, exec c s = .next t ∧ t.upd = s.upd ∧
      t.recs = s.recs.push (mkEv 0x0D03 [s.upd.target, d, (b.arg / 4096 % 65536 : Nat)]) ∧
      (t.page rq.tenant).waiting = (s.page rq.tenant).waiting ++ [answer rq 0x0D02 ⟨0x0D01, d, b.arg⟩ false])) ∧
  (∀ (rq : Rq) (s : State), s.takes (.verify rq) = true → s.nvOk = true →
    let u := s.upd
    let id := rdle u.header 8 4
    let v := rdle u.header 0xC 4
    (u.begun = none → ∃ t : State, exec (.verify rq) s = .next (t.refuse rq 0x0D03 ⟨0x0D01, 4, 0⟩) ∧ t.upd = u) ∧
    (∀ target i len, u.begun = some (target, i, len) →
      (u.blocks.length * 4096 < len → ∃ t : State, exec (.verify rq) s = .next (t.refuse rq 0x0D03 ⟨0x0D01, 4, 0⟩) ∧ t.upd = u ∧
        t.recs = s.recs.push (mkEv 0x0D03 [target, 4, 0])) ∧
      (len ≤ u.blocks.length * 4096 → ∃ t : State,
        (if sha384 u.payload = (u.header.drop 0x30).take 48 then
          exec (.verify rq) s = .next (t.okNv rq 0x0D03) ∧ t.upd.begun = none ∧ t.upd.blocks = [] ∧
          (target = 1 → t.upd.nodeId = id ∧ t.upd.nodeVer = (v, rdle u.header 0x28 1) ∧ t.upd.nodeBytes = u.payload ∧
            t.upd.ustate = u.ustate) ∧
          (target ≠ 1 → t.upd.inactive = some ⟨id, v⟩ ∧ t.upd.ustate = .verified) ∧ t.upd.active = u.active ∧
          t.recs = s.recs.push (mkEv 0x0D02 [target, (id % 65536 : Nat), (v % 256 : Nat), (v / 256 % 256 : Nat)])
        else
          exec (.verify rq) s = .next t ∧ t.upd = { u with
            begun := none
            blocks := []
            ustate := if target = 0 then .empty else u.ustate } ∧ t.recs = s.recs.push (mkEv 0x0D03 [target, 3, 0]) ∧
          (s.tablesOk = true → s.sys.d3 = false →
            (t.page rq.tenant).waiting = (s.page rq.tenant).waiting ++ [answer rq 0x0D03 ⟨0x0D01, 3, 0⟩ false]))))) ∧
  (∀ (rq : Rq) (s : State), s.sys.run = .recovery → s.sys.shut = false → rq.tenant = 0 → s.mayStart rq = true → s.nvOk = true →
    ∃ t : State, exec (.verify rq) s = .next t ∧
      (if s.upd.verifyFault = 0 then
        t.upd.slotB = decide (s.upd.romSlot = 1) ∧ t.upd.active = ⟨rdle s.upd.header 8 4, rdle s.upd.header 0xC 4⟩ ∧
        t.upd.uncommitted = false ∧ t.sys.bootFails = 0 ∧ (s.sys.recovPin = false → t.sys.run = .rom ∧ t.power.stage = 2) ∧
        (s.sys.recovPin = true → t.sys.run = .recovery ∧ t.upd.ready = true)
      else t.upd.slotB = s.upd.slotB ∧ t.upd.active = s.upd.active ∧ t.sys.run = .recovery ∧ t.sys.bootFails = s.sys.bootFails ∧
        t.power = s.power)) ∧
  (∀ (rq : Rq) (w : Nat) (back : Bool) (s : State),
    let c : Instr := if back then .rollback rq w else .schedule rq w
    let op := if back then 0x0D07 else 0x0D04
    let may := if back then decide (s.upd.ustate = .uncommitted) else decide (s.upd.ustate = .verified ∨ s.upd.ustate = .scheduled)
    let now := s.wall.toNat
    s.tablesOk = true → s.takes c = true → s.nvOk = true →
    (may = false → exec c s = .next (s.refuse rq op ⟨if back then 0x0D03 else 0x0D02, 0, 0⟩)) ∧
    (may = true → s.sys.ptpLock = false → exec c s = .next (s.refuse rq op ⟨0x0016, 2, 0⟩)) ∧
    (may = true → s.sys.ptpLock = true → w < now + 10 * 1000000000 ∨ now + 30 * 86400 * 1000000000 < w →
      exec c s = .next (s.refuse rq op ⟨0x0013, 0, 0⟩)) ∧
    (may = true → s.sys.ptpLock = true → now + 10 * 1000000000 ≤ w → w ≤ now + 30 * 86400 * 1000000000 → ∃ t : State,
      exec c s = .next (t.okNv rq op) ∧ t.upd = { s.upd with
        ustate := .scheduled
        rollback := back || s.upd.rollback
        actWall := BitVec.ofNat 64 w
        actAt := s.clock + (w - now) / 5 } ∧ t.beam.actGate = BitVec.ofNat 64 w ∧ (t.mark 15).en = true ∧
      (∀ j, j ≠ 15 → t.mark j = s.mark j) ∧
      t.recs = s.recs.push (mkEv 0x0D04 [if back || s.upd.rollback then 2 else 1, (w / 1000000000 % 65536 : Nat)]))) ∧
  (∀ (rq : Rq) (s : State), s.tablesOk = true → s.takes (.cancel rq) = true →
    (s.upd.ustate ≠ .scheduled → exec (.cancel rq) s = .next (s.ok rq 0x0D05 [])) ∧
    (s.upd.ustate = .scheduled → ∃ t : State, exec (.cancel rq) s = .next (t.ok rq 0x0D05 []) ∧
      t.mark 15 = { s.mark 15 with en := false } ∧ t.upd = { s.upd with
        ustate := if s.upd.rollback then .uncommitted else .verified
        rollback := false } ∧ t.recs = s.recs.push (mkEv 0x0D05 [1]))) ∧
  (∀ (rq : Rq) (s : State), s.takes (.commit rq) = true → s.nvOk = true →
    let v := s.upd.active.ver
    (s.upd.ustate = .scheduled → exec (.commit rq) s = .next (s.refuse rq 0x0D06 ⟨0x0D04, 0, s.beam.actGate.toNat % 2 ^ 32⟩)) ∧
    (s.upd.ustate ≠ .scheduled → s.upd.ustate ≠ .uncommitted → exec (.commit rq) s = .next (s.okNv rq 0x0D06)) ∧
    (s.upd.ustate = .uncommitted → ∃ t : State, exec (.commit rq) s = .next (t.okNv rq 0x0D06) ∧ t.upd = { s.upd with
      uncommitted := false
      ustate := .empty
      snap := none } ∧
      t.recs = s.recs.push (mkEv 0x0D08 [(v % 256 : Nat), (v / 256 % 256 : Nat), (v / 65536 % 256 : Nat)]))) ∧
  (∀ (rq : Rq) (port : Nat) (s : State), s.tablesOk = true → s.takes (.nodeUpdate rq port) = true → port < 128 →
    let c := Instr.nodeUpdate rq port
    let frames := fwBlocks s.upd.nodeBytes
    let cmd (dst : Nat) (op : LinkOp) : LinkCmd := ⟨dst, op, 0, false, false, 0, 0, none, false, none⟩
    ((s.ring port).state ≠ .service → exec c s = .next (s.refuse rq 0x0D08 ⟨0x0802, 0, ringCode (s.ring port).state⟩)) ∧
    ((s.ring port).state = .service → s.upd.nodeId = 0 → exec c s = .next (s.refuse rq 0x0D08 ⟨0x0D02, 0, 0⟩)) ∧
    ((s.ring port).state = .service → s.upd.nodeId ≠ 0 → s.upd.ustate = .scheduled → exec c s =
      .next (s.refuse rq 0x0D08 ⟨0x0D04, 0, s.beam.actGate.toNat % 2 ^ 32⟩)) ∧
    ((s.ring port).state = .service → s.upd.nodeId ≠ 0 → s.upd.ustate ≠ .scheduled →
      (s.upd.node.isSome = true → exec c s = .next (s.refuse rq 0x0D08 ⟨0x0015, 0x0D08, 0⟩)) ∧
      (∀ pos rest, s.upd.node = none → s.nodeTargets port = pos :: rest → ∃ t : State, exec c s = .next (t.ok rq 0x0D08 []) ∧
        t.upd = { s.upd with node := some ⟨port, pos :: rest, 0, false, none, false⟩ } ∧
        t.recs = s.recs.push (mkEv 0x0D0C [port, (rest.length + 1 : Nat)]) ∧
        (t.ring port).queue = (s.ring port).queue ++ (frames ++ frames).map (cmd 0xFFFF) ++
          [cmd pos (.fwActivate (BitVec.ofNat 32 (crc32c s.upd.nodeBytes)))] ∧ ∀ j, j ≠ port → t.ring j = s.ring j)))
/-- EVENT_TAIL_WRITE moves the head of the queue into the tail: it merges into the open record it equals, or becomes a record with the
next number, notified and a wake cause by its severity. LOG_PAGE_PROGRAM programs 128 closed records, erasing the oldest block of a full
region. FLASH_BLOCK_RETIRED takes a spare, or marks the region failed once. OPERATING_TIME_COUNT adds 1 to the counter, which saturates.
HOLDUP: with the flush armed the guard acts with cause 0x0C01 and the power-fail record is queued; not armed, the module resets and
keeps what MRAM and flash hold. FLUSH_COMPLETE leaves the flush-complete marker and the markers of writes in progress, and resets.
ACTIVATION_MARK: M15 fires, dispatch is held, requests are answered, the slot is swapped and the Reckoner restarts; a mark that has not
fired 24 h later, on the module's own clock (log entry 127), is cancelled. NEW_FIRMWARE_START migrates the store of an uncommitted slot
and, past start-up, takes a restored store, its tables at the next M3, and resumes. NODE_RETURN_TIMEOUT
ends a node update. -/
def Obligations.RecordsAndSwapsFollowTheirRules : Prop :=
  (∀ (e : Rec) (v : Ev) (rest : List Ev) (s : State), s.recs.queue = v :: rest → s.tailRoom = true →
    s.sys.run = .running ∨ s.sys.run = .recovery → s.recs.tail.getLast? = some e → e.closed = false → e.ev = v → e.rep < 65534 →
    exec .eventTailWrite s = .next { s with recs := { s.recs with
      queue := rest
      queueAt := s.recs.queueAt.drop 1
      tail := s.recs.tail.dropLast ++ [{ e with rep := e.rep + 1 }] } }) ∧
  (∀ (v : Ev) (rest : List Ev) (s : State), s.tablesOk = true → s.recs.queue = v :: rest → s.tailRoom = true → s.sys.run = .running →
    (∀ e, s.recs.tail.getLast? = some e → e.closed = true) → (s.page 0).notes.length < 256 →
    let at_ := (s.recs.queueAt.head?).getD s.recs.stamp
    let r : Rec := ⟨s.recs.nextSeq, v, at_.1, at_.2, 0, false⟩
    ∃ t, exec .eventTailWrite s = .next t ∧ t.recs = { s.recs with
      queue := rest
      queueAt := s.recs.queueAt.drop 1
      tail := (s.recs.tail ++ [r]).drop (s.recs.tail.length + 1 - 256)
      nextSeq := if 0xFFFFFFFF ≤ s.recs.nextSeq then 1 else s.recs.nextSeq + 1 } ∧
      (s.recs.notifySev ≤ severity v.code → (t.page 0).notes = (s.page 0).notes ++
        [⟨0x0CF0, ⟨0, 0, (s.page 0).epoch, 0, false, 0⟩, 0, 0, 0, r.bytes, [], false, true, false⟩]) ∧
      (severity v.code < s.recs.notifySev → t.sys.pages = s.sys.pages) ∧
      (s.recs.wakeSev ≤ severity v.code → bit t.sys.wakeCause 3 = true)) ∧
  (∀ s : State, 128 ≤ (s.recs.unprogrammed.filter Rec.closed).length → s.sys.holdup = false →
    let page := (s.recs.unprogrammed.filter Rec.closed).take 128
    exec .logPageProgram s = .next { s with recs := { s.recs with
      flash := (if s.recs.flash.length + 128 ≤ 1056768 then s.recs.flash else s.recs.flash.drop 8192) ++ page } }) ∧
  (∀ (region block : Nat) (s : State),
    (0 < s.recs.spare → ∃ t, exec (.flashBlockRetired region block) s = .next t ∧ t = { s with recs := t.recs } ∧
      t.recs = { s.recs with spare := s.recs.spare - 1 }.push
        (mkEv 0x0C07 [region, (block % 65536 : Nat), (min 65535 (s.recs.spare - 1) : Nat)])) ∧
    (s.recs.spare = 0 → region ∈ s.recs.nvFailed → exec (.flashBlockRetired region block) s = .next s) ∧
    (s.recs.spare = 0 → region ∉ s.recs.nvFailed → ∃ t, exec (.flashBlockRetired region block) s = .next t ∧
      t.recs = { s.recs with nvFailed := insN region s.recs.nvFailed }.push (mkEv 0x0C09 [region]))) ∧
  (∀ s : State, s.tablesOk = true → s.power.vmain = true → s.sys.holdup = false → (tget cnt0 s.recs.counters (cntKey 0 0 0)).length = 5 →
    ∃ t, exec .operatingTimeCount s = .next t ∧ t = { s with recs := { s.recs with counters := t.recs.counters } } ∧
      cntValue (tget cnt0 t.recs.counters (cntKey 0 0 0)) =
        min (8192 ^ 5 - 1) (cntValue (tget cnt0 s.recs.counters (cntKey 0 0 0)) + 1) ∧
      ∀ k, k ≠ cntKey 0 0 0 → tget cnt0 t.recs.counters k = tget cnt0 s.recs.counters k) ∧
  (∀ (v us_ : Nat) (s : State), s.power.pwrgd = true → s.power.vmain = true → s.sys.holdup = false → v < 300 → 200 ≤ us_ →
    (s.power.armed = true → ∃ t, exec (.holdup v us_) s = .next t ∧ t.sys.holdup = true ∧ t.power = { s.power with vmain := false } ∧
      t.load.reverseOn = false ∧ mkEv 0x0C01 [t.guard.tripId, v] ∈ t.recs.queue ∧
      (∀ e, t.recs.tail.getLast? = some e → e.closed = true) ∧
      (s.guard.failed = false → t.guard.tripped = true ∧ t.guard.connected = false ∧
        t.guard.tripId = (if s.guard.hwPending ∨ s.guard.idAt = some s.clock then s.guard.tripId else nextTripId s.guard.tripId) ∧
        t.guard.tripCause = if s.guard.tripped then s.guard.tripCause else 0x0C01)) ∧
    (s.power.armed = false → ∃ t, exec (.holdup v us_) s = .next t ∧ t.power.pwrgd = false ∧ t.power.stage = 0 ∧ t.sys.run = .rom ∧
      t.sys.mode = .off ∧ t.rings = [] ∧ t.nodes = s.nodes ∧ t.recs.queue = [] ∧ t.recs.tail = s.recs.tail ∧
      t.recs.flash = s.recs.flash ∧ t.recs.counters = s.recs.counters ∧ t.recs.flushed = s.recs.flushed ∧
      t.guard.tripped = (s.guard.failed || (s.guard.tripped && decide (s.guard.tripCause ≠ 0x0C01))) ∧
      (s.guard.failed = true → t.guard.tripCause = 0x060D) ∧ t.guard.tripId = s.guard.tripId ∧
      t.guard.weld = s.guard.weld)) ∧
  (∀ (busy : List (Nat × Nat)) (s : State), s.sys.holdup = true → ∃ t, exec (.flushComplete busy) s = .next t ∧
    t.recs.flushed = true ∧ t.recs.queue = [] ∧ t.recs.fractions = [] ∧ t.recs.lseq = (s.recs.lseq + 1) % 2 ^ 32 ∧
    t.recs.markers = s.recs.markers ++ busy.filter (fun m => !s.recs.markers.contains m) ∧ t.recs.flash = s.recs.flash ∧
    t.power.pwrgd = false ∧ t.sys.holdup = false ∧ t.sys.run = .rom ∧ t.sys.mode = .off ∧ t.nodes = s.nodes) ∧
  (∀ s : State, s.tablesOk = true → (s.mark 15).en = true → s.beam.cycWall ≠ BitVec.allOnes 64 →
    s.beam.actGate.toNat ≤ s.beam.cycWall.toNat → s.beam.atZero = true →
    (∀ i < 15, (s.mark i).due s.clock s.beam.angleWord = false) → s.upd.ustate = .scheduled → s.sys.run = .running →
    let back := s.upd.rollback
    ∃ t, exec .activationMark s = .next t ∧ t.mark 15 = { s.mark 15 with
        en := false
        done := true
        fires := (s.mark 15).fires + 1 } ∧
      t.sys.run = .restarting ∧ t.sys.mode = s.sys.mode ∧ t.sys.held = [] ∧ t.sys.exchange = none ∧ t.sys.cursors = [] ∧
      t.disp.held = some 0 ∧ t.guard.beatMs = 5000 ∧ t.guard.beatAt = some s.clock ∧ t.sched.suspended = true ∧
      t.upd.slotB = !s.upd.slotB ∧ t.upd.active = s.upd.inactive.getD ⟨0, 0⟩ ∧ t.upd.inactive = some s.upd.active ∧
      t.upd.uncommitted = !back ∧ t.upd.ustate = (if back then .verified else .uncommitted) ∧ t.upd.rollback = false ∧
      t.upd.oldVer = s.upd.active.ver ∧ t.upd.swap = (if back then 2 else 1) ∧ t.upd.handAt = none ∧ t.upd.node = none) ∧
  (∀ s : State, s.beam.cycWall = BitVec.allOnes 64 ∨ s.beam.cycWall.toNat < s.beam.actGate.toNat ∨ s.beam.atZero = false ∨
      (∃ i < 15, (s.mark i).due s.clock s.beam.angleWord = true) →
    exec .activationMark s = .next s) ∧
  (∀ s : State, s.tablesOk = true → s.upd.ustate = .scheduled → s.upd.actAt + 86400 * 200000000 ≤ s.clock →
    ∃ t, exec .activationExpiry s = .next t ∧ t.mark 15 = { s.mark 15 with en := false } ∧ t.upd = { s.upd with
      ustate := if s.upd.rollback then .uncommitted else .verified
      rollback := false } ∧ t.recs = s.recs.push (mkEv 0x0D05 [2])) ∧
  (∀ s : State, s.clock < s.upd.actAt + 86400 * 200000000 → exec .activationExpiry s = .next s) ∧
  (∀ (old new : Nat) (dflts : List Nat) (s : State), s.tablesOk = true → s.sys.run = .restarting → 6 ≤ s.power.stage →
    s.upd.handAt.isSome = true →
    let o := s.upd.oldVer
    let n := s.upd.active.ver
    let up := mkEv 0x0D06 [(o % 256 : Nat), (o / 256 % 256 : Nat), (n % 256 : Nat), (n / 256 % 256 : Nat), s.upd.swap]
    ∃ t, exec (.newFirmwareStart old new dflts) s = .next t ∧ t.sys.run = .running ∧ t.sys.mode = s.sys.mode ∧ t.upd.swap = 0 ∧
      t.guard.table = s.guard.table ∧ t.upd.store = none ∧
      (s.upd.store = none → ∀ e ∈ s.rings, (t.ring e.1).bresync = true) ∧
      (s.upd.uncommitted = false ∨ s.upd.snap.isSome = true → t.upd.snap = s.upd.snap ∧
        (s.upd.store = none → t.est.params = s.est.params ∧ t.recs = if s.upd.swap ≠ 0 then s.recs.push up else s.recs) ∧
        (∀ c, s.upd.store = some c → t.est.params = c.params ∧ t.guard.owed = some ⟨c.limits, c.thermal, c.seq⟩ ∧
          t.sched.service = c.service)) ∧
      (s.upd.uncommitted = true → s.upd.snap = none → s.upd.store = none → t.upd.snap = some s.store ∧ t.recs.cfgGen = (s.recs.cfgGen + 1) % 2 ^ 32 ∧
        t.est.params = s.est.params.filter (fun p => !dflts.contains p.1))) ∧
  (∀ (old new : Nat) (dflts : List Nat) (s : State), s.sys.run = .restarting → s.power.stage = 5 → s.upd.handAt.isSome = true →
    s.upd.uncommitted = false → exec (.newFirmwareStart old new dflts) s = .next s) ∧
  (∀ (u : NodeUpd) (a : Nat) (s : State), s.upd.node = some u → u.since = some a → a + 10 * 200000000 ≤ s.clock →
    ∃ t, exec .nodeReturnTimeout s = .next t ∧ t.upd = { s.upd with node := none } ∧ t.rings = s.rings ∧
      t.recs = s.recs.push (mkEv 0x0D0E [u.port, (u.todo.headD 0 : Nat), if u.old then 3 else 2]))
/-- POWER_UP asserts PWRGD with a synchronising reset and RECOV's level; a latch copy that is not valid starts from its reset value.
ROM_HANDOVER starts the checked slot, or counts a failed boot; BOOT_FAIL counts one, leaves an uncommitted slot and enters RECOVERY at
the third; RECOVERY_ENTRY enters it with every channel off; RECOV_RELEASE boots a verified slot. RECKONER_START loads a valid store, else
the defaults, its tables waiting for M3, arms the marks and tests the rods that are not recorded. MAILBOX_OPEN takes every stored ring to ACTIVE or SERVICE and opens
the mailbox in the mode of R454. VMAIN_LOW, VANA_LOST, VANA_RESTORED, SUPPLY_OVER_VOLTAGE, VIO_MISMATCH, VIO_RETURN and HOLDUP_ARMED have
the effects of R480 to R482, R500 and R501. -/
def Obligations.SuppliesAndStartUpFollowTheirRules : Prop :=
  (∀ (vmain vana : Nat) (recov good : Bool) (s : State), s.tablesOk = true → s.power.pwrgd = false → 360 < vmain → 360 < vana →
    ∃ t, exec (.powerUp vmain vana recov good) s = .next t ∧ t.power = { s.power with
        vmain := true
        vana := true
        vanaLost := false
        pwrgd := true
        goodAt := s.clock
        stage := 1 } ∧ t.sys = { s.sys with recovPin := recov } ∧ bit t.beam.status 6 = true ∧ t.beam.settleAt = some s.clock ∧
      (good = true → t.guard = s.guard ∧ t.est = s.est ∧ t.recs = s.recs) ∧
      (good = false → t.guard.tripped = false ∧ t.guard.tripId = 0 ∧ t.guard.weld = none ∧
        (∀ k, (t.str k).locked = none ∧ (t.str k).causes = [] ∧ (t.str k).welded = false) ∧ t.recs = s.recs.push (mkEv 0x0C06 [0x40]))) ∧
  (∀ (good : Bool) (s : State), s.romRuns = true →
    (s.sys.run = .rom → s.power.test = true → exec (.romHandover good) s = .next s) ∧
    (s.sys.run = .rom → s.power.test = false → s.sys.bootFails < 3 → s.sys.recovPin = true →
      ∃ t, exec (.romHandover good) s = .next t ∧ t.sys.run = .recovery ∧ t.sys.mode = .recovery) ∧
    (s.sys.run = .rom → s.power.test = false → 3 ≤ s.sys.bootFails →
      ∃ t, exec (.romHandover good) s = .next t ∧ t.sys.run = .recovery ∧ t.sys.mode = .recovery) ∧
    ((s.sys.run = .rom → s.power.test = false ∧ s.sys.recovPin = false) → s.sys.bootFails < 3 →
      (exec (.romHandover false) s = exec (.bootFail 1) s) ∧
      ∃ t, exec (.romHandover true) s = .next t ∧ t.sys = { s.sys with run := .restarting } ∧
        t.upd = { s.upd with handAt := some s.clock } ∧ t.power = { s.power with stage := max 3 s.power.stage } ∧ t.recs = s.recs)) ∧
  (∀ (kind : Nat) (s : State), (kind = 1 ∧ s.romRuns = true) ∨
      (kind = 2 ∧ s.sys.run ≠ .rom ∧ s.sys.run ≠ .recovery ∧ ∃ a, s.upd.handAt = some a ∧ a + 5 * 200000000 ≤ s.clock) →
    (s.sys.bootFails < 2 → ∃ t, exec (.bootFail kind) s = .next t ∧ t.sys.bootFails = s.sys.bootFails + 1 ∧
      t.upd.failedB = some s.upd.slotB ∧ t.upd.handAt = none ∧ t.sys.run = (if s.sys.run = .rom then .rom else .restarting) ∧
      t.power = { s.power with stage := if s.power.stage < 6 then min 2 s.power.stage else s.power.stage } ∧
      (s.upd.uncommitted = false → t.upd.slotB = s.upd.slotB ∧
        t.recs = s.recs.push (mkEv 0x0D09 [b2n s.upd.slotB, kind, (s.sys.bootFails + 1 : Nat)])) ∧
      (s.upd.uncommitted = true → t.upd.slotB = !s.upd.slotB ∧ t.upd.uncommitted = false ∧ t.upd.ustate = .verified ∧
        t.upd.active = s.upd.inactive.getD ⟨0, 0⟩ ∧ t.upd.inactive = some s.upd.active ∧ t.upd.snap = none ∧
        t.upd.store = s.upd.snap.or s.upd.store)) ∧
    (2 ≤ s.sys.bootFails → ∃ t, exec (.bootFail kind) s = .next t ∧ t.sys.bootFails = 3 ∧ t.sys.run = .recovery ∧
      t.sys.mode = .recovery)) ∧
  (∀ (cause : Nat) (s : State), s.tablesOk = true → s.romRuns = true →
    (cause = 1 ∧ 3 ≤ s.sys.bootFails) ∨ (cause = 2 ∧ s.sys.run = .rom ∧ s.sys.recovPin = true) ∨ cause = 3 →
    ∃ t, exec (.recoveryEntry cause) s = .next t ∧ t.sys.run = .recovery ∧ t.sys.mode = .recovery ∧ t.sys.cursors = [] ∧
      t.upd.begun = none ∧ t.upd.blocks = [] ∧ t.upd.ready = false ∧ t.upd.handAt = none ∧ t.loops.started = false ∧ t.loops.out = [] ∧
      (s.load.reverseOn = false → ∀ n < 24, (t.chan n).on = false) ∧
      (queueUsed s.recs.queue < 1024 → mkEv 0x0D0B [cause] ∈ t.recs.queue)) ∧
  (∀ s : State, (s.sys.run = .recovery → s.upd.ready = true → ∃ t, exec .recovRelease s = .next t ∧ t.sys = { s.sys with
        recovPin := false
        run := .rom
        mode := .off } ∧ t.upd = { s.upd with ready := false } ∧ t.power = { s.power with stage := 2 }) ∧
    (s.sys.run ≠ .recovery ∨ s.upd.ready = false → exec .recovRelease s = .next { s with sys := { s.sys with recovPin := false } })) ∧
  (∀ (bad socBad learnedBad : List Nat) (cfgOk : Bool) (s : State), s.tablesOk = true → s.sys.run = .restarting → s.power.stage = 3 →
    s.upd.handAt.isSome = true → ∃ (t : State) (c : Store), exec (.reckonerStart bad cfgOk socBad learnedBad) s = .next t ∧
      (s.recs.cfgValid = false ∨ cfgOk = false → c = Store.reset) ∧ (∀ d, s.recs.cfgValid = true → cfgOk = true → s.upd.store = some d → c = d) ∧
      t.est.params = c.params ∧ t.est.live = c.params ∧ t.guard.table = s.guard.table ∧
      t.guard.owed = some ⟨c.limits, c.thermal, c.seq⟩ ∧ t.sched.service = c.service ∧
      t.sched.recorded = c.recorded ∧ (∀ n < 128, (t.rod n).reload = true ∧
        (t.rod n).state = if c.recorded.contains n then .quarantined else .testing) ∧
      t.recs.cfgValid = (s.recs.cfgValid && cfgOk) ∧ t.recs.flushed = false ∧ t.upd.store = none ∧ t.power = { s.power with stage := 5 } ∧
      t.sys.run = .restarting ∧ (t.mark 0).en = true ∧ (t.mark 2).en = true ∧ (t.mark 3).en = true ∧
      (s.upd.ustate = .scheduled → (t.mark 15).en = true ∧ t.beam.actGate = s.upd.actWall)) ∧
  (∀ (facts : List (Nat × Nat × List Nat)) (s : State), s.tablesOk = true → s.sys.run = .restarting → s.power.stage = 5 →
    let held := s.guard.tripped && decide (s.guard.tripCause ≠ 0x0C01)
    ∃ t, exec (.mailboxOpen facts) s = .next t ∧ t.sys.run = .running ∧ t.power = { s.power with stage := 6 } ∧
      (∀ p < 128, (s.ring p).config ≠ [] → (t.ring p).state = .active ∨ (t.ring p).state = .service) ∧
      (held = true → t.sys.mode = .tripped) ∧
      (held = false → s.recs.cfgValid = false ∨ s.sys.storedCommission = true → t.sys.mode = .commission) ∧
      (held = false → s.recs.cfgValid = true → s.sys.storedCommission = false →
        t.sys.mode = if t.anyService then .service else .standby)) ∧
  (∀ (v ms_ : Nat) (s : State),
    (360 < v → exec (.vmainLow v ms_) s = .next { s with power := { s.power with vmainLow := false } }) ∧
    (v < 340 → 10 ≤ ms_ → s.power.pwrgd = true → s.power.vmainLow = false → ∃ t, exec (.vmainLow v ms_) s = .next t ∧
      t = { s with
        power := { s.power with vmainLow := true }
        recs := s.recs.push (mkEv 0x0123 [v, (min 65535 ms_ : Nat)]) })) ∧
  (∀ (v us_ : Nat) (s : State), s.power.pwrgd = true → s.power.vmain = true → s.power.vanaLost = false → s.sys.holdup = false → v < 300 →
    200 ≤ us_ → ∃ t, exec (.vanaLost v us_) s = .next t ∧ t.power = { s.power with
        vana := false
        vanaLost := true
        vanaAt := s.clock
        recheck := s.activePorts } ∧ t.rings = s.rings ∧
      (s.sys.shut = false → s.sys.run ≠ .recovery → t.recs = s.recs ∧ t.guard = { s.guard with
        present := insN 0x0121 s.guard.present
        reqs := s.guard.reqs ++ [⟨1, none, 0x0121, [ux 16 v], true, true, 3, false⟩] }) ∧
      (s.sys.shut = true ∨ s.sys.run = .recovery → t.guard = s.guard ∧ t.recs = s.recs.push (mkEv 0x0121 [0, v]))) ∧
  (∀ (v ms_ : Nat) (facts : List (Nat × Nat × List Nat)) (s : State), s.tablesOk = true → s.power.pwrgd = true → s.power.vanaLost = true →
    s.sys.holdup = false → 360 < v → 100 ≤ ms_ → ∃ t, exec (.vanaRestored v ms_ facts) s = .next t ∧ t.power = { s.power with
        vana := true
        vanaLost := false
        recheck := [] } ∧ bit t.beam.status 6 = true ∧ t.beam.settleAt = some s.clock ∧
      t.guard = { s.guard with present := s.guard.present.erase 0x0121 } ∧
      (∀ p ∈ s.power.recheck, (s.ring p).state = .active → (t.ring p).state = .active ∨ (t.ring p).state = .service) ∧
      (∀ p, p ∉ s.power.recheck → t.ring p = s.ring p) ∧
      (s.power.recheck = [] → s.sys.mode = .tripped → t.recs = s.recs.push (mkEv 0x0122 [(sat16 (s.msSince s.power.vanaAt) : Nat)]))) ∧
  (∀ (top ms_ : Nat) (s : State), s.power.pwrgd = true → s.sys.holdup = false → 1000 < top ∨ (750 < top ∧ 500 < ms_) →
    (s.power.vana = true → s.sys.shut = false → s.sys.run ≠ .recovery → ∃ t, exec (.supplyOverVoltage true top ms_) s = .next t ∧
      t.power.vana = false ∧ t.power.vanaLost = true ∧
      t.recs = s.recs.push (mkEv 0x0124 [2, (sat16 top : Nat), (sat16 ms_ : Nat)]) ∧
      t.guard.reqs = s.guard.reqs ++ [⟨1, none, 0x0121, [ux 16 s.free.1], true, true, 3, false⟩]) ∧
    (s.power.vmain = true → s.power.armed = true → ∃ t, exec (.supplyOverVoltage false top ms_) s = .next t ∧ t.sys.holdup = true ∧
      t.power = { s.power with vmain := false } ∧ mkEv 0x0C01 [t.guard.tripId, s.free.1] ∈ t.recs.queue) ∧
    (s.power.vmain = true → s.power.armed = false → ∃ t, exec (.supplyOverVoltage false top ms_) s = .next t ∧ t.power.pwrgd = false ∧
      t.sys.run = .rom ∧ t.recs.queue = [] ∧ t.recs.tail = s.recs.tail)) ∧
  (∀ (vio ms_ : Nat) (s : State), s.tablesOk = true → s.power.pwrgd = true → s.power.vioOk = true → s.vioIn vio = false → 10 ≤ ms_ →
    ∃ t, exec (.vioMismatch vio ms_) s = .next t ∧ t.power = { s.power with vioOk := false } ∧ t.load.pins = 0 ∧ t.sys.pcieUp = false ∧
      t.sys.d3 = false ∧ (∀ n, t.page n = (s.page n).pcieReset) ∧
      (queueUsed s.recs.queue < 1024 → mkEv 0x0125 [vio, b2n s.power.vioSel] ∈ t.recs.queue) ∧
      ∀ n < 24, s.inEn n = true → s.owned n = false → bit s.load.cmd n = false → s.load.reverseOn = false → s.minDone n = true →
        (t.chan n).on = false) ∧
  (∀ (vio : Nat) (s : State), s.power.vioOk = false → s.vioIn vio = true →
    exec (.vioReturn vio) s = .next { s with power := { s.power with vioOk := true } }) ∧
  (∀ (bank : Nat) (s : State), s.power.pwrgd = true → s.power.armed = false →
    (650 ≤ bank → exec (.holdupArmed bank) s = .next { s with power := { s.power with armed := true } }) ∧
    (bank < 650 → s.power.goodAt + 2 * 200000000 ≤ s.clock → s.power.holdupFault = false → ∃ t, exec (.holdupArmed bank) s = .next t ∧
      t = { s with
        power := { s.power with holdupFault := true }
        recs := s.recs.push (mkEv 0x0126 [bank]) }))
end

