-- ==== Sys2Proof/Laws/Bits.lean ====
section
/-! SUPPORT. The laws of bits and fields of a word: reading back what was put, and what a change leaves alone. -/
namespace Sys2Proof.Machine
open Sys2Proof

variable {n : Nat}

/-- The word with one bit set, read by bit. -/
theorem getLsbD_pow (i j : Nat) : (BitVec.ofNat n (2 ^ i)).getLsbD j = (decide (j < n) && decide (i = j)) := by
  rw [BitVec.getLsbD_ofNat, Nat.testBit_two_pow]

/-- A bit read after one was put. -/
theorem bit_putBit (w : BitVec n) {i j : Nat} (b : Bool) (hi : i < n) : bit (putBit w i b) j = if j = i then b else bit w j := by
  unfold bit putBit
  by_cases h : j = i
  · subst h
    cases b
    · rw [if_neg (by decide), if_pos rfl, BitVec.getLsbD_and, BitVec.getLsbD_not, getLsbD_pow]
      simp
    · rw [if_pos rfl, if_pos rfl, BitVec.getLsbD_or, getLsbD_pow]
      simp [hi]
  · have h' : ¬ i = j := fun e => h e.symm
    cases b
    · rw [if_neg (by decide), if_neg h, BitVec.getLsbD_and, BitVec.getLsbD_not, getLsbD_pow]
      by_cases hj : j < n
      · simp [hj, h']
      · simp [hj, BitVec.getLsbD_of_ge w j (by omega)]
    · rw [if_pos rfl, if_neg h, BitVec.getLsbD_or, getLsbD_pow]
      simp [h']

theorem bit_putBit_same (w : BitVec n) {i : Nat} (b : Bool) (hi : i < n) : bit (putBit w i b) i = b := by
  rw [bit_putBit w b hi, if_pos rfl]

theorem bit_putBit_ne (w : BitVec n) {i j : Nat} (b : Bool) (hi : i < n) (h : j ≠ i) : bit (putBit w i b) j = bit w j := by
  rw [bit_putBit w b hi, if_neg h]

/-- A field read back after it was replaced. -/
theorem fld_setFld (w hi lo v : Nat) : fld (setFld w hi lo v) hi lo = v % 2 ^ (hi + 1 - lo) := by
  unfold setFld
  have hle : fld w hi lo * 2 ^ lo ≤ w := by
    unfold fld
    calc w / 2 ^ lo % 2 ^ (hi + 1 - lo) * 2 ^ lo ≤ w / 2 ^ lo * 2 ^ lo := Nat.mul_le_mul_right _ (Nat.mod_le _ _)
      _ ≤ w := Nat.div_mul_le_self _ _
  generalize hm : 2 ^ (hi + 1 - lo) = m at *
  have hmpos : 0 < m := hm ▸ Nat.two_pow_pos _
  have hp : 0 < 2 ^ lo := Nat.two_pow_pos _
  have hf : fld w hi lo = w / 2 ^ lo % m := by unfold fld; rw [hm]
  rw [hf] at *
  unfold fld
  rw [hm, Nat.add_mul_div_right _ _ hp]
  have h1 : (w - w / 2 ^ lo % m * 2 ^ lo) / 2 ^ lo = w / 2 ^ lo - w / 2 ^ lo % m := by
    rw [Nat.mul_comm, Nat.sub_mul_div]
  rw [h1]
  have h2 : w / 2 ^ lo - w / 2 ^ lo % m = m * (w / 2 ^ lo / m) := by
    have := Nat.div_add_mod (w / 2 ^ lo) m; omega
  rw [h2, Nat.mul_add_mod, Nat.mod_mod]

theorem setFld_lt {w hi lo v : Nat} (hw : w < 2 ^ n) (hn : hi < n) (hl : lo ≤ hi) : setFld w hi lo v < 2 ^ n := by
  unfold setFld fld
  have hm : 2 ^ (hi + 1 - lo) * 2 ^ lo = 2 ^ (hi + 1) := by rw [← Nat.pow_add]; congr 1; omega
  have hn' : 2 ^ n = 2 ^ (hi + 1) * 2 ^ (n - (hi + 1)) := by rw [← Nat.pow_add]; congr 1; omega
  generalize ha : 2 ^ (hi + 1 - lo) = m at *
  generalize hb : 2 ^ lo = p at *
  have hmpos : 0 < m := ha ▸ Nat.two_pow_pos _
  have hp : 0 < p := hb ▸ Nat.two_pow_pos _
  have h1 : w = w / p / m * (m * p) + w / p % m * p + w % p := by
    have e1 := Nat.div_add_mod w p
    have e2 := Nat.div_add_mod (w / p) m
    calc w = p * (w / p) + w % p := e1.symm
      _ = p * (m * (w / p / m) + w / p % m) + w % p := by rw [e2]
      _ = _ := by rw [Nat.mul_add, ← Nat.mul_assoc, Nat.mul_comm p m, Nat.mul_comm (m * p), Nat.mul_comm p]
  have hv : v % m * p ≤ (m - 1) * p := Nat.mul_le_mul_right _ (by have := Nat.mod_lt v hmpos; omega)
  have hr : w % p < p := Nat.mod_lt _ hp
  have hmp : (m - 1) * p + p = m * p := by
    rw [← Nat.succ_mul]; congr 1; omega
  have hq : w / p / m < 2 ^ (n - (hi + 1)) := by
    rw [Nat.div_div_eq_div_mul, Nat.mul_comm, hm]
    exact Nat.div_lt_of_lt_mul (hn' ▸ hw)
  have hq' : w / p / m * (m * p) + m * p ≤ 2 ^ n := by
    rw [hn', ← hm, ← Nat.succ_mul, Nat.mul_comm]
    exact Nat.mul_le_mul_left _ hq
  omega

/-- A field of a word read back after it was replaced. -/
theorem wfld_wset_same (w : BitVec n) {hi lo : Nat} (v : Nat) (hn : hi < n) (hl : lo ≤ hi) :
    wfld (wset w hi lo v) hi lo = v % 2 ^ (hi + 1 - lo) := by
  unfold wfld wset
  rw [BitVec.toNat_ofNat, Nat.mod_eq_of_lt (setFld_lt w.isLt hn hl), fld_setFld]

end Sys2Proof.Machine
end

