-- ==== Sys2Proof/Laws/Tables.lean ====
section
/-! SUPPORT. The laws of tables by key: reads after writes, and that every write keeps the canonical form. -/
namespace Sys2Proof.Machine
open Sys2Proof

variable {α : Type}

@[simp] theorem tget_nil (d : α) (k : Nat) : tget d [] k = d := rfl

theorem tget_cons (d : α) (a : Nat) (v : α) (r : Tbl α) (k : Nat) :
    tget d ((a, v) :: r) k = if a = k then v else tget d r k := rfl

/-- Keys that rise are above the first one. -/
theorem keysRise_head_lt {a : Nat} {v : α} {r : Tbl α} (h : keysRise ((a, v) :: r) = true) :
    ∀ e ∈ r, a < e.1 := by
  induction r generalizing a v with
  | nil => simp
  | cons b r ih =>
    obtain ⟨b, w⟩ := b
    simp only [keysRise, Bool.and_eq_true, decide_eq_true_eq] at h
    intro e he
    rcases List.mem_cons.1 he with rfl | he
    · exact h.1
    · exact Nat.lt_trans h.1 (ih h.2 e he)

theorem keysRise_tail {e : Nat × α} {r : Tbl α} (h : keysRise (e :: r) = true) : keysRise r = true := by
  cases r with
  | nil => rfl
  | cons b r =>
    obtain ⟨a, v⟩ := e; obtain ⟨b, w⟩ := b
    simp only [keysRise, Bool.and_eq_true] at h
    exact h.2

/-- Rising keys from a bound on the tail's keys. -/
theorem keysRise_cons {a : Nat} {v : α} {r : Tbl α} (h : keysRise r = true) (hl : ∀ e ∈ r, a < e.1) :
    keysRise ((a, v) :: r) = true := by
  cases r with
  | nil => rfl
  | cons b r =>
    obtain ⟨b, w⟩ := b
    simp only [keysRise, Bool.and_eq_true, decide_eq_true_eq]
    exact ⟨hl (b, w) (by simp), h⟩

/-- Below the first key a table reads its default. -/
theorem tget_of_lt {d : α} {r : Tbl α} {k : Nat} (hl : ∀ e ∈ r, k < e.1) : tget d r k = d := by
  induction r with
  | nil => rfl
  | cons b r ih =>
    obtain ⟨b, w⟩ := b
    have hb : k < b := hl (b, w) (by simp)
    rw [tget_cons, if_neg (by omega), ih fun e he => hl e (by simp [he])]

theorem mem_tput {r : Tbl α} {k : Nat} {v : α} {e : Nat × α} (h : e ∈ tput r k v) : e = (k, v) ∨ e ∈ r := by
  induction r with
  | nil => simpa [tput] using h
  | cons b r ih =>
    obtain ⟨b, w⟩ := b
    simp only [tput] at h
    split at h
    · simpa using h
    · split at h
      · rcases List.mem_cons.1 h with h | h
        · exact .inl h
        · exact .inr (by simp [h])
      · rcases List.mem_cons.1 h with h | h
        · exact .inr (by simp [h])
        · rcases ih h with h | h
          · exact .inl h
          · exact .inr (by simp [h])

theorem mem_tdel {r : Tbl α} {k : Nat} {e : Nat × α} (h : e ∈ tdel r k) : e ∈ r := by
  induction r with
  | nil => simp [tdel] at h
  | cons b r ih =>
    obtain ⟨b, w⟩ := b
    simp only [tdel] at h
    split at h
    · exact List.mem_cons_of_mem _ h
    · rcases List.mem_cons.1 h with h | h
      · simp [h]
      · exact List.mem_cons_of_mem _ (ih h)

theorem keysRise_tput {r : Tbl α} {k : Nat} {v : α} (h : keysRise r = true) : keysRise (tput r k v) = true := by
  induction r with
  | nil => rfl
  | cons b r ih =>
    obtain ⟨b, w⟩ := b
    have hl := keysRise_head_lt h
    simp only [tput]
    split
    · rename_i hk
      exact keysRise_cons h fun e he => by
        rcases List.mem_cons.1 he with rfl | he
        · exact hk
        · exact Nat.lt_trans hk (hl e he)
    · split
      · rename_i hk
        exact keysRise_cons (keysRise_tail h) fun e he => hk ▸ hl e he
      · refine keysRise_cons (ih (keysRise_tail h)) fun e he => ?_
        rcases mem_tput he with rfl | he
        · show b < k; omega
        · exact hl e he

theorem keysRise_tdel {r : Tbl α} {k : Nat} (h : keysRise r = true) : keysRise (tdel r k) = true := by
  induction r with
  | nil => rfl
  | cons b r ih =>
    obtain ⟨b, w⟩ := b
    have hl := keysRise_head_lt h
    simp only [tdel]
    split
    · exact keysRise_tail h
    · exact keysRise_cons (ih (keysRise_tail h)) fun e he => hl e (mem_tdel he)

variable [DecidableEq α]

@[simp] theorem tok_nil (d : α) : tok d [] = true := rfl

theorem tok_keysRise {d : α} {r : Tbl α} (h : tok d r = true) : keysRise r = true := by
  simp only [tok, Bool.and_eq_true] at h; exact h.1

theorem tok_ne {d : α} {r : Tbl α} (h : tok d r = true) {e : Nat × α} (he : e ∈ r) : e.2 ≠ d := by
  simp only [tok, Bool.and_eq_true, List.all_eq_true, decide_eq_true_eq] at h; exact h.2 e he

theorem tok_intro {d : α} {r : Tbl α} (hk : keysRise r = true) (hd : ∀ e ∈ r, e.2 ≠ d) : tok d r = true := by
  simp only [tok, Bool.and_eq_true, List.all_eq_true, decide_eq_true_eq]; exact ⟨hk, hd⟩

/-- A write keeps the canonical form. -/
theorem tok_tset {d : α} {r : Tbl α} (k : Nat) (v : α) (h : tok d r = true) : tok d (tset d r k v) = true := by
  unfold tset
  split
  · exact tok_intro (keysRise_tdel (tok_keysRise h)) fun e he => tok_ne h (mem_tdel he)
  · rename_i hv
    refine tok_intro (keysRise_tput (tok_keysRise h)) fun e he => ?_
    rcases mem_tput he with rfl | he
    · exact hv
    · exact tok_ne h he

/-- A change of one key's value keeps the canonical form. -/
theorem tok_tmod {d : α} {r : Tbl α} (k : Nat) (f : α → α) (h : tok d r = true) : tok d (tmod d r k f) = true :=
  tok_tset k _ h

omit [DecidableEq α] in
theorem tget_tput_same (d : α) (r : Tbl α) (k : Nat) (v : α) : tget d (tput r k v) k = v := by
  induction r with
  | nil => simp [tput, tget_cons]
  | cons b r ih =>
    obtain ⟨b, w⟩ := b
    simp only [tput]
    split
    · simp [tget_cons]
    · split
      · simp [tget_cons]
      · rename_i hb
        rw [tget_cons, if_neg hb, ih]

omit [DecidableEq α] in
theorem tget_tput_ne (d : α) (r : Tbl α) {k j : Nat} (v : α) (hj : j ≠ k) : tget d (tput r k v) j = tget d r j := by
  induction r with
  | nil => simp [tput, tget_cons, hj.symm]
  | cons b r ih =>
    obtain ⟨b, w⟩ := b
    simp only [tput]
    split
    · simp [tget_cons, hj.symm]
    · split
      · rename_i hb
        subst hb
        simp [tget_cons, hj.symm]
      · simp only [tget_cons, ih]

omit [DecidableEq α] in
theorem tget_tdel_same {d : α} {r : Tbl α} {k : Nat} (h : keysRise r = true) : tget d (tdel r k) k = d := by
  induction r with
  | nil => rfl
  | cons b r ih =>
    obtain ⟨b, w⟩ := b
    simp only [tdel]
    split
    · rename_i hb
      exact tget_of_lt fun e he => hb ▸ keysRise_head_lt h e he
    · rename_i hb
      rw [tget_cons, if_neg hb, ih (keysRise_tail h)]

omit [DecidableEq α] in
theorem tget_tdel_ne (d : α) (r : Tbl α) {k j : Nat} (hj : j ≠ k) : tget d (tdel r k) j = tget d r j := by
  induction r with
  | nil => rfl
  | cons b r ih =>
    obtain ⟨b, w⟩ := b
    simp only [tdel]
    split
    · rename_i hb
      rw [tget_cons, if_neg (by omega)]
    · simp only [tget_cons, ih]

/-- A read after a write of the same key gives the value written, in a canonical table. -/
theorem tget_tset_same {d : α} {r : Tbl α} (k : Nat) (v : α) (h : tok d r = true) : tget d (tset d r k v) k = v := by
  unfold tset
  split
  · rename_i hv
    rw [tget_tdel_same (tok_keysRise h), hv]
  · exact tget_tput_same d r k v

/-- A write leaves every other key alone. -/
theorem tget_tset_ne (d : α) (r : Tbl α) {k j : Nat} (v : α) (hj : j ≠ k) : tget d (tset d r k v) j = tget d r j := by
  unfold tset
  split
  · exact tget_tdel_ne d r hj
  · exact tget_tput_ne d r v hj

/-- A read after a change of the same key gives the changed value, in a canonical table. -/
theorem tget_tmod_same {d : α} {r : Tbl α} (k : Nat) (f : α → α) (h : tok d r = true) :
    tget d (tmod d r k f) k = f (tget d r k) := tget_tset_same k _ h

/-- A change of one key leaves every other key alone. -/
theorem tget_tmod_ne (d : α) (r : Tbl α) {k j : Nat} (f : α → α) (hj : j ≠ k) : tget d (tmod d r k f) j = tget d r j :=
  tget_tset_ne d r _ hj

end Sys2Proof.Machine
end

