-- ==== Sys2Proof/Laws/State.lean ====
section
/-! SUPPORT. The small lemmas of State: what each named update leaves alone and what it sets. -/
namespace Sys2Proof.Machine
open Sys2Proof

section
variable (s : State) (k : Nat) (f : Ring → Ring)
@[simp] theorem State.modRing_pending : (s.modRing k f).pending = s.pending := rfl
@[simp] theorem State.modRing_clock : (s.modRing k f).clock = s.clock := rfl
@[simp] theorem State.modRing_fresh : (s.modRing k f).fresh = s.fresh := rfl
@[simp] theorem State.modRing_power : (s.modRing k f).power = s.power := rfl
@[simp] theorem State.modRing_sys : (s.modRing k f).sys = s.sys := rfl
@[simp] theorem State.modRing_beam : (s.modRing k f).beam = s.beam := rfl
@[simp] theorem State.modRing_nodes : (s.modRing k f).nodes = s.nodes := rfl
@[simp] theorem State.modRing_sched : (s.modRing k f).sched = s.sched := rfl
@[simp] theorem State.modRing_est : (s.modRing k f).est = s.est := rfl
@[simp] theorem State.modRing_guard : (s.modRing k f).guard = s.guard := rfl
@[simp] theorem State.modRing_disp : (s.modRing k f).disp = s.disp := rfl
@[simp] theorem State.modRing_recs : (s.modRing k f).recs = s.recs := rfl
@[simp] theorem State.modRing_loops : (s.modRing k f).loops = s.loops := rfl
@[simp] theorem State.modRing_load : (s.modRing k f).load = s.load := rfl
@[simp] theorem State.modRing_can : (s.modRing k f).can = s.can := rfl
@[simp] theorem State.modRing_upd : (s.modRing k f).upd = s.upd := rfl
end

section
variable (s : State) (k : Nat) (f : Node → Node)
@[simp] theorem State.modNode_pending : (s.modNode k f).pending = s.pending := rfl
@[simp] theorem State.modNode_clock : (s.modNode k f).clock = s.clock := rfl
@[simp] theorem State.modNode_fresh : (s.modNode k f).fresh = s.fresh := rfl
@[simp] theorem State.modNode_power : (s.modNode k f).power = s.power := rfl
@[simp] theorem State.modNode_sys : (s.modNode k f).sys = s.sys := rfl
@[simp] theorem State.modNode_beam : (s.modNode k f).beam = s.beam := rfl
@[simp] theorem State.modNode_rings : (s.modNode k f).rings = s.rings := rfl
@[simp] theorem State.modNode_sched : (s.modNode k f).sched = s.sched := rfl
@[simp] theorem State.modNode_est : (s.modNode k f).est = s.est := rfl
@[simp] theorem State.modNode_guard : (s.modNode k f).guard = s.guard := rfl
@[simp] theorem State.modNode_disp : (s.modNode k f).disp = s.disp := rfl
@[simp] theorem State.modNode_recs : (s.modNode k f).recs = s.recs := rfl
@[simp] theorem State.modNode_loops : (s.modNode k f).loops = s.loops := rfl
@[simp] theorem State.modNode_load : (s.modNode k f).load = s.load := rfl
@[simp] theorem State.modNode_can : (s.modNode k f).can = s.can := rfl
@[simp] theorem State.modNode_upd : (s.modNode k f).upd = s.upd := rfl
end

section
variable (s : State) (k : Nat) (f : Mark → Mark)
@[simp] theorem State.modMark_pending : (s.modMark k f).pending = s.pending := rfl
@[simp] theorem State.modMark_clock : (s.modMark k f).clock = s.clock := rfl
@[simp] theorem State.modMark_fresh : (s.modMark k f).fresh = s.fresh := rfl
@[simp] theorem State.modMark_power : (s.modMark k f).power = s.power := rfl
@[simp] theorem State.modMark_sys : (s.modMark k f).sys = s.sys := rfl
@[simp] theorem State.modMark_rings : (s.modMark k f).rings = s.rings := rfl
@[simp] theorem State.modMark_nodes : (s.modMark k f).nodes = s.nodes := rfl
@[simp] theorem State.modMark_sched : (s.modMark k f).sched = s.sched := rfl
@[simp] theorem State.modMark_est : (s.modMark k f).est = s.est := rfl
@[simp] theorem State.modMark_guard : (s.modMark k f).guard = s.guard := rfl
@[simp] theorem State.modMark_disp : (s.modMark k f).disp = s.disp := rfl
@[simp] theorem State.modMark_recs : (s.modMark k f).recs = s.recs := rfl
@[simp] theorem State.modMark_loops : (s.modMark k f).loops = s.loops := rfl
@[simp] theorem State.modMark_load : (s.modMark k f).load = s.load := rfl
@[simp] theorem State.modMark_can : (s.modMark k f).can = s.can := rfl
@[simp] theorem State.modMark_upd : (s.modMark k f).upd = s.upd := rfl
end

section
variable (s : State) (k : Nat) (f : Rod → Rod)
@[simp] theorem State.modRod_pending : (s.modRod k f).pending = s.pending := rfl
@[simp] theorem State.modRod_clock : (s.modRod k f).clock = s.clock := rfl
@[simp] theorem State.modRod_fresh : (s.modRod k f).fresh = s.fresh := rfl
@[simp] theorem State.modRod_power : (s.modRod k f).power = s.power := rfl
@[simp] theorem State.modRod_sys : (s.modRod k f).sys = s.sys := rfl
@[simp] theorem State.modRod_beam : (s.modRod k f).beam = s.beam := rfl
@[simp] theorem State.modRod_rings : (s.modRod k f).rings = s.rings := rfl
@[simp] theorem State.modRod_nodes : (s.modRod k f).nodes = s.nodes := rfl
@[simp] theorem State.modRod_est : (s.modRod k f).est = s.est := rfl
@[simp] theorem State.modRod_guard : (s.modRod k f).guard = s.guard := rfl
@[simp] theorem State.modRod_disp : (s.modRod k f).disp = s.disp := rfl
@[simp] theorem State.modRod_recs : (s.modRod k f).recs = s.recs := rfl
@[simp] theorem State.modRod_loops : (s.modRod k f).loops = s.loops := rfl
@[simp] theorem State.modRod_load : (s.modRod k f).load = s.load := rfl
@[simp] theorem State.modRod_can : (s.modRod k f).can = s.can := rfl
@[simp] theorem State.modRod_upd : (s.modRod k f).upd = s.upd := rfl
end

section
variable (s : State) (k : Nat) (f : Cell → Cell)
@[simp] theorem State.modCell_pending : (s.modCell k f).pending = s.pending := rfl
@[simp] theorem State.modCell_clock : (s.modCell k f).clock = s.clock := rfl
@[simp] theorem State.modCell_fresh : (s.modCell k f).fresh = s.fresh := rfl
@[simp] theorem State.modCell_power : (s.modCell k f).power = s.power := rfl
@[simp] theorem State.modCell_sys : (s.modCell k f).sys = s.sys := rfl
@[simp] theorem State.modCell_beam : (s.modCell k f).beam = s.beam := rfl
@[simp] theorem State.modCell_rings : (s.modCell k f).rings = s.rings := rfl
@[simp] theorem State.modCell_nodes : (s.modCell k f).nodes = s.nodes := rfl
@[simp] theorem State.modCell_sched : (s.modCell k f).sched = s.sched := rfl
@[simp] theorem State.modCell_guard : (s.modCell k f).guard = s.guard := rfl
@[simp] theorem State.modCell_disp : (s.modCell k f).disp = s.disp := rfl
@[simp] theorem State.modCell_recs : (s.modCell k f).recs = s.recs := rfl
@[simp] theorem State.modCell_loops : (s.modCell k f).loops = s.loops := rfl
@[simp] theorem State.modCell_load : (s.modCell k f).load = s.load := rfl
@[simp] theorem State.modCell_can : (s.modCell k f).can = s.can := rfl
@[simp] theorem State.modCell_upd : (s.modCell k f).upd = s.upd := rfl
end

section
variable (s : State) (k : Nat) (f : Str → Str)
@[simp] theorem State.modStr_pending : (s.modStr k f).pending = s.pending := rfl
@[simp] theorem State.modStr_clock : (s.modStr k f).clock = s.clock := rfl
@[simp] theorem State.modStr_fresh : (s.modStr k f).fresh = s.fresh := rfl
@[simp] theorem State.modStr_power : (s.modStr k f).power = s.power := rfl
@[simp] theorem State.modStr_sys : (s.modStr k f).sys = s.sys := rfl
@[simp] theorem State.modStr_beam : (s.modStr k f).beam = s.beam := rfl
@[simp] theorem State.modStr_rings : (s.modStr k f).rings = s.rings := rfl
@[simp] theorem State.modStr_nodes : (s.modStr k f).nodes = s.nodes := rfl
@[simp] theorem State.modStr_sched : (s.modStr k f).sched = s.sched := rfl
@[simp] theorem State.modStr_guard : (s.modStr k f).guard = s.guard := rfl
@[simp] theorem State.modStr_disp : (s.modStr k f).disp = s.disp := rfl
@[simp] theorem State.modStr_recs : (s.modStr k f).recs = s.recs := rfl
@[simp] theorem State.modStr_loops : (s.modStr k f).loops = s.loops := rfl
@[simp] theorem State.modStr_load : (s.modStr k f).load = s.load := rfl
@[simp] theorem State.modStr_can : (s.modStr k f).can = s.can := rfl
@[simp] theorem State.modStr_upd : (s.modStr k f).upd = s.upd := rfl
end

section
variable (s : State) (k : Nat) (f : BalNode → BalNode)
@[simp] theorem State.modBal_pending : (s.modBal k f).pending = s.pending := rfl
@[simp] theorem State.modBal_clock : (s.modBal k f).clock = s.clock := rfl
@[simp] theorem State.modBal_fresh : (s.modBal k f).fresh = s.fresh := rfl
@[simp] theorem State.modBal_power : (s.modBal k f).power = s.power := rfl
@[simp] theorem State.modBal_sys : (s.modBal k f).sys = s.sys := rfl
@[simp] theorem State.modBal_beam : (s.modBal k f).beam = s.beam := rfl
@[simp] theorem State.modBal_rings : (s.modBal k f).rings = s.rings := rfl
@[simp] theorem State.modBal_nodes : (s.modBal k f).nodes = s.nodes := rfl
@[simp] theorem State.modBal_sched : (s.modBal k f).sched = s.sched := rfl
@[simp] theorem State.modBal_guard : (s.modBal k f).guard = s.guard := rfl
@[simp] theorem State.modBal_disp : (s.modBal k f).disp = s.disp := rfl
@[simp] theorem State.modBal_recs : (s.modBal k f).recs = s.recs := rfl
@[simp] theorem State.modBal_loops : (s.modBal k f).loops = s.loops := rfl
@[simp] theorem State.modBal_load : (s.modBal k f).load = s.load := rfl
@[simp] theorem State.modBal_can : (s.modBal k f).can = s.can := rfl
@[simp] theorem State.modBal_upd : (s.modBal k f).upd = s.upd := rfl
end

section
variable (s : State) (k : Nat) (f : TempIn → TempIn)
@[simp] theorem State.modTemp_pending : (s.modTemp k f).pending = s.pending := rfl
@[simp] theorem State.modTemp_clock : (s.modTemp k f).clock = s.clock := rfl
@[simp] theorem State.modTemp_fresh : (s.modTemp k f).fresh = s.fresh := rfl
@[simp] theorem State.modTemp_power : (s.modTemp k f).power = s.power := rfl
@[simp] theorem State.modTemp_sys : (s.modTemp k f).sys = s.sys := rfl
@[simp] theorem State.modTemp_beam : (s.modTemp k f).beam = s.beam := rfl
@[simp] theorem State.modTemp_rings : (s.modTemp k f).rings = s.rings := rfl
@[simp] theorem State.modTemp_nodes : (s.modTemp k f).nodes = s.nodes := rfl
@[simp] theorem State.modTemp_sched : (s.modTemp k f).sched = s.sched := rfl
@[simp] theorem State.modTemp_guard : (s.modTemp k f).guard = s.guard := rfl
@[simp] theorem State.modTemp_disp : (s.modTemp k f).disp = s.disp := rfl
@[simp] theorem State.modTemp_recs : (s.modTemp k f).recs = s.recs := rfl
@[simp] theorem State.modTemp_loops : (s.modTemp k f).loops = s.loops := rfl
@[simp] theorem State.modTemp_load : (s.modTemp k f).load = s.load := rfl
@[simp] theorem State.modTemp_can : (s.modTemp k f).can = s.can := rfl
@[simp] theorem State.modTemp_upd : (s.modTemp k f).upd = s.upd := rfl
end

section
variable (s : State) (k : Nat) (f : Tin → Tin)
@[simp] theorem State.modTin_pending : (s.modTin k f).pending = s.pending := rfl
@[simp] theorem State.modTin_clock : (s.modTin k f).clock = s.clock := rfl
@[simp] theorem State.modTin_fresh : (s.modTin k f).fresh = s.fresh := rfl
@[simp] theorem State.modTin_power : (s.modTin k f).power = s.power := rfl
@[simp] theorem State.modTin_sys : (s.modTin k f).sys = s.sys := rfl
@[simp] theorem State.modTin_beam : (s.modTin k f).beam = s.beam := rfl
@[simp] theorem State.modTin_rings : (s.modTin k f).rings = s.rings := rfl
@[simp] theorem State.modTin_nodes : (s.modTin k f).nodes = s.nodes := rfl
@[simp] theorem State.modTin_sched : (s.modTin k f).sched = s.sched := rfl
@[simp] theorem State.modTin_guard : (s.modTin k f).guard = s.guard := rfl
@[simp] theorem State.modTin_disp : (s.modTin k f).disp = s.disp := rfl
@[simp] theorem State.modTin_recs : (s.modTin k f).recs = s.recs := rfl
@[simp] theorem State.modTin_loops : (s.modTin k f).loops = s.loops := rfl
@[simp] theorem State.modTin_load : (s.modTin k f).load = s.load := rfl
@[simp] theorem State.modTin_can : (s.modTin k f).can = s.can := rfl
@[simp] theorem State.modTin_upd : (s.modTin k f).upd = s.upd := rfl
end

section
variable (s : State) (k : Nat) (f : Fpi → Fpi)
@[simp] theorem State.modFpi_pending : (s.modFpi k f).pending = s.pending := rfl
@[simp] theorem State.modFpi_clock : (s.modFpi k f).clock = s.clock := rfl
@[simp] theorem State.modFpi_fresh : (s.modFpi k f).fresh = s.fresh := rfl
@[simp] theorem State.modFpi_power : (s.modFpi k f).power = s.power := rfl
@[simp] theorem State.modFpi_sys : (s.modFpi k f).sys = s.sys := rfl
@[simp] theorem State.modFpi_beam : (s.modFpi k f).beam = s.beam := rfl
@[simp] theorem State.modFpi_rings : (s.modFpi k f).rings = s.rings := rfl
@[simp] theorem State.modFpi_nodes : (s.modFpi k f).nodes = s.nodes := rfl
@[simp] theorem State.modFpi_sched : (s.modFpi k f).sched = s.sched := rfl
@[simp] theorem State.modFpi_est : (s.modFpi k f).est = s.est := rfl
@[simp] theorem State.modFpi_disp : (s.modFpi k f).disp = s.disp := rfl
@[simp] theorem State.modFpi_recs : (s.modFpi k f).recs = s.recs := rfl
@[simp] theorem State.modFpi_loops : (s.modFpi k f).loops = s.loops := rfl
@[simp] theorem State.modFpi_load : (s.modFpi k f).load = s.load := rfl
@[simp] theorem State.modFpi_can : (s.modFpi k f).can = s.can := rfl
@[simp] theorem State.modFpi_upd : (s.modFpi k f).upd = s.upd := rfl
end

section
variable (s : State) (k : Nat) (f : Tenant → Tenant)
@[simp] theorem State.modTenant_pending : (s.modTenant k f).pending = s.pending := rfl
@[simp] theorem State.modTenant_clock : (s.modTenant k f).clock = s.clock := rfl
@[simp] theorem State.modTenant_fresh : (s.modTenant k f).fresh = s.fresh := rfl
@[simp] theorem State.modTenant_power : (s.modTenant k f).power = s.power := rfl
@[simp] theorem State.modTenant_sys : (s.modTenant k f).sys = s.sys := rfl
@[simp] theorem State.modTenant_beam : (s.modTenant k f).beam = s.beam := rfl
@[simp] theorem State.modTenant_rings : (s.modTenant k f).rings = s.rings := rfl
@[simp] theorem State.modTenant_nodes : (s.modTenant k f).nodes = s.nodes := rfl
@[simp] theorem State.modTenant_sched : (s.modTenant k f).sched = s.sched := rfl
@[simp] theorem State.modTenant_est : (s.modTenant k f).est = s.est := rfl
@[simp] theorem State.modTenant_guard : (s.modTenant k f).guard = s.guard := rfl
@[simp] theorem State.modTenant_recs : (s.modTenant k f).recs = s.recs := rfl
@[simp] theorem State.modTenant_loops : (s.modTenant k f).loops = s.loops := rfl
@[simp] theorem State.modTenant_load : (s.modTenant k f).load = s.load := rfl
@[simp] theorem State.modTenant_can : (s.modTenant k f).can = s.can := rfl
@[simp] theorem State.modTenant_upd : (s.modTenant k f).upd = s.upd := rfl
end

section
variable (s : State) (k : Nat) (f : Page → Page)
@[simp] theorem State.modPage_pending : (s.modPage k f).pending = s.pending := rfl
@[simp] theorem State.modPage_clock : (s.modPage k f).clock = s.clock := rfl
@[simp] theorem State.modPage_fresh : (s.modPage k f).fresh = s.fresh := rfl
@[simp] theorem State.modPage_power : (s.modPage k f).power = s.power := rfl
@[simp] theorem State.modPage_beam : (s.modPage k f).beam = s.beam := rfl
@[simp] theorem State.modPage_rings : (s.modPage k f).rings = s.rings := rfl
@[simp] theorem State.modPage_nodes : (s.modPage k f).nodes = s.nodes := rfl
@[simp] theorem State.modPage_sched : (s.modPage k f).sched = s.sched := rfl
@[simp] theorem State.modPage_est : (s.modPage k f).est = s.est := rfl
@[simp] theorem State.modPage_guard : (s.modPage k f).guard = s.guard := rfl
@[simp] theorem State.modPage_disp : (s.modPage k f).disp = s.disp := rfl
@[simp] theorem State.modPage_recs : (s.modPage k f).recs = s.recs := rfl
@[simp] theorem State.modPage_loops : (s.modPage k f).loops = s.loops := rfl
@[simp] theorem State.modPage_load : (s.modPage k f).load = s.load := rfl
@[simp] theorem State.modPage_can : (s.modPage k f).can = s.can := rfl
@[simp] theorem State.modPage_upd : (s.modPage k f).upd = s.upd := rfl
end

section
variable (s : State) (k : Nat) (f : Loop → Loop)
@[simp] theorem State.modLoop_pending : (s.modLoop k f).pending = s.pending := rfl
@[simp] theorem State.modLoop_clock : (s.modLoop k f).clock = s.clock := rfl
@[simp] theorem State.modLoop_fresh : (s.modLoop k f).fresh = s.fresh := rfl
@[simp] theorem State.modLoop_power : (s.modLoop k f).power = s.power := rfl
@[simp] theorem State.modLoop_sys : (s.modLoop k f).sys = s.sys := rfl
@[simp] theorem State.modLoop_beam : (s.modLoop k f).beam = s.beam := rfl
@[simp] theorem State.modLoop_rings : (s.modLoop k f).rings = s.rings := rfl
@[simp] theorem State.modLoop_nodes : (s.modLoop k f).nodes = s.nodes := rfl
@[simp] theorem State.modLoop_sched : (s.modLoop k f).sched = s.sched := rfl
@[simp] theorem State.modLoop_est : (s.modLoop k f).est = s.est := rfl
@[simp] theorem State.modLoop_guard : (s.modLoop k f).guard = s.guard := rfl
@[simp] theorem State.modLoop_disp : (s.modLoop k f).disp = s.disp := rfl
@[simp] theorem State.modLoop_recs : (s.modLoop k f).recs = s.recs := rfl
@[simp] theorem State.modLoop_load : (s.modLoop k f).load = s.load := rfl
@[simp] theorem State.modLoop_can : (s.modLoop k f).can = s.can := rfl
@[simp] theorem State.modLoop_upd : (s.modLoop k f).upd = s.upd := rfl
end

section
variable (s : State) (k : Nat) (f : Axis → Axis)
@[simp] theorem State.modAxis_pending : (s.modAxis k f).pending = s.pending := rfl
@[simp] theorem State.modAxis_clock : (s.modAxis k f).clock = s.clock := rfl
@[simp] theorem State.modAxis_fresh : (s.modAxis k f).fresh = s.fresh := rfl
@[simp] theorem State.modAxis_power : (s.modAxis k f).power = s.power := rfl
@[simp] theorem State.modAxis_sys : (s.modAxis k f).sys = s.sys := rfl
@[simp] theorem State.modAxis_beam : (s.modAxis k f).beam = s.beam := rfl
@[simp] theorem State.modAxis_rings : (s.modAxis k f).rings = s.rings := rfl
@[simp] theorem State.modAxis_nodes : (s.modAxis k f).nodes = s.nodes := rfl
@[simp] theorem State.modAxis_sched : (s.modAxis k f).sched = s.sched := rfl
@[simp] theorem State.modAxis_est : (s.modAxis k f).est = s.est := rfl
@[simp] theorem State.modAxis_guard : (s.modAxis k f).guard = s.guard := rfl
@[simp] theorem State.modAxis_disp : (s.modAxis k f).disp = s.disp := rfl
@[simp] theorem State.modAxis_recs : (s.modAxis k f).recs = s.recs := rfl
@[simp] theorem State.modAxis_load : (s.modAxis k f).load = s.load := rfl
@[simp] theorem State.modAxis_can : (s.modAxis k f).can = s.can := rfl
@[simp] theorem State.modAxis_upd : (s.modAxis k f).upd = s.upd := rfl
end

section
variable (s : State) (k : Nat) (f : Chan → Chan)
@[simp] theorem State.modChan_pending : (s.modChan k f).pending = s.pending := rfl
@[simp] theorem State.modChan_clock : (s.modChan k f).clock = s.clock := rfl
@[simp] theorem State.modChan_fresh : (s.modChan k f).fresh = s.fresh := rfl
@[simp] theorem State.modChan_power : (s.modChan k f).power = s.power := rfl
@[simp] theorem State.modChan_sys : (s.modChan k f).sys = s.sys := rfl
@[simp] theorem State.modChan_beam : (s.modChan k f).beam = s.beam := rfl
@[simp] theorem State.modChan_rings : (s.modChan k f).rings = s.rings := rfl
@[simp] theorem State.modChan_nodes : (s.modChan k f).nodes = s.nodes := rfl
@[simp] theorem State.modChan_sched : (s.modChan k f).sched = s.sched := rfl
@[simp] theorem State.modChan_est : (s.modChan k f).est = s.est := rfl
@[simp] theorem State.modChan_guard : (s.modChan k f).guard = s.guard := rfl
@[simp] theorem State.modChan_disp : (s.modChan k f).disp = s.disp := rfl
@[simp] theorem State.modChan_recs : (s.modChan k f).recs = s.recs := rfl
@[simp] theorem State.modChan_loops : (s.modChan k f).loops = s.loops := rfl
@[simp] theorem State.modChan_can : (s.modChan k f).can = s.can := rfl
@[simp] theorem State.modChan_upd : (s.modChan k f).upd = s.upd := rfl
end

section
variable (s : State) (k : Nat) (f : Ctrl → Ctrl)
@[simp] theorem State.modCtrl_pending : (s.modCtrl k f).pending = s.pending := rfl
@[simp] theorem State.modCtrl_clock : (s.modCtrl k f).clock = s.clock := rfl
@[simp] theorem State.modCtrl_fresh : (s.modCtrl k f).fresh = s.fresh := rfl
@[simp] theorem State.modCtrl_power : (s.modCtrl k f).power = s.power := rfl
@[simp] theorem State.modCtrl_sys : (s.modCtrl k f).sys = s.sys := rfl
@[simp] theorem State.modCtrl_beam : (s.modCtrl k f).beam = s.beam := rfl
@[simp] theorem State.modCtrl_rings : (s.modCtrl k f).rings = s.rings := rfl
@[simp] theorem State.modCtrl_nodes : (s.modCtrl k f).nodes = s.nodes := rfl
@[simp] theorem State.modCtrl_sched : (s.modCtrl k f).sched = s.sched := rfl
@[simp] theorem State.modCtrl_est : (s.modCtrl k f).est = s.est := rfl
@[simp] theorem State.modCtrl_guard : (s.modCtrl k f).guard = s.guard := rfl
@[simp] theorem State.modCtrl_disp : (s.modCtrl k f).disp = s.disp := rfl
@[simp] theorem State.modCtrl_recs : (s.modCtrl k f).recs = s.recs := rfl
@[simp] theorem State.modCtrl_loops : (s.modCtrl k f).loops = s.loops := rfl
@[simp] theorem State.modCtrl_load : (s.modCtrl k f).load = s.load := rfl
@[simp] theorem State.modCtrl_upd : (s.modCtrl k f).upd = s.upd := rfl
end

section
variable (s : State) (k : Nat) (f : Unit_ → Unit_)
@[simp] theorem State.modUnit_pending : (s.modUnit k f).pending = s.pending := rfl
@[simp] theorem State.modUnit_clock : (s.modUnit k f).clock = s.clock := rfl
@[simp] theorem State.modUnit_fresh : (s.modUnit k f).fresh = s.fresh := rfl
@[simp] theorem State.modUnit_power : (s.modUnit k f).power = s.power := rfl
@[simp] theorem State.modUnit_sys : (s.modUnit k f).sys = s.sys := rfl
@[simp] theorem State.modUnit_beam : (s.modUnit k f).beam = s.beam := rfl
@[simp] theorem State.modUnit_rings : (s.modUnit k f).rings = s.rings := rfl
@[simp] theorem State.modUnit_nodes : (s.modUnit k f).nodes = s.nodes := rfl
@[simp] theorem State.modUnit_sched : (s.modUnit k f).sched = s.sched := rfl
@[simp] theorem State.modUnit_est : (s.modUnit k f).est = s.est := rfl
@[simp] theorem State.modUnit_guard : (s.modUnit k f).guard = s.guard := rfl
@[simp] theorem State.modUnit_disp : (s.modUnit k f).disp = s.disp := rfl
@[simp] theorem State.modUnit_recs : (s.modUnit k f).recs = s.recs := rfl
@[simp] theorem State.modUnit_loops : (s.modUnit k f).loops = s.loops := rfl
@[simp] theorem State.modUnit_load : (s.modUnit k f).load = s.load := rfl
@[simp] theorem State.modUnit_upd : (s.modUnit k f).upd = s.upd := rfl
end

section
variable (s : State) (k : Nat) (f : Alarm → Alarm)
@[simp] theorem State.modAlarm_pending : (s.modAlarm k f).pending = s.pending := rfl
@[simp] theorem State.modAlarm_clock : (s.modAlarm k f).clock = s.clock := rfl
@[simp] theorem State.modAlarm_fresh : (s.modAlarm k f).fresh = s.fresh := rfl
@[simp] theorem State.modAlarm_power : (s.modAlarm k f).power = s.power := rfl
@[simp] theorem State.modAlarm_sys : (s.modAlarm k f).sys = s.sys := rfl
@[simp] theorem State.modAlarm_beam : (s.modAlarm k f).beam = s.beam := rfl
@[simp] theorem State.modAlarm_rings : (s.modAlarm k f).rings = s.rings := rfl
@[simp] theorem State.modAlarm_nodes : (s.modAlarm k f).nodes = s.nodes := rfl
@[simp] theorem State.modAlarm_sched : (s.modAlarm k f).sched = s.sched := rfl
@[simp] theorem State.modAlarm_est : (s.modAlarm k f).est = s.est := rfl
@[simp] theorem State.modAlarm_guard : (s.modAlarm k f).guard = s.guard := rfl
@[simp] theorem State.modAlarm_disp : (s.modAlarm k f).disp = s.disp := rfl
@[simp] theorem State.modAlarm_recs : (s.modAlarm k f).recs = s.recs := rfl
@[simp] theorem State.modAlarm_loops : (s.modAlarm k f).loops = s.loops := rfl
@[simp] theorem State.modAlarm_load : (s.modAlarm k f).load = s.load := rfl
@[simp] theorem State.modAlarm_upd : (s.modAlarm k f).upd = s.upd := rfl
end

section
variable (s : State) (f : Beam → Beam)
@[simp] theorem State.onBeam_pending : (s.onBeam f).pending = s.pending := rfl
@[simp] theorem State.onBeam_clock : (s.onBeam f).clock = s.clock := rfl
@[simp] theorem State.onBeam_fresh : (s.onBeam f).fresh = s.fresh := rfl
@[simp] theorem State.onBeam_power : (s.onBeam f).power = s.power := rfl
@[simp] theorem State.onBeam_sys : (s.onBeam f).sys = s.sys := rfl
@[simp] theorem State.onBeam_beam : (s.onBeam f).beam = f s.beam := rfl
@[simp] theorem State.onBeam_rings : (s.onBeam f).rings = s.rings := rfl
@[simp] theorem State.onBeam_nodes : (s.onBeam f).nodes = s.nodes := rfl
@[simp] theorem State.onBeam_sched : (s.onBeam f).sched = s.sched := rfl
@[simp] theorem State.onBeam_est : (s.onBeam f).est = s.est := rfl
@[simp] theorem State.onBeam_guard : (s.onBeam f).guard = s.guard := rfl
@[simp] theorem State.onBeam_disp : (s.onBeam f).disp = s.disp := rfl
@[simp] theorem State.onBeam_recs : (s.onBeam f).recs = s.recs := rfl
@[simp] theorem State.onBeam_loops : (s.onBeam f).loops = s.loops := rfl
@[simp] theorem State.onBeam_load : (s.onBeam f).load = s.load := rfl
@[simp] theorem State.onBeam_can : (s.onBeam f).can = s.can := rfl
@[simp] theorem State.onBeam_upd : (s.onBeam f).upd = s.upd := rfl
end

section
variable (s : State) (f : Guard → Guard)
@[simp] theorem State.onGuard_pending : (s.onGuard f).pending = s.pending := rfl
@[simp] theorem State.onGuard_clock : (s.onGuard f).clock = s.clock := rfl
@[simp] theorem State.onGuard_fresh : (s.onGuard f).fresh = s.fresh := rfl
@[simp] theorem State.onGuard_power : (s.onGuard f).power = s.power := rfl
@[simp] theorem State.onGuard_sys : (s.onGuard f).sys = s.sys := rfl
@[simp] theorem State.onGuard_beam : (s.onGuard f).beam = s.beam := rfl
@[simp] theorem State.onGuard_rings : (s.onGuard f).rings = s.rings := rfl
@[simp] theorem State.onGuard_nodes : (s.onGuard f).nodes = s.nodes := rfl
@[simp] theorem State.onGuard_sched : (s.onGuard f).sched = s.sched := rfl
@[simp] theorem State.onGuard_est : (s.onGuard f).est = s.est := rfl
@[simp] theorem State.onGuard_guard : (s.onGuard f).guard = f s.guard := rfl
@[simp] theorem State.onGuard_disp : (s.onGuard f).disp = s.disp := rfl
@[simp] theorem State.onGuard_recs : (s.onGuard f).recs = s.recs := rfl
@[simp] theorem State.onGuard_loops : (s.onGuard f).loops = s.loops := rfl
@[simp] theorem State.onGuard_load : (s.onGuard f).load = s.load := rfl
@[simp] theorem State.onGuard_can : (s.onGuard f).can = s.can := rfl
@[simp] theorem State.onGuard_upd : (s.onGuard f).upd = s.upd := rfl
end

section
variable (s : State) (f : Sys → Sys)
@[simp] theorem State.onSys_pending : (s.onSys f).pending = s.pending := rfl
@[simp] theorem State.onSys_clock : (s.onSys f).clock = s.clock := rfl
@[simp] theorem State.onSys_fresh : (s.onSys f).fresh = s.fresh := rfl
@[simp] theorem State.onSys_power : (s.onSys f).power = s.power := rfl
@[simp] theorem State.onSys_sys : (s.onSys f).sys = f s.sys := rfl
@[simp] theorem State.onSys_beam : (s.onSys f).beam = s.beam := rfl
@[simp] theorem State.onSys_rings : (s.onSys f).rings = s.rings := rfl
@[simp] theorem State.onSys_nodes : (s.onSys f).nodes = s.nodes := rfl
@[simp] theorem State.onSys_sched : (s.onSys f).sched = s.sched := rfl
@[simp] theorem State.onSys_est : (s.onSys f).est = s.est := rfl
@[simp] theorem State.onSys_guard : (s.onSys f).guard = s.guard := rfl
@[simp] theorem State.onSys_disp : (s.onSys f).disp = s.disp := rfl
@[simp] theorem State.onSys_recs : (s.onSys f).recs = s.recs := rfl
@[simp] theorem State.onSys_loops : (s.onSys f).loops = s.loops := rfl
@[simp] theorem State.onSys_load : (s.onSys f).load = s.load := rfl
@[simp] theorem State.onSys_can : (s.onSys f).can = s.can := rfl
@[simp] theorem State.onSys_upd : (s.onSys f).upd = s.upd := rfl
end

section
variable (s : State) (f : Records → Records)
@[simp] theorem State.onRecs_pending : (s.onRecs f).pending = s.pending := rfl
@[simp] theorem State.onRecs_clock : (s.onRecs f).clock = s.clock := rfl
@[simp] theorem State.onRecs_fresh : (s.onRecs f).fresh = s.fresh := rfl
@[simp] theorem State.onRecs_power : (s.onRecs f).power = s.power := rfl
@[simp] theorem State.onRecs_sys : (s.onRecs f).sys = s.sys := rfl
@[simp] theorem State.onRecs_beam : (s.onRecs f).beam = s.beam := rfl
@[simp] theorem State.onRecs_rings : (s.onRecs f).rings = s.rings := rfl
@[simp] theorem State.onRecs_nodes : (s.onRecs f).nodes = s.nodes := rfl
@[simp] theorem State.onRecs_sched : (s.onRecs f).sched = s.sched := rfl
@[simp] theorem State.onRecs_est : (s.onRecs f).est = s.est := rfl
@[simp] theorem State.onRecs_guard : (s.onRecs f).guard = s.guard := rfl
@[simp] theorem State.onRecs_disp : (s.onRecs f).disp = s.disp := rfl
@[simp] theorem State.onRecs_recs : (s.onRecs f).recs = f s.recs := rfl
@[simp] theorem State.onRecs_loops : (s.onRecs f).loops = s.loops := rfl
@[simp] theorem State.onRecs_load : (s.onRecs f).load = s.load := rfl
@[simp] theorem State.onRecs_can : (s.onRecs f).can = s.can := rfl
@[simp] theorem State.onRecs_upd : (s.onRecs f).upd = s.upd := rfl
end

section
variable (s : State) (f : Est → Est)
@[simp] theorem State.onEst_pending : (s.onEst f).pending = s.pending := rfl
@[simp] theorem State.onEst_clock : (s.onEst f).clock = s.clock := rfl
@[simp] theorem State.onEst_fresh : (s.onEst f).fresh = s.fresh := rfl
@[simp] theorem State.onEst_power : (s.onEst f).power = s.power := rfl
@[simp] theorem State.onEst_sys : (s.onEst f).sys = s.sys := rfl
@[simp] theorem State.onEst_beam : (s.onEst f).beam = s.beam := rfl
@[simp] theorem State.onEst_rings : (s.onEst f).rings = s.rings := rfl
@[simp] theorem State.onEst_nodes : (s.onEst f).nodes = s.nodes := rfl
@[simp] theorem State.onEst_sched : (s.onEst f).sched = s.sched := rfl
@[simp] theorem State.onEst_est : (s.onEst f).est = f s.est := rfl
@[simp] theorem State.onEst_guard : (s.onEst f).guard = s.guard := rfl
@[simp] theorem State.onEst_disp : (s.onEst f).disp = s.disp := rfl
@[simp] theorem State.onEst_recs : (s.onEst f).recs = s.recs := rfl
@[simp] theorem State.onEst_loops : (s.onEst f).loops = s.loops := rfl
@[simp] theorem State.onEst_load : (s.onEst f).load = s.load := rfl
@[simp] theorem State.onEst_can : (s.onEst f).can = s.can := rfl
@[simp] theorem State.onEst_upd : (s.onEst f).upd = s.upd := rfl
end

section
variable (s : State) (f : Sched → Sched)
@[simp] theorem State.onSched_pending : (s.onSched f).pending = s.pending := rfl
@[simp] theorem State.onSched_clock : (s.onSched f).clock = s.clock := rfl
@[simp] theorem State.onSched_fresh : (s.onSched f).fresh = s.fresh := rfl
@[simp] theorem State.onSched_power : (s.onSched f).power = s.power := rfl
@[simp] theorem State.onSched_sys : (s.onSched f).sys = s.sys := rfl
@[simp] theorem State.onSched_beam : (s.onSched f).beam = s.beam := rfl
@[simp] theorem State.onSched_rings : (s.onSched f).rings = s.rings := rfl
@[simp] theorem State.onSched_nodes : (s.onSched f).nodes = s.nodes := rfl
@[simp] theorem State.onSched_sched : (s.onSched f).sched = f s.sched := rfl
@[simp] theorem State.onSched_est : (s.onSched f).est = s.est := rfl
@[simp] theorem State.onSched_guard : (s.onSched f).guard = s.guard := rfl
@[simp] theorem State.onSched_disp : (s.onSched f).disp = s.disp := rfl
@[simp] theorem State.onSched_recs : (s.onSched f).recs = s.recs := rfl
@[simp] theorem State.onSched_loops : (s.onSched f).loops = s.loops := rfl
@[simp] theorem State.onSched_load : (s.onSched f).load = s.load := rfl
@[simp] theorem State.onSched_can : (s.onSched f).can = s.can := rfl
@[simp] theorem State.onSched_upd : (s.onSched f).upd = s.upd := rfl
end

section
variable (s : State) (f : Dispatch → Dispatch)
@[simp] theorem State.onDisp_pending : (s.onDisp f).pending = s.pending := rfl
@[simp] theorem State.onDisp_clock : (s.onDisp f).clock = s.clock := rfl
@[simp] theorem State.onDisp_fresh : (s.onDisp f).fresh = s.fresh := rfl
@[simp] theorem State.onDisp_power : (s.onDisp f).power = s.power := rfl
@[simp] theorem State.onDisp_sys : (s.onDisp f).sys = s.sys := rfl
@[simp] theorem State.onDisp_beam : (s.onDisp f).beam = s.beam := rfl
@[simp] theorem State.onDisp_rings : (s.onDisp f).rings = s.rings := rfl
@[simp] theorem State.onDisp_nodes : (s.onDisp f).nodes = s.nodes := rfl
@[simp] theorem State.onDisp_sched : (s.onDisp f).sched = s.sched := rfl
@[simp] theorem State.onDisp_est : (s.onDisp f).est = s.est := rfl
@[simp] theorem State.onDisp_guard : (s.onDisp f).guard = s.guard := rfl
@[simp] theorem State.onDisp_disp : (s.onDisp f).disp = f s.disp := rfl
@[simp] theorem State.onDisp_recs : (s.onDisp f).recs = s.recs := rfl
@[simp] theorem State.onDisp_loops : (s.onDisp f).loops = s.loops := rfl
@[simp] theorem State.onDisp_load : (s.onDisp f).load = s.load := rfl
@[simp] theorem State.onDisp_can : (s.onDisp f).can = s.can := rfl
@[simp] theorem State.onDisp_upd : (s.onDisp f).upd = s.upd := rfl
end

section
variable (s : State) (f : Loops → Loops)
@[simp] theorem State.onLoops_pending : (s.onLoops f).pending = s.pending := rfl
@[simp] theorem State.onLoops_clock : (s.onLoops f).clock = s.clock := rfl
@[simp] theorem State.onLoops_fresh : (s.onLoops f).fresh = s.fresh := rfl
@[simp] theorem State.onLoops_power : (s.onLoops f).power = s.power := rfl
@[simp] theorem State.onLoops_sys : (s.onLoops f).sys = s.sys := rfl
@[simp] theorem State.onLoops_beam : (s.onLoops f).beam = s.beam := rfl
@[simp] theorem State.onLoops_rings : (s.onLoops f).rings = s.rings := rfl
@[simp] theorem State.onLoops_nodes : (s.onLoops f).nodes = s.nodes := rfl
@[simp] theorem State.onLoops_sched : (s.onLoops f).sched = s.sched := rfl
@[simp] theorem State.onLoops_est : (s.onLoops f).est = s.est := rfl
@[simp] theorem State.onLoops_guard : (s.onLoops f).guard = s.guard := rfl
@[simp] theorem State.onLoops_disp : (s.onLoops f).disp = s.disp := rfl
@[simp] theorem State.onLoops_recs : (s.onLoops f).recs = s.recs := rfl
@[simp] theorem State.onLoops_loops : (s.onLoops f).loops = f s.loops := rfl
@[simp] theorem State.onLoops_load : (s.onLoops f).load = s.load := rfl
@[simp] theorem State.onLoops_can : (s.onLoops f).can = s.can := rfl
@[simp] theorem State.onLoops_upd : (s.onLoops f).upd = s.upd := rfl
end

section
variable (s : State) (f : Load → Load)
@[simp] theorem State.onLoad_pending : (s.onLoad f).pending = s.pending := rfl
@[simp] theorem State.onLoad_clock : (s.onLoad f).clock = s.clock := rfl
@[simp] theorem State.onLoad_fresh : (s.onLoad f).fresh = s.fresh := rfl
@[simp] theorem State.onLoad_power : (s.onLoad f).power = s.power := rfl
@[simp] theorem State.onLoad_sys : (s.onLoad f).sys = s.sys := rfl
@[simp] theorem State.onLoad_beam : (s.onLoad f).beam = s.beam := rfl
@[simp] theorem State.onLoad_rings : (s.onLoad f).rings = s.rings := rfl
@[simp] theorem State.onLoad_nodes : (s.onLoad f).nodes = s.nodes := rfl
@[simp] theorem State.onLoad_sched : (s.onLoad f).sched = s.sched := rfl
@[simp] theorem State.onLoad_est : (s.onLoad f).est = s.est := rfl
@[simp] theorem State.onLoad_guard : (s.onLoad f).guard = s.guard := rfl
@[simp] theorem State.onLoad_disp : (s.onLoad f).disp = s.disp := rfl
@[simp] theorem State.onLoad_recs : (s.onLoad f).recs = s.recs := rfl
@[simp] theorem State.onLoad_loops : (s.onLoad f).loops = s.loops := rfl
@[simp] theorem State.onLoad_load : (s.onLoad f).load = f s.load := rfl
@[simp] theorem State.onLoad_can : (s.onLoad f).can = s.can := rfl
@[simp] theorem State.onLoad_upd : (s.onLoad f).upd = s.upd := rfl
end

section
variable (s : State) (f : Can → Can)
@[simp] theorem State.onCan_pending : (s.onCan f).pending = s.pending := rfl
@[simp] theorem State.onCan_clock : (s.onCan f).clock = s.clock := rfl
@[simp] theorem State.onCan_fresh : (s.onCan f).fresh = s.fresh := rfl
@[simp] theorem State.onCan_power : (s.onCan f).power = s.power := rfl
@[simp] theorem State.onCan_sys : (s.onCan f).sys = s.sys := rfl
@[simp] theorem State.onCan_beam : (s.onCan f).beam = s.beam := rfl
@[simp] theorem State.onCan_rings : (s.onCan f).rings = s.rings := rfl
@[simp] theorem State.onCan_nodes : (s.onCan f).nodes = s.nodes := rfl
@[simp] theorem State.onCan_sched : (s.onCan f).sched = s.sched := rfl
@[simp] theorem State.onCan_est : (s.onCan f).est = s.est := rfl
@[simp] theorem State.onCan_guard : (s.onCan f).guard = s.guard := rfl
@[simp] theorem State.onCan_disp : (s.onCan f).disp = s.disp := rfl
@[simp] theorem State.onCan_recs : (s.onCan f).recs = s.recs := rfl
@[simp] theorem State.onCan_loops : (s.onCan f).loops = s.loops := rfl
@[simp] theorem State.onCan_load : (s.onCan f).load = s.load := rfl
@[simp] theorem State.onCan_can : (s.onCan f).can = f s.can := rfl
@[simp] theorem State.onCan_upd : (s.onCan f).upd = s.upd := rfl
end

section
variable (s : State) (f : Power → Power)
@[simp] theorem State.onPower_pending : (s.onPower f).pending = s.pending := rfl
@[simp] theorem State.onPower_clock : (s.onPower f).clock = s.clock := rfl
@[simp] theorem State.onPower_fresh : (s.onPower f).fresh = s.fresh := rfl
@[simp] theorem State.onPower_power : (s.onPower f).power = f s.power := rfl
@[simp] theorem State.onPower_sys : (s.onPower f).sys = s.sys := rfl
@[simp] theorem State.onPower_beam : (s.onPower f).beam = s.beam := rfl
@[simp] theorem State.onPower_rings : (s.onPower f).rings = s.rings := rfl
@[simp] theorem State.onPower_nodes : (s.onPower f).nodes = s.nodes := rfl
@[simp] theorem State.onPower_sched : (s.onPower f).sched = s.sched := rfl
@[simp] theorem State.onPower_est : (s.onPower f).est = s.est := rfl
@[simp] theorem State.onPower_guard : (s.onPower f).guard = s.guard := rfl
@[simp] theorem State.onPower_disp : (s.onPower f).disp = s.disp := rfl
@[simp] theorem State.onPower_recs : (s.onPower f).recs = s.recs := rfl
@[simp] theorem State.onPower_loops : (s.onPower f).loops = s.loops := rfl
@[simp] theorem State.onPower_load : (s.onPower f).load = s.load := rfl
@[simp] theorem State.onPower_can : (s.onPower f).can = s.can := rfl
@[simp] theorem State.onPower_upd : (s.onPower f).upd = s.upd := rfl
end

section
variable (s : State) (f : Update → Update)
@[simp] theorem State.onUpd_pending : (s.onUpd f).pending = s.pending := rfl
@[simp] theorem State.onUpd_clock : (s.onUpd f).clock = s.clock := rfl
@[simp] theorem State.onUpd_fresh : (s.onUpd f).fresh = s.fresh := rfl
@[simp] theorem State.onUpd_power : (s.onUpd f).power = s.power := rfl
@[simp] theorem State.onUpd_sys : (s.onUpd f).sys = s.sys := rfl
@[simp] theorem State.onUpd_beam : (s.onUpd f).beam = s.beam := rfl
@[simp] theorem State.onUpd_rings : (s.onUpd f).rings = s.rings := rfl
@[simp] theorem State.onUpd_nodes : (s.onUpd f).nodes = s.nodes := rfl
@[simp] theorem State.onUpd_sched : (s.onUpd f).sched = s.sched := rfl
@[simp] theorem State.onUpd_est : (s.onUpd f).est = s.est := rfl
@[simp] theorem State.onUpd_guard : (s.onUpd f).guard = s.guard := rfl
@[simp] theorem State.onUpd_disp : (s.onUpd f).disp = s.disp := rfl
@[simp] theorem State.onUpd_recs : (s.onUpd f).recs = s.recs := rfl
@[simp] theorem State.onUpd_loops : (s.onUpd f).loops = s.loops := rfl
@[simp] theorem State.onUpd_load : (s.onUpd f).load = s.load := rfl
@[simp] theorem State.onUpd_can : (s.onUpd f).can = s.can := rfl
@[simp] theorem State.onUpd_upd : (s.onUpd f).upd = f s.upd := rfl
end

section
variable (s : State) (code : Nat) (ps : List Int)
@[simp] theorem State.raise_pending : (s.raise code ps).pending = s.pending := rfl
@[simp] theorem State.raise_clock : (s.raise code ps).clock = s.clock := rfl
@[simp] theorem State.raise_fresh : (s.raise code ps).fresh = s.fresh := rfl
@[simp] theorem State.raise_power : (s.raise code ps).power = s.power := rfl
@[simp] theorem State.raise_sys : (s.raise code ps).sys = s.sys := rfl
@[simp] theorem State.raise_beam : (s.raise code ps).beam = s.beam := rfl
@[simp] theorem State.raise_rings : (s.raise code ps).rings = s.rings := rfl
@[simp] theorem State.raise_nodes : (s.raise code ps).nodes = s.nodes := rfl
@[simp] theorem State.raise_sched : (s.raise code ps).sched = s.sched := rfl
@[simp] theorem State.raise_est : (s.raise code ps).est = s.est := rfl
@[simp] theorem State.raise_guard : (s.raise code ps).guard = s.guard := rfl
@[simp] theorem State.raise_disp : (s.raise code ps).disp = s.disp := rfl
@[simp] theorem State.raise_recs : (s.raise code ps).recs = s.recs.push (mkEv code ps) := rfl
@[simp] theorem State.raise_loops : (s.raise code ps).loops = s.loops := rfl
@[simp] theorem State.raise_load : (s.raise code ps).load = s.load := rfl
@[simp] theorem State.raise_can : (s.raise code ps).can = s.can := rfl
@[simp] theorem State.raise_upd : (s.raise code ps).upd = s.upd := rfl
end

section
variable (s : State) (n : Nat)
@[simp] theorem State.wake_page (k : Nat) : (s.wake n).page k = s.page k := rfl
@[simp] theorem State.wake_pending : (s.wake n).pending = s.pending := rfl
@[simp] theorem State.wake_clock : (s.wake n).clock = s.clock := rfl
@[simp] theorem State.wake_fresh : (s.wake n).fresh = s.fresh := rfl
@[simp] theorem State.wake_power : (s.wake n).power = s.power := rfl
@[simp] theorem State.wake_beam : (s.wake n).beam = s.beam := rfl
@[simp] theorem State.wake_rings : (s.wake n).rings = s.rings := rfl
@[simp] theorem State.wake_nodes : (s.wake n).nodes = s.nodes := rfl
@[simp] theorem State.wake_sched : (s.wake n).sched = s.sched := rfl
@[simp] theorem State.wake_est : (s.wake n).est = s.est := rfl
@[simp] theorem State.wake_guard : (s.wake n).guard = s.guard := rfl
@[simp] theorem State.wake_disp : (s.wake n).disp = s.disp := rfl
@[simp] theorem State.wake_recs : (s.wake n).recs = s.recs := rfl
@[simp] theorem State.wake_loops : (s.wake n).loops = s.loops := rfl
@[simp] theorem State.wake_load : (s.wake n).load = s.load := rfl
@[simp] theorem State.wake_can : (s.wake n).can = s.can := rfl
@[simp] theorem State.wake_upd : (s.wake n).upd = s.upd := rfl
end

section
variable (s : State)
@[simp] theorem State.commitCfg_pending : s.commitCfg.pending = s.pending := rfl
@[simp] theorem State.free_pending : s.free.2.pending = s.pending := rfl
@[simp] theorem State.commitCfg_clock : s.commitCfg.clock = s.clock := rfl
@[simp] theorem State.free_clock : s.free.2.clock = s.clock := rfl
@[simp] theorem State.commitCfg_fresh : s.commitCfg.fresh = s.fresh := rfl
@[simp] theorem State.commitCfg_power : s.commitCfg.power = s.power := rfl
@[simp] theorem State.free_power : s.free.2.power = s.power := rfl
@[simp] theorem State.commitCfg_sys : s.commitCfg.sys = s.sys := rfl
@[simp] theorem State.free_sys : s.free.2.sys = s.sys := rfl
@[simp] theorem State.commitCfg_beam : s.commitCfg.beam = s.beam := rfl
@[simp] theorem State.free_beam : s.free.2.beam = s.beam := rfl
@[simp] theorem State.commitCfg_rings : s.commitCfg.rings = s.rings := rfl
@[simp] theorem State.free_rings : s.free.2.rings = s.rings := rfl
@[simp] theorem State.commitCfg_nodes : s.commitCfg.nodes = s.nodes := rfl
@[simp] theorem State.free_nodes : s.free.2.nodes = s.nodes := rfl
@[simp] theorem State.commitCfg_sched : s.commitCfg.sched = s.sched := rfl
@[simp] theorem State.free_sched : s.free.2.sched = s.sched := rfl
@[simp] theorem State.commitCfg_est : s.commitCfg.est = s.est := rfl
@[simp] theorem State.free_est : s.free.2.est = s.est := rfl
@[simp] theorem State.commitCfg_guard : s.commitCfg.guard = s.guard := rfl
@[simp] theorem State.free_guard : s.free.2.guard = s.guard := rfl
@[simp] theorem State.commitCfg_disp : s.commitCfg.disp = s.disp := rfl
@[simp] theorem State.free_disp : s.free.2.disp = s.disp := rfl
@[simp] theorem State.free_recs : s.free.2.recs = s.recs := rfl
@[simp] theorem State.commitCfg_loops : s.commitCfg.loops = s.loops := rfl
@[simp] theorem State.free_loops : s.free.2.loops = s.loops := rfl
@[simp] theorem State.commitCfg_load : s.commitCfg.load = s.load := rfl
@[simp] theorem State.free_load : s.free.2.load = s.load := rfl
@[simp] theorem State.commitCfg_can : s.commitCfg.can = s.can := rfl
@[simp] theorem State.free_can : s.free.2.can = s.can := rfl
@[simp] theorem State.commitCfg_upd : s.commitCfg.upd = s.upd := rfl
@[simp] theorem State.free_upd : s.free.2.upd = s.upd := rfl
@[simp] theorem State.when_true (f : State → State) : s.when true f = f s := rfl
@[simp] theorem State.when_false (f : State → State) : s.when false f = s := rfl
end

@[simp] theorem onlyIf_true (f : State → State) (s : State) : onlyIf true f s = .next (f s) := rfl
@[simp] theorem onlyIf_false (f : State → State) (s : State) : onlyIf false f s = .next s := rfl
@[simp] theorem forEach_nil {α : Type} (f : α → State → State) (s : State) : forEach [] f s = s := rfl
@[simp] theorem forEach_cons {α : Type} (x : α) (l : List α) (f : α → State → State) (s : State) :
    forEach (x :: l) f s = forEach l f (f x s) := rfl

/-! ### Reading a part back after it was changed -/

theorem State.tablesOk_ring {s : State} (h : s.tablesOk = true) : tok Ring.reset s.rings = true := by
  simp only [State.tablesOk, State.coreTablesOk, State.unitTablesOk, Bool.and_eq_true] at h; simp [h]

/-- Ring k reads as changed. -/
theorem State.ring_modRing_same {s : State} (h : s.tablesOk = true) (k : Nat) (f : Ring → Ring) :
    (s.modRing k f).ring k = f (s.ring k) := tget_tmod_same k f (State.tablesOk_ring h)

/-- Every other Ring is left alone. -/
@[simp] theorem State.ring_modRing_ne (s : State) {k j : Nat} (f : Ring → Ring) (hj : j ≠ k) :
    (s.modRing k f).ring j = s.ring j := tget_tmod_ne _ _ f hj

theorem State.tablesOk_node {s : State} (h : s.tablesOk = true) : tok Node.reset s.nodes = true := by
  simp only [State.tablesOk, State.coreTablesOk, State.unitTablesOk, Bool.and_eq_true] at h; simp [h]

/-- Node k reads as changed. -/
theorem State.node_modNode_same {s : State} (h : s.tablesOk = true) (k : Nat) (f : Node → Node) :
    (s.modNode k f).node k = f (s.node k) := tget_tmod_same k f (State.tablesOk_node h)

/-- Every other Node is left alone. -/
@[simp] theorem State.node_modNode_ne (s : State) {k j : Nat} (f : Node → Node) (hj : j ≠ k) :
    (s.modNode k f).node j = s.node j := tget_tmod_ne _ _ f hj

theorem State.tablesOk_mark {s : State} (h : s.tablesOk = true) : tok Mark.reset s.beam.marks = true := by
  simp only [State.tablesOk, State.coreTablesOk, State.unitTablesOk, Bool.and_eq_true] at h; simp [h]

/-- Mark k reads as changed. -/
theorem State.mark_modMark_same {s : State} (h : s.tablesOk = true) (k : Nat) (f : Mark → Mark) :
    (s.modMark k f).mark k = f (s.mark k) := tget_tmod_same k f (State.tablesOk_mark h)

/-- Every other Mark is left alone. -/
@[simp] theorem State.mark_modMark_ne (s : State) {k j : Nat} (f : Mark → Mark) (hj : j ≠ k) :
    (s.modMark k f).mark j = s.mark j := tget_tmod_ne _ _ f hj

theorem State.tablesOk_rod {s : State} (h : s.tablesOk = true) : tok Rod.reset s.sched.rods = true := by
  simp only [State.tablesOk, State.coreTablesOk, State.unitTablesOk, Bool.and_eq_true] at h; simp [h]

/-- Rod k reads as changed. -/
theorem State.rod_modRod_same {s : State} (h : s.tablesOk = true) (k : Nat) (f : Rod → Rod) :
    (s.modRod k f).rod k = f (s.rod k) := tget_tmod_same k f (State.tablesOk_rod h)

/-- Every other Rod is left alone. -/
@[simp] theorem State.rod_modRod_ne (s : State) {k j : Nat} (f : Rod → Rod) (hj : j ≠ k) :
    (s.modRod k f).rod j = s.rod j := tget_tmod_ne _ _ f hj

theorem State.tablesOk_cell {s : State} (h : s.tablesOk = true) : tok Cell.reset s.est.cells = true := by
  simp only [State.tablesOk, State.coreTablesOk, State.unitTablesOk, Bool.and_eq_true] at h; simp [h]

/-- Cell k reads as changed. -/
theorem State.cell_modCell_same {s : State} (h : s.tablesOk = true) (k : Nat) (f : Cell → Cell) :
    (s.modCell k f).cell k = f (s.cell k) := tget_tmod_same k f (State.tablesOk_cell h)

/-- Every other Cell is left alone. -/
@[simp] theorem State.cell_modCell_ne (s : State) {k j : Nat} (f : Cell → Cell) (hj : j ≠ k) :
    (s.modCell k f).cell j = s.cell j := tget_tmod_ne _ _ f hj

theorem State.tablesOk_str {s : State} (h : s.tablesOk = true) : tok Str.reset s.est.strs = true := by
  simp only [State.tablesOk, State.coreTablesOk, State.unitTablesOk, Bool.and_eq_true] at h; simp [h]

/-- Str k reads as changed. -/
theorem State.str_modStr_same {s : State} (h : s.tablesOk = true) (k : Nat) (f : Str → Str) :
    (s.modStr k f).str k = f (s.str k) := tget_tmod_same k f (State.tablesOk_str h)

/-- Every other Str is left alone. -/
@[simp] theorem State.str_modStr_ne (s : State) {k j : Nat} (f : Str → Str) (hj : j ≠ k) :
    (s.modStr k f).str j = s.str j := tget_tmod_ne _ _ f hj

theorem State.tablesOk_balNode {s : State} (h : s.tablesOk = true) : tok BalNode.reset s.est.bal = true := by
  simp only [State.tablesOk, State.coreTablesOk, State.unitTablesOk, Bool.and_eq_true] at h; simp [h]

/-- BalNode k reads as changed. -/
theorem State.balNode_modBal_same {s : State} (h : s.tablesOk = true) (k : Nat) (f : BalNode → BalNode) :
    (s.modBal k f).balNode k = f (s.balNode k) := tget_tmod_same k f (State.tablesOk_balNode h)

/-- Every other BalNode is left alone. -/
@[simp] theorem State.balNode_modBal_ne (s : State) {k j : Nat} (f : BalNode → BalNode) (hj : j ≠ k) :
    (s.modBal k f).balNode j = s.balNode j := tget_tmod_ne _ _ f hj

theorem State.tablesOk_tempIn {s : State} (h : s.tablesOk = true) : tok TempIn.reset s.est.temps = true := by
  simp only [State.tablesOk, State.coreTablesOk, State.unitTablesOk, Bool.and_eq_true] at h; simp [h]

/-- TempIn k reads as changed. -/
theorem State.tempIn_modTemp_same {s : State} (h : s.tablesOk = true) (k : Nat) (f : TempIn → TempIn) :
    (s.modTemp k f).tempIn k = f (s.tempIn k) := tget_tmod_same k f (State.tablesOk_tempIn h)

/-- Every other TempIn is left alone. -/
@[simp] theorem State.tempIn_modTemp_ne (s : State) {k j : Nat} (f : TempIn → TempIn) (hj : j ≠ k) :
    (s.modTemp k f).tempIn j = s.tempIn j := tget_tmod_ne _ _ f hj

theorem State.tablesOk_tin {s : State} (h : s.tablesOk = true) : tok Tin.reset s.est.tins = true := by
  simp only [State.tablesOk, State.coreTablesOk, State.unitTablesOk, Bool.and_eq_true] at h; simp [h]

/-- Tin k reads as changed. -/
theorem State.tin_modTin_same {s : State} (h : s.tablesOk = true) (k : Nat) (f : Tin → Tin) :
    (s.modTin k f).tin k = f (s.tin k) := tget_tmod_same k f (State.tablesOk_tin h)

/-- Every other Tin is left alone. -/
@[simp] theorem State.tin_modTin_ne (s : State) {k j : Nat} (f : Tin → Tin) (hj : j ≠ k) :
    (s.modTin k f).tin j = s.tin j := tget_tmod_ne _ _ f hj

theorem State.tablesOk_fpi {s : State} (h : s.tablesOk = true) : tok Fpi.reset s.guard.fpi = true := by
  simp only [State.tablesOk, State.coreTablesOk, State.unitTablesOk, Bool.and_eq_true] at h; simp [h]

/-- Fpi k reads as changed. -/
theorem State.fpi_modFpi_same {s : State} (h : s.tablesOk = true) (k : Nat) (f : Fpi → Fpi) :
    (s.modFpi k f).fpi k = f (s.fpi k) := tget_tmod_same k f (State.tablesOk_fpi h)

/-- Every other Fpi is left alone. -/
@[simp] theorem State.fpi_modFpi_ne (s : State) {k j : Nat} (f : Fpi → Fpi) (hj : j ≠ k) :
    (s.modFpi k f).fpi j = s.fpi j := tget_tmod_ne _ _ f hj

theorem State.tablesOk_tenant {s : State} (h : s.tablesOk = true) : tok Tenant.reset s.disp.tenants = true := by
  simp only [State.tablesOk, State.coreTablesOk, State.unitTablesOk, Bool.and_eq_true] at h; simp [h]

/-- Tenant k reads as changed. -/
theorem State.tenant_modTenant_same {s : State} (h : s.tablesOk = true) (k : Nat) (f : Tenant → Tenant) :
    (s.modTenant k f).tenant k = f (s.tenant k) := tget_tmod_same k f (State.tablesOk_tenant h)

/-- Every other Tenant is left alone. -/
@[simp] theorem State.tenant_modTenant_ne (s : State) {k j : Nat} (f : Tenant → Tenant) (hj : j ≠ k) :
    (s.modTenant k f).tenant j = s.tenant j := tget_tmod_ne _ _ f hj

theorem State.tablesOk_page {s : State} (h : s.tablesOk = true) : tok Page.reset s.sys.pages = true := by
  simp only [State.tablesOk, State.coreTablesOk, State.unitTablesOk, Bool.and_eq_true] at h; simp [h]

/-- Page k reads as changed. -/
theorem State.page_modPage_same {s : State} (h : s.tablesOk = true) (k : Nat) (f : Page → Page) :
    (s.modPage k f).page k = f (s.page k) := tget_tmod_same k f (State.tablesOk_page h)

/-- Every other Page is left alone. -/
@[simp] theorem State.page_modPage_ne (s : State) {k j : Nat} (f : Page → Page) (hj : j ≠ k) :
    (s.modPage k f).page j = s.page j := tget_tmod_ne _ _ f hj

theorem State.tablesOk_loop {s : State} (h : s.tablesOk = true) : tok Loop.reset s.loops.loops = true := by
  simp only [State.tablesOk, State.coreTablesOk, State.unitTablesOk, Bool.and_eq_true] at h; simp [h]

/-- Loop k reads as changed. -/
theorem State.loop_modLoop_same {s : State} (h : s.tablesOk = true) (k : Nat) (f : Loop → Loop) :
    (s.modLoop k f).loop k = f (s.loop k) := tget_tmod_same k f (State.tablesOk_loop h)

/-- Every other Loop is left alone. -/
@[simp] theorem State.loop_modLoop_ne (s : State) {k j : Nat} (f : Loop → Loop) (hj : j ≠ k) :
    (s.modLoop k f).loop j = s.loop j := tget_tmod_ne _ _ f hj

theorem State.tablesOk_axis {s : State} (h : s.tablesOk = true) : tok Axis.reset s.loops.axes = true := by
  simp only [State.tablesOk, State.coreTablesOk, State.unitTablesOk, Bool.and_eq_true] at h; simp [h]

/-- Axis k reads as changed. -/
theorem State.axis_modAxis_same {s : State} (h : s.tablesOk = true) (k : Nat) (f : Axis → Axis) :
    (s.modAxis k f).axis k = f (s.axis k) := tget_tmod_same k f (State.tablesOk_axis h)

/-- Every other Axis is left alone. -/
@[simp] theorem State.axis_modAxis_ne (s : State) {k j : Nat} (f : Axis → Axis) (hj : j ≠ k) :
    (s.modAxis k f).axis j = s.axis j := tget_tmod_ne _ _ f hj

theorem State.tablesOk_chan {s : State} (h : s.tablesOk = true) : tok Chan.reset s.load.chans = true := by
  simp only [State.tablesOk, State.coreTablesOk, State.unitTablesOk, Bool.and_eq_true] at h; simp [h]

/-- Chan k reads as changed. -/
theorem State.chan_modChan_same {s : State} (h : s.tablesOk = true) (k : Nat) (f : Chan → Chan) :
    (s.modChan k f).chan k = f (s.chan k) := tget_tmod_same k f (State.tablesOk_chan h)

/-- Every other Chan is left alone. -/
@[simp] theorem State.chan_modChan_ne (s : State) {k j : Nat} (f : Chan → Chan) (hj : j ≠ k) :
    (s.modChan k f).chan j = s.chan j := tget_tmod_ne _ _ f hj

theorem State.tablesOk_ctrl {s : State} (h : s.tablesOk = true) : tok Ctrl.reset s.can.ctrls = true := by
  simp only [State.tablesOk, State.coreTablesOk, State.unitTablesOk, Bool.and_eq_true] at h; simp [h]

/-- Ctrl k reads as changed. -/
theorem State.ctrl_modCtrl_same {s : State} (h : s.tablesOk = true) (k : Nat) (f : Ctrl → Ctrl) :
    (s.modCtrl k f).ctrl k = f (s.ctrl k) := tget_tmod_same k f (State.tablesOk_ctrl h)

/-- Every other Ctrl is left alone. -/
@[simp] theorem State.ctrl_modCtrl_ne (s : State) {k j : Nat} (f : Ctrl → Ctrl) (hj : j ≠ k) :
    (s.modCtrl k f).ctrl j = s.ctrl j := tget_tmod_ne _ _ f hj

theorem State.tablesOk_unit {s : State} (h : s.tablesOk = true) : tok Unit_.reset s.can.units = true := by
  simp only [State.tablesOk, State.coreTablesOk, State.unitTablesOk, Bool.and_eq_true] at h; simp [h]

/-- Unit_ k reads as changed. -/
theorem State.unit_modUnit_same {s : State} (h : s.tablesOk = true) (k : Nat) (f : Unit_ → Unit_) :
    (s.modUnit k f).unit k = f (s.unit k) := tget_tmod_same k f (State.tablesOk_unit h)

/-- Every other Unit_ is left alone. -/
@[simp] theorem State.unit_modUnit_ne (s : State) {k j : Nat} (f : Unit_ → Unit_) (hj : j ≠ k) :
    (s.modUnit k f).unit j = s.unit j := tget_tmod_ne _ _ f hj

theorem State.tablesOk_alarm {s : State} (h : s.tablesOk = true) : tok Alarm.reset s.can.alarms = true := by
  simp only [State.tablesOk, State.coreTablesOk, State.unitTablesOk, Bool.and_eq_true] at h; simp [h]

/-- Alarm k reads as changed. -/
theorem State.alarm_modAlarm_same {s : State} (h : s.tablesOk = true) (k : Nat) (f : Alarm → Alarm) :
    (s.modAlarm k f).alarm k = f (s.alarm k) := tget_tmod_same k f (State.tablesOk_alarm h)

/-- Every other Alarm is left alone. -/
@[simp] theorem State.alarm_modAlarm_ne (s : State) {k j : Nat} (f : Alarm → Alarm) (hj : j ≠ k) :
    (s.modAlarm k f).alarm j = s.alarm j := tget_tmod_ne _ _ f hj

end Sys2Proof.Machine
end

