-- ==== Sys2Proof/Laws/KeptOps.lean ====
section
/-! SUPPORT. Each operation and each meaning of Ops, Mail, Beam goes on and keeps the queue, the clock, canonical tables, and every part outside its list. -/
namespace Sys2Proof.Machine
open Sys2Proof

/-- The keyed tables that the invariant speaks of. -/
def State.tabs (s : State) := ((s.rings, s.nodes, s.est.cells, s.est.strs, s.est.bal, s.est.temps, s.est.tins, s.guard.fpi, s.disp.tenants,
  s.recs.counters), (s.beam.marks, s.sched.rods, s.sys.pages, s.loops.loops, s.loops.axes, s.load.chans, s.can.ctrls, s.can.units,
  s.can.alarms))

/-- A list of parts lies within another. -/
def Sub (a b : List Part) : Prop := ∀ p ∈ a, p ∈ b

theorem Sub.refl (a : List Part) : Sub a a := fun _ h => h
theorem sub_of {a b pp : List Part} (h : a.all (fun p => b.contains p) = true) (hm : Sub b pp) : Sub a pp := fun p hp =>
  hm p (List.contains_iff_mem.1 (List.all_eq_true.1 h p hp))
theorem Sub.mem {p : Part} {l pp : List Part} (h : Sub l pp) (k : p ∈ l) : p ∈ pp := h p k
theorem Sub.cons {p : Part} {l pp : List Part} (h : p ∈ pp) (k : Sub l pp) : Sub (p :: l) pp := fun q hq => by
  rcases List.mem_cons.1 hq with rfl | hq
  · exact h
  · exact k q hq
theorem Sub.head {p : Part} {l pp : List Part} (h : Sub (p :: l) pp) : p ∈ pp := h p List.mem_cons_self

theorem Part.same_refl (p : Part) (s : State) : p.same s s := by cases p <;> rfl
theorem Part.same_trans {p : Part} {r s t : State} (h : p.same r s) (k : p.same s t) : p.same r t := by
  cases p <;> exact Eq.trans k h

/-- What every operation keeps: the queue, the clock, canonical tables, and every part outside a list. -/
structure Kept (pp : List Part) (s t : State) : Prop where
  pending : t.pending = s.pending
  clock : t.clock = s.clock
  tables : s.tablesOk = true → t.tablesOk = true
  parts : OnlyParts pp s t

theorem Kept.refl {pp : List Part} (s : State) : Kept pp s s := ⟨rfl, rfl, id, fun p => .inr (p.same_refl s)⟩

/-- The tables of the tuple decide whether they are canonical. -/
theorem tablesOk_of_tabs {s t : State} (h : t.tabs = s.tabs) (hs : s.tablesOk = true) : t.tablesOk = true := by
  simp only [State.tabs, Prod.mk.injEq] at h
  simpa [State.tablesOk, State.coreTablesOk, State.unitTablesOk, h] using hs

/-- What changes next lies within the same parts. -/
theorem OnlyParts.comp {pp : List Part} {r s t : State} (h : OnlyParts pp r s) (k : OnlyParts pp s t) : OnlyParts pp r t := fun p => by
  rcases h p with hp | hp
  · exact .inl hp
  · exact (k p).imp id fun kp => Part.same_trans hp kp

theorem Kept.comp {pp : List Part} {r s t : State} (h : Kept pp r s) (k : Kept pp s t) : Kept pp r t :=
  ⟨k.pending.trans h.pending, k.clock.trans h.clock, fun x => k.tables (h.tables x), h.parts.comp k.parts⟩

/-- A change outside the queue, the clock and the tables. -/
theorem Kept.same {pp : List Part} {r s t : State} (h : Kept pp r s) (hp : t.pending = s.pending) (hc : t.clock = s.clock)
    (ht : t.tabs = s.tabs) (hs : OnlyParts pp s t) : Kept pp r t :=
  ⟨hp.trans h.pending, hc.trans h.clock, fun k => tablesOk_of_tabs ht (h.tables k), h.parts.comp hs⟩

variable {pp : List Part}

theorem State.when_kept {r s : State} {c : Bool} {f : State → State} (hf : Kept pp r s → Kept pp r (f s)) (h : Kept pp r s) :
    Kept pp r (s.when c f) := by
  cases c
  · exact h
  · exact hf h

theorem ite_kept {r s t : State} {c : Prop} [Decidable c] (hs : Kept pp r s) (ht : Kept pp r t) : Kept pp r (if c then s else t) := by
  split
  · exact hs
  · exact ht

theorem ite_kept' {r s t : State} {c : Prop} [Decidable c] (hs : c → Kept pp r s) (ht : ¬c → Kept pp r t) :
    Kept pp r (if c then s else t) := by
  split
  · exact hs (by assumption)
  · exact ht (by assumption)

theorem foldl_kept {α : Type} {l : List α} {f : State → α → State} {r s : State} (hf : ∀ t x, Kept pp r t → Kept pp r (f t x))
    (h : Kept pp r s) : Kept pp r (l.foldl f s) := by
  induction l generalizing s with
  | nil => exact h
  | cons x l ih => exact ih (hf _ _ h)

theorem forEach_kept {α : Type} {l : List α} {f : α → State → State} {r s : State} (hf : ∀ x t, Kept pp r t → Kept pp r (f x t))
    (h : Kept pp r s) : Kept pp r (forEach l f s) := foldl_kept (fun t x => hf x t) h

theorem State.free_kept {r s : State} (h : Kept pp r s) (hm : Sub [.fresh] pp) : Kept pp r s.free.2 :=
  h.same rfl rfl rfl fun p => by
    cases p <;> first | exact .inr rfl | exact .inl hm.head

/-- A step goes on and keeps what every operation keeps. -/
def Goes (pp : List Part) (s : State) (o : Host.Outcome State Fault Refusal) : Prop := ∃ t, o = .next t ∧ Kept pp s t

theorem next_goes {s t : State} (h : Kept pp s t) : Goes pp s (.next t) := ⟨t, rfl, h⟩
theorem done_goes {s t : State} (h : Kept pp s t) : Goes pp s (done t) := ⟨t, rfl, h⟩
theorem onlyIf_goes {c : Bool} {f : State → State} {s : State} (hf : Kept pp s (f s)) : Goes pp s (onlyIf c f s) := by
  cases c
  · exact next_goes (Kept.refl s)
  · exact next_goes hf
theorem ite_goes {s : State} {c : Prop} [Decidable c] {a b : Host.Outcome State Fault Refusal} (ha : Goes pp s a) (hb : Goes pp s b) :
    Goes pp s (if c then a else b) := by
  split
  · exact ha
  · exact hb

theorem State.modRing_kept {k : Nat} {f : Ring → Ring} {r s : State} (h : Kept pp r s) (hm : Sub [.rings] pp) :
    Kept pp r (s.modRing k f) :=
  h.comp ⟨rfl, rfl, fun hs => by
    have hk := tok_tmod k f (State.tablesOk_ring hs)
    simp only [State.tablesOk, State.coreTablesOk, State.unitTablesOk, Bool.and_eq_true] at hs
    simp [State.tablesOk, State.coreTablesOk, State.unitTablesOk, State.modRing, hs, hk],
    fun p => by cases p <;> first | exact .inr rfl | exact .inl hm.head⟩

theorem State.modNode_kept {k : Nat} {f : Node → Node} {r s : State} (h : Kept pp r s) (hm : Sub [.nodes] pp) :
    Kept pp r (s.modNode k f) :=
  h.comp ⟨rfl, rfl, fun hs => by
    have hk := tok_tmod k f (State.tablesOk_node hs)
    simp only [State.tablesOk, State.coreTablesOk, State.unitTablesOk, Bool.and_eq_true] at hs
    simp [State.tablesOk, State.coreTablesOk, State.unitTablesOk, State.modNode, hs, hk],
    fun p => by cases p <;> first | exact .inr rfl | exact .inl hm.head⟩

theorem State.modMark_kept {k : Nat} {f : Mark → Mark} {r s : State} (h : Kept pp r s) (hm : Sub [.marks] pp) :
    Kept pp r (s.modMark k f) :=
  h.comp ⟨rfl, rfl, fun hs => by
    have hk := tok_tmod k f (State.tablesOk_mark hs)
    simp only [State.tablesOk, State.coreTablesOk, State.unitTablesOk, Bool.and_eq_true] at hs
    simp [State.tablesOk, State.coreTablesOk, State.unitTablesOk, State.modMark, hs, hk],
    fun p => by cases p <;> first | exact .inr rfl | exact .inl hm.head⟩

theorem State.modRod_kept {k : Nat} {f : Rod → Rod} {r s : State} (h : Kept pp r s) (hm : Sub [.rods] pp) :
    Kept pp r (s.modRod k f) :=
  h.comp ⟨rfl, rfl, fun hs => by
    have hk := tok_tmod k f (State.tablesOk_rod hs)
    simp only [State.tablesOk, State.coreTablesOk, State.unitTablesOk, Bool.and_eq_true] at hs
    simp [State.tablesOk, State.coreTablesOk, State.unitTablesOk, State.modRod, hs, hk],
    fun p => by cases p <;> first | exact .inr rfl | exact .inl hm.head⟩

theorem State.modCell_kept {k : Nat} {f : Cell → Cell} {r s : State} (h : Kept pp r s) (hm : Sub [.est] pp) :
    Kept pp r (s.modCell k f) :=
  h.comp ⟨rfl, rfl, fun hs => by
    have hk := tok_tmod k f (State.tablesOk_cell hs)
    simp only [State.tablesOk, State.coreTablesOk, State.unitTablesOk, Bool.and_eq_true] at hs
    simp [State.tablesOk, State.coreTablesOk, State.unitTablesOk, State.modCell, hs, hk],
    fun p => by cases p <;> first | exact .inr rfl | exact .inl hm.head⟩

theorem State.modStr_kept {k : Nat} {f : Str → Str} {r s : State} (h : Kept pp r s) (hm : Sub [.est] pp) :
    Kept pp r (s.modStr k f) :=
  h.comp ⟨rfl, rfl, fun hs => by
    have hk := tok_tmod k f (State.tablesOk_str hs)
    simp only [State.tablesOk, State.coreTablesOk, State.unitTablesOk, Bool.and_eq_true] at hs
    simp [State.tablesOk, State.coreTablesOk, State.unitTablesOk, State.modStr, hs, hk],
    fun p => by cases p <;> first | exact .inr rfl | exact .inl hm.head⟩

theorem State.modBal_kept {k : Nat} {f : BalNode → BalNode} {r s : State} (h : Kept pp r s) (hm : Sub [.est] pp) :
    Kept pp r (s.modBal k f) :=
  h.comp ⟨rfl, rfl, fun hs => by
    have hk := tok_tmod k f (State.tablesOk_balNode hs)
    simp only [State.tablesOk, State.coreTablesOk, State.unitTablesOk, Bool.and_eq_true] at hs
    simp [State.tablesOk, State.coreTablesOk, State.unitTablesOk, State.modBal, hs, hk],
    fun p => by cases p <;> first | exact .inr rfl | exact .inl hm.head⟩

theorem State.modTemp_kept {k : Nat} {f : TempIn → TempIn} {r s : State} (h : Kept pp r s) (hm : Sub [.est] pp) :
    Kept pp r (s.modTemp k f) :=
  h.comp ⟨rfl, rfl, fun hs => by
    have hk := tok_tmod k f (State.tablesOk_tempIn hs)
    simp only [State.tablesOk, State.coreTablesOk, State.unitTablesOk, Bool.and_eq_true] at hs
    simp [State.tablesOk, State.coreTablesOk, State.unitTablesOk, State.modTemp, hs, hk],
    fun p => by cases p <;> first | exact .inr rfl | exact .inl hm.head⟩

theorem State.modTin_kept {k : Nat} {f : Tin → Tin} {r s : State} (h : Kept pp r s) (hm : Sub [.est] pp) :
    Kept pp r (s.modTin k f) :=
  h.comp ⟨rfl, rfl, fun hs => by
    have hk := tok_tmod k f (State.tablesOk_tin hs)
    simp only [State.tablesOk, State.coreTablesOk, State.unitTablesOk, Bool.and_eq_true] at hs
    simp [State.tablesOk, State.coreTablesOk, State.unitTablesOk, State.modTin, hs, hk],
    fun p => by cases p <;> first | exact .inr rfl | exact .inl hm.head⟩

theorem State.modFpi_kept {k : Nat} {f : Fpi → Fpi} {r s : State} (h : Kept pp r s) (hm : Sub [.guard] pp) :
    Kept pp r (s.modFpi k f) :=
  h.comp ⟨rfl, rfl, fun hs => by
    have hk := tok_tmod k f (State.tablesOk_fpi hs)
    simp only [State.tablesOk, State.coreTablesOk, State.unitTablesOk, Bool.and_eq_true] at hs
    simp [State.tablesOk, State.coreTablesOk, State.unitTablesOk, State.modFpi, hs, hk],
    fun p => by cases p <;> first | exact .inr rfl | exact .inl hm.head⟩

theorem State.modTenant_kept {k : Nat} {f : Tenant → Tenant} {r s : State} (h : Kept pp r s) (hm : Sub [.disp] pp) :
    Kept pp r (s.modTenant k f) :=
  h.comp ⟨rfl, rfl, fun hs => by
    have hk := tok_tmod k f (State.tablesOk_tenant hs)
    simp only [State.tablesOk, State.coreTablesOk, State.unitTablesOk, Bool.and_eq_true] at hs
    simp [State.tablesOk, State.coreTablesOk, State.unitTablesOk, State.modTenant, hs, hk],
    fun p => by cases p <;> first | exact .inr rfl | exact .inl hm.head⟩

theorem State.modPage_kept {k : Nat} {f : Page → Page} {r s : State} (h : Kept pp r s) (hm : Sub [.mail] pp) :
    Kept pp r (s.modPage k f) :=
  h.comp ⟨rfl, rfl, fun hs => by
    have hk := tok_tmod k f (State.tablesOk_page hs)
    simp only [State.tablesOk, State.coreTablesOk, State.unitTablesOk, Bool.and_eq_true] at hs
    simp [State.tablesOk, State.coreTablesOk, State.unitTablesOk, State.modPage, hs, hk],
    fun p => by cases p <;> first | exact .inr rfl | exact .inl hm.head⟩

theorem State.modLoop_kept {k : Nat} {f : Loop → Loop} {r s : State} (h : Kept pp r s) (hm : Sub [.loops] pp) :
    Kept pp r (s.modLoop k f) :=
  h.comp ⟨rfl, rfl, fun hs => by
    have hk := tok_tmod k f (State.tablesOk_loop hs)
    simp only [State.tablesOk, State.coreTablesOk, State.unitTablesOk, Bool.and_eq_true] at hs
    simp [State.tablesOk, State.coreTablesOk, State.unitTablesOk, State.modLoop, hs, hk],
    fun p => by cases p <;> first | exact .inr rfl | exact .inl hm.head⟩

theorem State.modAxis_kept {k : Nat} {f : Axis → Axis} {r s : State} (h : Kept pp r s) (hm : Sub [.loops] pp) :
    Kept pp r (s.modAxis k f) :=
  h.comp ⟨rfl, rfl, fun hs => by
    have hk := tok_tmod k f (State.tablesOk_axis hs)
    simp only [State.tablesOk, State.coreTablesOk, State.unitTablesOk, Bool.and_eq_true] at hs
    simp [State.tablesOk, State.coreTablesOk, State.unitTablesOk, State.modAxis, hs, hk],
    fun p => by cases p <;> first | exact .inr rfl | exact .inl hm.head⟩

theorem State.modChan_kept {k : Nat} {f : Chan → Chan} {r s : State} (h : Kept pp r s) (hm : Sub [.load] pp) :
    Kept pp r (s.modChan k f) :=
  h.comp ⟨rfl, rfl, fun hs => by
    have hk := tok_tmod k f (State.tablesOk_chan hs)
    simp only [State.tablesOk, State.coreTablesOk, State.unitTablesOk, Bool.and_eq_true] at hs
    simp [State.tablesOk, State.coreTablesOk, State.unitTablesOk, State.modChan, hs, hk],
    fun p => by cases p <;> first | exact .inr rfl | exact .inl hm.head⟩

theorem State.modCtrl_kept {k : Nat} {f : Ctrl → Ctrl} {r s : State} (h : Kept pp r s) (hm : Sub [.can] pp) :
    Kept pp r (s.modCtrl k f) :=
  h.comp ⟨rfl, rfl, fun hs => by
    have hk := tok_tmod k f (State.tablesOk_ctrl hs)
    simp only [State.tablesOk, State.coreTablesOk, State.unitTablesOk, Bool.and_eq_true] at hs
    simp [State.tablesOk, State.coreTablesOk, State.unitTablesOk, State.modCtrl, hs, hk],
    fun p => by cases p <;> first | exact .inr rfl | exact .inl hm.head⟩

theorem State.modUnit_kept {k : Nat} {f : Unit_ → Unit_} {r s : State} (h : Kept pp r s) (hm : Sub [.can] pp) :
    Kept pp r (s.modUnit k f) :=
  h.comp ⟨rfl, rfl, fun hs => by
    have hk := tok_tmod k f (State.tablesOk_unit hs)
    simp only [State.tablesOk, State.coreTablesOk, State.unitTablesOk, Bool.and_eq_true] at hs
    simp [State.tablesOk, State.coreTablesOk, State.unitTablesOk, State.modUnit, hs, hk],
    fun p => by cases p <;> first | exact .inr rfl | exact .inl hm.head⟩

theorem State.modAlarm_kept {k : Nat} {f : Alarm → Alarm} {r s : State} (h : Kept pp r s) (hm : Sub [.can] pp) :
    Kept pp r (s.modAlarm k f) :=
  h.comp ⟨rfl, rfl, fun hs => by
    have hk := tok_tmod k f (State.tablesOk_alarm hs)
    simp only [State.tablesOk, State.coreTablesOk, State.unitTablesOk, Bool.and_eq_true] at hs
    simp [State.tablesOk, State.coreTablesOk, State.unitTablesOk, State.modAlarm, hs, hk],
    fun p => by cases p <;> first | exact .inr rfl | exact .inl hm.head⟩

theorem State.onBeam_kept {f : Beam → Beam} {r s : State} (hf : ∀ z, (f z).marks = z.marks) (h : Kept pp r s) (hm : Sub [.beam] pp) :
    Kept pp r (s.onBeam f) :=
  h.same rfl rfl (by simp [State.tabs, hf]) fun p => by
    cases p
    case marks => exact .inr (hf s.beam)
    all_goals first | exact .inr rfl | exact .inl hm.head

theorem State.onGuard_kept {f : Guard → Guard} {r s : State} (hf : ∀ z, (f z).fpi = z.fpi) (h : Kept pp r s)
    (hlatch : .latch ∈ pp ∨ ∀ z, Guard.latchPart (f z) = Guard.latchPart z) (hguard : .guard ∈ pp ∨ ∀ z, Guard.restPart (f z) = Guard.restPart z) :
    Kept pp r (s.onGuard f) :=
  h.same rfl rfl (by simp [State.tabs, hf]) fun p => by
    cases p
    case latch => exact hlatch.imp id fun h => h s.guard
    case guard => exact hguard.imp id fun h => h s.guard
    all_goals exact .inr rfl

theorem State.onSys_kept {f : Sys → Sys} {r s : State} (hf : ∀ z, (f z).pages = z.pages) (h : Kept pp r s)
    (hmail : .mail ∈ pp ∨ ∀ z, Sys.mailPart (f z) = Sys.mailPart z) (hbulk : .bulk ∈ pp ∨ ∀ z, Sys.bulkPart (f z) = Sys.bulkPart z) (hmode : .mode ∈ pp ∨ ∀ z, Sys.modePart (f z) = Sys.modePart z) (hrun : .run ∈ pp ∨ ∀ z, Sys.runPart (f z) = Sys.runPart z) (hconf : .conf ∈ pp ∨ ∀ z, Sys.conf (f z) = Sys.conf z) (hsys : .sys ∈ pp ∨ ∀ z, Sys.restPart (f z) = Sys.restPart z) :
    Kept pp r (s.onSys f) :=
  h.same rfl rfl (by simp [State.tabs, hf]) fun p => by
    cases p
    case mail => exact hmail.imp id fun h => h s.sys
    case bulk => exact hbulk.imp id fun h => h s.sys
    case mode => exact hmode.imp id fun h => h s.sys
    case run => exact hrun.imp id fun h => h s.sys
    case conf => exact hconf.imp id fun h => h s.sys
    case sys => exact hsys.imp id fun h => h s.sys
    all_goals exact .inr rfl

theorem State.onRecs_kept {f : Records → Records} {r s : State} (hf : ∀ z, (f z).counters = z.counters) (h : Kept pp r s)
    (hevents : .events ∈ pp ∨ ∀ z, Records.eventPart (f z) = Records.eventPart z) (hstore : .store ∈ pp ∨ ∀ z, Records.storePart (f z) = Records.storePart z) (hrecs : .recs ∈ pp ∨ ∀ z, Records.restPart (f z) = Records.restPart z) :
    Kept pp r (s.onRecs f) :=
  h.same rfl rfl (by simp [State.tabs, hf]) fun p => by
    cases p
    case events => exact hevents.imp id fun h => h s.recs
    case store => exact hstore.imp id fun h => h s.recs
    case recs => exact hrecs.imp id fun h => h s.recs
    all_goals exact .inr rfl

theorem State.onEst_kept {f : Est → Est} {r s : State} (hf : ∀ z, (f z).cells = z.cells ∧ (f z).strs = z.strs ∧ (f z).bal = z.bal ∧ (f z).temps = z.temps ∧ (f z).tins = z.tins) (h : Kept pp r s) (hm : Sub [.est] pp) :
    Kept pp r (s.onEst f) :=
  h.same rfl rfl (by simp [State.tabs, hf]) fun p => by
    cases p
    all_goals first | exact .inr rfl | exact .inl hm.head

theorem State.onSched_kept {f : Sched → Sched} {r s : State} (hf : ∀ z, (f z).rods = z.rods) (h : Kept pp r s) (hm : Sub [.sched] pp) :
    Kept pp r (s.onSched f) :=
  h.same rfl rfl (by simp [State.tabs, hf]) fun p => by
    cases p
    case rods => exact .inr (hf s.sched)
    all_goals first | exact .inr rfl | exact .inl hm.head

theorem State.onDisp_kept {f : Dispatch → Dispatch} {r s : State} (hf : ∀ z, (f z).tenants = z.tenants) (h : Kept pp r s) (hm : Sub [.disp] pp) :
    Kept pp r (s.onDisp f) :=
  h.same rfl rfl (by simp [State.tabs, hf]) fun p => by
    cases p
    all_goals first | exact .inr rfl | exact .inl hm.head

theorem State.onLoops_kept {f : Loops → Loops} {r s : State} (hf : ∀ z, (f z).loops = z.loops ∧ (f z).axes = z.axes) (h : Kept pp r s) (hm : Sub [.loops] pp) :
    Kept pp r (s.onLoops f) :=
  h.same rfl rfl (by simp [State.tabs, hf]) fun p => by
    cases p
    all_goals first | exact .inr rfl | exact .inl hm.head

theorem State.onLoad_kept {f : Load → Load} {r s : State} (hf : ∀ z, (f z).chans = z.chans) (h : Kept pp r s) (hm : Sub [.load] pp) :
    Kept pp r (s.onLoad f) :=
  h.same rfl rfl (by simp [State.tabs, hf]) fun p => by
    cases p
    all_goals first | exact .inr rfl | exact .inl hm.head

theorem State.onCan_kept {f : Can → Can} {r s : State} (hf : ∀ z, (f z).ctrls = z.ctrls ∧ (f z).units = z.units ∧ (f z).alarms = z.alarms) (h : Kept pp r s) (hm : Sub [.can] pp) :
    Kept pp r (s.onCan f) :=
  h.same rfl rfl (by simp [State.tabs, hf]) fun p => by
    cases p
    all_goals first | exact .inr rfl | exact .inl hm.head

theorem State.onPower_kept {f : Power → Power} {r s : State} (h : Kept pp r s) (hm : Sub [.power] pp) :
    Kept pp r (s.onPower f) :=
  h.same rfl rfl (by simp [State.tabs]) fun p => by
    cases p
    all_goals first | exact .inr rfl | exact .inl hm.head

theorem State.onUpd_kept {f : Update → Update} {r s : State} (h : Kept pp r s) (hm : Sub [.upd] pp) :
    Kept pp r (s.onUpd f) :=
  h.same rfl rfl (by simp [State.tabs]) fun p => by
    cases p
    all_goals first | exact .inr rfl | exact .inl hm.head
theorem push_counters (r : Records) (e : Ev) : (r.push e).counters = r.counters := by
  unfold Records.push Records.enqueue
  repeat' split
  all_goals rfl

theorem push_storePart (r : Records) (e : Ev) : (r.push e).storePart = r.storePart := by
  unfold Records.push Records.enqueue
  repeat' split
  all_goals rfl

theorem push_restPart (r : Records) (e : Ev) : (r.push e).restPart = r.restPart := by
  unfold Records.push Records.enqueue
  repeat' split
  all_goals rfl

theorem State.raise_kept {code : Nat} {ps : List Int} {r0 s : State} (h : Kept pp r0 s) (hm : Sub [.events] pp) :
    Kept pp r0 (s.raise code ps) :=
  h.same rfl rfl (by simp [State.tabs, push_counters]) fun p => by
    cases p
    case events => exact .inl hm.head
    case store => exact .inr (push_storePart _ _)
    case recs => exact .inr (push_restPart _ _)
    all_goals exact .inr rfl

theorem State.wake_kept {n : Nat} {r0 s : State} (hk : Kept pp r0 s) (hm : Sub [.mail] pp) : Kept pp r0 (State.wake s n) := by
  unfold State.wake
  repeat' (first | exact sub_of rfl hm | exact .inl (hm.mem (by decide)) | exact .inr fun _ => rfl | with_reducible first | assumption | intro _ | apply State.onSys_kept | exact rfl | apply ite_kept | split)

theorem State.settle_kept  {r0 s : State} (hk : Kept pp r0 s) (hm : Sub [.disp] pp) : Kept pp r0 (State.settle s) := by
  unfold State.settle
  repeat' (first | exact sub_of rfl hm | with_reducible first | assumption | intro _ | apply State.modTenant_kept | apply State.onDisp_kept | apply forEach_kept | exact rfl | apply ite_kept | split)

theorem State.leaveDispatch_kept  {r0 s : State} (hk : Kept pp r0 s) (hm : Sub [.disp] pp) : Kept pp r0 (State.leaveDispatch s) := by
  unfold State.leaveDispatch
  repeat' (first | exact sub_of rfl hm | with_reducible first | assumption | intro _ | apply State.modTenant_kept | apply State.onDisp_kept | apply State.settle_kept | apply forEach_kept | exact rfl | apply ite_kept | split)

theorem State.setMode_kept {m : Mode} {cause : Nat} {r0 s : State} (hk : Kept pp r0 s) (hm : Sub [.mail, .mode, .disp, .events] pp) : Kept pp r0 (State.setMode s m cause) := by
  unfold State.setMode
  repeat' (first | exact sub_of rfl hm | exact .inl (hm.mem (by decide)) | exact .inr fun _ => rfl | with_reducible first | assumption | intro _ | apply State.when_kept | apply State.onSys_kept | apply State.raise_kept | apply State.wake_kept | apply State.leaveDispatch_kept | exact rfl | apply ite_kept | split)

theorem State.followRings_kept {cause : Nat} {r0 s : State} (hk : Kept pp r0 s) (hm : Sub [.mail, .mode, .disp, .events] pp) : Kept pp r0 (State.followRings s cause) := by
  unfold State.followRings
  repeat' (first | exact sub_of rfl hm | with_reducible first | assumption | intro _ | apply State.setMode_kept | exact rfl | apply ite_kept | split)

theorem setCounter_kept {key : Nat} {c : List (BitVec 16)} {r0 s : State} (h : Kept pp r0 s) (hm : Sub [.recs] pp) :
    Kept pp r0 (s.onRecs fun r => { r with counters := tset cnt0 r.counters key c }) := by
  refine h.comp ⟨rfl, rfl, fun hs => ?_, fun p => by cases p <;> first | exact .inr rfl | exact .inl hm.head⟩
  have hk := tok_tset key c (show tok cnt0 s.recs.counters = true by
    simp only [State.tablesOk, State.coreTablesOk, State.unitTablesOk, Bool.and_eq_true] at hs; simp [hs])
  simp only [State.tablesOk, State.coreTablesOk, State.unitTablesOk, Bool.and_eq_true] at hs
  simp [State.tablesOk, State.coreTablesOk, State.unitTablesOk, hs, hk]

theorem State.count_kept {set k n v : Nat} {r0 s : State} (h : Kept pp r0 s) (hm : Sub [.events, .recs] pp) :
    Kept pp r0 (s.count set k n v) := by
  unfold State.count
  exact State.when_kept (fun h => State.raise_kept h (sub_of rfl hm)) (setCounter_kept h (sub_of rfl hm))

theorem State.commitCfg_kept  {r0 s : State} (hk : Kept pp r0 s) (hm : Sub [.store] pp) : Kept pp r0 (State.commitCfg s) := by
  unfold State.commitCfg
  repeat' (first | exact sub_of rfl hm | exact .inl (hm.mem (by decide)) | exact .inr fun _ => rfl | with_reducible first | assumption | intro _ | apply State.onRecs_kept | exact rfl)

theorem State.cfgOwed_kept {block : Nat} {r0 s : State} (hk : Kept pp r0 s) (hm : Sub [.store] pp) : Kept pp r0 (State.cfgOwed s block) := by
  unfold State.cfgOwed
  repeat' (first | exact sub_of rfl hm | exact .inl (hm.mem (by decide)) | exact .inr fun _ => rfl | with_reducible first | assumption | intro _ | apply State.onRecs_kept | exact rfl)

theorem State.respond_kept {r : Resp} {r0 s : State} (hk : Kept pp r0 s) (hm : Sub [.mail] pp) : Kept pp r0 (State.respond s r) := by
  unfold State.respond
  repeat' (first | exact sub_of rfl hm | exact .inl (hm.mem (by decide)) | exact .inr fun _ => rfl | with_reducible first | assumption | intro _ | apply State.modPage_kept | apply State.onSys_kept | apply State.wake_kept | exact rfl | apply ite_kept | split)

theorem State.ok_kept {rq : Rq} {op : Nat} {payload : List Byte} {r0 s : State} (hk : Kept pp r0 s) (hm : Sub [.mail] pp) : Kept pp r0 (State.ok s rq op payload) := by
  unfold State.ok
  repeat' (first | exact sub_of rfl hm | with_reducible first | assumption | intro _ | apply State.respond_kept | exact rfl)

theorem State.okNv_kept {rq : Rq} {op : Nat} {r0 s : State} (hk : Kept pp r0 s) (hm : Sub [.mail, .store] pp) : Kept pp r0 (State.okNv s rq op) := by
  unfold State.okNv
  repeat' (first | exact sub_of rfl hm | with_reducible first | assumption | intro _ | apply State.commitCfg_kept | apply State.respond_kept | exact rfl)

theorem State.refuse_kept {rq : Rq} {op : Nat} {r : Refuse} {r0 s : State} (hk : Kept pp r0 s) (hm : Sub [.mail] pp) : Kept pp r0 (State.refuse s rq op r) := by
  unfold State.refuse
  repeat' (first | exact sub_of rfl hm | with_reducible first | assumption | intro _ | apply State.respond_kept | exact rfl)

theorem mailbox_kept {rq : Rq} {op : Nat} {w : Who} {modes : List Mode} {body : State → State} {r s : State}
    (hb : Kept pp r s → Kept pp r (body s)) (h : Kept pp r s) (hm : Sub [.mail] pp) : Kept pp r (mailbox rq op w modes body s) := by
  unfold mailbox
  split
  · exact h
  · split
    · exact State.refuse_kept h hm
    · exact hb h

theorem checked_kept {rq : Rq} {op : Nat} {checks : List (Bool × Refuse)} {effect : State → State} {r s : State}
    (he : Kept pp r s → Kept pp r (effect s)) (h : Kept pp r s) (hm : Sub [.mail] pp) : Kept pp r (checked rq op checks effect s) := by
  unfold checked
  split
  · exact State.refuse_kept h hm
  · exact he h

theorem State.holdAnswer_kept {key : Nat} {rq : Rq} {op : Nat} {r0 s : State} (hk : Kept pp r0 s) (hm : Sub [.mail] pp) : Kept pp r0 (State.holdAnswer s key rq op) := by
  unfold State.holdAnswer
  repeat' (first | exact sub_of rfl hm | exact .inl (hm.mem (by decide)) | exact .inr fun _ => rfl | with_reducible first | assumption | intro _ | apply State.onSys_kept | exact rfl)

theorem State.giveHeld_kept {key : Nat} {f : Resp → State → State} {r s : State}
    (hf : ∀ q t, Kept pp r t → Kept pp r (f q t)) (h : Kept pp r s) (hm : Sub [.mail] pp) : Kept pp r (s.giveHeld key f) :=
  forEach_kept (fun x _ => hf x.2 _) (by
    refine State.onSys_kept ?_ h (.inl hm.head) ?_ ?_ ?_ ?_ ?_
    all_goals first | exact .inr fun _ => rfl | exact fun _ => rfl)

theorem State.notify_kept {tenant op : Nat} {payload : List Byte} {r0 s : State} (hk : Kept pp r0 s) (hm : Sub [.mail, .events] pp) : Kept pp r0 (State.notify s tenant op payload) := by
  unfold State.notify
  repeat' (first | exact sub_of rfl hm | exact .inl (hm.mem (by decide)) | exact .inr fun _ => rfl | with_reducible first | assumption | intro _ | apply State.modPage_kept | apply State.onSys_kept | apply State.raise_kept | apply State.wake_kept | exact rfl | apply ite_kept | split)

theorem State.beamEv_kept {i code : Nat} {r0 s : State} (hk : Kept pp r0 s) (hm : Sub [.beam, .events] pp) : Kept pp r0 (State.beamEv s i code) := by
  unfold State.beamEv
  repeat' (first | exact sub_of rfl hm | with_reducible first | assumption | intro _ | apply State.onBeam_kept | apply State.raise_kept | exact rfl)

theorem State.syncReset_kept  {r0 s : State} (hk : Kept pp r0 s) (hm : Sub [.beam, .loops] pp) : Kept pp r0 (State.syncReset s) := by
  unfold State.syncReset
  repeat' (first | exact sub_of rfl hm | with_reducible first | assumption | intro _ | apply State.onBeam_kept | apply State.onLoops_kept | apply foldl_kept | exact rfl)
  all_goals first | exact sub_of rfl hm | exact .inl (hm.mem (by decide)) | exact .inr fun _ => rfl | exact rfl | exact ⟨rfl, rfl⟩ | exact ⟨rfl, rfl, rfl, rfl, rfl⟩ | exact ⟨rfl, rfl, rfl⟩ | (refine .inr fun _ => ?_; (repeat' split) <;> exact rfl) | exact hk.same rfl rfl rfl (fun p => by cases p <;> first | exact .inr rfl | exact .inl (hm.mem (by decide))) | (repeat' split) <;> first | exact rfl | exact ⟨rfl, rfl⟩ | exact ⟨rfl, rfl, rfl, rfl, rfl⟩ | exact ⟨rfl, rfl, rfl⟩

theorem State.unlock_kept {counted : Bool} {r0 s : State} (hk : Kept pp r0 s) (hm : Sub [.beam, .events] pp) : Kept pp r0 (State.unlock s counted) := by
  unfold State.unlock
  repeat' (first | exact sub_of rfl hm | with_reducible first | assumption | intro _ | apply State.onBeam_kept | apply State.beamEv_kept | exact rfl | apply ite_kept | split)
  all_goals first | exact sub_of rfl hm | exact .inl (hm.mem (by decide)) | exact .inr fun _ => rfl | exact rfl | exact ⟨rfl, rfl⟩ | exact ⟨rfl, rfl, rfl, rfl, rfl⟩ | exact ⟨rfl, rfl, rfl⟩ | (refine .inr fun _ => ?_; (repeat' split) <;> exact rfl) | exact hk.same rfl rfl rfl (fun p => by cases p <;> first | exact .inr rfl | exact .inl (hm.mem (by decide))) | (repeat' split) <;> first | exact rfl | exact ⟨rfl, rfl⟩ | exact ⟨rfl, rfl, rfl, rfl, rfl⟩ | exact ⟨rfl, rfl, rfl⟩

theorem State.sourceChange_kept {src : Nat} {r0 s : State} (hk : Kept pp r0 s) (hm : Sub [.beam, .events, .loops] pp) : Kept pp r0 (State.sourceChange s src) := by
  unfold State.sourceChange
  repeat' (first | exact sub_of rfl hm | with_reducible first | assumption | intro _ | apply State.onBeam_kept | apply State.syncReset_kept | apply State.unlock_kept | exact rfl | apply ite_kept | split)
  all_goals first | exact sub_of rfl hm | exact .inl (hm.mem (by decide)) | exact .inr fun _ => rfl | exact rfl | exact ⟨rfl, rfl⟩ | exact ⟨rfl, rfl, rfl, rfl, rfl⟩ | exact ⟨rfl, rfl, rfl⟩ | (refine .inr fun _ => ?_; (repeat' split) <;> exact rfl) | exact hk.same rfl rfl rfl (fun p => by cases p <;> first | exact .inr rfl | exact .inl (hm.mem (by decide))) | (repeat' split) <;> first | exact rfl | exact ⟨rfl, rfl⟩ | exact ⟨rfl, rfl, rfl, rfl, rfl⟩ | exact ⟨rfl, rfl, rfl⟩

theorem State.judgeCycle_kept {valid inLock : Bool} {r0 s : State} (hk : Kept pp r0 s) (hm : Sub [.beam, .events] pp) : Kept pp r0 (State.judgeCycle s valid inLock) := by
  unfold State.judgeCycle
  repeat' (first | exact sub_of rfl hm | with_reducible first | assumption | intro _ | apply State.onBeam_kept | apply State.unlock_kept | exact rfl | apply ite_kept | split)

theorem State.judgeSequence_kept {counted reversed : Bool} {r0 s : State} (hk : Kept pp r0 s) (hm : Sub [.beam, .events] pp) : Kept pp r0 (State.judgeSequence s counted reversed) := by
  unfold State.judgeSequence
  repeat' (first | exact sub_of rfl hm | with_reducible first | assumption | intro _ | apply State.when_kept | apply State.onBeam_kept | apply State.beamEv_kept | exact rfl | apply ite_kept | split)
  all_goals first | exact sub_of rfl hm | exact .inl (hm.mem (by decide)) | exact .inr fun _ => rfl | exact rfl | exact ⟨rfl, rfl⟩ | exact ⟨rfl, rfl, rfl, rfl, rfl⟩ | exact ⟨rfl, rfl, rfl⟩ | (refine .inr fun _ => ?_; (repeat' split) <;> exact rfl) | exact hk.same rfl rfl rfl (fun p => by cases p <;> first | exact .inr rfl | exact .inl (hm.mem (by decide))) | (repeat' split) <;> first | exact rfl | exact ⟨rfl, rfl⟩ | exact ⟨rfl, rfl, rfl, rfl, rfl⟩ | exact ⟨rfl, rfl, rfl⟩

theorem State.judgeAmplitude_kept {mag : Nat} {r0 s : State} (hk : Kept pp r0 s) (hm : Sub [.beam, .events] pp) : Kept pp r0 (State.judgeAmplitude s mag) := by
  unfold State.judgeAmplitude
  repeat' (first | exact sub_of rfl hm | with_reducible first | assumption | intro _ | apply State.when_kept | apply State.onBeam_kept | apply State.beamEv_kept | exact rfl)
  all_goals first | exact sub_of rfl hm | exact .inl (hm.mem (by decide)) | exact .inr fun _ => rfl | exact rfl | exact ⟨rfl, rfl⟩ | exact ⟨rfl, rfl, rfl, rfl, rfl⟩ | exact ⟨rfl, rfl, rfl⟩ | (refine .inr fun _ => ?_; (repeat' split) <;> exact rfl) | exact hk.same rfl rfl rfl (fun p => by cases p <;> first | exact .inr rfl | exact .inl (hm.mem (by decide))) | (repeat' split) <;> first | exact rfl | exact ⟨rfl, rfl⟩ | exact ⟨rfl, rfl, rfl, rfl, rfl⟩ | exact ⟨rfl, rfl, rfl⟩

theorem Beam.follow_marks (b : Beam) : b.follow.marks = b.marks := by
  unfold Beam.follow; split <;> rfl

theorem Beam.endCycle_marks (b : Beam) (freq : Nat) (backward : Bool) : (b.endCycle freq backward).marks = b.marks :=
  Beam.follow_marks _

theorem execTrackerCycle_goes {mag freq errMax errMin : Nat} {reversed : Bool} {s : State} (hm : Sub [.beam, .events] pp) :
    Goes pp s (execTrackerCycle mag freq errMax errMin reversed s) := by
  unfold execTrackerCycle
  exact onlyIf_goes (State.when_kept (fun h => State.unlock_kept h (sub_of rfl hm)) (State.judgeCycle_kept (State.judgeAmplitude_kept
    (State.judgeSequence_kept (State.when_kept (fun h => State.onBeam_kept (fun _ => Beam.endCycle_marks _ _ _) h (sub_of rfl hm))
      (State.onBeam_kept (fun _ => rfl) (Kept.refl s) (sub_of rfl hm))) (sub_of rfl hm)) (sub_of rfl hm)) (sub_of rfl hm)))

theorem execLockSet_goes  {s : State} (hm : Sub [.beam, .events] pp) : Goes pp s (execLockSet s) := by
  unfold execLockSet
  repeat' (first | apply onlyIf_goes | apply ite_goes)
  repeat' (first | exact sub_of rfl hm | with_reducible first | exact Kept.refl _ | assumption | intro _ | apply State.onBeam_kept | apply State.beamEv_kept | exact rfl | apply ite_kept | split)
  all_goals first | exact sub_of rfl hm | exact .inl (hm.mem (by decide)) | exact .inr fun _ => rfl | exact rfl | exact ⟨rfl, rfl⟩ | exact ⟨rfl, rfl, rfl, rfl, rfl⟩ | exact ⟨rfl, rfl, rfl⟩ | (refine .inr fun _ => ?_; (repeat' split) <;> exact rfl) | exact (Kept.refl _).same rfl rfl rfl (fun p => by cases p <;> first | exact .inr rfl | exact .inl (hm.mem (by decide))) | (repeat' split) <;> first | exact rfl | exact ⟨rfl, rfl⟩ | exact ⟨rfl, rfl, rfl, rfl, rfl⟩ | exact ⟨rfl, rfl, rfl⟩

theorem State.bzxEdge_kept {r0 s : State} (h : Kept pp r0 s) (hm : Sub [.beam, .events] pp) : Kept pp r0 s.bzxEdge := by
  unfold State.bzxEdge
  dsimp only
  have hb : Sub [.beam] pp := sub_of rfl hm
  split
  · exact State.onBeam_kept (fun _ => rfl) h hb
  · split
    · exact State.beamEv_kept (State.onBeam_kept (fun _ => rfl) h hb) (sub_of rfl hm)
    · split
      · exact State.judgeCycle_kept (State.onBeam_kept (fun _ => Beam.follow_marks _) (State.onBeam_kept (fun _ => rfl) h hb) hb)
          (sub_of rfl hm)
      · exact State.judgeCycle_kept (State.onBeam_kept (fun _ => rfl) h hb) (sub_of rfl hm)

theorem State.bzxMove_kept {rising : Bool} {held : Nat} {r0 s : State} (hk : Kept pp r0 s) (hm : Sub [.beam, .events] pp) : Kept pp r0 (State.bzxMove s rising held) := by
  unfold State.bzxMove
  repeat' (first | exact sub_of rfl hm | with_reducible first | assumption | intro _ | apply State.when_kept | apply State.onBeam_kept | apply State.bzxEdge_kept | exact rfl | apply ite_kept | split)

theorem execBzxEdge_goes {rising : Bool} {held : Nat} {s : State} (hm : Sub [.beam, .events] pp) : Goes pp s (execBzxEdge rising held s) := by
  unfold execBzxEdge
  apply onlyIf_goes
  repeat' (first | exact sub_of rfl hm | with_reducible first | exact Kept.refl _ | assumption | intro _ | apply State.bzxMove_kept | exact rfl)

theorem execBzxCycleTimeout_goes  {s : State} (hm : Sub [.beam, .events] pp) : Goes pp s (execBzxCycleTimeout s) := by
  unfold execBzxCycleTimeout
  apply onlyIf_goes
  repeat' (first | exact sub_of rfl hm | with_reducible first | exact Kept.refl _ | assumption | intro _ | apply State.judgeCycle_kept | exact rfl)

theorem execMainsLost_goes  {s : State} (hm : Sub [.beam, .events] pp) : Goes pp s (execMainsLost s) := by
  unfold execMainsLost
  apply onlyIf_goes
  repeat' (first | exact sub_of rfl hm | with_reducible first | exact Kept.refl _ | assumption | intro _ | apply State.when_kept | apply State.onBeam_kept | apply State.beamEv_kept | apply State.unlock_kept | exact rfl)
  all_goals first | exact sub_of rfl hm | exact .inl (hm.mem (by decide)) | exact .inr fun _ => rfl | exact rfl | exact ⟨rfl, rfl⟩ | exact ⟨rfl, rfl, rfl, rfl, rfl⟩ | exact ⟨rfl, rfl, rfl⟩ | (refine .inr fun _ => ?_; (repeat' split) <;> exact rfl) | exact (Kept.refl _).same rfl rfl rfl (fun p => by cases p <;> first | exact .inr rfl | exact .inl (hm.mem (by decide))) | (repeat' split) <;> first | exact rfl | exact ⟨rfl, rfl⟩ | exact ⟨rfl, rfl, rfl, rfl, rfl⟩ | exact ⟨rfl, rfl, rfl⟩

theorem execExposedAngleZero_goes  {s : State} (hm : Sub [.beam] pp) : Goes pp s (execExposedAngleZero s) := by
  unfold execExposedAngleZero
  repeat' (first | apply onlyIf_goes | apply next_goes)
  repeat' (first | exact sub_of rfl hm | with_reducible first | exact Kept.refl _ | assumption | intro _ | apply State.onBeam_kept | exact rfl)
  all_goals first | exact sub_of rfl hm | exact .inl (hm.mem (by decide)) | exact .inr fun _ => rfl | exact rfl | exact ⟨rfl, rfl⟩ | exact ⟨rfl, rfl, rfl, rfl, rfl⟩ | exact ⟨rfl, rfl, rfl⟩ | (refine .inr fun _ => ?_; (repeat' split) <;> exact rfl) | exact (Kept.refl _).same rfl rfl rfl (fun p => by cases p <;> first | exact .inr rfl | exact .inl (hm.mem (by decide))) | (repeat' split) <;> first | exact rfl | exact ⟨rfl, rfl⟩ | exact ⟨rfl, rfl, rfl, rfl, rfl⟩ | exact ⟨rfl, rfl, rfl⟩

theorem execSlewComplete_goes  {s : State} (hm : Sub [.beam] pp) : Goes pp s (execSlewComplete s) := by
  unfold execSlewComplete
  apply onlyIf_goes
  repeat' (first | exact sub_of rfl hm | with_reducible first | exact Kept.refl _ | assumption | intro _ | apply State.onBeam_kept | exact rfl)
  all_goals first | exact sub_of rfl hm | exact .inl (hm.mem (by decide)) | exact .inr fun _ => rfl | exact rfl | exact ⟨rfl, rfl⟩ | exact ⟨rfl, rfl, rfl, rfl, rfl⟩ | exact ⟨rfl, rfl, rfl⟩ | (refine .inr fun _ => ?_; (repeat' split) <;> exact rfl) | exact (Kept.refl _).same rfl rfl rfl (fun p => by cases p <;> first | exact .inr rfl | exact .inl (hm.mem (by decide))) | (repeat' split) <;> first | exact rfl | exact ⟨rfl, rfl⟩ | exact ⟨rfl, rfl, rfl, rfl, rfl⟩ | exact ⟨rfl, rfl, rfl⟩

theorem execBeamTimeExtend_goes  {s : State} (hm : Sub [.beam] pp) : Goes pp s (execBeamTimeExtend s) := by
  unfold execBeamTimeExtend
  apply next_goes
  repeat' (first | exact sub_of rfl hm | with_reducible first | exact Kept.refl _ | assumption | intro _ | apply State.onBeam_kept | exact rfl)
  all_goals first | exact sub_of rfl hm | exact .inl (hm.mem (by decide)) | exact .inr fun _ => rfl | exact rfl | exact ⟨rfl, rfl⟩ | exact ⟨rfl, rfl, rfl, rfl, rfl⟩ | exact ⟨rfl, rfl, rfl⟩ | (refine .inr fun _ => ?_; (repeat' split) <;> exact rfl) | exact (Kept.refl _).same rfl rfl rfl (fun p => by cases p <;> first | exact .inr rfl | exact .inl (hm.mem (by decide))) | (repeat' split) <;> first | exact rfl | exact ⟨rfl, rfl⟩ | exact ⟨rfl, rfl, rfl, rfl, rfl⟩ | exact ⟨rfl, rfl, rfl⟩

theorem State.enterOver_kept {input : Nat} {r0 s : State} (hk : Kept pp r0 s) (hm : Sub [.beam, .loops] pp) : Kept pp r0 (State.enterOver s input) := by
  unfold State.enterOver
  repeat' (first | exact sub_of rfl hm | with_reducible first | assumption | intro _ | apply State.when_kept | apply State.onBeam_kept | apply State.onLoops_kept | exact rfl)
  all_goals first | exact sub_of rfl hm | exact .inl (hm.mem (by decide)) | exact .inr fun _ => rfl | exact rfl | exact ⟨rfl, rfl⟩ | exact ⟨rfl, rfl, rfl, rfl, rfl⟩ | exact ⟨rfl, rfl, rfl⟩ | (refine .inr fun _ => ?_; (repeat' split) <;> exact rfl) | exact hk.same rfl rfl rfl (fun p => by cases p <;> first | exact .inr rfl | exact .inl (hm.mem (by decide))) | (repeat' split) <;> first | exact rfl | exact ⟨rfl, rfl⟩ | exact ⟨rfl, rfl, rfl, rfl, rfl⟩ | exact ⟨rfl, rfl, rfl⟩

theorem State.putAin_kept {n : Nat} {x : Int} {r0 s : State} (hk : Kept pp r0 s) (hm : Sub [.loops] pp) : Kept pp r0 (State.putAin s n x) := by
  unfold State.putAin
  repeat' (first | exact sub_of rfl hm | with_reducible first | assumption | intro _ | apply State.onLoops_kept | exact rfl | apply ite_kept | split)
  all_goals first | exact sub_of rfl hm | exact .inl (hm.mem (by decide)) | exact .inr fun _ => rfl | exact rfl | exact ⟨rfl, rfl⟩ | exact ⟨rfl, rfl, rfl, rfl, rfl⟩ | exact ⟨rfl, rfl, rfl⟩ | (refine .inr fun _ => ?_; (repeat' split) <;> exact rfl) | exact hk.same rfl rfl rfl (fun p => by cases p <;> first | exact .inr rfl | exact .inl (hm.mem (by decide))) | (repeat' split) <;> first | exact rfl | exact ⟨rfl, rfl⟩ | exact ⟨rfl, rfl, rfl, rfl, rfl⟩ | exact ⟨rfl, rfl, rfl⟩

theorem State.takeAin_kept {n : Nat} {raw : Int} {r0 s : State} (hk : Kept pp r0 s) (hm : Sub [.beam, .loops] pp) : Kept pp r0 (State.takeAin s n raw) := by
  unfold State.takeAin
  repeat' (first | exact sub_of rfl hm | with_reducible first | assumption | intro _ | apply State.when_kept | apply State.enterOver_kept | apply State.putAin_kept | exact rfl | apply ite_kept | split)

theorem execInputOverRange_goes {input : Nat} {value : Int} {s : State} (hm : Sub [.beam, .loops] pp) : Goes pp s (execInputOverRange input value s) := by
  unfold execInputOverRange
  repeat' (first | apply onlyIf_goes | apply ite_goes)
  repeat' (first | exact sub_of rfl hm | with_reducible first | exact Kept.refl _ | assumption | intro _ | apply State.enterOver_kept | apply State.putAin_kept | exact rfl | apply ite_kept | split)

theorem execOverRangeReturn_goes {input heldMs : Nat} {s : State} (hm : Sub [.beam, .loops] pp) : Goes pp s (execOverRangeReturn input heldMs s) := by
  unfold execOverRangeReturn
  apply onlyIf_goes
  repeat' (first | exact sub_of rfl hm | with_reducible first | exact Kept.refl _ | assumption | intro _ | apply State.when_kept | apply State.onBeam_kept | apply State.onLoops_kept | apply State.syncReset_kept | exact rfl)
  all_goals first | exact sub_of rfl hm | exact .inl (hm.mem (by decide)) | exact .inr fun _ => rfl | exact rfl | exact ⟨rfl, rfl⟩ | exact ⟨rfl, rfl, rfl, rfl, rfl⟩ | exact ⟨rfl, rfl, rfl⟩ | (refine .inr fun _ => ?_; (repeat' split) <;> exact rfl) | exact (Kept.refl _).same rfl rfl rfl (fun p => by cases p <;> first | exact .inr rfl | exact .inl (hm.mem (by decide))) | (repeat' split) <;> first | exact rfl | exact ⟨rfl, rfl⟩ | exact ⟨rfl, rfl, rfl, rfl, rfl⟩ | exact ⟨rfl, rfl, rfl⟩

theorem execSettlingDone_goes  {s : State} (hm : Sub [.beam, .loops] pp) : Goes pp s (execSettlingDone s) := by
  unfold execSettlingDone
  apply onlyIf_goes
  repeat' (first | exact sub_of rfl hm | with_reducible first | exact Kept.refl _ | assumption | intro _ | apply State.onBeam_kept | apply State.onLoops_kept | apply foldl_kept | exact rfl)
  all_goals first | exact sub_of rfl hm | exact .inl (hm.mem (by decide)) | exact .inr fun _ => rfl | exact rfl | exact ⟨rfl, rfl⟩ | exact ⟨rfl, rfl, rfl, rfl, rfl⟩ | exact ⟨rfl, rfl, rfl⟩ | (refine .inr fun _ => ?_; (repeat' split) <;> exact rfl) | exact (Kept.refl _).same rfl rfl rfl (fun p => by cases p <;> first | exact .inr rfl | exact .inl (hm.mem (by decide))) | (repeat' split) <;> first | exact rfl | exact ⟨rfl, rfl⟩ | exact ⟨rfl, rfl, rfl, rfl, rfl⟩ | exact ⟨rfl, rfl, rfl⟩

theorem execSyncReset_goes  {s : State} (hm : Sub [.beam, .loops] pp) : Goes pp s (execSyncReset s) := by
  unfold execSyncReset
  apply next_goes
  repeat' (first | exact sub_of rfl hm | with_reducible first | exact Kept.refl _ | assumption | intro _ | apply State.syncReset_kept | exact rfl)

theorem execSourceChange_goes {src : Nat} {s : State} (hm : Sub [.beam, .events, .loops] pp) : Goes pp s (execSourceChange src s) := by
  unfold execSourceChange
  apply next_goes
  repeat' (first | exact sub_of rfl hm | with_reducible first | exact Kept.refl _ | assumption | intro _ | apply State.sourceChange_kept | exact rfl)

theorem execCycWallLoRead_goes  {s : State} (hm : Sub [.beam] pp) : Goes pp s (execCycWallLoRead s) := by
  unfold execCycWallLoRead
  apply next_goes
  repeat' (first | exact sub_of rfl hm | with_reducible first | exact Kept.refl _ | assumption | intro _ | apply State.onBeam_kept | exact rfl)

theorem State.fireMark_kept {n : Nat} {r0 s : State} (hk : Kept pp r0 s) (hm : Sub [.beam, .marks] pp) : Kept pp r0 (State.fireMark s n) := by
  unfold State.fireMark
  repeat' (first | exact sub_of rfl hm | with_reducible first | assumption | intro _ | apply State.modMark_kept | apply State.onBeam_kept | exact rfl)
  all_goals first | exact sub_of rfl hm | exact .inl (hm.mem (by decide)) | exact .inr fun _ => rfl | exact rfl | exact ⟨rfl, rfl⟩ | exact ⟨rfl, rfl, rfl, rfl, rfl⟩ | exact ⟨rfl, rfl, rfl⟩ | (refine .inr fun _ => ?_; (repeat' split) <;> exact rfl) | exact hk.same rfl rfl rfl (fun p => by cases p <;> first | exact .inr rfl | exact .inl (hm.mem (by decide))) | (repeat' split) <;> first | exact rfl | exact ⟨rfl, rfl⟩ | exact ⟨rfl, rfl, rfl, rfl, rfl⟩ | exact ⟨rfl, rfl, rfl⟩

theorem State.markEnable_kept {n : Nat} {r0 s : State} (hk : Kept pp r0 s) (hm : Sub [.beam, .marks, .events] pp) : Kept pp r0 (State.markEnable s n) := by
  unfold State.markEnable
  repeat' (first | exact sub_of rfl hm | with_reducible first | assumption | intro _ | apply State.when_kept | apply State.modMark_kept | apply State.beamEv_kept | exact rfl | apply ite_kept | split)

theorem execMarkEnable_goes {unit : Nat} {s : State} (hm : Sub [.beam, .marks, .events] pp) : Goes pp s (execMarkEnable unit s) := by
  unfold execMarkEnable
  apply onlyIf_goes
  repeat' (first | exact sub_of rfl hm | with_reducible first | exact Kept.refl _ | assumption | intro _ | apply State.markEnable_kept | exact rfl)

theorem State.fireM0_kept  {r0 s : State} (hk : Kept pp r0 s) (hm : Sub [.beam, .marks, .store] pp) : Kept pp r0 (State.fireM0 s) := by
  unfold State.fireM0
  repeat' (first | exact sub_of rfl hm | with_reducible first | assumption | intro _ | apply State.when_kept | apply State.modMark_kept | apply State.onBeam_kept | apply State.commitCfg_kept | apply State.fireMark_kept | exact rfl)

theorem State.armM3_kept  {r0 s : State} (hk : Kept pp r0 s) (hm : Sub [.beam, .marks, .events] pp) : Kept pp r0 (State.armM3 s) := by
  unfold State.armM3
  repeat' (first | exact sub_of rfl hm | with_reducible first | assumption | intro _ | apply State.modMark_kept | apply State.count_kept | apply State.markEnable_kept | exact rfl | apply ite_kept | split)

theorem Beam.thaw_marks (b : Beam) (hi tag : Bool) : (b.thaw hi tag).marks = b.marks := by
  unfold Beam.thaw; dsimp only; split <;> rfl

theorem State.beamReadEffect_kept {off : Nat} {r0 s : State} (h : Kept pp r0 s) (hm : Sub [.beam] pp) :
    Kept pp r0 (s.beamReadEffect off) := by
  refine State.onBeam_kept (fun b => ?_) h hm
  split <;> first | rfl | exact Beam.thaw_marks _ _ _

theorem State.markWrite_kept {off v : Nat} {r0 s : State} (hk : Kept pp r0 s) (hm : Sub [.beam, .marks, .events] pp) : Kept pp r0 (State.markWrite s off v) := by
  unfold State.markWrite
  repeat' (first | exact sub_of rfl hm | with_reducible first | assumption | intro _ | apply State.modMark_kept | apply State.count_kept | apply State.markEnable_kept | exact rfl | apply ite_kept | split)

theorem State.renominal_kept  {r0 s : State} (hk : Kept pp r0 s) (hm : Sub [.marks] pp) : Kept pp r0 (State.renominal s) := by
  unfold State.renominal
  repeat' (first | exact sub_of rfl hm | with_reducible first | assumption | intro _ | apply State.when_kept | apply State.modMark_kept | exact rfl)

theorem State.beamWrite_kept {off v : Nat} {r0 s : State} (h : Kept pp r0 s) (hm : Sub [.beam, .marks, .events, .loops] pp) :
    Kept pp r0 (s.beamWrite off v) := by
  unfold State.beamWrite
  dsimp only
  have hb : Sub [.beam] pp := sub_of rfl hm
  split
  · exact State.markWrite_kept h (sub_of rfl hm)
  · split
    · exact State.when_kept (fun h => State.syncReset_kept h (sub_of rfl hm))
        (State.sourceChange_kept (State.onBeam_kept (fun _ => rfl) h hb) (sub_of rfl hm))
    · exact State.renominal_kept (State.onBeam_kept (fun _ => rfl) h hb) (sub_of rfl hm)
    all_goals first
      | exact h
      | exact State.onBeam_kept (fun _ => rfl) h hb
      | exact State.onBeam_kept (fun _ => Beam.follow_marks _) h hb

end Sys2Proof.Machine
end

