-- ==== Sys2Proof/Laws/KeptLink.lean ====
section
/-! SUPPORT. Each operation and each meaning of Link, Temps, Kernel, RodIsa, Factory goes on and keeps the queue, the clock, canonical tables, and every part outside its list. -/
namespace Sys2Proof.Machine
open Sys2Proof

variable {pp : List Part}

theorem State.splitRing_kept {port : Nat} {r0 s : State} (hk : Kept pp r0 s) (hm : Sub [.rings, .events] pp) : Kept pp r0 (State.splitRing s port) := by
  unfold State.splitRing
  repeat' (first | exact sub_of rfl hm | with_reducible first | assumption | intro _ | apply State.modRing_kept | apply State.raise_kept | exact rfl | apply ite_kept | split)

theorem execRxLock_goes {port place : Nat} {fwd : Bool} {symbols commas : Nat} {s : State} (hm : Sub [.rings, .nodes] pp) : Goes pp s (execRxLock port place fwd symbols commas s) := by
  unfold execRxLock
  repeat' (first | apply onlyIf_goes | apply ite_goes)
  repeat' (first | exact sub_of rfl hm | with_reducible first | exact Kept.refl _ | assumption | intro _ | apply State.modRing_kept | apply State.modNode_kept | exact rfl | apply ite_kept | split)

theorem execRxLockLost_goes {port place : Nat} {fwd : Bool} {invalid quietNs : Nat} {s : State} (hm : Sub [.rings, .nodes] pp) : Goes pp s (execRxLockLost port place fwd invalid quietNs s) := by
  unfold execRxLockLost
  repeat' (first | apply onlyIf_goes | apply ite_goes)
  repeat' (first | exact sub_of rfl hm | with_reducible first | exact Kept.refl _ | assumption | intro _ | apply State.modRing_kept | apply State.modNode_kept | exact rfl | apply ite_kept | split)

theorem execFaultSet_goes {port place : Nat} {fwd : Bool} {s : State} (hm : Sub [.rings, .nodes, .events] pp) : Goes pp s (execFaultSet port place fwd s) := by
  unfold execFaultSet
  repeat' (first | apply next_goes | apply ite_goes)
  repeat' (first | exact sub_of rfl hm | with_reducible first | exact Kept.refl _ | assumption | intro _ | apply State.modNode_kept | apply State.splitRing_kept | exact rfl | apply ite_kept | split)

theorem State.queueCmd_kept {port dst : Nat} {op : LinkOp} {origin : Option (Rq × Nat)} {r0 s : State} (hk : Kept pp r0 s) (hm : Sub [.rings] pp) : Kept pp r0 (State.queueCmd s port dst op origin) := by
  unfold State.queueCmd
  repeat' (first | exact sub_of rfl hm | with_reducible first | assumption | intro _ | apply State.modRing_kept | exact rfl)

theorem State.queueStop_kept {port pos : Nat} {op : LinkOp} {r0 s : State} (hk : Kept pp r0 s) (hm : Sub [.rings] pp) : Kept pp r0 (State.queueStop s port pos op) := by
  unfold State.queueStop
  repeat' (first | exact sub_of rfl hm | with_reducible first | assumption | intro _ | apply State.modRing_kept | exact rfl | apply ite_kept | split)

theorem execRingRejoin_goes {port : Nat} {s : State} (hm : Sub [.rings, .events] pp) : Goes pp s (execRingRejoin port s) := by
  unfold execRingRejoin
  apply onlyIf_goes
  repeat' (first | exact sub_of rfl hm | with_reducible first | exact Kept.refl _ | assumption | intro _ | apply State.modRing_kept | apply State.raise_kept | apply State.queueCmd_kept | exact rfl)

theorem enumPass_kept {port n i next : Nat} {r0 s : State} (h : Kept pp r0 s) (hm : Sub [.nodes] pp) :
    Kept pp r0 (enumPass port n i next s).1 := by
  induction n generalizing i next s with
  | zero => exact h
  | succ n ih =>
    exact ih (State.modNode_kept h hm)

theorem State.enumerate_kept {port count : Nat} {r0 s : State} (h : Kept pp r0 s) (hm : Sub [.rings, .nodes, .events] pp) :
    Kept pp r0 (s.enumerate port count) := by
  unfold State.enumerate
  exact State.when_kept (fun h => State.raise_kept h (sub_of rfl hm))
    (State.modRing_kept (enumPass_kept h (sub_of rfl hm)) (sub_of rfl hm))

theorem execEnum_goes {port count : Nat} {s : State} (hm : Sub [.rings, .nodes, .events] pp) : Goes pp s (execEnum port count s) := by
  unfold execEnum
  apply onlyIf_goes
  repeat' (first | exact sub_of rfl hm | with_reducible first | exact Kept.refl _ | assumption | intro _ | apply State.count_kept | apply State.enumerate_kept | exact rfl)

theorem execClear_goes {port place : Nat} {s : State} (hm : Sub [.nodes] pp) : Goes pp s (execClear port place s) := by
  unfold execClear
  apply onlyIf_goes
  repeat' (first | exact sub_of rfl hm | with_reducible first | exact Kept.refl _ | assumption | intro _ | apply State.modNode_kept | exact rfl)

theorem execCensus_goes {port count : Nat} {s : State} (hm : Sub [.rings] pp) : Goes pp s (execCensus port count s) := by
  unfold execCensus
  apply onlyIf_goes
  repeat' (first | exact sub_of rfl hm | with_reducible first | exact Kept.refl _ | assumption | intro _ | apply State.modRing_kept | apply State.count_kept | exact rfl)

theorem execRingEcho_goes {port place pos : Nat} {fwd : Bool} {s : State} (hm : Sub [.rings] pp) : Goes pp s (execRingEcho port place pos fwd s) := by
  unfold execRingEcho
  apply onlyIf_goes
  repeat' (first | exact sub_of rfl hm | with_reducible first | exact Kept.refl _ | assumption | intro _ | apply State.modRing_kept | exact rfl)

theorem execEchoReply_goes {port pos : Nat} {endB : Bool} {rtt : Nat} {s : State} (hm : Sub [.rings] pp) : Goes pp s (execEchoReply port pos endB rtt s) := by
  unfold execEchoReply
  apply onlyIf_goes
  repeat' (first | exact sub_of rfl hm | with_reducible first | exact Kept.refl _ | assumption | intro _ | apply State.modRing_kept | exact rfl)

theorem State.launchSync_kept {gen : Nat} {r0 s : State} (hk : Kept pp r0 s) (hm : Sub [.rings, .events] pp) : Kept pp r0 (State.launchSync s gen) := by
  unfold State.launchSync
  repeat' (first | exact sub_of rfl hm | with_reducible first | assumption | intro _ | apply State.when_kept | apply State.modRing_kept | apply State.raise_kept | apply forEach_kept | exact rfl)

theorem execCollectLaunch_goes {port : Nat} {s : State} (hm : Sub [.rings] pp) : Goes pp s (execCollectLaunch port s) := by
  unfold execCollectLaunch
  repeat' (first | apply onlyIf_goes | apply ite_goes)
  repeat' (first | exact sub_of rfl hm | with_reducible first | exact Kept.refl _ | assumption | intro _ | apply State.modRing_kept | exact rfl | apply ite_kept | split)

theorem execLeaseExpired_goes {port place : Nat} {s : State} (hm : Sub [.nodes] pp) : Goes pp s (execLeaseExpired port place s) := by
  unfold execLeaseExpired
  apply onlyIf_goes
  repeat' (first | exact sub_of rfl hm | with_reducible first | exact Kept.refl _ | assumption | intro _ | apply State.modNode_kept | exact rfl)

theorem execLeaseTimeout_goes {port place : Nat} {s : State} (hm : Sub [.nodes] pp) : Goes pp s (execLeaseTimeout port place s) := by
  unfold execLeaseTimeout
  apply onlyIf_goes
  repeat' (first | exact sub_of rfl hm | with_reducible first | exact Kept.refl _ | assumption | intro _ | apply State.modNode_kept | exact rfl)

theorem execNodeSync_goes {port place tag : Nat} {fwd : Bool} {s : State} (hm : Sub [.nodes] pp) : Goes pp s (execNodeSync port place tag fwd s) := by
  unfold execNodeSync
  apply onlyIf_goes
  repeat' (first | exact sub_of rfl hm | with_reducible first | exact Kept.refl _ | assumption | intro _ | apply State.modNode_kept | exact rfl)

theorem execNodeSample_goes {port place : Nat} {cells temps : List Nat} {stack nodeT busI aux : Nat} {busFault inTime : Bool} {s : State} (hm : Sub [.nodes] pp) : Goes pp s (execNodeSample port place cells temps stack nodeT busI aux busFault inTime s) := by
  unfold execNodeSample
  apply onlyIf_goes
  repeat' (first | exact sub_of rfl hm | with_reducible first | exact Kept.refl _ | assumption | intro _ | apply State.modNode_kept | exact rfl)

theorem execNodeProjectedSample_goes {port place tag : Nat} {cells temps : List Nat} {stack nodeT busI aux : Nat} {busFault inTime : Bool} {s : State} (hm : Sub [.nodes] pp) : Goes pp s (execNodeProjectedSample port place tag cells temps stack nodeT busI aux busFault inTime s) := by
  unfold execNodeProjectedSample
  repeat' (first | apply onlyIf_goes | apply ite_goes | split)
  repeat' (first | exact sub_of rfl hm | with_reducible first | exact Kept.refl _ | assumption | intro _ | apply State.modNode_kept | exact rfl | apply ite_kept | split)

theorem State.recordMissing_kept {port pos : Nat} {r0 s : State} (hk : Kept pp r0 s) (hm : Sub [.rings, .events] pp) : Kept pp r0 (State.recordMissing s port pos) := by
  unfold State.recordMissing
  repeat' (first | exact sub_of rfl hm | with_reducible first | assumption | intro _ | apply State.modRing_kept | apply State.raise_kept | exact rfl | apply ite_kept | split)

theorem State.mergeRecord_kept {port pos : Nat} {rec : List Byte} {r0 s : State} (hk : Kept pp r0 s) (hm : Sub [.est] pp) : Kept pp r0 (State.mergeRecord s port pos rec) := by
  unfold State.mergeRecord
  dsimp only
  repeat' (first | exact sub_of rfl hm | with_reducible first | assumption | intro _ | apply State.when_kept | apply State.modCell_kept | apply forEach_kept | exact rfl | apply ite_kept | split)

theorem execRecordReceived_goes {port place : Nat} {rec : List Byte} {s : State} (hm : Sub [.rings, .est, .events] pp) : Goes pp s (execRecordReceived port place rec s) := by
  unfold execRecordReceived
  apply onlyIf_goes
  repeat' (first | exact sub_of rfl hm | with_reducible first | exact Kept.refl _ | assumption | intro _ | apply State.when_kept | apply State.modRing_kept | apply State.raise_kept | apply State.mergeRecord_kept | exact rfl)

theorem State.closeCollection_kept {port : Nat} {r0 s : State} (hk : Kept pp r0 s) (hm : Sub [.rings, .events] pp) : Kept pp r0 (State.closeCollection s port) := by
  unfold State.closeCollection
  repeat' (first | exact sub_of rfl hm | with_reducible first | assumption | intro _ | apply State.modRing_kept | apply State.recordMissing_kept | apply forEach_kept | apply foldl_kept | exact rfl)

theorem execCollectFrameClosed_goes {port fNow : Nat} {endB returned : Bool} {s : State} (hm : Sub [.rings, .events] pp) : Goes pp s (execCollectFrameClosed port fNow endB returned s) := by
  unfold execCollectFrameClosed
  repeat' (first | apply onlyIf_goes | apply ite_goes)
  repeat' (first | exact sub_of rfl hm | with_reducible first | exact Kept.refl _ | assumption | intro _ | apply State.when_kept | apply State.modRing_kept | apply State.splitRing_kept | apply State.closeCollection_kept | exact rfl | apply ite_kept | split)

theorem execSkewLimit_goes {port : Nat} {s : State} (hm : Sub [.rings, .events] pp) : Goes pp s (execSkewLimit port s) := by
  unfold execSkewLimit
  apply onlyIf_goes
  repeat' (first | exact sub_of rfl hm | with_reducible first | exact Kept.refl _ | assumption | intro _ | apply State.modRing_kept | apply State.raise_kept | exact rfl)

theorem execKeepaliveLaunch_goes  {s : State} (hm : Sub [.rings] pp) : Goes pp s (execKeepaliveLaunch s) := by
  unfold execKeepaliveLaunch
  apply onlyIf_goes
  repeat' (first | exact sub_of rfl hm | with_reducible first | exact Kept.refl _ | assumption | intro _ | apply State.modRing_kept | apply forEach_kept | exact rfl)

theorem execSwitchWatchdogExpiry_goes {port place : Nat} {s : State} (hm : Sub [.nodes] pp) : Goes pp s (execSwitchWatchdogExpiry port place s) := by
  unfold execSwitchWatchdogExpiry
  apply onlyIf_goes
  repeat' (first | exact sub_of rfl hm | with_reducible first | exact Kept.refl _ | assumption | intro _ | apply State.modNode_kept | exact rfl)

theorem execNodeStart_goes {port place : Nat} {nvFault : Bool} {s : State} (hm : Sub [.nodes] pp) : Goes pp s (execNodeStart port place nvFault s) := by
  unfold execNodeStart
  apply next_goes
  repeat' (first | exact sub_of rfl hm | with_reducible first | exact Kept.refl _ | assumption | intro _ | apply State.modNode_kept | exact rfl)

theorem State.nodeFrame_kept {port place : Nat} {nvBusy : Bool} {f : Option LinkFrame} {r0 s : State} (hk : Kept pp r0 s) (hm : Sub [.nodes] pp) : Kept pp r0 (State.nodeFrame s port place nvBusy f) := by
  unfold State.nodeFrame
  repeat' (first | exact sub_of rfl hm | with_reducible first | assumption | intro _ | apply State.modNode_kept | exact rfl | apply ite_kept | split)

theorem execCollect_goes {port place : Nat} {raw : Option (List Byte)} {s : State} (hm : Sub [.nodes] pp) : Goes pp s (execCollect port place raw s) := by
  unfold execCollect
  repeat' (first | apply next_goes | split)
  repeat' (first | exact sub_of rfl hm | with_reducible first | exact Kept.refl _ | assumption | intro _ | apply State.nodeFrame_kept | exact rfl | apply ite_kept | split)

theorem execKeepalive_goes {port place : Nat} {raw : Option (List Byte)} {s : State} (hm : Sub [.nodes] pp) : Goes pp s (execKeepalive port place raw s) := by
  unfold execKeepalive
  apply next_goes
  repeat' (first | exact sub_of rfl hm | with_reducible first | exact Kept.refl _ | assumption | intro _ | apply State.nodeFrame_kept | exact rfl)

theorem execReadNode_goes {port place seq : Nat} {resync : Bool} {addr count : Nat} {raw : Option (List Byte)} {s : State} (hm : Sub [.nodes] pp) : Goes pp s (execReadNode port place seq resync addr count raw s) := by
  unfold execReadNode
  apply next_goes
  repeat' (first | exact sub_of rfl hm | with_reducible first | exact Kept.refl _ | assumption | intro _ | apply State.count_kept | apply State.nodeFrame_kept | exact rfl)

theorem execWriteNode_goes {port place seq : Nat} {resync bcast : Bool} {addr : Nat} {data : List Byte} {nvBusy : Bool} {raw : Option (List Byte)} {s : State} (hm : Sub [.nodes] pp) : Goes pp s (execWriteNode port place seq resync bcast addr data nvBusy raw s) := by
  unfold execWriteNode
  apply next_goes
  repeat' (first | exact sub_of rfl hm | with_reducible first | exact Kept.refl _ | assumption | intro _ | apply State.nodeFrame_kept | exact rfl)

theorem execBalance_goes {port place seq : Nat} {resync : Bool} {lease dir : Nat} {duty : List Nat} {raw : Option (List Byte)} {s : State} (hm : Sub [.nodes] pp) : Goes pp s (execBalance port place seq resync lease dir duty raw s) := by
  unfold execBalance
  apply next_goes
  repeat' (first | exact sub_of rfl hm | with_reducible first | exact Kept.refl _ | assumption | intro _ | apply State.nodeFrame_kept | exact rfl)

theorem execSwitch_goes {port place seq : Nat} {resync guardSet : Bool} {out : Nat} {raw : Option (List Byte)} {s : State} (hm : Sub [.nodes] pp) : Goes pp s (execSwitch port place seq resync guardSet out raw s) := by
  unfold execSwitch
  apply next_goes
  repeat' (first | exact sub_of rfl hm | with_reducible first | exact Kept.refl _ | assumption | intro _ | apply State.nodeFrame_kept | exact rfl)

theorem execUnwrap_goes {port place seq : Nat} {resync bcast : Bool} {raw : Option (List Byte)} {s : State} (hm : Sub [.nodes] pp) : Goes pp s (execUnwrap port place seq resync bcast raw s) := by
  unfold execUnwrap
  apply next_goes
  repeat' (first | exact sub_of rfl hm | with_reducible first | exact Kept.refl _ | assumption | intro _ | apply State.nodeFrame_kept | exact rfl)

theorem execFwBlock_goes {port place seq : Nat} {resync bcast : Bool} {offset : Nat} {data : List Byte} {raw : Option (List Byte)} {s : State} (hm : Sub [.nodes] pp) : Goes pp s (execFwBlock port place seq resync bcast offset data raw s) := by
  unfold execFwBlock
  apply next_goes
  repeat' (first | exact sub_of rfl hm | with_reducible first | exact Kept.refl _ | assumption | intro _ | apply State.nodeFrame_kept | exact rfl)

theorem execFwActivate_goes {port place seq : Nat} {resync bcast : Bool} {crc : Nat} {raw : Option (List Byte)} {s : State} (hm : Sub [.nodes] pp) : Goes pp s (execFwActivate port place seq resync bcast crc raw s) := by
  unfold execFwActivate
  apply next_goes
  repeat' (first | exact sub_of rfl hm | with_reducible first | exact Kept.refl _ | assumption | intro _ | apply State.nodeFrame_kept | exact rfl)

theorem execNodeFwRestart_goes {port place ver : Nat} {started : Bool} {s : State} (hm : Sub [.nodes] pp) : Goes pp s (execNodeFwRestart port place ver started s) := by
  unfold execNodeFwRestart
  repeat' (first | apply onlyIf_goes | apply ite_goes)
  repeat' (first | exact sub_of rfl hm | with_reducible first | exact Kept.refl _ | assumption | intro _ | apply State.modNode_kept | exact rfl | apply ite_kept | split)

theorem State.putFrame_kept {port : Nat} {c : LinkCmd} {r0 s : State} (hk : Kept pp r0 s) (hm : Sub [.rings] pp) : Kept pp r0 (State.putFrame s port c) := by
  unfold State.putFrame
  repeat' (first | exact sub_of rfl hm | with_reducible first | assumption | intro _ | apply State.modRing_kept | exact rfl | apply ite_kept | split)

theorem execCommandLaunch_goes {port : Nat} {s : State} (hm : Sub [.mail, .rings] pp) : Goes pp s (execCommandLaunch port s) := by
  unfold execCommandLaunch
  repeat' (first | apply next_goes | apply ite_goes | split)
  repeat' (first | exact sub_of rfl hm | with_reducible first | exact Kept.refl _ | assumption | intro _ | apply State.modRing_kept | apply State.ok_kept | apply State.putFrame_kept | exact rfl | apply ite_kept | split)

theorem State.putOut_kept {port : Nat} {c c1 : LinkCmd} {r0 s : State} (hk : Kept pp r0 s) (hm : Sub [.rings] pp) : Kept pp r0 (State.putOut s port c c1) := by
  unfold State.putOut
  repeat' (first | exact sub_of rfl hm | with_reducible first | assumption | intro _ | apply State.modRing_kept | exact rfl | apply ite_kept | split)

theorem State.resend_kept {port : Nat} {c c1 : LinkCmd} {r0 s : State} (hk : Kept pp r0 s) (hm : Sub [.rings] pp) : Kept pp r0 (State.resend s port c c1) := by
  unfold State.resend
  repeat' (first | exact sub_of rfl hm | with_reducible first | assumption | intro _ | apply State.putFrame_kept | apply State.putOut_kept | exact rfl)

theorem State.dropOut_kept {port : Nat} {c : LinkCmd} {r0 s : State} (hk : Kept pp r0 s) (hm : Sub [.rings] pp) : Kept pp r0 (State.dropOut s port c) := by
  unfold State.dropOut
  repeat' (first | exact sub_of rfl hm | with_reducible first | assumption | intro _ | apply State.modRing_kept | exact rfl)

theorem State.endCmd_kept {c : LinkCmd} {r : Option Refuse} {data : List Byte} {r0 s : State} (hk : Kept pp r0 s) (hm : Sub [.mail] pp) : Kept pp r0 (State.endCmd s c r data) := by
  unfold State.endCmd
  repeat' (first | exact sub_of rfl hm | with_reducible first | assumption | intro _ | apply State.ok_kept | apply State.refuse_kept | exact rfl | apply ite_kept | split)

theorem State.onNodeUpd_kept {f : NodeUpd → NodeUpd} {r0 s : State} (hk : Kept pp r0 s) (hm : Sub [.upd] pp) : Kept pp r0 (State.onNodeUpd s f) := by
  unfold State.onNodeUpd
  repeat' (first | exact sub_of rfl hm | with_reducible first | assumption | intro _ | apply State.onUpd_kept | exact rfl)

theorem State.nodeNext_kept  {r0 s : State} (hk : Kept pp r0 s) (hm : Sub [.rings, .events, .upd] pp) : Kept pp r0 (State.nodeNext s) := by
  unfold State.nodeNext
  repeat' (first | exact sub_of rfl hm | with_reducible first | assumption | intro _ | apply State.onUpd_kept | apply State.raise_kept | apply State.queueCmd_kept | exact rfl | apply ite_kept | split)

theorem State.nodeFailed_kept {port pos kind : Nat} {r0 s : State} (hk : Kept pp r0 s) (hm : Sub [.events, .upd] pp) : Kept pp r0 (State.nodeFailed s port pos kind) := by
  unfold State.nodeFailed
  repeat' (first | exact sub_of rfl hm | with_reducible first | assumption | intro _ | apply State.onUpd_kept | apply State.raise_kept | exact rfl)

theorem State.nodeActivated_kept {port pos : Nat} {r0 s : State} (hk : Kept pp r0 s) (hm : Sub [.rings, .events, .upd] pp) : Kept pp r0 (State.nodeActivated s port pos) := by
  unfold State.nodeActivated
  repeat' (first | exact sub_of rfl hm | with_reducible first | assumption | intro _ | apply State.raise_kept | apply State.onNodeUpd_kept | apply State.nodeNext_kept | exact rfl)

theorem State.nodeResend_kept {port pos : Nat} {r0 s : State} (hk : Kept pp r0 s) (hm : Sub [.rings, .events, .upd] pp) : Kept pp r0 (State.nodeResend s port pos) := by
  unfold State.nodeResend
  repeat' (first | exact sub_of rfl hm | with_reducible first | assumption | intro _ | apply State.queueCmd_kept | apply State.onNodeUpd_kept | apply State.nodeNext_kept | apply forEach_kept | exact rfl)

theorem State.nodeStep_kept {port pos : Nat} {c : LinkCmd} {status : Option Nat} {data : List Byte} {r0 s : State} (hk : Kept pp r0 s) (hm : Sub [.rings, .events, .upd] pp) : Kept pp r0 (State.nodeStep s port pos c status data) := by
  unfold State.nodeStep
  repeat' (first | exact sub_of rfl hm | with_reducible first | assumption | intro _ | apply State.queueCmd_kept | apply State.onNodeUpd_kept | apply State.nodeFailed_kept | apply State.nodeActivated_kept | apply State.nodeResend_kept | exact rfl | apply ite_kept | split)

theorem State.takeResponse_kept {port pos seq status : Nat} {data : List Byte} {r0 s : State} (hk : Kept pp r0 s) (hm : Sub [.mail, .rings, .est, .events, .upd] pp) : Kept pp r0 (State.takeResponse s port pos seq status data) := by
  unfold State.takeResponse
  repeat' (first | exact sub_of rfl hm | with_reducible first | assumption | intro _ | apply State.when_kept | apply State.modRing_kept | apply State.modBal_kept | apply State.putOut_kept | apply State.resend_kept | apply State.dropOut_kept | apply State.endCmd_kept | apply State.nodeStep_kept | exact rfl | apply ite_kept | split)

theorem execResponse_goes {port pos seq status : Nat} {data : List Byte} {raw : Option (List Byte)} {s : State} (hm : Sub [.mail, .rings, .est, .events, .upd] pp) : Goes pp s (execResponse port pos seq status data raw s) := by
  unfold execResponse
  repeat' (first | apply next_goes | split)
  repeat' (first | exact sub_of rfl hm | with_reducible first | exact Kept.refl _ | assumption | intro _ | apply State.when_kept | apply State.takeResponse_kept | exact rfl | apply ite_kept | split)

theorem execCommandTimeout_goes {port pos : Nat} {s : State} (hm : Sub [.mail, .rings, .events, .upd] pp) : Goes pp s (execCommandTimeout port pos s) := by
  unfold execCommandTimeout
  repeat' (first | apply next_goes | apply ite_goes | split)
  repeat' (first | exact sub_of rfl hm | with_reducible first | exact Kept.refl _ | assumption | intro _ | apply State.modRing_kept | apply State.raise_kept | apply State.resend_kept | apply State.dropOut_kept | apply State.endCmd_kept | apply State.nodeStep_kept | exact rfl | apply ite_kept | split)

theorem execBusyRetry_goes {port pos : Nat} {s : State} (hm : Sub [.mail, .rings, .events, .upd] pp) : Goes pp s (execBusyRetry port pos s) := by
  unfold execBusyRetry
  repeat' (first | apply next_goes | apply ite_goes | split)
  repeat' (first | exact sub_of rfl hm | with_reducible first | exact Kept.refl _ | assumption | intro _ | apply State.resend_kept | apply State.dropOut_kept | apply State.endCmd_kept | apply State.nodeStep_kept | exact rfl | apply ite_kept | split)

theorem State.launchTrip_kept {ports : List Nat} {scope target cause : Nat} {r0 s : State} (hk : Kept pp r0 s) (hm : Sub [.rings] pp) : Kept pp r0 (State.launchTrip s ports scope target cause) := by
  unfold State.launchTrip
  repeat' (first | exact sub_of rfl hm | with_reducible first | assumption | intro _ | apply State.when_kept | apply State.modRing_kept | apply forEach_kept | exact rfl)

theorem execTrip_goes {port place : Nat} {raw : Option (List Byte)} {s : State} (hm : Sub [.nodes] pp) : Goes pp s (execTrip port place raw s) := by
  unfold execTrip
  repeat' (first | apply next_goes | split)
  repeat' (first | exact sub_of rfl hm | with_reducible first | exact Kept.refl _ | assumption | intro _ | apply State.modNode_kept | exact rfl | apply ite_kept | split)

theorem execTripBodyTimeout_goes {port place : Nat} {s : State} (hm : Sub [.rings, .nodes, .est] pp) : Goes pp s (execTripBodyTimeout port place s) := by
  unfold execTripBodyTimeout
  apply onlyIf_goes
  repeat' (first | exact sub_of rfl hm | with_reducible first | exact Kept.refl _ | assumption | intro _ | apply State.modNode_kept | exact rfl)

theorem execNodeHot_goes {port place : Nat} {hot : Bool} {s : State} (hm : Sub [.rings, .nodes, .est] pp) : Goes pp s (execNodeHot port place hot s) := by
  unfold execNodeHot
  repeat' (first | apply next_goes | apply ite_goes)
  repeat' (first | exact sub_of rfl hm | with_reducible first | exact Kept.refl _ | assumption | intro _ | apply State.modNode_kept | exact rfl | apply ite_kept | split)

theorem State.judgeTemps_kept {port pos : Nat} {r0 s : State} (hk : Kept pp r0 s) (hm : Sub [.est, .events] pp) : Kept pp r0 (State.judgeTemps s port pos) := by
  unfold State.judgeTemps
  repeat' (first | exact sub_of rfl hm | with_reducible first | assumption | intro _ | apply State.when_kept | apply State.modBal_kept | apply State.modTemp_kept | apply State.raise_kept | apply forEach_kept | exact rfl | apply ite_kept | split)

theorem State.evalThermal_kept {k : Nat} {r0 s : State} (hk : Kept pp r0 s) (hm : Sub [.est, .events] pp) : Kept pp r0 (State.evalThermal s k) := by
  unfold State.evalThermal
  repeat' (first | exact sub_of rfl hm | with_reducible first | assumption | intro _ | apply State.when_kept | apply State.modStr_kept | apply State.raise_kept | apply forEach_kept | exact rfl | apply ite_kept | split)

theorem State.bankThermal_kept  {r0 s : State} (hk : Kept pp r0 s) (hm : Sub [.est] pp) : Kept pp r0 (State.bankThermal s) := by
  unfold State.bankThermal
  try dsimp only
  repeat' (first | exact sub_of rfl hm | exact .inl (hm.mem (by decide)) | exact .inr fun _ => rfl | with_reducible first | exact Kept.refl _ | assumption | intro _ _ _ | intro _ _ | intro _ | apply ite_kept | apply State.onEst_kept | apply foldl_kept | exact rfl | split | exact (by assumption : Kept _ _ _).same rfl rfl rfl (fun p => by cases p <;> first | exact .inr rfl | exact .inl (hm.mem (by decide))) | exact (Kept.refl _).same rfl rfl rfl (fun p => by cases p <;> first | exact .inr rfl | exact .inl (hm.mem (by decide))))
  all_goals (try dsimp only)
  all_goals (first | exact sub_of rfl hm | exact .inl (hm.mem (by decide)) | exact .inr fun _ => rfl | exact rfl | exact ⟨rfl, rfl⟩ | exact ⟨rfl, rfl, rfl, rfl, rfl⟩ | exact ⟨rfl, rfl, rfl⟩ | (refine .inr fun _ => ?_; (repeat' split) <;> exact rfl) | exact hk.same rfl rfl rfl (fun p => by cases p <;> first | exact .inr rfl | exact .inl (hm.mem (by decide))) | exact (Kept.refl _).same rfl rfl rfl (fun p => by cases p <;> first | exact .inr rfl | exact .inl (hm.mem (by decide))) | exact (by assumption : Kept _ _ _).same rfl rfl rfl (fun p => by cases p <;> first | exact .inr rfl | exact .inl (hm.mem (by decide))) | ((repeat' split) <;> first | exact rfl | exact ⟨rfl, rfl⟩ | exact ⟨rfl, rfl, rfl, rfl, rfl⟩ | exact ⟨rfl, rfl, rfl⟩))

theorem State.kernelFault_kept {n : Nat} {c : RodCtx} {r0 s : State} (hk : Kept pp r0 s) (hm : Sub [.sched, .rods, .events] pp) : Kept pp r0 (State.kernelFault s n c) := by
  unfold State.kernelFault
  repeat' (first | exact sub_of rfl hm | with_reducible first | assumption | intro _ | apply State.modRod_kept | apply State.onSched_kept | apply State.raise_kept | exact rfl | apply ite_kept | split)

theorem State.afterIssue_kept {n pc : Nat} {im : Image} {c : RodCtx} {r0 s : State} (hk : Kept pp r0 s) (hm : Sub [.sched, .rods, .events] pp) : Kept pp r0 (State.afterIssue s n pc im c) := by
  unfold State.afterIssue
  repeat' (first | exact sub_of rfl hm | with_reducible first | assumption | intro _ | apply State.modRod_kept | apply State.kernelFault_kept | exact rfl | apply ite_kept | split)

theorem State.issueFold_kept {n w cyc stall : Nat} {run : Image → RodCtx → RodCtx} {sigs : RodCtx → Rod → Rod} {r0 s : State} (hk : Kept pp r0 s) (hm : Sub [.sched, .rods, .events] pp) : Kept pp r0 (State.issueFold s n w cyc stall run sigs) := by
  unfold State.issueFold
  repeat' (first | exact sub_of rfl hm | with_reducible first | assumption | intro _ | apply State.modRod_kept | apply State.kernelFault_kept | apply State.afterIssue_kept | exact rfl | apply ite_kept | split)

theorem State.issue_kept {n w cyc stall : Nat} {run : Image → RodCtx → RodCtx} {r0 s : State} (hk : Kept pp r0 s) (hm : Sub [.sched, .rods, .events] pp) : Kept pp r0 (State.issue s n w cyc stall run) := by
  unfold State.issue
  repeat' (first | exact sub_of rfl hm | with_reducible first | assumption | intro _ | apply State.issueFold_kept | exact rfl)

theorem rodRun_goes {rod w cyc stall : Nat} {run : Image → RodCtx → RodCtx} {s : State} (hm : Sub [.sched, .rods, .events] pp) : Goes pp s (rodRun rod w cyc stall run s) := by
  unfold rodRun
  apply next_goes
  repeat' (first | exact sub_of rfl hm | with_reducible first | exact Kept.refl _ | assumption | intro _ | apply State.issue_kept | exact rfl)

theorem execNop_goes {rod stall : Nat} {s : State} (hm : Sub [.sched, .rods, .events] pp) : Goes pp s (execNop rod stall s) := by
  unfold execNop
  apply rodRun_goes
  repeat' (first | exact sub_of rfl hm | with_reducible first | exact Kept.refl _ | assumption | intro _ | exact rfl)

theorem execVadd_goes {rod stall d a b : Nat} {s : State} (hm : Sub [.sched, .rods, .events] pp) : Goes pp s (execVadd rod stall d a b s) := by
  unfold execVadd
  apply rodRun_goes
  repeat' (first | exact sub_of rfl hm | with_reducible first | exact Kept.refl _ | assumption | intro _ | exact rfl)

theorem execVsub_goes {rod stall d a b : Nat} {s : State} (hm : Sub [.sched, .rods, .events] pp) : Goes pp s (execVsub rod stall d a b s) := by
  unfold execVsub
  apply rodRun_goes
  repeat' (first | exact sub_of rfl hm | with_reducible first | exact Kept.refl _ | assumption | intro _ | exact rfl)

theorem execVneg_goes {rod stall d a : Nat} {s : State} (hm : Sub [.sched, .rods, .events] pp) : Goes pp s (execVneg rod stall d a s) := by
  unfold execVneg
  apply rodRun_goes
  repeat' (first | exact sub_of rfl hm | with_reducible first | exact Kept.refl _ | assumption | intro _ | exact rfl)

theorem execVabs_goes {rod stall d a : Nat} {s : State} (hm : Sub [.sched, .rods, .events] pp) : Goes pp s (execVabs rod stall d a s) := by
  unfold execVabs
  apply rodRun_goes
  repeat' (first | exact sub_of rfl hm | with_reducible first | exact Kept.refl _ | assumption | intro _ | exact rfl)

theorem execVmax_goes {rod stall d a b : Nat} {s : State} (hm : Sub [.sched, .rods, .events] pp) : Goes pp s (execVmax rod stall d a b s) := by
  unfold execVmax
  apply rodRun_goes
  repeat' (first | exact sub_of rfl hm | with_reducible first | exact Kept.refl _ | assumption | intro _ | exact rfl | apply ite_kept | split)

theorem execVmin_goes {rod stall d a b : Nat} {s : State} (hm : Sub [.sched, .rods, .events] pp) : Goes pp s (execVmin rod stall d a b s) := by
  unfold execVmin
  apply rodRun_goes
  repeat' (first | exact sub_of rfl hm | with_reducible first | exact Kept.refl _ | assumption | intro _ | exact rfl | apply ite_kept | split)

theorem execVmov_goes {rod stall d a : Nat} {s : State} (hm : Sub [.sched, .rods, .events] pp) : Goes pp s (execVmov rod stall d a s) := by
  unfold execVmov
  apply rodRun_goes
  repeat' (first | exact sub_of rfl hm | with_reducible first | exact Kept.refl _ | assumption | intro _ | exact rfl)

theorem execVmul_goes {rod stall d a b : Nat} {s : State} (hm : Sub [.sched, .rods, .events] pp) : Goes pp s (execVmul rod stall d a b s) := by
  unfold execVmul
  apply rodRun_goes
  repeat' (first | exact sub_of rfl hm | with_reducible first | exact Kept.refl _ | assumption | intro _ | exact rfl)

theorem execVshr_goes {rod stall d a n : Nat} {s : State} (hm : Sub [.sched, .rods, .events] pp) : Goes pp s (execVshr rod stall d a n s) := by
  unfold execVshr
  apply rodRun_goes
  repeat' (first | exact sub_of rfl hm | with_reducible first | exact Kept.refl _ | assumption | intro _ | exact rfl)

theorem execVshl_goes {rod stall d a n : Nat} {s : State} (hm : Sub [.sched, .rods, .events] pp) : Goes pp s (execVshl rod stall d a n s) := by
  unfold execVshl
  apply rodRun_goes
  repeat' (first | exact sub_of rfl hm | with_reducible first | exact Kept.refl _ | assumption | intro _ | exact rfl)

theorem execVsel_goes {rod stall d a b : Nat} {s : State} (hm : Sub [.sched, .rods, .events] pp) : Goes pp s (execVsel rod stall d a b s) := by
  unfold execVsel
  apply rodRun_goes
  repeat' (first | exact sub_of rfl hm | with_reducible first | exact Kept.refl _ | assumption | intro _ | exact rfl | apply ite_kept | split)

theorem execVcgt_goes {rod stall a b : Nat} {s : State} (hm : Sub [.sched, .rods, .events] pp) : Goes pp s (execVcgt rod stall a b s) := by
  unfold execVcgt
  apply rodRun_goes
  repeat' (first | exact sub_of rfl hm | with_reducible first | exact Kept.refl _ | assumption | intro _ | exact rfl | apply ite_kept | split)

theorem execVceq_goes {rod stall a b : Nat} {s : State} (hm : Sub [.sched, .rods, .events] pp) : Goes pp s (execVceq rod stall a b s) := by
  unfold execVceq
  apply rodRun_goes
  repeat' (first | exact sub_of rfl hm | with_reducible first | exact Kept.refl _ | assumption | intro _ | exact rfl)

theorem execQdiv_goes {rod stall d a b : Nat} {s : State} (hm : Sub [.sched, .rods, .events] pp) : Goes pp s (execQdiv rod stall d a b s) := by
  unfold execQdiv
  apply rodRun_goes
  repeat' (first | exact sub_of rfl hm | with_reducible first | exact Kept.refl _ | assumption | intro _ | exact rfl | apply ite_kept | split)

theorem execVbcl_goes {rod stall d a b : Nat} {s : State} (hm : Sub [.sched, .rods, .events] pp) : Goes pp s (execVbcl rod stall d a b s) := by
  unfold execVbcl
  apply rodRun_goes
  repeat' (first | exact sub_of rfl hm | with_reducible first | exact Kept.refl _ | assumption | intro _ | exact rfl | apply ite_kept | split)

theorem execAmac_goes {rod stall k a b : Nat} {s : State} (hm : Sub [.sched, .rods, .events] pp) : Goes pp s (execAmac rod stall k a b s) := by
  unfold execAmac
  apply rodRun_goes
  repeat' (first | exact sub_of rfl hm | with_reducible first | exact Kept.refl _ | assumption | intro _ | exact rfl)

theorem execAmsu_goes {rod stall k a b : Nat} {s : State} (hm : Sub [.sched, .rods, .events] pp) : Goes pp s (execAmsu rod stall k a b s) := by
  unfold execAmsu
  apply rodRun_goes
  repeat' (first | exact sub_of rfl hm | with_reducible first | exact Kept.refl _ | assumption | intro _ | exact rfl)

theorem execAldv_goes {rod stall k a n : Nat} {s : State} (hm : Sub [.sched, .rods, .events] pp) : Goes pp s (execAldv rod stall k a n s) := by
  unfold execAldv
  apply rodRun_goes
  repeat' (first | exact sub_of rfl hm | with_reducible first | exact Kept.refl _ | assumption | intro _ | exact rfl)

theorem execAadv_goes {rod stall k a n : Nat} {s : State} (hm : Sub [.sched, .rods, .events] pp) : Goes pp s (execAadv rod stall k a n s) := by
  unfold execAadv
  apply rodRun_goes
  repeat' (first | exact sub_of rfl hm | with_reducible first | exact Kept.refl _ | assumption | intro _ | exact rfl)

theorem execAext_goes {rod stall d k n : Nat} {s : State} (hm : Sub [.sched, .rods, .events] pp) : Goes pp s (execAext rod stall d k n s) := by
  unfold execAext
  apply rodRun_goes
  repeat' (first | exact sub_of rfl hm | with_reducible first | exact Kept.refl _ | assumption | intro _ | exact rfl)

theorem execAclr_goes {rod stall k : Nat} {s : State} (hm : Sub [.sched, .rods, .events] pp) : Goes pp s (execAclr rod stall k s) := by
  unfold execAclr
  apply rodRun_goes
  repeat' (first | exact sub_of rfl hm | with_reducible first | exact Kept.refl _ | assumption | intro _ | exact rfl)

theorem execArsum_goes {rod stall d k : Nat} {s : State} (hm : Sub [.sched, .rods, .events] pp) : Goes pp s (execArsum rod stall d k s) := by
  unfold execArsum
  apply rodRun_goes
  repeat' (first | exact sub_of rfl hm | with_reducible first | exact Kept.refl _ | assumption | intro _ | apply foldl_kept | exact rfl)

theorem execVrsum_goes {rod stall d a : Nat} {s : State} (hm : Sub [.sched, .rods, .events] pp) : Goes pp s (execVrsum rod stall d a s) := by
  unfold execVrsum
  apply rodRun_goes
  repeat' (first | exact sub_of rfl hm | with_reducible first | exact Kept.refl _ | assumption | intro _ | apply foldl_kept | exact rfl)

theorem execVbc_goes {rod stall d a n : Nat} {s : State} (hm : Sub [.sched, .rods, .events] pp) : Goes pp s (execVbc rod stall d a n s) := by
  unfold execVbc
  apply rodRun_goes
  repeat' (first | exact sub_of rfl hm | with_reducible first | exact Kept.refl _ | assumption | intro _ | exact rfl)

theorem execSadd_goes {rod stall d a b : Nat} {s : State} (hm : Sub [.sched, .rods, .events] pp) : Goes pp s (execSadd rod stall d a b s) := by
  unfold execSadd
  apply rodRun_goes
  repeat' (first | exact sub_of rfl hm | with_reducible first | exact Kept.refl _ | assumption | intro _ | exact rfl | apply ite_kept | split)

theorem execSsub_goes {rod stall d a b : Nat} {s : State} (hm : Sub [.sched, .rods, .events] pp) : Goes pp s (execSsub rod stall d a b s) := by
  unfold execSsub
  apply rodRun_goes
  repeat' (first | exact sub_of rfl hm | with_reducible first | exact Kept.refl _ | assumption | intro _ | exact rfl | apply ite_kept | split)

theorem execSmul_goes {rod stall d a b : Nat} {s : State} (hm : Sub [.sched, .rods, .events] pp) : Goes pp s (execSmul rod stall d a b s) := by
  unfold execSmul
  apply rodRun_goes
  repeat' (first | exact sub_of rfl hm | with_reducible first | exact Kept.refl _ | assumption | intro _ | exact rfl)

theorem execSli_goes {rod stall d : Nat} {imm : Int} {s : State} (hm : Sub [.sched, .rods, .events] pp) : Goes pp s (execSli rod stall d imm s) := by
  unfold execSli
  apply rodRun_goes
  repeat' (first | exact sub_of rfl hm | with_reducible first | exact Kept.refl _ | assumption | intro _ | exact rfl | apply ite_kept | split)

theorem execVli_goes {rod stall d imm : Nat} {s : State} (hm : Sub [.sched, .rods, .events] pp) : Goes pp s (execVli rod stall d imm s) := by
  unfold execVli
  apply rodRun_goes
  repeat' (first | exact sub_of rfl hm | with_reducible first | exact Kept.refl _ | assumption | intro _ | exact rfl)

theorem execScmp_goes {rod stall a b : Nat} {s : State} (hm : Sub [.sched, .rods, .events] pp) : Goes pp s (execScmp rod stall a b s) := by
  unfold execScmp
  apply rodRun_goes
  repeat' (first | exact sub_of rfl hm | with_reducible first | exact Kept.refl _ | assumption | intro _ | exact rfl | apply ite_kept | split)

theorem execVld_goes {rod stall d x off : Nat} {s : State} (hm : Sub [.sched, .rods, .events] pp) : Goes pp s (execVld rod stall d x off s) := by
  unfold execVld
  apply rodRun_goes
  repeat' (first | exact sub_of rfl hm | with_reducible first | exact Kept.refl _ | assumption | intro _ | exact rfl | apply ite_kept | split)

theorem execVst_goes {rod stall d x off : Nat} {s : State} (hm : Sub [.sched, .rods, .events] pp) : Goes pp s (execVst rod stall d x off s) := by
  unfold execVst
  repeat' (first | apply next_goes | apply ite_goes)
  repeat' (first | exact sub_of rfl hm | with_reducible first | exact Kept.refl _ | assumption | intro _ | apply State.issueFold_kept | exact rfl | apply ite_kept | split)

theorem execTlu_goes {rod stall d a tab : Nat} {s : State} (hm : Sub [.sched, .rods, .events] pp) : Goes pp s (execTlu rod stall d a tab s) := by
  unfold execTlu
  apply rodRun_goes
  repeat' (first | exact sub_of rfl hm | with_reducible first | exact Kept.refl _ | assumption | intro _ | exact rfl)

theorem execTlu2_goes {rod stall d a b tab : Nat} {s : State} (hm : Sub [.sched, .rods, .events] pp) : Goes pp s (execTlu2 rod stall d a b tab s) := by
  unfold execTlu2
  apply rodRun_goes
  repeat' (first | exact sub_of rfl hm | with_reducible first | exact Kept.refl _ | assumption | intro _ | exact rfl)

theorem execLmset_goes {rod stall imm : Nat} {s : State} (hm : Sub [.sched, .rods, .events] pp) : Goes pp s (execLmset rod stall imm s) := by
  unfold execLmset
  apply rodRun_goes
  repeat' (first | exact sub_of rfl hm | with_reducible first | exact Kept.refl _ | assumption | intro _ | exact rfl)

theorem execLmget_goes {rod stall d : Nat} {s : State} (hm : Sub [.sched, .rods, .events] pp) : Goes pp s (execLmget rod stall d s) := by
  unfold execLmget
  apply rodRun_goes
  repeat' (first | exact sub_of rfl hm | with_reducible first | exact Kept.refl _ | assumption | intro _ | exact rfl)

theorem execLmld_goes {rod stall a : Nat} {s : State} (hm : Sub [.sched, .rods, .events] pp) : Goes pp s (execLmld rod stall a s) := by
  unfold execLmld
  apply rodRun_goes
  repeat' (first | exact sub_of rfl hm | with_reducible first | exact Kept.refl _ | assumption | intro _ | exact rfl)

theorem execLmand_goes {rod stall a : Nat} {s : State} (hm : Sub [.sched, .rods, .events] pp) : Goes pp s (execLmand rod stall a s) := by
  unfold execLmand
  apply rodRun_goes
  repeat' (first | exact sub_of rfl hm | with_reducible first | exact Kept.refl _ | assumption | intro _ | exact rfl)

theorem execBr_goes {rod stall cc : Nat} {off : Int} {s : State} (hm : Sub [.sched, .rods, .events] pp) : Goes pp s (execBr rod stall cc off s) := by
  unfold execBr
  apply rodRun_goes
  repeat' (first | exact sub_of rfl hm | with_reducible first | exact Kept.refl _ | assumption | intro _ | exact rfl | apply ite_kept | split)

theorem execLoop_goes {rod stall x : Nat} {off : Int} {s : State} (hm : Sub [.sched, .rods, .events] pp) : Goes pp s (execLoop rod stall x off s) := by
  unfold execLoop
  apply rodRun_goes
  repeat' (first | exact sub_of rfl hm | with_reducible first | exact Kept.refl _ | assumption | intro _ | exact rfl | apply ite_kept | split)

theorem execCall_goes {rod stall : Nat} {off : Int} {s : State} (hm : Sub [.sched, .rods, .events] pp) : Goes pp s (execCall rod stall off s) := by
  unfold execCall
  apply rodRun_goes
  repeat' (first | exact sub_of rfl hm | with_reducible first | exact Kept.refl _ | assumption | intro _ | exact rfl | apply ite_kept | split)

theorem execRet_goes {rod stall : Nat} {s : State} (hm : Sub [.sched, .rods, .events] pp) : Goes pp s (execRet rod stall s) := by
  unfold execRet
  apply rodRun_goes
  repeat' (first | exact sub_of rfl hm | with_reducible first | exact Kept.refl _ | assumption | intro _ | exact rfl | apply ite_kept | split)

theorem execEndPass_goes {rod stall : Nat} {s : State} (hm : Sub [.sched, .rods, .events] pp) : Goes pp s (execEndPass rod stall s) := by
  unfold execEndPass
  apply rodRun_goes
  repeat' (first | exact sub_of rfl hm | with_reducible first | exact Kept.refl _ | assumption | intro _ | exact rfl | apply ite_kept | split)

theorem execKfence_goes {rod stall : Nat} {s : State} (hm : Sub [.sched, .rods, .events] pp) : Goes pp s (execKfence rod stall s) := by
  unfold execKfence
  apply rodRun_goes
  repeat' (first | exact sub_of rfl hm | with_reducible first | exact Kept.refl _ | assumption | intro _ | exact rfl)

theorem execCst_goes {rod stall d x off : Nat} {s : State} (hm : Sub [.sched, .rods, .events] pp) : Goes pp s (execCst rod stall d x off s) := by
  unfold execCst
  apply rodRun_goes
  repeat' (first | exact sub_of rfl hm | with_reducible first | exact Kept.refl _ | assumption | intro _ | exact rfl | apply ite_kept | split)

theorem State.fkRun_kept {n : Nat} {r0 s : State} (h : Kept pp r0 s) (hm : Sub [.rods, .fresh] pp) : Kept pp r0 (s.fkRun n) := by
  unfold State.fkRun
  dsimp only
  refine ite_kept (State.modRod_kept (h.same rfl rfl rfl fun p => ?_) (sub_of rfl hm)) h
  cases p <;> first | exact .inr rfl | exact .inl (hm.mem (by decide))

end Sys2Proof.Machine
end

