-- ==== Sys2Proof/Laws/KeptRods.lean ====
section
/-! SUPPORT. Each operation and each meaning of Rods, Defer, Regs, Estimator, CanTx, Pcs goes on and keeps the queue, the clock, canonical tables, and every part outside its list. -/
namespace Sys2Proof.Machine
open Sys2Proof

variable {pp : List Part}

theorem State.askBank_kept {cause : Nat} {r0 s : State} (hk : Kept pp r0 s) (hm : Sub [.guard] pp) : Kept pp r0 (State.askBank s cause) := by
  unfold State.askBank
  repeat' (first | exact sub_of rfl hm | exact .inl (hm.mem (by decide)) | exact .inr fun _ => rfl | with_reducible first | assumption | intro _ | apply State.onGuard_kept | exact rfl)

theorem State.causeGone_kept {cause : Nat} {r0 s : State} (hk : Kept pp r0 s) (hm : Sub [.guard] pp) : Kept pp r0 (State.causeGone s cause) := by
  unfold State.causeGone
  repeat' (first | exact sub_of rfl hm | exact .inl (hm.mem (by decide)) | exact .inr fun _ => rfl | with_reducible first | assumption | intro _ | apply State.onGuard_kept | exact rfl)

theorem State.markStale_kept {k p : Nat} {r0 s : State} (hk : Kept pp r0 s) (hm : Sub [.est] pp) : Kept pp r0 (State.markStale s k p) := by
  unfold State.markStale
  repeat' (first | exact sub_of rfl hm | with_reducible first | assumption | intro _ | apply State.modCell_kept | apply State.modStr_kept | exact rfl)

theorem State.estimationLost_kept  {r0 s : State} (hk : Kept pp r0 s) (hm : Sub [.est, .guard, .events] pp) : Kept pp r0 (State.estimationLost s) := by
  unfold State.estimationLost
  try dsimp only
  repeat' (first | exact sub_of rfl hm | exact .inl (hm.mem (by decide)) | exact .inr fun _ => rfl | with_reducible first | exact Kept.refl _ | assumption | intro _ _ _ | intro _ _ | intro _ | apply ite_kept | apply State.onEst_kept | apply State.raise_kept | apply State.askBank_kept | apply State.markStale_kept | apply forEach_kept | apply foldl_kept | exact rfl | split | exact (by assumption : Kept _ _ _).same rfl rfl rfl (fun p => by cases p <;> first | exact .inr rfl | exact .inl (hm.mem (by decide))) | exact (Kept.refl _).same rfl rfl rfl (fun p => by cases p <;> first | exact .inr rfl | exact .inl (hm.mem (by decide))))
  all_goals (try dsimp only)
  all_goals (first | exact sub_of rfl hm | exact .inl (hm.mem (by decide)) | exact .inr fun _ => rfl | exact rfl | exact ⟨rfl, rfl⟩ | exact ⟨rfl, rfl, rfl, rfl, rfl⟩ | exact ⟨rfl, rfl, rfl⟩ | (refine .inr fun _ => ?_; (repeat' split) <;> exact rfl) | exact hk.same rfl rfl rfl (fun p => by cases p <;> first | exact .inr rfl | exact .inl (hm.mem (by decide))) | exact (Kept.refl _).same rfl rfl rfl (fun p => by cases p <;> first | exact .inr rfl | exact .inl (hm.mem (by decide))) | exact (by assumption : Kept _ _ _).same rfl rfl rfl (fun p => by cases p <;> first | exact .inr rfl | exact .inl (hm.mem (by decide))) | ((repeat' split) <;> first | exact rfl | exact ⟨rfl, rfl⟩ | exact ⟨rfl, rfl, rfl, rfl, rfl⟩ | exact ⟨rfl, rfl, rfl⟩))

theorem State.estimationBack_kept  {r0 s : State} (hk : Kept pp r0 s) (hm : Sub [.est, .guard] pp) : Kept pp r0 (State.estimationBack s) := by
  unfold State.estimationBack
  try dsimp only
  repeat' (first | exact sub_of rfl hm | exact .inl (hm.mem (by decide)) | exact .inr fun _ => rfl | with_reducible first | exact Kept.refl _ | assumption | intro _ _ _ | intro _ _ | intro _ | apply ite_kept | apply State.onEst_kept | apply State.causeGone_kept | apply foldl_kept | exact rfl | split | exact (by assumption : Kept _ _ _).same rfl rfl rfl (fun p => by cases p <;> first | exact .inr rfl | exact .inl (hm.mem (by decide))) | exact (Kept.refl _).same rfl rfl rfl (fun p => by cases p <;> first | exact .inr rfl | exact .inl (hm.mem (by decide))))
  all_goals (try dsimp only)
  all_goals (first | exact sub_of rfl hm | exact .inl (hm.mem (by decide)) | exact .inr fun _ => rfl | exact rfl | exact ⟨rfl, rfl⟩ | exact ⟨rfl, rfl, rfl, rfl, rfl⟩ | exact ⟨rfl, rfl, rfl⟩ | (refine .inr fun _ => ?_; (repeat' split) <;> exact rfl) | exact hk.same rfl rfl rfl (fun p => by cases p <;> first | exact .inr rfl | exact .inl (hm.mem (by decide))) | exact (Kept.refl _).same rfl rfl rfl (fun p => by cases p <;> first | exact .inr rfl | exact .inl (hm.mem (by decide))) | exact (by assumption : Kept _ _ _).same rfl rfl rfl (fun p => by cases p <;> first | exact .inr rfl | exact .inl (hm.mem (by decide))) | ((repeat' split) <;> first | exact rfl | exact ⟨rfl, rfl⟩ | exact ⟨rfl, rfl, rfl, rfl, rfl⟩ | exact ⟨rfl, rfl, rfl⟩))

theorem State.quarantine_kept {n cause : Nat} {r0 s : State} (hk : Kept pp r0 s) (hm : Sub [.sched, .rods, .est, .guard, .events, .store] pp) : Kept pp r0 (State.quarantine s n cause) := by
  unfold State.quarantine
  repeat' (first | exact sub_of rfl hm | with_reducible first | assumption | intro _ | apply State.modRod_kept | apply State.onSched_kept | apply State.raise_kept | apply State.commitCfg_kept | apply State.estimationLost_kept | exact rfl)

theorem State.discardItem_kept {i : Item} {faulted : Bool} {r0 s : State} (hk : Kept pp r0 s) (hm : Sub [.est] pp) : Kept pp r0 (State.discardItem s i faulted) := by
  unfold State.discardItem
  repeat' (first | exact sub_of rfl hm | with_reducible first | assumption | intro _ | apply State.modCell_kept | apply State.modStr_kept | apply State.markStale_kept | apply forEach_kept | exact rfl | apply ite_kept | split)

theorem State.discard_kept {items : List Item} {faulted : Bool} {r0 s : State} (hk : Kept pp r0 s) (hm : Sub [.est] pp) : Kept pp r0 (State.discard s items faulted) := by
  unfold State.discard
  repeat' (first | exact sub_of rfl hm | with_reducible first | assumption | intro _ | apply State.discardItem_kept | apply forEach_kept | exact rfl)

theorem State.charge_kept {n cls gen cycles : Nat} {r0 s : State} (hk : Kept pp r0 s) (hm : Sub [.sched] pp) : Kept pp r0 (State.charge s n cls gen cycles) := by
  unfold State.charge
  repeat' (first | exact sub_of rfl hm | with_reducible first | assumption | intro _ | apply State.onSched_kept | exact rfl | apply ite_kept | split)

theorem State.writeBack_kept {x : Nat} {im : Image} {c : RodCtx} {r0 s : State} (hk : Kept pp r0 s) (hm : Sub [.est] pp) : Kept pp r0 (State.writeBack s x im c) := by
  unfold State.writeBack
  repeat' (first | exact sub_of rfl hm | with_reducible first | assumption | intro _ | apply State.modCell_kept | apply forEach_kept | apply foldl_kept | exact rfl | apply ite_kept | split)

theorem State.endInvocation_kept {n : Nat} {r0 s : State} (hk : Kept pp r0 s) (hm : Sub [.sched, .rods, .est, .fresh] pp) : Kept pp r0 (State.endInvocation s n) := by
  unfold State.endInvocation
  repeat' (first | exact sub_of rfl hm | with_reducible first | assumption | intro _ | apply State.modRod_kept | apply State.fkRun_kept | apply State.charge_kept | apply State.writeBack_kept | exact rfl | apply ite_kept | split)

theorem State.takeItem_kept {k base entry : Nat} {r0 s : State} (hk : Kept pp r0 s) (hm : Sub [.sched, .est] pp) : Kept pp r0 (State.takeItem s k base entry) := by
  unfold State.takeItem
  try dsimp only
  repeat' (first | exact sub_of rfl hm | exact .inl (hm.mem (by decide)) | exact .inr fun _ => rfl | with_reducible first | exact Kept.refl _ | assumption | intro _ _ _ | intro _ _ | intro _ | apply ite_kept | apply State.modCell_kept | apply State.onEst_kept | apply State.onSched_kept | apply forEach_kept | apply foldl_kept | exact rfl | split | exact (by assumption : Kept _ _ _).same rfl rfl rfl (fun p => by cases p <;> first | exact .inr rfl | exact .inl (hm.mem (by decide))) | exact (Kept.refl _).same rfl rfl rfl (fun p => by cases p <;> first | exact .inr rfl | exact .inl (hm.mem (by decide))))
  all_goals (try dsimp only)
  all_goals (first | exact sub_of rfl hm | exact .inl (hm.mem (by decide)) | exact .inr fun _ => rfl | exact rfl | exact ⟨rfl, rfl⟩ | exact ⟨rfl, rfl, rfl, rfl, rfl⟩ | exact ⟨rfl, rfl, rfl⟩ | (refine .inr fun _ => ?_; (repeat' split) <;> exact rfl) | exact hk.same rfl rfl rfl (fun p => by cases p <;> first | exact .inr rfl | exact .inl (hm.mem (by decide))) | exact (Kept.refl _).same rfl rfl rfl (fun p => by cases p <;> first | exact .inr rfl | exact .inl (hm.mem (by decide))) | exact (by assumption : Kept _ _ _).same rfl rfl rfl (fun p => by cases p <;> first | exact .inr rfl | exact .inl (hm.mem (by decide))) | ((repeat' split) <;> first | exact rfl | exact ⟨rfl, rfl⟩ | exact ⟨rfl, rfl, rfl, rfl, rfl⟩ | exact ⟨rfl, rfl, rfl⟩))

theorem State.startInvocation_kept {n k base entry cls : Nat} {r0 s : State} (hk : Kept pp r0 s) (hm : Sub [.rods] pp) : Kept pp r0 (State.startInvocation s n k base entry cls) := by
  unfold State.startInvocation
  repeat' (first | exact sub_of rfl hm | with_reducible first | assumption | intro _ | apply State.modRod_kept | exact rfl | apply ite_kept | split)

theorem State.takeNext_kept {n : Nat} {next : Option (Nat × Nat × Nat × Nat)} {r0 s : State} (hk : Kept pp r0 s) (hm : Sub [.sched, .rods, .est] pp) : Kept pp r0 (State.takeNext s n next) := by
  unfold State.takeNext
  repeat' (first | exact sub_of rfl hm | with_reducible first | assumption | intro _ | apply State.modRod_kept | apply State.takeItem_kept | apply State.startInvocation_kept | exact rfl | apply ite_kept | split)

theorem execInvocationEnd_goes {rod : Nat} {next : Option (Nat × Nat × Nat × Nat)} {s : State} (hm : Sub [.sched, .rods, .est, .fresh] pp) : Goes pp s (execInvocationEnd rod next s) := by
  unfold execInvocationEnd
  apply onlyIf_goes
  repeat' (first | exact sub_of rfl hm | with_reducible first | exact Kept.refl _ | assumption | intro _ | apply State.endInvocation_kept | apply State.takeNext_kept | exact rfl)

theorem State.settleGen_kept  {r0 s : State} (hk : Kept pp r0 s) (hm : Sub [.est] pp) : Kept pp r0 (State.settleGen s) := by
  unfold State.settleGen
  try dsimp only
  repeat' (first | exact sub_of rfl hm | exact .inl (hm.mem (by decide)) | exact .inr fun _ => rfl | with_reducible first | exact Kept.refl _ | assumption | intro _ _ _ | intro _ _ | intro _ | apply ite_kept | apply State.onEst_kept | apply foldl_kept | exact rfl | split | exact (by assumption : Kept _ _ _).same rfl rfl rfl (fun p => by cases p <;> first | exact .inr rfl | exact .inl (hm.mem (by decide))) | exact (Kept.refl _).same rfl rfl rfl (fun p => by cases p <;> first | exact .inr rfl | exact .inl (hm.mem (by decide))))
  all_goals (try dsimp only)
  all_goals (first | exact sub_of rfl hm | exact .inl (hm.mem (by decide)) | exact .inr fun _ => rfl | exact rfl | exact ⟨rfl, rfl⟩ | exact ⟨rfl, rfl, rfl, rfl, rfl⟩ | exact ⟨rfl, rfl, rfl⟩ | (refine .inr fun _ => ?_; (repeat' split) <;> exact rfl) | exact hk.same rfl rfl rfl (fun p => by cases p <;> first | exact .inr rfl | exact .inl (hm.mem (by decide))) | exact (Kept.refl _).same rfl rfl rfl (fun p => by cases p <;> first | exact .inr rfl | exact .inl (hm.mem (by decide))) | exact (by assumption : Kept _ _ _).same rfl rfl rfl (fun p => by cases p <;> first | exact .inr rfl | exact .inl (hm.mem (by decide))) | ((repeat' split) <;> first | exact rfl | exact ⟨rfl, rfl⟩ | exact ⟨rfl, rfl, rfl, rfl, rfl⟩ | exact ⟨rfl, rfl, rfl⟩))

theorem execWindowClose_goes {rod : Nat} {s : State} (hm : Sub [.sched, .rods, .est, .guard, .events, .store] pp) : Goes pp s (execWindowClose rod s) := by
  unfold execWindowClose
  repeat' (first | apply onlyIf_goes | apply ite_goes)
  repeat' (first | exact sub_of rfl hm | with_reducible first | exact Kept.refl _ | assumption | intro _ | apply State.modRod_kept | apply State.onSched_kept | apply State.raise_kept | apply State.quarantine_kept | apply State.discard_kept | apply State.settleGen_kept | exact rfl | apply ite_kept | split)

theorem execTableWalk_goes {rod table : Nat} {good reloaded : Bool} {s : State} (hm : Sub [.sched, .rods, .est, .guard, .events, .store] pp) : Goes pp s (execTableWalk rod table good reloaded s) := by
  unfold execTableWalk
  repeat' (first | apply onlyIf_goes | apply ite_goes)
  repeat' (first | exact sub_of rfl hm | with_reducible first | exact Kept.refl _ | assumption | intro _ | apply State.modRod_kept | apply State.onSched_kept | apply State.raise_kept | apply State.quarantine_kept | apply State.discard_kept | apply State.charge_kept | exact rfl | apply ite_kept | split)

theorem execRodTestDone_goes {rod sig : Nat} {s : State} (hm : Sub [.mail, .sched, .rods, .est, .guard, .events, .store] pp) : Goes pp s (execRodTestDone rod sig s) := by
  unfold execRodTestDone
  repeat' (first | apply onlyIf_goes | apply ite_goes)
  repeat' (first | exact sub_of rfl hm | with_reducible first | exact Kept.refl _ | assumption | intro _ | apply State.when_kept | apply State.modRod_kept | apply State.onSched_kept | apply State.raise_kept | apply State.commitCfg_kept | apply State.respond_kept | apply State.refuse_kept | apply State.giveHeld_kept | apply State.estimationBack_kept | apply State.quarantine_kept | exact rfl | apply ite_kept | split)

theorem execRodReload_goes {rod loads : Nat} {good : Bool} {s : State} (hm : Sub [.sched, .rods, .est, .guard, .events, .store] pp) : Goes pp s (execRodReload rod loads good s) := by
  unfold execRodReload
  repeat' (first | apply onlyIf_goes | apply ite_goes)
  repeat' (first | exact sub_of rfl hm | with_reducible first | exact Kept.refl _ | assumption | intro _ | apply State.modRod_kept | apply State.quarantine_kept | exact rfl | apply ite_kept | split)

theorem State.dieShutdown_kept {t : Int} {r0 s : State} (hk : Kept pp r0 s) (hm : Sub [.sched, .rods, .est, .guard, .events] pp) : Kept pp r0 (State.dieShutdown s t) := by
  unfold State.dieShutdown
  repeat' (first | exact sub_of rfl hm | with_reducible first | assumption | intro _ | apply State.modRod_kept | apply State.onSched_kept | apply State.raise_kept | apply State.askBank_kept | apply State.discard_kept | apply forEach_kept | exact rfl)

theorem State.dieResume_kept  {r0 s : State} (hk : Kept pp r0 s) (hm : Sub [.sched, .rods, .est, .guard, .events] pp) : Kept pp r0 (State.dieResume s) := by
  unfold State.dieResume
  repeat' (first | exact sub_of rfl hm | with_reducible first | assumption | intro _ | apply State.modRod_kept | apply State.onSched_kept | apply State.causeGone_kept | apply State.estimationLost_kept | apply forEach_kept | exact rfl)

theorem execDieTempSample_goes {temps : List Int} {s : State} (hm : Sub [.sched, .rods, .est, .guard, .events] pp) : Goes pp s (execDieTempSample temps s) := by
  unfold execDieTempSample
  repeat' (first | apply next_goes | apply ite_goes)
  repeat' (first | exact sub_of rfl hm | with_reducible first | exact Kept.refl _ | assumption | intro _ | apply State.when_kept | apply State.onSched_kept | apply State.raise_kept | apply State.ok_kept | apply State.dieShutdown_kept | apply State.dieResume_kept | apply forEach_kept | exact rfl | apply ite_kept | split)

theorem execBeamSlot_goes  {s : State} (hm : Sub [.sched] pp) : Goes pp s (execBeamSlot s) := by
  unfold execBeamSlot
  apply next_goes
  repeat' (first | exact sub_of rfl hm | with_reducible first | exact Kept.refl _ | assumption | intro _ | apply State.onSched_kept | exact rfl)

theorem execClassStarved_goes {cls : Nat} {s : State} (hm : Sub [.sched, .events] pp) : Goes pp s (execClassStarved cls s) := by
  unfold execClassStarved
  apply onlyIf_goes
  repeat' (first | exact sub_of rfl hm | with_reducible first | exact Kept.refl _ | assumption | intro _ | apply State.onSched_kept | apply State.raise_kept | exact rfl)

theorem execBurstAbandoned_goes {port sid : Nat} {s : State} (hm : Sub [.sched, .est, .events] pp) : Goes pp s (execBurstAbandoned port sid s) := by
  unfold execBurstAbandoned
  apply onlyIf_goes
  repeat' (first | exact sub_of rfl hm | with_reducible first | exact Kept.refl _ | assumption | intro _ | apply State.modStr_kept | apply State.onSched_kept | apply State.raise_kept | exact rfl)

theorem execKernelRevert_goes  {s : State} (hm : Sub [.beam, .marks, .sched, .events] pp) : Goes pp s (execKernelRevert s) := by
  unfold execKernelRevert
  apply onlyIf_goes
  repeat' (first | exact sub_of rfl hm | with_reducible first | exact Kept.refl _ | assumption | intro _ | apply State.onSched_kept | apply State.armM3_kept | exact rfl)

theorem State.rateLower_kept {e step cap : Nat} {b : Rat} {r0 s : State} (hk : Kept pp r0 s) (hm : Sub [.marks, .sched, .events] pp) : Kept pp r0 (State.rateLower s e step cap b) := by
  unfold State.rateLower
  repeat' (first | exact sub_of rfl hm | with_reducible first | assumption | intro _ | apply State.modMark_kept | apply State.onSched_kept | apply State.raise_kept | exact rfl | apply ite_kept | split)

theorem State.rateControl_kept {r0 s : State} (h : Kept pp r0 s) (hm : Sub [.marks, .sched, .events] pp) : Kept pp r0 s.rateControl := by
  unfold State.rateControl
  have hb : Sub [.sched] pp := sub_of rfl hm
  dsimp only
  refine ite_kept (State.onSched_kept (fun _ => rfl) h hb) (State.onSched_kept (fun _ => rfl) (State.rateLower_kept
    (State.onSched_kept (fun _ => rfl) (State.onSched_kept (fun _ => rfl) h hb) hb) (sub_of rfl hm)) hb)

theorem execSweepRateRestore_goes  {s : State} (hm : Sub [.marks, .sched, .events] pp) : Goes pp s (execSweepRateRestore s) := by
  unfold execSweepRateRestore
  repeat' (first | apply onlyIf_goes | apply ite_goes)
  repeat' (first | exact sub_of rfl hm | with_reducible first | exact Kept.refl _ | assumption | intro _ | apply State.modMark_kept | apply State.onSched_kept | apply State.raise_kept | exact rfl | apply ite_kept | split)

theorem State.owePlan_kept {k : Nat} {r0 s : State} (hk : Kept pp r0 s) (hm : Sub [.est] pp) : Kept pp r0 (State.owePlan s k) := by
  unfold State.owePlan
  repeat' (first | exact sub_of rfl hm | with_reducible first | assumption | intro _ | apply State.modBal_kept | apply forEach_kept | exact rfl)

theorem State.sendBalance_kept {k pos : Nat} {r0 s : State} (hk : Kept pp r0 s) (hm : Sub [.rings, .est] pp) : Kept pp r0 (State.sendBalance s k pos) := by
  unfold State.sendBalance
  repeat' (first | exact sub_of rfl hm | with_reducible first | assumption | intro _ | apply State.modBal_kept | apply State.queueCmd_kept | exact rfl)

theorem State.stopNode_kept {k pos : Nat} {r0 s : State} (hk : Kept pp r0 s) (hm : Sub [.rings, .est] pp) : Kept pp r0 (State.stopNode s k pos) := by
  unfold State.stopNode
  repeat' (first | exact sub_of rfl hm | with_reducible first | assumption | intro _ | apply State.modBal_kept | apply State.queueStop_kept | exact rfl | apply ite_kept | split)

theorem State.stopBalancing_kept  {r0 s : State} (hk : Kept pp r0 s) (hm : Sub [.rings, .est] pp) : Kept pp r0 (State.stopBalancing s) := by
  unfold State.stopBalancing
  repeat' (first | exact sub_of rfl hm | with_reducible first | assumption | intro _ | apply State.modRing_kept | apply State.modStr_kept | apply State.stopNode_kept | apply forEach_kept | exact rfl)

theorem State.enterMode_kept {m : Mode} {cause : Nat} {r0 s : State} (hk : Kept pp r0 s) (hm : Sub [.mail, .mode, .rings, .est, .disp, .events] pp) : Kept pp r0 (State.enterMode s m cause) := by
  unfold State.enterMode
  repeat' (first | exact sub_of rfl hm | with_reducible first | assumption | intro _ | apply State.when_kept | apply State.setMode_kept | apply State.stopBalancing_kept | exact rfl | apply ite_kept | split)

theorem State.applyDuties_kept  {r0 s : State} (hk : Kept pp r0 s) (hm : Sub [.est] pp) : Kept pp r0 (State.applyDuties s) := by
  unfold State.applyDuties
  repeat' (first | exact sub_of rfl hm | with_reducible first | assumption | intro _ | apply State.modBal_kept | apply forEach_kept | exact rfl)

theorem State.latchFpi_kept  {r0 s : State} (hk : Kept pp r0 s) (hm : Sub [.est] pp) : Kept pp r0 (State.latchFpi s) := by
  unfold State.latchFpi
  repeat' (first | exact sub_of rfl hm | with_reducible first | assumption | intro _ | apply State.onEst_kept | apply foldl_kept | exact rfl)
  all_goals first | exact sub_of rfl hm | exact .inl (hm.mem (by decide)) | exact .inr fun _ => rfl | exact rfl | exact ⟨rfl, rfl⟩ | exact ⟨rfl, rfl, rfl, rfl, rfl⟩ | exact ⟨rfl, rfl, rfl⟩ | (refine .inr fun _ => ?_; (repeat' split) <;> exact rfl) | exact hk.same rfl rfl rfl (fun p => by cases p <;> first | exact .inr rfl | exact .inl (hm.mem (by decide))) | (repeat' split) <;> first | exact rfl | exact ⟨rfl, rfl⟩ | exact ⟨rfl, rfl, rfl, rfl, rfl⟩ | exact ⟨rfl, rfl, rfl⟩

theorem State.deferNode_kept {k pos : Nat} {r0 s : State} (hk : Kept pp r0 s) (hm : Sub [.rings, .est, .events] pp) : Kept pp r0 (State.deferNode s k pos) := by
  unfold State.deferNode
  dsimp only
  repeat' (first | exact sub_of rfl hm | with_reducible first | assumption | intro _ | apply State.when_kept | apply State.modBal_kept | apply State.raise_kept | apply State.stopNode_kept | exact rfl | apply ite_kept | split)

theorem State.deferString_kept {k : Nat} {r0 s : State} (hk : Kept pp r0 s) (hm : Sub [.rings, .est, .events] pp) : Kept pp r0 (State.deferString s k) := by
  unfold State.deferString
  repeat' (first | exact sub_of rfl hm | with_reducible first | assumption | intro _ | apply State.modStr_kept | apply State.deferNode_kept | apply forEach_kept | exact rfl)

theorem State.setCan_kept {off : Nat} {w : Word} {r0 s : State} (hk : Kept pp r0 s) (hm : Sub [.can] pp) : Kept pp r0 (State.setCan s off w) := by
  unfold State.setCan
  try dsimp only
  repeat' (first | exact sub_of rfl hm | exact .inl (hm.mem (by decide)) | exact .inr fun _ => rfl | with_reducible first | exact Kept.refl _ | assumption | intro _ _ _ | intro _ _ | intro _ | apply ite_kept | apply State.onCan_kept | apply foldl_kept | exact rfl | split | exact (by assumption : Kept _ _ _).same rfl rfl rfl (fun p => by cases p <;> first | exact .inr rfl | exact .inl (hm.mem (by decide))) | exact (Kept.refl _).same rfl rfl rfl (fun p => by cases p <;> first | exact .inr rfl | exact .inl (hm.mem (by decide))))
  all_goals (try dsimp only)
  all_goals (first | exact sub_of rfl hm | exact .inl (hm.mem (by decide)) | exact .inr fun _ => rfl | exact rfl | exact ⟨rfl, rfl⟩ | exact ⟨rfl, rfl, rfl, rfl, rfl⟩ | exact ⟨rfl, rfl, rfl⟩ | (refine .inr fun _ => ?_; (repeat' split) <;> exact rfl) | exact hk.same rfl rfl rfl (fun p => by cases p <;> first | exact .inr rfl | exact .inl (hm.mem (by decide))) | exact (Kept.refl _).same rfl rfl rfl (fun p => by cases p <;> first | exact .inr rfl | exact .inl (hm.mem (by decide))) | exact (by assumption : Kept _ _ _).same rfl rfl rfl (fun p => by cases p <;> first | exact .inr rfl | exact .inl (hm.mem (by decide))) | ((repeat' split) <;> first | exact rfl | exact ⟨rfl, rfl⟩ | exact ⟨rfl, rfl, rfl, rfl, rfl⟩ | exact ⟨rfl, rfl, rfl⟩))

theorem State.setLoop_kept {off : Nat} {w : Word} {r0 s : State} (hk : Kept pp r0 s) (hm : Sub [.loops] pp) : Kept pp r0 (State.setLoop s off w) := by
  unfold State.setLoop
  repeat' (first | exact sub_of rfl hm | with_reducible first | assumption | intro _ | apply State.onLoops_kept | exact rfl)
  all_goals first | exact sub_of rfl hm | exact .inl (hm.mem (by decide)) | exact .inr fun _ => rfl | exact rfl | exact ⟨rfl, rfl⟩ | exact ⟨rfl, rfl, rfl, rfl, rfl⟩ | exact ⟨rfl, rfl, rfl⟩ | (refine .inr fun _ => ?_; (repeat' split) <;> exact rfl) | exact hk.same rfl rfl rfl (fun p => by cases p <;> first | exact .inr rfl | exact .inl (hm.mem (by decide))) | (repeat' split) <;> first | exact rfl | exact ⟨rfl, rfl⟩ | exact ⟨rfl, rfl, rfl, rfl, rfl⟩ | exact ⟨rfl, rfl, rfl⟩

theorem State.suspect_kept {k p kind : Nat} {r0 s : State} (hk : Kept pp r0 s) (hm : Sub [.est, .guard, .events] pp) : Kept pp r0 (State.suspect s k p kind) := by
  unfold State.suspect
  repeat' (first | exact sub_of rfl hm | exact .inl (hm.mem (by decide)) | exact .inr fun _ => rfl | with_reducible first | assumption | intro _ | apply State.modCell_kept | apply State.modStr_kept | apply State.onGuard_kept | apply State.raise_kept | exact rfl | apply ite_kept | split)

theorem State.shareHealth_kept {k : Nat} {r0 s : State} (hk : Kept pp r0 s) (hm : Sub [.est, .events] pp) : Kept pp r0 (State.shareHealth s k) := by
  unfold State.shareHealth
  repeat' (first | exact sub_of rfl hm | with_reducible first | assumption | intro _ | apply State.when_kept | apply State.modStr_kept | apply State.raise_kept | exact rfl)

theorem State.judgeHealth_kept {p : Nat} {r0 s : State} (hk : Kept pp r0 s) (hm : Sub [.est] pp) : Kept pp r0 (State.judgeHealth s p) := by
  unfold State.judgeHealth
  repeat' (first | exact sub_of rfl hm | with_reducible first | assumption | intro _ | apply State.modCell_kept | exact rfl | apply ite_kept | split)

theorem execEstimatorHealth_goes {point : Nat} {s : State} (hm : Sub [.est, .events] pp) : Goes pp s (execEstimatorHealth point s) := by
  unfold execEstimatorHealth
  repeat' (first | apply next_goes | split)
  repeat' (first | exact sub_of rfl hm | with_reducible first | exact Kept.refl _ | assumption | intro _ | apply State.shareHealth_kept | apply State.judgeHealth_kept | exact rfl | apply ite_kept | split)

theorem State.savePinned_kept {p : Nat} {r0 s : State} (hk : Kept pp r0 s) (hm : Sub [.bulk] pp) : Kept pp r0 (State.savePinned s p) := by
  unfold State.savePinned
  repeat' (first | exact sub_of rfl hm | exact .inl (hm.mem (by decide)) | exact .inr fun _ => rfl | with_reducible first | assumption | intro _ | apply State.onSys_kept | exact rfl)

theorem State.publishCell_kept {i : Item} {j : Nat} {r0 s : State} (hk : Kept pp r0 s) (hm : Sub [.bulk, .est] pp) : Kept pp r0 (State.publishCell s i j) := by
  unfold State.publishCell
  repeat' (first | exact sub_of rfl hm | with_reducible first | assumption | intro _ | apply State.modCell_kept | apply State.savePinned_kept | exact rfl | apply ite_kept | split)

theorem State.stringPower_kept {k : Nat} {r0 s : State} (hk : Kept pp r0 s) (hm : Sub [.est] pp) : Kept pp r0 (State.stringPower s k) := by
  unfold State.stringPower
  repeat' (first | exact sub_of rfl hm | with_reducible first | assumption | intro _ | apply State.modCell_kept | apply State.modStr_kept | apply State.ok_kept | apply forEach_kept | exact rfl | apply ite_kept | split)

theorem State.keepBefore_kept {k gen : Nat} {r0 s : State} (hk : Kept pp r0 s) (hm : Sub [.est] pp) : Kept pp r0 (State.keepBefore s k gen) := by
  unfold State.keepBefore
  repeat' (first | exact sub_of rfl hm | with_reducible first | assumption | intro _ | apply State.onEst_kept | exact rfl | apply ite_kept | split)
  all_goals first | exact sub_of rfl hm | exact .inl (hm.mem (by decide)) | exact .inr fun _ => rfl | exact rfl | exact ⟨rfl, rfl⟩ | exact ⟨rfl, rfl, rfl, rfl, rfl⟩ | exact ⟨rfl, rfl, rfl⟩ | (refine .inr fun _ => ?_; (repeat' split) <;> exact rfl) | exact hk.same rfl rfl rfl (fun p => by cases p <;> first | exact .inr rfl | exact .inl (hm.mem (by decide))) | (repeat' split) <;> first | exact rfl | exact ⟨rfl, rfl⟩ | exact ⟨rfl, rfl, rfl, rfl, rfl⟩ | exact ⟨rfl, rfl, rfl⟩

theorem State.finishString_kept {k gen : Nat} {r0 s : State} (hk : Kept pp r0 s) (hm : Sub [.est, .events] pp) : Kept pp r0 (State.finishString s k gen) := by
  unfold State.finishString
  try dsimp only
  repeat' (first | exact sub_of rfl hm | exact .inl (hm.mem (by decide)) | exact .inr fun _ => rfl | with_reducible first | exact Kept.refl _ | assumption | intro _ _ _ | intro _ _ | intro _ | apply ite_kept | apply State.modStr_kept | apply State.bankThermal_kept | apply State.shareHealth_kept | apply State.stringPower_kept | apply State.keepBefore_kept | apply foldl_kept | exact rfl | split | exact (by assumption : Kept _ _ _).same rfl rfl rfl (fun p => by cases p <;> first | exact .inr rfl | exact .inl (hm.mem (by decide))) | exact (Kept.refl _).same rfl rfl rfl (fun p => by cases p <;> first | exact .inr rfl | exact .inl (hm.mem (by decide))))
  all_goals (try dsimp only)
  all_goals (first | exact sub_of rfl hm | exact .inl (hm.mem (by decide)) | exact .inr fun _ => rfl | exact rfl | exact ⟨rfl, rfl⟩ | exact ⟨rfl, rfl, rfl, rfl, rfl⟩ | exact ⟨rfl, rfl, rfl⟩ | (refine .inr fun _ => ?_; (repeat' split) <;> exact rfl) | exact hk.same rfl rfl rfl (fun p => by cases p <;> first | exact .inr rfl | exact .inl (hm.mem (by decide))) | exact (Kept.refl _).same rfl rfl rfl (fun p => by cases p <;> first | exact .inr rfl | exact .inl (hm.mem (by decide))) | exact (by assumption : Kept _ _ _).same rfl rfl rfl (fun p => by cases p <;> first | exact .inr rfl | exact .inl (hm.mem (by decide))) | ((repeat' split) <;> first | exact rfl | exact ⟨rfl, rfl⟩ | exact ⟨rfl, rfl, rfl, rfl, rfl⟩ | exact ⟨rfl, rfl, rfl⟩))

theorem State.evalDue_kept {k : Nat} {r0 s : State} (hk : Kept pp r0 s) (hm : Sub [.rings, .est, .events] pp) : Kept pp r0 (State.evalDue s k) := by
  unfold State.evalDue
  repeat' (first | exact sub_of rfl hm | with_reducible first | assumption | intro _ | apply State.modStr_kept | apply State.judgeTemps_kept | apply State.evalThermal_kept | apply State.bankThermal_kept | apply State.deferString_kept | apply State.keepBefore_kept | apply forEach_kept | exact rfl | apply ite_kept | split)

theorem State.publishUpdate_kept {i : Item} {r0 s : State} (hk : Kept pp r0 s) (hm : Sub [.bulk, .est, .events] pp) : Kept pp r0 (State.publishUpdate s i) := by
  unfold State.publishUpdate
  try dsimp only
  repeat' (first | exact sub_of rfl hm | exact .inl (hm.mem (by decide)) | exact .inr fun _ => rfl | with_reducible first | exact Kept.refl _ | assumption | intro _ _ _ | intro _ _ | intro _ | apply ite_kept | apply State.when_kept | apply State.modStr_kept | apply State.onEst_kept | apply State.judgeTemps_kept | apply State.judgeHealth_kept | apply State.publishCell_kept | apply forEach_kept | apply foldl_kept | exact rfl | split | exact (by assumption : Kept _ _ _).same rfl rfl rfl (fun p => by cases p <;> first | exact .inr rfl | exact .inl (hm.mem (by decide))) | exact (Kept.refl _).same rfl rfl rfl (fun p => by cases p <;> first | exact .inr rfl | exact .inl (hm.mem (by decide))))
  all_goals (try dsimp only)
  all_goals (first | exact sub_of rfl hm | exact .inl (hm.mem (by decide)) | exact .inr fun _ => rfl | exact rfl | exact ⟨rfl, rfl⟩ | exact ⟨rfl, rfl, rfl, rfl, rfl⟩ | exact ⟨rfl, rfl, rfl⟩ | (refine .inr fun _ => ?_; (repeat' split) <;> exact rfl) | exact hk.same rfl rfl rfl (fun p => by cases p <;> first | exact .inr rfl | exact .inl (hm.mem (by decide))) | exact (Kept.refl _).same rfl rfl rfl (fun p => by cases p <;> first | exact .inr rfl | exact .inl (hm.mem (by decide))) | exact (by assumption : Kept _ _ _).same rfl rfl rfl (fun p => by cases p <;> first | exact .inr rfl | exact .inl (hm.mem (by decide))) | ((repeat' split) <;> first | exact rfl | exact ⟨rfl, rfl⟩ | exact ⟨rfl, rfl, rfl, rfl, rfl⟩ | exact ⟨rfl, rfl, rfl⟩))

theorem State.finishDue_kept {k : Nat} {r0 s : State} (hk : Kept pp r0 s) (hm : Sub [.est, .events] pp) : Kept pp r0 (State.finishDue s k) := by
  unfold State.finishDue
  dsimp only
  repeat' (first | exact sub_of rfl hm | with_reducible first | assumption | intro _ | apply State.when_kept | apply State.finishString_kept | exact rfl | apply ite_kept | split)

theorem State.rippleResult_kept {k : Nat} {r0 s : State} (hk : Kept pp r0 s) (hm : Sub [.est, .guard, .events] pp) : Kept pp r0 (State.rippleResult s k) := by
  unfold State.rippleResult
  repeat' (first | exact sub_of rfl hm | with_reducible first | assumption | intro _ | apply State.when_kept | apply State.modCell_kept | apply State.modStr_kept | apply State.ok_kept | apply State.suspect_kept | apply forEach_kept | exact rfl | apply ite_kept | split)

theorem State.learnedCheckpoint_kept  {r0 s : State} (hk : Kept pp r0 s) (hm : Sub [.mode, .est, .events, .recs] pp) : Kept pp r0 (State.learnedCheckpoint s) := by
  unfold State.learnedCheckpoint
  try dsimp only
  repeat' (first | exact sub_of rfl hm | exact .inl (hm.mem (by decide)) | exact .inr fun _ => rfl | with_reducible first | exact Kept.refl _ | assumption | intro _ _ _ | intro _ _ | intro _ | apply ite_kept | apply State.modCell_kept | apply State.onSys_kept | apply State.onRecs_kept | apply State.onEst_kept | apply State.raise_kept | apply forEach_kept | apply foldl_kept | exact rfl | split | exact (by assumption : Kept _ _ _).same rfl rfl rfl (fun p => by cases p <;> first | exact .inr rfl | exact .inl (hm.mem (by decide))) | exact (Kept.refl _).same rfl rfl rfl (fun p => by cases p <;> first | exact .inr rfl | exact .inl (hm.mem (by decide))))
  all_goals (try dsimp only)
  all_goals (first | exact sub_of rfl hm | exact .inl (hm.mem (by decide)) | exact .inr fun _ => rfl | exact rfl | exact ⟨rfl, rfl⟩ | exact ⟨rfl, rfl, rfl, rfl, rfl⟩ | exact ⟨rfl, rfl, rfl⟩ | (refine .inr fun _ => ?_; (repeat' split) <;> exact rfl) | exact hk.same rfl rfl rfl (fun p => by cases p <;> first | exact .inr rfl | exact .inl (hm.mem (by decide))) | exact (Kept.refl _).same rfl rfl rfl (fun p => by cases p <;> first | exact .inr rfl | exact .inl (hm.mem (by decide))) | exact (by assumption : Kept _ _ _).same rfl rfl rfl (fun p => by cases p <;> first | exact .inr rfl | exact .inl (hm.mem (by decide))) | ((repeat' split) <;> first | exact rfl | exact ⟨rfl, rfl⟩ | exact ⟨rfl, rfl, rfl, rfl, rfl⟩ | exact ⟨rfl, rfl, rfl⟩))

theorem State.socCheckpoint_kept  {r0 s : State} (hk : Kept pp r0 s) (hm : Sub [.est, .recs] pp) : Kept pp r0 (State.socCheckpoint s) := by
  unfold State.socCheckpoint
  repeat' (first | exact sub_of rfl hm | exact .inl (hm.mem (by decide)) | exact .inr fun _ => rfl | with_reducible first | assumption | intro _ | apply State.onRecs_kept | apply State.onEst_kept | exact rfl)
  all_goals first | exact sub_of rfl hm | exact .inl (hm.mem (by decide)) | exact .inr fun _ => rfl | exact rfl | exact ⟨rfl, rfl⟩ | exact ⟨rfl, rfl, rfl, rfl, rfl⟩ | exact ⟨rfl, rfl, rfl⟩ | (refine .inr fun _ => ?_; (repeat' split) <;> exact rfl) | exact hk.same rfl rfl rfl (fun p => by cases p <;> first | exact .inr rfl | exact .inl (hm.mem (by decide))) | (repeat' split) <;> first | exact rfl | exact ⟨rfl, rfl⟩ | exact ⟨rfl, rfl, rfl, rfl, rfl⟩ | exact ⟨rfl, rfl, rfl⟩

theorem execSocCheckpoint_goes  {s : State} (hm : Sub [.est, .recs] pp) : Goes pp s (execSocCheckpoint s) := by
  unfold execSocCheckpoint
  apply onlyIf_goes
  repeat' (first | exact sub_of rfl hm | with_reducible first | exact Kept.refl _ | assumption | intro _ | apply State.socCheckpoint_kept | exact rfl)

theorem execLearnedCheckpoint_goes  {s : State} (hm : Sub [.mode, .est, .events, .recs] pp) : Goes pp s (execLearnedCheckpoint s) := by
  unfold execLearnedCheckpoint
  apply onlyIf_goes
  repeat' (first | exact sub_of rfl hm | with_reducible first | exact Kept.refl _ | assumption | intro _ | apply State.learnedCheckpoint_kept | exact rfl)

theorem State.learnResult_kept {k : Nat} {r0 s : State} (hk : Kept pp r0 s) (hm : Sub [.mode, .est, .guard, .events, .recs] pp) : Kept pp r0 (State.learnResult s k) := by
  unfold State.learnResult
  repeat' (first | exact sub_of rfl hm | with_reducible first | assumption | intro _ | apply State.when_kept | apply State.modCell_kept | apply State.modStr_kept | apply State.raise_kept | apply State.suspect_kept | apply State.learnedCheckpoint_kept | apply forEach_kept | exact rfl | apply ite_kept | split)

theorem State.publishSide_kept {i : Item} {r0 s : State} (hk : Kept pp r0 s) (hm : Sub [.est] pp) : Kept pp r0 (State.publishSide s i) := by
  unfold State.publishSide
  repeat' (first | exact sub_of rfl hm | with_reducible first | assumption | intro _ | apply State.modStr_kept | apply foldl_kept | exact rfl | apply ite_kept | split)

theorem State.sideDue_kept {k : Nat} {r0 s : State} (hk : Kept pp r0 s) (hm : Sub [.mode, .est, .guard, .events, .recs] pp) : Kept pp r0 (State.sideDue s k) := by
  unfold State.sideDue
  repeat' (first | exact sub_of rfl hm | with_reducible first | assumption | intro _ | apply State.when_kept | apply State.rippleResult_kept | apply State.learnResult_kept | exact rfl)

theorem execPublication_goes  {s : State} (hm : Sub [.bulk, .mode, .rings, .sched, .est, .guard, .events, .recs] pp) : Goes pp s (execPublication s) := by
  unfold execPublication
  repeat' (first | apply onlyIf_goes | apply ite_goes)
  repeat' (first | exact sub_of rfl hm | with_reducible first | exact Kept.refl _ | assumption | intro _ | apply State.onSched_kept | apply State.settleGen_kept | apply State.evalDue_kept | apply State.publishUpdate_kept | apply State.finishDue_kept | apply State.publishSide_kept | apply State.sideDue_kept | apply forEach_kept | exact rfl | apply ite_kept | split)

theorem State.throughput_kept {k : Nat} {amps : Rat} {ticks : Nat} {r0 s : State} (hk : Kept pp r0 s) (hm : Sub [.recs] pp) : Kept pp r0 (State.throughput s k amps ticks) := by
  unfold State.throughput
  repeat' (first | exact sub_of rfl hm | exact .inl (hm.mem (by decide)) | exact .inr fun _ => rfl | with_reducible first | assumption | intro _ | apply State.onRecs_kept | exact rfl | apply ite_kept | split)

theorem State.judgeRest_kept {k : Nat} {r0 s : State} (hk : Kept pp r0 s) (hm : Sub [.est] pp) : Kept pp r0 (State.judgeRest s k) := by
  unfold State.judgeRest
  repeat' (first | exact sub_of rfl hm | with_reducible first | assumption | intro _ | apply State.when_kept | apply State.modStr_kept | apply State.owePlan_kept | exact rfl | apply ite_kept | split)

theorem State.publishCurrent_kept {k ticks : Nat} {r0 s : State} (hk : Kept pp r0 s) (hm : Sub [.est, .recs] pp) : Kept pp r0 (State.publishCurrent s k ticks) := by
  unfold State.publishCurrent
  repeat' (first | exact sub_of rfl hm | with_reducible first | assumption | intro _ | apply State.modStr_kept | apply State.throughput_kept | apply State.judgeRest_kept | exact rfl | apply ite_kept | split)

theorem execObserverRun_goes {port sid : Nat} {s : State} (hm : Sub [.est, .events, .recs] pp) : Goes pp s (execObserverRun port sid s) := by
  unfold execObserverRun
  repeat' (first | apply onlyIf_goes | apply done_goes | apply ite_goes)
  repeat' (first | exact sub_of rfl hm | with_reducible first | exact Kept.refl _ | assumption | intro _ | apply State.when_kept | apply State.modStr_kept | apply State.raise_kept | apply State.publishCurrent_kept | exact rfl | apply ite_kept | split)

theorem execObserverBlend_goes {group : Nat} {s : State} (hm : Sub [.est, .recs] pp) : Goes pp s (execObserverBlend group s) := by
  unfold execObserverBlend
  repeat' (first | apply onlyIf_goes | apply ite_goes)
  repeat' (first | exact sub_of rfl hm | with_reducible first | exact Kept.refl _ | assumption | intro _ | apply State.modStr_kept | apply State.publishCurrent_kept | apply forEach_kept | exact rfl | apply ite_kept | split)

theorem execObserverUnavailable_goes {port sid : Nat} {s : State} (hm : Sub [.est, .events] pp) : Goes pp s (execObserverUnavailable port sid s) := by
  unfold execObserverUnavailable
  apply onlyIf_goes
  repeat' (first | exact sub_of rfl hm | with_reducible first | exact Kept.refl _ | assumption | intro _ | apply State.modStr_kept | apply State.raise_kept | exact rfl)

theorem State.newFirst_kept {k : Nat} {r0 s : State} (hk : Kept pp r0 s) (hm : Sub [.est] pp) : Kept pp r0 (State.newFirst s k) := by
  unfold State.newFirst
  repeat' (first | exact sub_of rfl hm | with_reducible first | assumption | intro _ | apply State.modCell_kept | apply State.modStr_kept | apply forEach_kept | exact rfl)

theorem State.evalInterval_kept {k : Nat} {r0 s : State} (hk : Kept pp r0 s) (hm : Sub [.est, .events] pp) : Kept pp r0 (State.evalInterval s k) := by
  unfold State.evalInterval
  try dsimp only
  repeat' (first | exact sub_of rfl hm | exact .inl (hm.mem (by decide)) | exact .inr fun _ => rfl | with_reducible first | exact Kept.refl _ | assumption | intro _ _ _ | intro _ _ | intro _ | apply ite_kept | apply State.when_kept | apply State.modCell_kept | apply State.modStr_kept | apply State.onEst_kept | apply State.raise_kept | apply State.newFirst_kept | apply forEach_kept | apply foldl_kept | exact rfl | split | exact (by assumption : Kept _ _ _).same rfl rfl rfl (fun p => by cases p <;> first | exact .inr rfl | exact .inl (hm.mem (by decide))) | exact (Kept.refl _).same rfl rfl rfl (fun p => by cases p <;> first | exact .inr rfl | exact .inl (hm.mem (by decide))))
  all_goals (try dsimp only)
  all_goals (first | exact sub_of rfl hm | exact .inl (hm.mem (by decide)) | exact .inr fun _ => rfl | exact rfl | exact ⟨rfl, rfl⟩ | exact ⟨rfl, rfl, rfl, rfl, rfl⟩ | exact ⟨rfl, rfl, rfl⟩ | (refine .inr fun _ => ?_; (repeat' split) <;> exact rfl) | exact hk.same rfl rfl rfl (fun p => by cases p <;> first | exact .inr rfl | exact .inl (hm.mem (by decide))) | exact (Kept.refl _).same rfl rfl rfl (fun p => by cases p <;> first | exact .inr rfl | exact .inl (hm.mem (by decide))) | exact (by assumption : Kept _ _ _).same rfl rfl rfl (fun p => by cases p <;> first | exact .inr rfl | exact .inl (hm.mem (by decide))) | ((repeat' split) <;> first | exact rfl | exact ⟨rfl, rfl⟩ | exact ⟨rfl, rfl, rfl, rfl, rfl⟩ | exact ⟨rfl, rfl, rfl⟩))

theorem execRestPoint_goes {port sid : Nat} {s : State} (hm : Sub [.est, .events] pp) : Goes pp s (execRestPoint port sid s) := by
  unfold execRestPoint
  repeat' (first | apply onlyIf_goes | apply ite_goes)
  repeat' (first | exact sub_of rfl hm | with_reducible first | exact Kept.refl _ | assumption | intro _ | apply State.modCell_kept | apply State.modStr_kept | apply State.newFirst_kept | apply State.evalInterval_kept | apply forEach_kept | exact rfl | apply ite_kept | split)

theorem State.dropBurst_kept {k : Nat} {r0 s : State} (hk : Kept pp r0 s) (hm : Sub [.est] pp) : Kept pp r0 (State.dropBurst s k) := by
  unfold State.dropBurst
  repeat' (first | exact sub_of rfl hm | with_reducible first | assumption | intro _ | apply State.modCell_kept | apply State.modStr_kept | apply forEach_kept | exact rfl)

theorem State.burstSample_kept {k : Nat} {merged : Bool} {cells : List (Nat × Nat)} {ma : Int} {r0 s : State} (hk : Kept pp r0 s) (hm : Sub [.sched, .est] pp) : Kept pp r0 (State.burstSample s k merged cells ma) := by
  unfold State.burstSample
  repeat' (first | exact sub_of rfl hm | with_reducible first | assumption | intro _ | apply State.when_kept | apply State.modCell_kept | apply State.modStr_kept | apply State.onSched_kept | apply forEach_kept | exact rfl | apply ite_kept | split)

theorem execRippleBurstSample_goes {cells : List (Nat × Nat)} {fpi : List (Nat × Int)} {s : State} (hm : Sub [.beam, .marks, .sched, .est] pp) : Goes pp s (execRippleBurstSample cells fpi s) := by
  unfold execRippleBurstSample
  repeat' (first | apply onlyIf_goes | apply ite_goes | split)
  repeat' (first | exact sub_of rfl hm | with_reducible first | exact Kept.refl _ | assumption | intro _ | apply State.fireMark_kept | apply State.dropBurst_kept | apply State.burstSample_kept | apply forEach_kept | exact rfl | apply ite_kept | split)

theorem State.startFrame_kept {n : Nat} {r0 s : State} (hk : Kept pp r0 s) (hm : Sub [.can] pp) : Kept pp r0 (State.startFrame s n) := by
  unfold State.startFrame
  repeat' (first | exact sub_of rfl hm | with_reducible first | assumption | intro _ | apply State.when_kept | apply State.modCtrl_kept | exact rfl)

theorem State.chooseAgain_kept {n : Nat} {r0 s : State} (hk : Kept pp r0 s) (hm : Sub [.can] pp) : Kept pp r0 (State.chooseAgain s n) := by
  unfold State.chooseAgain
  repeat' (first | exact sub_of rfl hm | with_reducible first | assumption | intro _ | apply State.modCtrl_kept | apply State.startFrame_kept | exact rfl)

theorem State.emitPcs_kept  {r0 s : State} (hk : Kept pp r0 s) (hm : Sub [.guard, .can] pp) : Kept pp r0 (State.emitPcs s) := by
  unfold State.emitPcs
  try dsimp only
  repeat' (first | exact sub_of rfl hm | exact .inl (hm.mem (by decide)) | exact .inr fun _ => rfl | with_reducible first | exact Kept.refl _ | assumption | intro _ _ _ | intro _ _ | intro _ | apply ite_kept | apply State.modCtrl_kept | apply State.onGuard_kept | apply State.onCan_kept | apply foldl_kept | exact rfl | split | exact (by assumption : Kept _ _ _).same rfl rfl rfl (fun p => by cases p <;> first | exact .inr rfl | exact .inl (hm.mem (by decide))) | exact (Kept.refl _).same rfl rfl rfl (fun p => by cases p <;> first | exact .inr rfl | exact .inl (hm.mem (by decide))))
  all_goals (try dsimp only)
  all_goals (first | exact sub_of rfl hm | exact .inl (hm.mem (by decide)) | exact .inr fun _ => rfl | exact rfl | exact ⟨rfl, rfl⟩ | exact ⟨rfl, rfl, rfl, rfl, rfl⟩ | exact ⟨rfl, rfl, rfl⟩ | (refine .inr fun _ => ?_; (repeat' split) <;> exact rfl) | exact hk.same rfl rfl rfl (fun p => by cases p <;> first | exact .inr rfl | exact .inl (hm.mem (by decide))) | exact (Kept.refl _).same rfl rfl rfl (fun p => by cases p <;> first | exact .inr rfl | exact .inl (hm.mem (by decide))) | exact (by assumption : Kept _ _ _).same rfl rfl rfl (fun p => by cases p <;> first | exact .inr rfl | exact .inl (hm.mem (by decide))) | ((repeat' split) <;> first | exact rfl | exact ⟨rfl, rfl⟩ | exact ⟨rfl, rfl, rfl, rfl, rfl⟩ | exact ⟨rfl, rfl, rfl⟩))

theorem State.sendZero_kept {id cause : Nat} {r0 s : State} (hk : Kept pp r0 s) (hm : Sub [.guard, .can] pp) : Kept pp r0 (State.sendZero s id cause) := by
  unfold State.sendZero
  repeat' (first | exact sub_of rfl hm | exact .inl (hm.mem (by decide)) | exact .inr fun _ => rfl | with_reducible first | assumption | intro _ | apply State.onGuard_kept | apply State.emitPcs_kept | exact rfl | apply ite_kept | split)

theorem State.sendStop_kept {id cause : Nat} {r0 s : State} (hk : Kept pp r0 s) (hm : Sub [.guard, .can] pp) : Kept pp r0 (State.sendStop s id cause) := by
  unfold State.sendStop
  repeat' (first | exact sub_of rfl hm | exact .inl (hm.mem (by decide)) | exact .inr fun _ => rfl | with_reducible first | assumption | intro _ | apply State.onGuard_kept | apply State.emitPcs_kept | exact rfl)

theorem State.sendRelease_kept {id cause : Nat} {r0 s : State} (hk : Kept pp r0 s) (hm : Sub [.guard, .can] pp) : Kept pp r0 (State.sendRelease s id cause) := by
  unfold State.sendRelease
  repeat' (first | exact sub_of rfl hm | exact .inl (hm.mem (by decide)) | exact .inr fun _ => rfl | with_reducible first | assumption | intro _ | apply State.onGuard_kept | apply State.emitPcs_kept | exact rfl)

theorem execPcsMessageRepeat_goes  {s : State} (hm : Sub [.guard, .can] pp) : Goes pp s (execPcsMessageRepeat s) := by
  unfold execPcsMessageRepeat
  try dsimp only
  repeat' (first | apply onlyIf_goes | apply next_goes | apply done_goes | apply ite_goes)
  repeat' (first | exact sub_of rfl hm | exact .inl (hm.mem (by decide)) | exact .inr fun _ => rfl | with_reducible first | exact Kept.refl _ | assumption | intro _ _ _ | intro _ _ | intro _ | apply ite_kept | apply State.onGuard_kept | apply State.onCan_kept | apply State.emitPcs_kept | apply foldl_kept | exact rfl | split | exact (by assumption : Kept _ _ _).same rfl rfl rfl (fun p => by cases p <;> first | exact .inr rfl | exact .inl (hm.mem (by decide))) | exact (Kept.refl _).same rfl rfl rfl (fun p => by cases p <;> first | exact .inr rfl | exact .inl (hm.mem (by decide))))
  all_goals (try dsimp only)
  all_goals (first | exact sub_of rfl hm | exact .inl (hm.mem (by decide)) | exact .inr fun _ => rfl | exact rfl | exact ⟨rfl, rfl⟩ | exact ⟨rfl, rfl, rfl, rfl, rfl⟩ | exact ⟨rfl, rfl, rfl⟩ | (refine .inr fun _ => ?_; (repeat' split) <;> exact rfl) | exact (Kept.refl _).same rfl rfl rfl (fun p => by cases p <;> first | exact .inr rfl | exact .inl (hm.mem (by decide))) | exact (Kept.refl _).same rfl rfl rfl (fun p => by cases p <;> first | exact .inr rfl | exact .inl (hm.mem (by decide))) | exact (by assumption : Kept _ _ _).same rfl rfl rfl (fun p => by cases p <;> first | exact .inr rfl | exact .inl (hm.mem (by decide))) | ((repeat' split) <;> first | exact rfl | exact ⟨rfl, rfl⟩ | exact ⟨rfl, rfl, rfl, rfl, rfl⟩ | exact ⟨rfl, rfl, rfl⟩))

end Sys2Proof.Machine
end

