-- ==== Sys2Proof/Laws/KeptChannels.lean ====
section
/-! SUPPORT. Each operation and each meaning of Channels, Tenants, Guard, Sequences, Conf goes on and keeps the queue, the clock, canonical tables, and every part outside its list. -/
namespace Sys2Proof.Machine
open Sys2Proof

variable {pp : List Part}

theorem State.turnOn_kept {n : Nat} {r0 s : State} (hk : Kept pp r0 s) (hm : Sub [.load] pp) : Kept pp r0 (State.turnOn s n) := by
  unfold State.turnOn
  repeat' (first | exact sub_of rfl hm | with_reducible first | assumption | intro _ | apply State.modChan_kept | exact rfl)

theorem State.turnOff_kept {n : Nat} {r0 s : State} (hk : Kept pp r0 s) (hm : Sub [.load] pp) : Kept pp r0 (State.turnOff s n) := by
  unfold State.turnOff
  repeat' (first | exact sub_of rfl hm | with_reducible first | assumption | intro _ | apply State.modChan_kept | exact rfl)

theorem State.applyChannels_kept {ns : List Nat} {r0 s : State} (hk : Kept pp r0 s) (hm : Sub [.load] pp) : Kept pp r0 (State.applyChannels s ns) := by
  unfold State.applyChannels
  dsimp only
  repeat' (first | exact sub_of rfl hm | with_reducible first | assumption | intro _ | apply State.onLoad_kept | apply State.turnOn_kept | apply State.turnOff_kept | apply forEach_kept | exact rfl | apply ite_kept | split)

theorem State.guardSet_kept {n : Nat} {on : Bool} {r0 s : State} (hk : Kept pp r0 s) (hm : Sub [.guard, .load] pp) : Kept pp r0 (State.guardSet s n on) := by
  unfold State.guardSet
  repeat' (first | exact sub_of rfl hm | exact .inl (hm.mem (by decide)) | exact .inr fun _ => rfl | with_reducible first | assumption | intro _ | apply State.when_kept | apply State.modChan_kept | apply State.onGuard_kept | apply State.applyChannels_kept | exact rfl | apply ite_kept | split)

theorem State.ask_kept {kind : Nat} {string : Option Nat} {cause : Nat} {ps : List Int} {withId logs : Bool} {r0 s : State} (hk : Kept pp r0 s) (hm : Sub [.guard] pp) : Kept pp r0 (State.ask s kind string cause ps withId logs) := by
  unfold State.ask
  repeat' (first | exact sub_of rfl hm | exact .inl (hm.mem (by decide)) | exact .inr fun _ => rfl | with_reducible first | assumption | intro _ | apply State.onGuard_kept | exact rfl)

theorem State.dropout_kept {ns : List Nat} {cause : Nat} {ps : List Int} {r0 s : State} (hk : Kept pp r0 s) (hm : Sub [.guard] pp) : Kept pp r0 (State.dropout s ns cause ps) := by
  unfold State.dropout
  repeat' (first | exact sub_of rfl hm | exact .inl (hm.mem (by decide)) | exact .inr fun _ => rfl | with_reducible first | assumption | intro _ | apply State.onGuard_kept | apply State.ask_kept | apply forEach_kept | exact rfl | apply ite_kept | split)

theorem State.formLimits_kept  {r0 s : State} (hk : Kept pp r0 s) (hm : Sub [.disp] pp) : Kept pp r0 (State.formLimits s) := by
  unfold State.formLimits
  repeat' (first | exact sub_of rfl hm | with_reducible first | assumption | intro _ | apply State.onDisp_kept | exact rfl | apply ite_kept | split)

theorem State.copyLedgers_kept  {r0 s : State} (hk : Kept pp r0 s) (hm : Sub [.recs] pp) : Kept pp r0 (State.copyLedgers s) := by
  unfold State.copyLedgers
  repeat' (first | exact sub_of rfl hm | exact .inl (hm.mem (by decide)) | exact .inr fun _ => rfl | with_reducible first | assumption | intro _ | apply State.onRecs_kept | apply foldl_kept | exact rfl | apply ite_kept | split)

theorem State.judgeExt_kept  {r0 s : State} (hk : Kept pp r0 s) (hm : Sub [.disp, .events] pp) : Kept pp r0 (State.judgeExt s) := by
  unfold State.judgeExt
  repeat' (first | exact sub_of rfl hm | with_reducible first | assumption | intro _ | apply State.onDisp_kept | apply State.raise_kept | exact rfl | apply ite_kept | split)

theorem Dispatch.endHold_tenants (d : Dispatch) (clock : Nat) : (d.endHold clock).tenants = d.tenants := by
  unfold Dispatch.endHold
  repeat' split
  all_goals rfl

theorem State.takeTerm_kept {r0 s : State} (h : Kept pp r0 s) (hm : Sub [.disp, .events] pp) : Kept pp r0 s.takeTerm := by
  unfold State.takeTerm
  have h1 := State.judgeExt_kept h (sub_of rfl hm)
  dsimp only
  refine ite_kept h1 ?_
  split
  · exact State.onDisp_kept (fun d => Dispatch.endHold_tenants d _) h1 (sub_of rfl hm)
  · exact State.onDisp_kept (fun _ => rfl) h1 (sub_of rfl hm)

theorem execExternalSetpointFault_goes  {s : State} (hm : Sub [.disp, .events] pp) : Goes pp s (execExternalSetpointFault s) := by
  unfold execExternalSetpointFault
  apply onlyIf_goes
  repeat' (first | exact sub_of rfl hm | with_reducible first | exact Kept.refl _ | assumption | intro _ | apply State.judgeExt_kept | exact rfl)

theorem execFailsafeHoldExpiry_goes  {s : State} (hm : Sub [.disp] pp) : Goes pp s (execFailsafeHoldExpiry s) := by
  unfold execFailsafeHoldExpiry
  apply onlyIf_goes
  repeat' (first | exact sub_of rfl hm | with_reducible first | exact Kept.refl _ | assumption | intro _ | apply State.onDisp_kept | exact rfl)

theorem State.programM2_kept  {r0 s : State} (hk : Kept pp r0 s) (hm : Sub [.marks] pp) : Kept pp r0 (State.programM2 s) := by
  unfold State.programM2
  repeat' (first | exact sub_of rfl hm | with_reducible first | assumption | intro _ | apply State.modMark_kept | apply State.count_kept | exact rfl)

theorem State.changeover_kept  {r0 s : State} (hk : Kept pp r0 s) (hm : Sub [.marks, .disp] pp) : Kept pp r0 (State.changeover s) := by
  unfold State.changeover
  repeat' (first | exact sub_of rfl hm | with_reducible first | assumption | intro _ | apply State.modMark_kept | apply State.onDisp_kept | exact rfl | apply ite_kept | split)

theorem State.newSlotCyc_kept {v : Nat} {r0 s : State} (hk : Kept pp r0 s) (hm : Sub [.disp, .events] pp) : Kept pp r0 (State.newSlotCyc s v) := by
  unfold State.newSlotCyc
  repeat' (first | exact sub_of rfl hm | with_reducible first | assumption | intro _ | apply State.when_kept | apply State.modTenant_kept | apply State.onDisp_kept | apply State.raise_kept | apply forEach_kept | exact rfl)

theorem State.numberSlot_kept  {r0 s : State} (hk : Kept pp r0 s) (hm : Sub [.disp] pp) : Kept pp r0 (State.numberSlot s) := by
  unfold State.numberSlot
  repeat' (first | exact sub_of rfl hm | with_reducible first | assumption | intro _ | apply State.onDisp_kept | exact rfl | apply ite_kept | split)

theorem State.moveRamps_kept  {r0 s : State} (hk : Kept pp r0 s) (hm : Sub [.disp] pp) : Kept pp r0 (State.moveRamps s) := by
  unfold State.moveRamps
  repeat' (first | exact sub_of rfl hm | with_reducible first | assumption | intro _ | apply State.modTenant_kept | apply forEach_kept | exact rfl | apply ite_kept | split)

theorem State.request_kept {t : Nat} {r0 s : State} (hk : Kept pp r0 s) (hm : Sub [.disp, .events] pp) : Kept pp r0 (State.request s t) := by
  unfold State.request
  repeat' (first | exact sub_of rfl hm | with_reducible first | assumption | intro _ | apply State.when_kept | apply State.modTenant_kept | apply State.raise_kept | exact rfl | apply ite_kept | split)

theorem State.deliver_kept {tick : Bool} {r0 s : State} (hk : Kept pp r0 s) (hm : Sub [.disp] pp) : Kept pp r0 (State.deliver tick s) := by
  unfold State.deliver
  repeat' (first | exact sub_of rfl hm | with_reducible first | assumption | intro _ | apply State.free_kept | apply State.modTenant_kept | apply State.onDisp_kept | apply forEach_kept | exact rfl | apply ite_kept | split)

theorem State.ledgerEvents_kept {t : Nat} {r0 s : State} (hk : Kept pp r0 s) (hm : Sub [.disp, .events] pp) : Kept pp r0 (State.ledgerEvents s t) := by
  unfold State.ledgerEvents
  repeat' (first | exact sub_of rfl hm | with_reducible first | assumption | intro _ | apply State.when_kept | apply State.modTenant_kept | apply State.raise_kept | exact rfl | apply ite_kept | split)

theorem State.deficitEvent_kept  {r0 s : State} (hk : Kept pp r0 s) (hm : Sub [.disp, .events] pp) : Kept pp r0 (State.deficitEvent s) := by
  unfold State.deficitEvent
  repeat' (first | exact sub_of rfl hm | with_reducible first | assumption | intro _ | apply State.onDisp_kept | apply State.raise_kept | exact rfl | apply ite_kept | split)

theorem State.emitSetpoint_kept  {r0 s : State} (hk : Kept pp r0 s) (hm : Sub [.disp, .can] pp) : Kept pp r0 (State.emitSetpoint s) := by
  unfold State.emitSetpoint
  repeat' (first | exact sub_of rfl hm | with_reducible first | assumption | intro _ | apply State.when_kept | apply State.modCtrl_kept | apply State.onDisp_kept | apply State.startFrame_kept | exact rfl | apply ite_kept | split)

theorem State.computeTick_kept {tick : Bool} {r0 s : State} (hk : Kept pp r0 s) (hm : Sub [.disp, .events, .can] pp) : Kept pp r0 (State.computeTick tick s) := by
  unfold State.computeTick
  repeat' (first | exact sub_of rfl hm | with_reducible first | assumption | intro _ | apply State.when_kept | apply State.onDisp_kept | apply State.formLimits_kept | apply State.takeTerm_kept | apply State.request_kept | apply State.deliver_kept | apply State.ledgerEvents_kept | apply State.deficitEvent_kept | apply State.emitSetpoint_kept | apply forEach_kept | exact rfl)

theorem State.resumeDispatch_kept  {r0 s : State} (hk : Kept pp r0 s) (hm : Sub [.guard, .disp, .events, .can] pp) : Kept pp r0 (State.resumeDispatch s) := by
  unfold State.resumeDispatch
  repeat' (first | exact sub_of rfl hm | exact .inl (hm.mem (by decide)) | exact .inr fun _ => rfl | with_reducible first | assumption | intro _ | apply State.onGuard_kept | apply State.onDisp_kept | apply State.raise_kept | apply State.sendRelease_kept | exact rfl | apply ite_kept | split)

theorem execDispatchTick_goes  {s : State} (hm : Sub [.beam, .marks, .guard, .disp, .events, .recs, .can] pp) : Goes pp s (execDispatchTick s) := by
  unfold execDispatchTick
  repeat' (first | apply onlyIf_goes | apply ite_goes)
  repeat' (first | exact sub_of rfl hm | with_reducible first | exact Kept.refl _ | assumption | intro _ | apply State.onDisp_kept | apply State.settle_kept | apply State.fireMark_kept | apply State.copyLedgers_kept | apply State.changeover_kept | apply State.numberSlot_kept | apply State.moveRamps_kept | apply State.computeTick_kept | apply State.resumeDispatch_kept | exact rfl | apply ite_kept | split)

theorem execStopRecompute_goes  {s : State} (hm : Sub [.disp, .events, .can] pp) : Goes pp s (execStopRecompute s) := by
  unfold execStopRecompute
  apply onlyIf_goes
  repeat' (first | exact sub_of rfl hm | with_reducible first | exact Kept.refl _ | assumption | intro _ | apply State.settle_kept | apply State.computeTick_kept | exact rfl)

theorem execCurtailmentStarted_goes  {s : State} (hm : Sub [.disp, .events] pp) : Goes pp s (execCurtailmentStarted s) := by
  unfold execCurtailmentStarted
  apply onlyIf_goes
  repeat' (first | exact sub_of rfl hm | with_reducible first | exact Kept.refl _ | assumption | intro _ | apply State.when_kept | apply State.onDisp_kept | apply State.raise_kept | exact rfl)

theorem execCurtailmentEnded_goes  {s : State} (hm : Sub [.disp, .events] pp) : Goes pp s (execCurtailmentEnded s) := by
  unfold execCurtailmentEnded
  apply onlyIf_goes
  repeat' (first | exact sub_of rfl hm | with_reducible first | exact Kept.refl _ | assumption | intro _ | apply State.when_kept | apply State.onDisp_kept | apply State.raise_kept | exact rfl)

theorem State.applyAllocs_kept  {r0 s : State} (hk : Kept pp r0 s) (hm : Sub [.disp, .events] pp) : Kept pp r0 (State.applyAllocs s) := by
  unfold State.applyAllocs
  dsimp only
  repeat' (first | exact sub_of rfl hm | with_reducible first | assumption | intro _ | apply State.modTenant_kept | apply State.raise_kept | apply forEach_kept | exact rfl | apply ite_kept | split)

theorem execRippleBurstStart_goes {port sid : Nat} {s : State} (hm : Sub [.beam, .marks, .est, .events] pp) : Goes pp s (execRippleBurstStart port sid s) := by
  unfold execRippleBurstStart
  repeat' (first | apply onlyIf_goes | apply ite_goes | split)
  repeat' (first | exact sub_of rfl hm | with_reducible first | exact Kept.refl _ | assumption | intro _ | apply State.modMark_kept | apply State.modCell_kept | apply State.modStr_kept | apply State.count_kept | apply State.markEnable_kept | apply forEach_kept | exact rfl | apply ite_kept | split)

theorem State.takeId_kept  {r0 s : State} (hk : Kept pp r0 s) (hm : Sub [.latch, .events, .recs] pp) : Kept pp r0 (State.takeId s) := by
  unfold State.takeId
  repeat' (first | exact sub_of rfl hm | exact .inl (hm.mem (by decide)) | exact .inr fun _ => rfl | with_reducible first | assumption | intro _ | apply State.onGuard_kept | apply State.count_kept | exact rfl)

theorem State.cycleId_kept  {r0 s : State} (hk : Kept pp r0 s) (hm : Sub [.latch, .guard, .events, .recs] pp) : Kept pp r0 (State.cycleId s) := by
  unfold State.cycleId
  repeat' (first | exact sub_of rfl hm | exact .inl (hm.mem (by decide)) | exact .inr fun _ => rfl | with_reducible first | assumption | intro _ | apply State.onGuard_kept | apply State.takeId_kept | exact rfl | apply ite_kept | split)

theorem State.noteOpened_kept {before s : State} {t : SeqTable} {r0 : State} (h : Kept pp r0 s) (hm : Sub [.guard] pp) :
    Kept pp r0 (State.noteOpened before s t) :=
  ite_kept (State.onGuard_kept (fun _ => rfl) h (.inr fun _ => rfl) (.inl hm.head)) h

theorem State.contactorsOff_kept  {r0 s : State} (hk : Kept pp r0 s) (hm : Sub [.guard, .load] pp) : Kept pp r0 (State.contactorsOff s) := by
  unfold State.contactorsOff
  repeat' (first | exact sub_of rfl hm | exact .inl (hm.mem (by decide)) | exact .inr fun _ => rfl | with_reducible first | assumption | intro _ | apply State.onGuard_kept | apply State.applyChannels_kept | apply State.noteOpened_kept | exact rfl)

theorem State.queueGuard_kept {port dst : Nat} {out : BitVec 8} {r0 s : State} (hk : Kept pp r0 s) (hm : Sub [.rings] pp) : Kept pp r0 (State.queueGuard s port dst out) := by
  unfold State.queueGuard
  repeat' (first | exact sub_of rfl hm | with_reducible first | assumption | intro _ | apply State.modRing_kept | exact rfl | apply ite_kept | split)

theorem State.sendSwitch_kept {k : Nat} {clear : Bool} {r0 s : State} (hk : Kept pp r0 s) (hm : Sub [.rings] pp) : Kept pp r0 (State.sendSwitch s k clear) := by
  unfold State.sendSwitch
  repeat' (first | exact sub_of rfl hm | with_reducible first | assumption | intro _ | apply State.queueGuard_kept | exact rfl | apply ite_kept | split)

theorem State.dropPlans_kept {k : Nat} {r0 s : State} (hk : Kept pp r0 s) (hm : Sub [.rings, .est] pp) : Kept pp r0 (State.dropPlans s k) := by
  unfold State.dropPlans
  repeat' (first | exact sub_of rfl hm | with_reducible first | assumption | intro _ | apply State.modRing_kept | apply State.modBal_kept | apply forEach_kept | exact rfl)

theorem State.stringOff_kept {k : Nat} {hold : Bool} {r0 s : State} (hk : Kept pp r0 s) (hm : Sub [.rings, .est, .guard] pp) : Kept pp r0 (State.stringOff s k hold) := by
  unfold State.stringOff
  repeat' (first | exact sub_of rfl hm | exact .inl (hm.mem (by decide)) | exact .inr fun _ => rfl | with_reducible first | assumption | intro _ | apply State.when_kept | apply State.modStr_kept | apply State.onGuard_kept | apply State.dropPlans_kept | exact rfl)

theorem State.openString_kept {k : Nat} {r0 s : State} (hk : Kept pp r0 s) (hm : Sub [.rings, .est, .guard] pp) : Kept pp r0 (State.openString s k) := by
  unfold State.openString
  repeat' (first | exact sub_of rfl hm | with_reducible first | assumption | intro _ | apply State.sendSwitch_kept | apply State.stringOff_kept | exact rfl)

theorem State.tripStrings_kept {ks : List Nat} {hold : Bool} {r0 s : State} (hk : Kept pp r0 s) (hm : Sub [.rings, .est, .guard] pp) : Kept pp r0 (State.tripStrings s ks hold) := by
  unfold State.tripStrings
  repeat' (first | exact sub_of rfl hm | with_reducible first | assumption | intro _ | apply State.stringOff_kept | apply forEach_kept | exact rfl)

theorem State.latchTripped_kept {cause : Nat} {r0 s : State} (hk : Kept pp r0 s) (hm : Sub [.mail, .mode, .rings, .est, .latch, .guard, .disp, .events] pp) : Kept pp r0 (State.latchTripped s cause) := by
  unfold State.latchTripped
  repeat' (first | exact sub_of rfl hm | exact .inl (hm.mem (by decide)) | exact .inr fun _ => rfl | with_reducible first | assumption | intro _ | apply State.onGuard_kept | apply State.enterMode_kept | exact rfl | apply ite_kept | split)

theorem State.hwTake_kept {cause : Nat} {mask : BitVec 8} {r0 s : State} (hk : Kept pp r0 s) (hm : Sub [.latch, .guard, .events, .recs] pp) : Kept pp r0 (State.hwTake s cause mask) := by
  unfold State.hwTake
  repeat' (first | exact sub_of rfl hm | exact .inl (hm.mem (by decide)) | exact .inr fun _ => rfl | with_reducible first | assumption | intro _ | apply State.onGuard_kept | apply State.takeId_kept | exact rfl | apply ite_kept | split)

theorem State.hwBankAction_kept {cause : Nat} {ps : List Int} {r0 s : State} (hk : Kept pp r0 s) (hm : Sub [.rings, .est, .latch, .guard, .events, .recs, .load] pp) : Kept pp r0 (State.hwBankAction s cause ps) := by
  unfold State.hwBankAction
  repeat' (first | exact sub_of rfl hm | exact .inl (hm.mem (by decide)) | exact .inr fun _ => rfl | with_reducible first | assumption | intro _ | apply State.onGuard_kept | apply State.launchTrip_kept | apply State.ask_kept | apply State.contactorsOff_kept | apply State.tripStrings_kept | apply State.hwTake_kept | exact rfl)

theorem execStopDeenergised_goes {heldUs : Nat} {s : State} (hm : Sub [.rings, .est, .latch, .guard, .events, .recs, .load] pp) : Goes pp s (execStopDeenergised heldUs s) := by
  unfold execStopDeenergised
  apply onlyIf_goes
  repeat' (first | exact sub_of rfl hm | exact .inl (hm.mem (by decide)) | exact .inr fun _ => rfl | with_reducible first | exact Kept.refl _ | assumption | intro _ | apply State.onGuard_kept | apply State.hwBankAction_kept | exact rfl)

theorem execStopEnergised_goes {heldUs : Nat} {s : State} (hm : Sub [.guard] pp) : Goes pp s (execStopEnergised heldUs s) := by
  unfold execStopEnergised
  apply onlyIf_goes
  repeat' (first | exact sub_of rfl hm | exact .inl (hm.mem (by decide)) | exact .inr fun _ => rfl | with_reducible first | exact Kept.refl _ | assumption | intro _ | apply State.onGuard_kept | exact rfl)

theorem State.stopLane_kept {t : Nat} {r0 s : State} (hk : Kept pp r0 s) (hm : Sub [.rings, .est, .latch, .guard, .events, .recs, .load] pp) : Kept pp r0 (State.stopLane s t) := by
  unfold State.stopLane
  repeat' (first | exact sub_of rfl hm | exact .inl (hm.mem (by decide)) | exact .inr fun _ => rfl | with_reducible first | assumption | intro _ | apply State.onGuard_kept | apply State.hwBankAction_kept | exact rfl | apply ite_kept | split)

theorem execStopLaneTenant0_goes  {s : State} (hm : Sub [.rings, .est, .latch, .guard, .events, .recs, .load] pp) : Goes pp s (execStopLaneTenant0 s) := by
  unfold execStopLaneTenant0
  apply onlyIf_goes
  repeat' (first | exact sub_of rfl hm | with_reducible first | exact Kept.refl _ | assumption | intro _ | apply State.stopLane_kept | exact rfl)

theorem execStopLaneTenant_goes {tenant : Nat} {s : State} (hm : Sub [.rings, .est, .latch, .guard, .events, .recs, .load] pp) : Goes pp s (execStopLaneTenant tenant s) := by
  unfold execStopLaneTenant
  apply onlyIf_goes
  repeat' (first | exact sub_of rfl hm | with_reducible first | exact Kept.refl _ | assumption | intro _ | apply State.stopLane_kept | exact rfl)

theorem execComparatorCrossing_goes {fpi : Nat} {hi : Bool} {heldNs : Nat} {s : State} (hm : Sub [.rings, .est, .latch, .guard, .events, .recs, .load] pp) : Goes pp s (execComparatorCrossing fpi hi heldNs s) := by
  unfold execComparatorCrossing
  repeat' (first | apply next_goes | apply ite_goes)
  repeat' (first | exact sub_of rfl hm | with_reducible first | exact Kept.refl _ | assumption | intro _ | apply State.modFpi_kept | apply State.raise_kept | apply State.launchTrip_kept | apply State.ask_kept | apply State.tripStrings_kept | apply State.hwTake_kept | apply State.hwBankAction_kept | exact rfl | apply ite_kept | split)

theorem execComparatorRearm_goes {fpi : Nat} {s : State} (hm : Sub [.guard] pp) : Goes pp s (execComparatorRearm fpi s) := by
  unfold execComparatorRearm
  apply next_goes
  repeat' (first | exact sub_of rfl hm | with_reducible first | exact Kept.refl _ | assumption | intro _ | apply State.modFpi_kept | exact rfl)

theorem State.emergencyBank_kept {id cause : Nat} {r0 s : State} (hk : Kept pp r0 s) (hm : Sub [.mail, .mode, .rings, .est, .latch, .guard, .disp, .events, .load, .can] pp) : Kept pp r0 (State.emergencyBank s id cause) := by
  unfold State.emergencyBank
  repeat' (first | exact sub_of rfl hm | exact .inl (hm.mem (by decide)) | exact .inr fun _ => rfl | with_reducible first | assumption | intro _ | apply State.onGuard_kept | apply State.raise_kept | apply State.launchTrip_kept | apply State.sendStop_kept | apply State.contactorsOff_kept | apply State.tripStrings_kept | apply State.latchTripped_kept | exact rfl)

theorem State.lockString_kept {k id cause origin : Nat} {r0 s : State} (hk : Kept pp r0 s) (hm : Sub [.est] pp) : Kept pp r0 (State.lockString s k id cause origin) := by
  unfold State.lockString
  repeat' (first | exact sub_of rfl hm | with_reducible first | assumption | intro _ | apply State.modStr_kept | exact rfl | apply ite_kept | split)

theorem State.fewStrings_kept  {r0 s : State} (hk : Kept pp r0 s) (hm : Sub [.guard, .events] pp) : Kept pp r0 (State.fewStrings s) := by
  unfold State.fewStrings
  repeat' (first | exact sub_of rfl hm | with_reducible first | assumption | intro _ | apply State.raise_kept | apply State.ask_kept | exact rfl | apply ite_kept | split)

theorem State.emergencyString_kept {k cause : Nat} {r0 s : State} (hk : Kept pp r0 s) (hm : Sub [.rings, .est, .guard, .events] pp) : Kept pp r0 (State.emergencyString s k cause) := by
  unfold State.emergencyString
  repeat' (first | exact sub_of rfl hm | with_reducible first | assumption | intro _ | apply State.raise_kept | apply State.launchTrip_kept | apply State.stringOff_kept | apply State.fewStrings_kept | exact rfl)

theorem State.beginStringDisc_kept {ks : List Nat} {id cause : Nat} {lock : Bool} {r0 s : State} (hk : Kept pp r0 s) (hm : Sub [.guard, .can] pp) : Kept pp r0 (State.beginStringDisc s ks id cause lock) := by
  unfold State.beginStringDisc
  repeat' (first | exact sub_of rfl hm | exact .inl (hm.mem (by decide)) | exact .inr fun _ => rfl | with_reducible first | assumption | intro _ | apply State.onGuard_kept | apply State.sendZero_kept | exact rfl | apply ite_kept | split)

theorem State.derate_kept {k dir : Nat} {r0 s : State} (hk : Kept pp r0 s) (hm : Sub [.est] pp) : Kept pp r0 (State.derate s k dir) := by
  unfold State.derate
  repeat' (first | exact sub_of rfl hm | with_reducible first | assumption | intro _ | apply State.modStr_kept | exact rfl | apply ite_kept | split)

theorem State.ordinaryBank_kept {cause : Nat} {trips untrusted : Bool} {r0 s : State} (hk : Kept pp r0 s) (hm : Sub [.mail, .mode, .rings, .est, .latch, .guard, .disp, .events] pp) : Kept pp r0 (State.ordinaryBank s cause trips untrusted) := by
  unfold State.ordinaryBank
  repeat' (first | exact sub_of rfl hm | exact .inl (hm.mem (by decide)) | exact .inr fun _ => rfl | with_reducible first | assumption | intro _ | apply State.when_kept | apply State.onGuard_kept | apply State.launchTrip_kept | apply State.latchTripped_kept | exact rfl | apply ite_kept | split)

theorem State.logReq_kept {r : Req} {id : Nat} {r0 s : State} (hk : Kept pp r0 s) (hm : Sub [.events] pp) : Kept pp r0 (State.logReq s r id) := by
  unfold State.logReq
  repeat' (first | exact sub_of rfl hm | with_reducible first | assumption | intro _ | apply State.when_kept | apply State.raise_kept | exact rfl | apply ite_kept | split)

theorem State.act_kept  {r0 s : State} (hk : Kept pp r0 s) (hm : Sub [.mail, .mode, .rings, .est, .latch, .guard, .disp, .events, .recs, .load, .can] pp) : Kept pp r0 (State.act s) := by
  unfold State.act
  repeat' (first | exact sub_of rfl hm | exact .inl (hm.mem (by decide)) | exact .inr fun _ => rfl | with_reducible first | assumption | intro _ | apply State.when_kept | apply State.onGuard_kept | apply State.wake_kept | apply State.cycleId_kept | apply State.emergencyBank_kept | apply State.lockString_kept | apply State.fewStrings_kept | apply State.emergencyString_kept | apply State.beginStringDisc_kept | apply State.derate_kept | apply State.ordinaryBank_kept | apply State.logReq_kept | apply forEach_kept | apply foldl_kept | exact rfl | apply ite_kept | split)

theorem State.guardFault_kept {xor : Nat} {r0 s : State} (hk : Kept pp r0 s) (hm : Sub [.mail, .mode, .rings, .est, .latch, .guard, .disp, .events, .recs, .load] pp) : Kept pp r0 (State.guardFault s xor) := by
  unfold State.guardFault
  repeat' (first | exact sub_of rfl hm | exact .inl (hm.mem (by decide)) | exact .inr fun _ => rfl | with_reducible first | assumption | intro _ | apply State.onGuard_kept | apply State.raise_kept | apply State.wake_kept | apply State.launchTrip_kept | apply State.takeId_kept | apply State.contactorsOff_kept | apply State.tripStrings_kept | apply State.latchTripped_kept | exact rfl | apply ite_kept | split)

theorem execGuardWatchdog_goes  {s : State} (hm : Sub [.mail, .mode, .rings, .est, .latch, .guard, .disp, .events, .recs, .load] pp) : Goes pp s (execGuardWatchdog s) := by
  unfold execGuardWatchdog
  apply onlyIf_goes
  repeat' (first | exact sub_of rfl hm | with_reducible first | exact Kept.refl _ | assumption | intro _ | apply State.guardFault_kept | exact rfl)

theorem State.heartbeat_kept  {r0 s : State} (hk : Kept pp r0 s) (hm : Sub [.sys, .sched, .guard, .upd] pp) : Kept pp r0 (State.heartbeat s) := by
  unfold State.heartbeat
  repeat' (first | exact sub_of rfl hm | exact .inl (hm.mem (by decide)) | exact .inr fun _ => rfl | with_reducible first | assumption | intro _ | apply State.onGuard_kept | apply State.onSys_kept | apply State.onSched_kept | apply State.onUpd_kept | apply State.causeGone_kept | exact rfl)

theorem execHeartbeat_goes  {s : State} (hm : Sub [.sys, .sched, .guard, .upd] pp) : Goes pp s (execHeartbeat s) := by
  unfold execHeartbeat
  apply onlyIf_goes
  repeat' (first | exact sub_of rfl hm | with_reducible first | exact Kept.refl _ | assumption | intro _ | apply State.heartbeat_kept | exact rfl)

theorem execHeartbeatTimeout_goes  {s : State} (hm : Sub [.guard] pp) : Goes pp s (execHeartbeatTimeout s) := by
  unfold execHeartbeatTimeout
  apply onlyIf_goes
  repeat' (first | exact sub_of rfl hm | exact .inl (hm.mem (by decide)) | exact .inr fun _ => rfl | with_reducible first | exact Kept.refl _ | assumption | intro _ | apply State.onGuard_kept | apply State.ask_kept | exact rfl)

theorem State.onSeq_kept {f : SeqRun → SeqRun} {r0 s : State} (hk : Kept pp r0 s) (hm : Sub [.guard] pp) : Kept pp r0 (State.onSeq s f) := by
  unfold State.onSeq
  repeat' (first | exact sub_of rfl hm | exact .inl (hm.mem (by decide)) | exact .inr fun _ => rfl | with_reducible first | assumption | intro _ | apply State.onGuard_kept | exact rfl)

theorem State.nextStep_kept  {r0 s : State} (hk : Kept pp r0 s) (hm : Sub [.guard] pp) : Kept pp r0 (State.nextStep s) := by
  unfold State.nextStep
  repeat' (first | exact sub_of rfl hm | with_reducible first | assumption | intro _ | apply State.onSeq_kept | exact rfl)

theorem State.putRun_kept {r : StrRun} {next : List StrRun} {r0 s : State} (hk : Kept pp r0 s) (hm : Sub [.guard] pp) : Kept pp r0 (State.putRun s r next) := by
  unfold State.putRun
  repeat' (first | exact sub_of rfl hm | with_reducible first | assumption | intro _ | apply State.onSeq_kept | exact rfl | apply ite_kept | split)

theorem State.leaveOut_kept {vref k : Nat} {r0 s : State} (hk : Kept pp r0 s) (hm : Sub [.est, .events] pp) : Kept pp r0 (State.leaveOut s vref k) := by
  unfold State.leaveOut
  repeat' (first | exact sub_of rfl hm | with_reducible first | assumption | intro _ | apply State.modStr_kept | apply State.raise_kept | exact rfl)

theorem State.failRun_kept {r : StrRun} {r0 s : State} (hk : Kept pp r0 s) (hm : Sub [.rings, .est, .guard, .events] pp) : Kept pp r0 (State.failRun s r) := by
  unfold State.failRun
  repeat' (first | exact sub_of rfl hm | with_reducible first | assumption | intro _ | apply State.openString_kept | apply State.onSeq_kept | apply State.putRun_kept | apply State.leaveOut_kept | exact rfl)

theorem State.doneRun_kept {r : StrRun} {r0 s : State} (hk : Kept pp r0 s) (hm : Sub [.est, .guard, .events, .recs] pp) : Kept pp r0 (State.doneRun s r) := by
  unfold State.doneRun
  repeat' (first | exact sub_of rfl hm | with_reducible first | assumption | intro _ | apply State.modStr_kept | apply State.count_kept | apply State.onSeq_kept | apply State.putRun_kept | exact rfl)

theorem State.nextRunStep_kept {r : StrRun} {r0 s : State} (hk : Kept pp r0 s) (hm : Sub [.guard] pp) : Kept pp r0 (State.nextRunStep s r) := by
  unfold State.nextRunStep
  repeat' (first | exact sub_of rfl hm | with_reducible first | assumption | intro _ | apply State.putRun_kept | exact rfl)

theorem State.barred_kept {cause : Nat} {r0 s : State} (hk : Kept pp r0 s) (hm : Sub [.events] pp) : Kept pp r0 (State.barred s cause) := by
  unfold State.barred
  repeat' (first | exact sub_of rfl hm | with_reducible first | assumption | intro _ | apply State.when_kept | apply State.raise_kept | exact rfl)

theorem State.closeRole_kept {t : SeqTable} {role : Nat} {r0 s : State} (hk : Kept pp r0 s) (hm : Sub [.guard, .events, .recs, .load] pp) : Kept pp r0 (State.closeRole s t role) := by
  unfold State.closeRole
  repeat' (first | exact sub_of rfl hm | exact .inl (hm.mem (by decide)) | exact .inr fun _ => rfl | with_reducible first | assumption | intro _ | apply State.onGuard_kept | apply State.count_kept | apply State.guardSet_kept | exact rfl | apply ite_kept | split)

theorem State.openRole_kept {t : SeqTable} {role : Nat} {r0 s : State} (hk : Kept pp r0 s) (hm : Sub [.guard, .load] pp) : Kept pp r0 (State.openRole s t role) := by
  unfold State.openRole
  repeat' (first | exact sub_of rfl hm | exact .inl (hm.mem (by decide)) | exact .inr fun _ => rfl | with_reducible first | assumption | intro _ | apply State.when_kept | apply State.onGuard_kept | apply State.guardSet_kept | apply State.noteOpened_kept | exact rfl)

theorem State.actRun_kept {q : SeqRun} {r : StrRun} {r0 s : State} (hk : Kept pp r0 s) (hm : Sub [.rings, .est, .guard, .events, .recs, .load, .can] pp) : Kept pp r0 (State.actRun s q r) := by
  unfold State.actRun
  dsimp only
  repeat' (first | exact sub_of rfl hm | with_reducible first | assumption | intro _ | apply State.modStr_kept | apply State.sendZero_kept | apply State.sendRelease_kept | apply State.sendSwitch_kept | apply State.putRun_kept | apply State.failRun_kept | apply State.doneRun_kept | apply State.barred_kept | apply State.closeRole_kept | apply State.openRole_kept | exact rfl | apply ite_kept | split)

theorem State.cycleRun_kept {r : StrRun} {r0 s : State} (hk : Kept pp r0 s) (hm : Sub [.rings, .est, .guard, .events, .recs, .load, .can] pp) : Kept pp r0 (State.cycleRun s r) := by
  unfold State.cycleRun
  repeat' (first | exact sub_of rfl hm | with_reducible first | assumption | intro _ | apply State.failRun_kept | apply State.nextRunStep_kept | apply State.actRun_kept | exact rfl | apply ite_kept | split)

theorem State.cycleRuns_kept  {r0 s : State} (hk : Kept pp r0 s) (hm : Sub [.rings, .est, .guard, .events, .recs, .load, .can] pp) : Kept pp r0 (State.cycleRuns s) := by
  unfold State.cycleRuns
  repeat' (first | exact sub_of rfl hm | with_reducible first | assumption | intro _ | apply State.cycleRun_kept | apply forEach_kept | exact rfl | apply ite_kept | split)

theorem State.failSeq_kept {q : SeqRun} {cause : Nat} {r0 s : State} (hk : Kept pp r0 s) (hm : Sub [.latch, .guard, .events, .recs, .load] pp) : Kept pp r0 (State.failSeq s q cause) := by
  unfold State.failSeq
  repeat' (first | exact sub_of rfl hm | exact .inl (hm.mem (by decide)) | exact .inr fun _ => rfl | with_reducible first | assumption | intro _ | apply State.onGuard_kept | apply State.raise_kept | apply State.guardSet_kept | apply State.cycleId_kept | apply State.nextStep_kept | exact rfl | apply ite_kept | split)

theorem State.beginJoin_kept {ks : List Nat} {vref : Nat} {r0 s : State} (hk : Kept pp r0 s) (hm : Sub [.est, .guard, .events] pp) : Kept pp r0 (State.beginJoin s ks vref) := by
  unfold State.beginJoin
  repeat' (first | exact sub_of rfl hm | with_reducible first | assumption | intro _ | apply State.onSeq_kept | apply State.leaveOut_kept | apply forEach_kept | exact rfl)

theorem State.actStrings_kept  {r0 s : State} (hk : Kept pp r0 s) (hm : Sub [.est, .guard, .events] pp) : Kept pp r0 (State.actStrings s) := by
  unfold State.actStrings
  repeat' (first | exact sub_of rfl hm | with_reducible first | assumption | intro _ | apply State.modStr_kept | apply State.beginJoin_kept | apply forEach_kept | exact rfl | apply ite_kept | split)

theorem State.actClose_kept {q : SeqRun} {role : Nat} {r0 s : State} (hk : Kept pp r0 s) (hm : Sub [.latch, .guard, .events, .recs, .load] pp) : Kept pp r0 (State.actClose s q role) := by
  unfold State.actClose
  repeat' (first | exact sub_of rfl hm | with_reducible first | assumption | intro _ | apply State.onSeq_kept | apply State.barred_kept | apply State.closeRole_kept | apply State.failSeq_kept | exact rfl | apply ite_kept | split)

theorem State.actOpen_kept {q : SeqRun} {role : Nat} {r0 s : State} (hk : Kept pp r0 s) (hm : Sub [.guard, .load] pp) : Kept pp r0 (State.actOpen s q role) := by
  unfold State.actOpen
  repeat' (first | exact sub_of rfl hm | with_reducible first | assumption | intro _ | apply State.onSeq_kept | apply State.openRole_kept | exact rfl)

theorem State.endSeq_kept {q : SeqRun} {r0 s : State} (hk : Kept pp r0 s) (hm : Sub [.mail, .mode, .rings, .est, .latch, .guard, .disp, .events, .recs] pp) : Kept pp r0 (State.endSeq s q) := by
  unfold State.endSeq
  repeat' (first | exact sub_of rfl hm | exact .inl (hm.mem (by decide)) | exact .inr fun _ => rfl | with_reducible first | assumption | intro _ | apply State.onGuard_kept | apply State.raise_kept | apply State.setMode_kept | apply State.followRings_kept | apply State.count_kept | apply State.latchTripped_kept | exact rfl | apply ite_kept | split)

theorem State.actStep_kept {q : SeqRun} {r0 s : State} (hk : Kept pp r0 s) (hm : Sub [.mail, .mode, .rings, .est, .latch, .guard, .disp, .events, .recs, .load, .can] pp) : Kept pp r0 (State.actStep s q) := by
  unfold State.actStep
  dsimp only
  repeat' (first | exact sub_of rfl hm | exact .inl (hm.mem (by decide)) | exact .inr fun _ => rfl | with_reducible first | assumption | intro _ | apply State.onGuard_kept | apply State.sendZero_kept | apply State.sendRelease_kept | apply State.openString_kept | apply State.onSeq_kept | apply State.actStrings_kept | apply State.actClose_kept | apply State.actOpen_kept | apply State.endSeq_kept | apply forEach_kept | exact rfl | apply ite_kept | split)

theorem State.stringsRun_kept {q : SeqRun} {r0 s : State} (hk : Kept pp r0 s) (hm : Sub [.latch, .guard, .events, .recs, .load] pp) : Kept pp r0 (State.stringsRun s q) := by
  unfold State.stringsRun
  repeat' (first | exact sub_of rfl hm | with_reducible first | assumption | intro _ | apply State.raise_kept | apply State.onSeq_kept | apply State.failSeq_kept | exact rfl | apply ite_kept | split)

theorem State.preLimit_kept  {r0 s : State} (hk : Kept pp r0 s) (hm : Sub [.latch, .guard, .events, .recs, .load] pp) : Kept pp r0 (State.preLimit s) := by
  unfold State.preLimit
  repeat' (first | exact sub_of rfl hm | with_reducible first | assumption | intro _ | apply State.raise_kept | apply State.openRole_kept | apply State.failSeq_kept | exact rfl | apply ite_kept | split)

theorem State.endJoin_kept {q : SeqRun} {r0 s : State} (hk : Kept pp r0 s) (hm : Sub [.guard, .events] pp) : Kept pp r0 (State.endJoin s q) := by
  unfold State.endJoin
  repeat' (first | exact sub_of rfl hm | exact .inl (hm.mem (by decide)) | exact .inr fun _ => rfl | with_reducible first | assumption | intro _ | apply State.when_kept | apply State.onGuard_kept | apply State.raise_kept | exact rfl)

theorem State.noteHalf_kept  {r0 s : State} (hk : Kept pp r0 s) (hm : Sub [.guard] pp) : Kept pp r0 (State.noteHalf s) := by
  unfold State.noteHalf
  repeat' (first | exact sub_of rfl hm | with_reducible first | assumption | intro _ | apply State.onSeq_kept | exact rfl)

theorem State.seqCycle_kept  {r0 s : State} (hk : Kept pp r0 s) (hm : Sub [.mail, .mode, .rings, .est, .latch, .guard, .disp, .events, .recs, .load, .can] pp) : Kept pp r0 (State.seqCycle s) := by
  unfold State.seqCycle
  dsimp only
  repeat' (first | exact sub_of rfl hm | with_reducible first | assumption | intro _ | apply State.nextStep_kept | apply State.cycleRuns_kept | apply State.actStep_kept | apply State.stringsRun_kept | apply State.endJoin_kept | apply State.noteHalf_kept | exact rfl | apply ite_kept | split)

theorem State.joinStrings_kept {ks : List Nat} {cause : Nat} {r0 s : State} (hk : Kept pp r0 s) (hm : Sub [.est, .guard, .events] pp) : Kept pp r0 (State.joinStrings s ks cause) := by
  unfold State.joinStrings
  repeat' (first | exact sub_of rfl hm | exact .inl (hm.mem (by decide)) | exact .inr fun _ => rfl | with_reducible first | assumption | intro _ | apply State.onGuard_kept | apply State.beginJoin_kept | exact rfl | apply ite_kept | split)

theorem State.openDisc_kept {ks : List Nat} {at_ : Nat} {r0 s : State} (hk : Kept pp r0 s) (hm : Sub [.rings, .est, .guard, .events, .can] pp) : Kept pp r0 (State.openDisc s ks at_) := by
  unfold State.openDisc
  repeat' (first | exact sub_of rfl hm | exact .inl (hm.mem (by decide)) | exact .inr fun _ => rfl | with_reducible first | assumption | intro _ | apply State.when_kept | apply State.onGuard_kept | apply State.raise_kept | apply State.sendRelease_kept | apply State.openString_kept | apply forEach_kept | exact rfl)

theorem State.discCycle_kept  {r0 s : State} (hk : Kept pp r0 s) (hm : Sub [.rings, .est, .guard, .events, .can] pp) : Kept pp r0 (State.discCycle s) := by
  unfold State.discCycle
  repeat' (first | exact sub_of rfl hm | with_reducible first | assumption | intro _ | apply State.openDisc_kept | exact rfl | apply ite_kept | split)

theorem State.askSeqTrip_kept {section_ step cond : Nat} {r0 s : State} (hk : Kept pp r0 s) (hm : Sub [.guard] pp) : Kept pp r0 (State.askSeqTrip s section_ step cond) := by
  unfold State.askSeqTrip
  repeat' (first | exact sub_of rfl hm | with_reducible first | assumption | intro _ | apply State.ask_kept | exact rfl)

theorem State.bankTimeout_kept {q : SeqRun} {r0 s : State} (hk : Kept pp r0 s) (hm : Sub [.latch, .guard, .events, .recs, .load] pp) : Kept pp r0 (State.bankTimeout s q) := by
  unfold State.bankTimeout
  repeat' (first | exact sub_of rfl hm | with_reducible first | assumption | intro _ | apply State.nextStep_kept | apply State.failSeq_kept | apply State.askSeqTrip_kept | exact rfl | apply ite_kept | split)

theorem State.runTimeout_kept {q : SeqRun} {r : StrRun} {r0 s : State} (hk : Kept pp r0 s) (hm : Sub [.rings, .est, .guard, .events] pp) : Kept pp r0 (State.runTimeout s q r) := by
  unfold State.runTimeout
  repeat' (first | exact sub_of rfl hm | with_reducible first | assumption | intro _ | apply State.failRun_kept | apply State.nextRunStep_kept | apply State.askSeqTrip_kept | exact rfl | apply ite_kept | split)

theorem execStepTimeout_goes {port : Option Nat} {s : State} (hm : Sub [.rings, .est, .latch, .guard, .events, .recs, .load] pp) : Goes pp s (execStepTimeout port s) := by
  unfold execStepTimeout
  repeat' (first | apply onlyIf_goes | apply next_goes | split)
  repeat' (first | exact sub_of rfl hm | with_reducible first | exact Kept.refl _ | assumption | intro _ | apply State.bankTimeout_kept | apply State.runTimeout_kept | exact rfl | apply ite_kept | split)

theorem execPrechargeHalfCheck_goes  {s : State} (hm : Sub [.guard] pp) : Goes pp s (execPrechargeHalfCheck s) := by
  unfold execPrechargeHalfCheck
  repeat' (first | apply onlyIf_goes | apply next_goes | split)
  repeat' (first | exact sub_of rfl hm | with_reducible first | exact Kept.refl _ | assumption | intro _ | apply State.askSeqTrip_kept | exact rfl | apply ite_kept | split)

theorem execContactorOpenDeadline_goes  {s : State} (hm : Sub [.guard, .load] pp) : Goes pp s (execContactorOpenDeadline s) := by
  unfold execContactorOpenDeadline
  repeat' (first | apply onlyIf_goes | apply next_goes | split)
  repeat' (first | exact sub_of rfl hm | with_reducible first | exact Kept.refl _ | assumption | intro _ | apply State.when_kept | apply State.guardSet_kept | apply State.noteOpened_kept | apply State.nextStep_kept | exact rfl | apply ite_kept | split)

theorem State.onConf_kept {f : Conf → Conf} {r0 s : State} (hk : Kept pp r0 s) (hm : Sub [.conf] pp) : Kept pp r0 (State.onConf s f) := by
  unfold State.onConf
  repeat' (first | exact sub_of rfl hm | exact .inl (hm.mem (by decide)) | exact .inr fun _ => rfl | with_reducible first | assumption | intro _ | apply State.onSys_kept | exact rfl)

theorem State.setTinConf_kept {n i v : Nat} {r0 s : State} (hk : Kept pp r0 s) (hm : Sub [.conf] pp) : Kept pp r0 (State.setTinConf s n i v) := by
  unfold State.setTinConf
  repeat' (first | exact sub_of rfl hm | with_reducible first | assumption | intro _ | apply State.onConf_kept | exact rfl)

theorem State.setFpiConf_kept {n i v : Nat} {r0 s : State} (hk : Kept pp r0 s) (hm : Sub [.conf] pp) : Kept pp r0 (State.setFpiConf s n i v) := by
  unfold State.setFpiConf
  repeat' (first | exact sub_of rfl hm | with_reducible first | assumption | intro _ | apply State.onConf_kept | exact rfl)

theorem State.applyConf_kept  {r0 s : State} (hk : Kept pp r0 s) (hm : Sub [.est, .guard, .disp, .recs, .can] pp) : Kept pp r0 (State.applyConf s) := by
  unfold State.applyConf
  try dsimp only
  repeat' (first | exact sub_of rfl hm | exact .inl (hm.mem (by decide)) | exact .inr fun _ => rfl | with_reducible first | exact Kept.refl _ | assumption | intro _ _ _ | intro _ _ | intro _ | apply ite_kept | apply State.modBal_kept | apply State.modTin_kept | apply State.modFpi_kept | apply State.modAlarm_kept | apply State.onGuard_kept | apply State.onRecs_kept | apply State.onEst_kept | apply State.onDisp_kept | apply forEach_kept | apply foldl_kept | exact rfl | split | exact (by assumption : Kept _ _ _).same rfl rfl rfl (fun p => by cases p <;> first | exact .inr rfl | exact .inl (hm.mem (by decide))) | exact (Kept.refl _).same rfl rfl rfl (fun p => by cases p <;> first | exact .inr rfl | exact .inl (hm.mem (by decide))))
  all_goals (try dsimp only)
  all_goals (first | exact sub_of rfl hm | exact .inl (hm.mem (by decide)) | exact .inr fun _ => rfl | exact rfl | exact ⟨rfl, rfl⟩ | exact ⟨rfl, rfl, rfl, rfl, rfl⟩ | exact ⟨rfl, rfl, rfl⟩ | (refine .inr fun _ => ?_; (repeat' split) <;> exact rfl) | exact hk.same rfl rfl rfl (fun p => by cases p <;> first | exact .inr rfl | exact .inl (hm.mem (by decide))) | exact (Kept.refl _).same rfl rfl rfl (fun p => by cases p <;> first | exact .inr rfl | exact .inl (hm.mem (by decide))) | exact (by assumption : Kept _ _ _).same rfl rfl rfl (fun p => by cases p <;> first | exact .inr rfl | exact .inl (hm.mem (by decide))) | ((repeat' split) <;> first | exact rfl | exact ⟨rfl, rfl⟩ | exact ⟨rfl, rfl, rfl, rfl, rfl⟩ | exact ⟨rfl, rfl, rfl⟩))

theorem State.takeSettings_kept  {r0 s : State} (hk : Kept pp r0 s) (hm : Sub [.est, .guard, .disp, .recs, .can] pp) : Kept pp r0 (State.takeSettings s) := by
  unfold State.takeSettings
  repeat' (first | exact sub_of rfl hm | with_reducible first | assumption | intro _ | apply State.applyConf_kept | exact rfl | apply ite_kept | split)

theorem nvWrite_goes {rq : Rq} {op : Nat} {w : Who} {modes : List Mode} {checks : State → List (Bool × Refuse)}
    {effect : State → State} {s : State} (he : Kept pp s (effect s)) (hm : Sub [.mail, .store] pp) :
    Goes pp s (nvWrite rq op w modes checks effect s) :=
  next_goes (mailbox_kept (fun h => checked_kept (fun _ => State.okNv_kept he (sub_of rfl hm)) h (sub_of rfl hm)) (Kept.refl s)
    (sub_of rfl hm))

theorem readCmd_goes {rq : Rq} {op : Nat} {w : Who} {checks : State → List (Bool × Refuse)} {answer : State → List Byte} {s : State} (hm : Sub [.mail] pp) : Goes pp s (readCmd rq op w checks answer s) := by
  unfold readCmd
  apply next_goes
  repeat' (first | exact sub_of rfl hm | with_reducible first | exact Kept.refl _ | assumption | intro _ | apply State.ok_kept | apply mailbox_kept | apply checked_kept | exact rfl)

theorem plainCmd_goes {rq : Rq} {op : Nat} {w : Who} {modes : List Mode} {checks : State → List (Bool × Refuse)}
    {effect : State → State} {s : State} (he : Kept pp s (effect s)) (hm : Sub [.mail] pp) :
    Goes pp s (plainCmd rq op w modes checks effect s) :=
  next_goes (mailbox_kept (fun h => checked_kept (fun _ => State.ok_kept he hm) h hm) (Kept.refl s) hm)

theorem State.buildStrings_kept {port : Nat} {r0 s : State} (hk : Kept pp r0 s) (hm : Sub [.est] pp) : Kept pp r0 (State.buildStrings s port) := by
  unfold State.buildStrings
  try dsimp only
  repeat' (first | exact sub_of rfl hm | exact .inl (hm.mem (by decide)) | exact .inr fun _ => rfl | with_reducible first | exact Kept.refl _ | assumption | intro _ _ _ | intro _ _ | intro _ | apply ite_kept | apply State.modStr_kept | apply State.onEst_kept | apply forEach_kept | apply foldl_kept | exact rfl | split | exact (by assumption : Kept _ _ _).same rfl rfl rfl (fun p => by cases p <;> first | exact .inr rfl | exact .inl (hm.mem (by decide))) | exact (Kept.refl _).same rfl rfl rfl (fun p => by cases p <;> first | exact .inr rfl | exact .inl (hm.mem (by decide))))
  all_goals (try dsimp only)
  all_goals (first | exact sub_of rfl hm | exact .inl (hm.mem (by decide)) | exact .inr fun _ => rfl | exact rfl | exact ⟨rfl, rfl⟩ | exact ⟨rfl, rfl, rfl, rfl, rfl⟩ | exact ⟨rfl, rfl, rfl⟩ | (refine .inr fun _ => ?_; (repeat' split) <;> exact rfl) | exact hk.same rfl rfl rfl (fun p => by cases p <;> first | exact .inr rfl | exact .inl (hm.mem (by decide))) | exact (Kept.refl _).same rfl rfl rfl (fun p => by cases p <;> first | exact .inr rfl | exact .inl (hm.mem (by decide))) | exact (by assumption : Kept _ _ _).same rfl rfl rfl (fun p => by cases p <;> first | exact .inr rfl | exact .inl (hm.mem (by decide))) | ((repeat' split) <;> first | exact rfl | exact ⟨rfl, rfl⟩ | exact ⟨rfl, rfl, rfl, rfl, rfl⟩ | exact ⟨rfl, rfl, rfl⟩))

end Sys2Proof.Machine
end

