-- ==== Sys2Proof/Laws/KeptBalance.lean ====
section
/-! SUPPORT. Each operation and each meaning of Balance, Protection, Mailbox, Rings goes on and keeps the queue, the clock, canonical tables, and every part outside its list. -/
namespace Sys2Proof.Machine
open Sys2Proof

variable {pp : List Part}

theorem State.takePlan_kept {k : Nat} {ok : Bool} {pl : List Duty} {spread : Nat} {scaled : Bool} {r0 s : State} (hk : Kept pp r0 s) (hm : Sub [.est] pp) : Kept pp r0 (State.takePlan s k ok pl spread scaled) := by
  unfold State.takePlan
  repeat' (first | exact sub_of rfl hm | with_reducible first | assumption | intro _ | apply State.modStr_kept | apply State.modBal_kept | apply State.ok_kept | apply forEach_kept | exact rfl | apply ite_kept | split)

theorem execBalancingReplan_goes  {s : State} (hm : Sub [.est, .disp, .events] pp) : Goes pp s (execBalancingReplan s) := by
  unfold execBalancingReplan
  try dsimp only
  repeat' (first | apply onlyIf_goes | apply next_goes | apply done_goes | apply ite_goes)
  repeat' (first | exact sub_of rfl hm | exact .inl (hm.mem (by decide)) | exact .inr fun _ => rfl | with_reducible first | exact Kept.refl _ | assumption | intro _ _ _ | intro _ _ | intro _ | apply ite_kept | apply State.when_kept | apply State.onEst_kept | apply State.onDisp_kept | apply State.raise_kept | apply State.takePlan_kept | apply forEach_kept | apply foldl_kept | exact rfl | split | exact (by assumption : Kept _ _ _).same rfl rfl rfl (fun p => by cases p <;> first | exact .inr rfl | exact .inl (hm.mem (by decide))) | exact (Kept.refl _).same rfl rfl rfl (fun p => by cases p <;> first | exact .inr rfl | exact .inl (hm.mem (by decide))))
  all_goals (try dsimp only)
  all_goals (first | exact sub_of rfl hm | exact .inl (hm.mem (by decide)) | exact .inr fun _ => rfl | exact rfl | exact ⟨rfl, rfl⟩ | exact ⟨rfl, rfl, rfl, rfl, rfl⟩ | exact ⟨rfl, rfl, rfl⟩ | (refine .inr fun _ => ?_; (repeat' split) <;> exact rfl) | exact (Kept.refl _).same rfl rfl rfl (fun p => by cases p <;> first | exact .inr rfl | exact .inl (hm.mem (by decide))) | exact (Kept.refl _).same rfl rfl rfl (fun p => by cases p <;> first | exact .inr rfl | exact .inl (hm.mem (by decide))) | exact (by assumption : Kept _ _ _).same rfl rfl rfl (fun p => by cases p <;> first | exact .inr rfl | exact .inl (hm.mem (by decide))) | ((repeat' split) <;> first | exact rfl | exact ⟨rfl, rfl⟩ | exact ⟨rfl, rfl, rfl, rfl, rfl⟩ | exact ⟨rfl, rfl, rfl⟩))

theorem execBalancingQuiet_goes {port sid : Nat} {s : State} (hm : Sub [.rings, .est] pp) : Goes pp s (execBalancingQuiet port sid s) := by
  unfold execBalancingQuiet
  apply onlyIf_goes
  repeat' (first | exact sub_of rfl hm | with_reducible first | exact Kept.refl _ | assumption | intro _ | apply State.modStr_kept | apply State.stopNode_kept | apply forEach_kept | exact rfl)

theorem execBalancingMismatch_goes {port pos : Nat} {s : State} (hm : Sub [.rings, .est, .events] pp) : Goes pp s (execBalancingMismatch port pos s) := by
  unfold execBalancingMismatch
  repeat' (first | apply onlyIf_goes | split)
  repeat' (first | exact sub_of rfl hm | with_reducible first | exact Kept.refl _ | assumption | intro _ | apply State.modBal_kept | apply State.raise_kept | apply State.stopNode_kept | exact rfl | apply ite_kept | split)

theorem execBalancingExclusionEnd_goes {port pos : Nat} {s : State} (hm : Sub [.est] pp) : Goes pp s (execBalancingExclusionEnd port pos s) := by
  unfold execBalancingExclusionEnd
  apply onlyIf_goes
  repeat' (first | exact sub_of rfl hm | with_reducible first | exact Kept.refl _ | assumption | intro _ | apply State.modBal_kept | exact rfl)

theorem execSensorRestored_goes {port pos input : Nat} {s : State} (hm : Sub [.est, .events] pp) : Goes pp s (execSensorRestored port pos input s) := by
  unfold execSensorRestored
  repeat' (first | apply onlyIf_goes | split)
  repeat' (first | exact sub_of rfl hm | with_reducible first | exact Kept.refl _ | assumption | intro _ | apply State.modTemp_kept | apply State.raise_kept | exact rfl | apply ite_kept | split)

theorem State.tinReading_kept {input : Nat} {c : Int} {r0 s : State} (hk : Kept pp r0 s) (hm : Sub [.est, .events] pp) : Kept pp r0 (State.tinReading s input c) := by
  unfold State.tinReading
  repeat' (first | exact sub_of rfl hm | with_reducible first | assumption | intro _ | apply State.modTin_kept | apply State.raise_kept | apply forEach_kept | exact rfl)

theorem execTinConversion_goes {input a b : Nat} {s : State} (hm : Sub [.est, .events] pp) : Goes pp s (execTinConversion input a b s) := by
  unfold execTinConversion
  repeat' (first | apply onlyIf_goes | apply ite_goes)
  repeat' (first | exact sub_of rfl hm | with_reducible first | exact Kept.refl _ | assumption | intro _ | apply State.modTin_kept | apply State.tinReading_kept | exact rfl | apply ite_kept | split)

theorem execTinFault_goes {input : Nat} {s : State} (hm : Sub [.est, .events] pp) : Goes pp s (execTinFault input s) := by
  unfold execTinFault
  apply onlyIf_goes
  repeat' (first | exact sub_of rfl hm | with_reducible first | exact Kept.refl _ | assumption | intro _ | apply State.modTin_kept | apply State.raise_kept | exact rfl)

theorem execTinRecovered_goes {input : Nat} {s : State} (hm : Sub [.est, .events] pp) : Goes pp s (execTinRecovered input s) := by
  unfold execTinRecovered
  repeat' (first | apply onlyIf_goes | apply next_goes)
  repeat' (first | exact sub_of rfl hm | with_reducible first | exact Kept.refl _ | assumption | intro _ | apply State.modTin_kept | apply State.tinReading_kept | exact rfl)

theorem State.fallback_kept {d : Nat} {t : Int} {on : Bool} {r0 s : State} (hk : Kept pp r0 s) (hm : Sub [.est, .events] pp) : Kept pp r0 (State.fallback s d t on) := by
  unfold State.fallback
  try dsimp only
  repeat' (first | exact sub_of rfl hm | exact .inl (hm.mem (by decide)) | exact .inr fun _ => rfl | with_reducible first | exact Kept.refl _ | assumption | intro _ _ _ | intro _ _ | intro _ | apply ite_kept | apply State.when_kept | apply State.onEst_kept | apply State.raise_kept | apply foldl_kept | exact rfl | split | exact (by assumption : Kept _ _ _).same rfl rfl rfl (fun p => by cases p <;> first | exact .inr rfl | exact .inl (hm.mem (by decide))) | exact (Kept.refl _).same rfl rfl rfl (fun p => by cases p <;> first | exact .inr rfl | exact .inl (hm.mem (by decide))))
  all_goals (try dsimp only)
  all_goals (first | exact sub_of rfl hm | exact .inl (hm.mem (by decide)) | exact .inr fun _ => rfl | exact rfl | exact ⟨rfl, rfl⟩ | exact ⟨rfl, rfl, rfl, rfl, rfl⟩ | exact ⟨rfl, rfl, rfl⟩ | (refine .inr fun _ => ?_; (repeat' split) <;> exact rfl) | exact hk.same rfl rfl rfl (fun p => by cases p <;> first | exact .inr rfl | exact .inl (hm.mem (by decide))) | exact (Kept.refl _).same rfl rfl rfl (fun p => by cases p <;> first | exact .inr rfl | exact .inl (hm.mem (by decide))) | exact (by assumption : Kept _ _ _).same rfl rfl rfl (fun p => by cases p <;> first | exact .inr rfl | exact .inl (hm.mem (by decide))) | ((repeat' split) <;> first | exact rfl | exact ⟨rfl, rfl⟩ | exact ⟨rfl, rfl, rfl, rfl, rfl⟩ | exact ⟨rfl, rfl, rfl⟩))

theorem execCompensationUpdate_goes {tRef tOsc : Int} {s : State} (hm : Sub [.beam, .est, .events] pp) : Goes pp s (execCompensationUpdate tRef tOsc s) := by
  unfold execCompensationUpdate
  repeat' (first | apply next_goes | apply ite_goes)
  repeat' (first | exact sub_of rfl hm | with_reducible first | exact Kept.refl _ | assumption | intro _ | apply State.onBeam_kept | apply State.fallback_kept | exact rfl | apply ite_kept | split)
  all_goals first | exact sub_of rfl hm | exact .inl (hm.mem (by decide)) | exact .inr fun _ => rfl | exact rfl | exact ⟨rfl, rfl⟩ | exact ⟨rfl, rfl, rfl, rfl, rfl⟩ | exact ⟨rfl, rfl, rfl⟩ | (refine .inr fun _ => ?_; (repeat' split) <;> exact rfl) | exact (Kept.refl _).same rfl rfl rfl (fun p => by cases p <;> first | exact .inr rfl | exact .inl (hm.mem (by decide))) | (repeat' split) <;> first | exact rfl | exact ⟨rfl, rfl⟩ | exact ⟨rfl, rfl, rfl, rfl, rfl⟩ | exact ⟨rfl, rfl, rfl⟩

theorem State.takeInputs_kept {convs : List Int} {r0 s : State} (hk : Kept pp r0 s) (hm : Sub [.guard] pp) : Kept pp r0 (State.takeInputs s convs) := by
  unfold State.takeInputs
  repeat' (first | exact sub_of rfl hm | exact .inl (hm.mem (by decide)) | exact .inr fun _ => rfl | with_reducible first | assumption | intro _ | apply State.modFpi_kept | apply State.onGuard_kept | apply forEach_kept | exact rfl | apply ite_kept | split)

theorem State.timeLevel_kept {k level : Nat} {r0 s : State} (hk : Kept pp r0 s) (hm : Sub [.est] pp) : Kept pp r0 (State.timeLevel s k level) := by
  unfold State.timeLevel
  repeat' (first | exact sub_of rfl hm | with_reducible first | assumption | intro _ | apply State.modStr_kept | exact rfl | apply ite_kept | split)

theorem State.factors_kept {k : Nat} {r0 s : State} (hk : Kept pp r0 s) (hm : Sub [.est] pp) : Kept pp r0 (State.factors s k) := by
  unfold State.factors
  repeat' (first | exact sub_of rfl hm | with_reducible first | assumption | intro _ | apply State.modStr_kept | exact rfl | apply ite_kept | split)

theorem State.substTimers_kept {k : Nat} {r0 s : State} (hk : Kept pp r0 s) (hm : Sub [.guard] pp) : Kept pp r0 (State.substTimers s k) := by
  unfold State.substTimers
  repeat' (first | exact sub_of rfl hm | exact .inl (hm.mem (by decide)) | exact .inr fun _ => rfl | with_reducible first | assumption | intro _ | apply State.onGuard_kept | apply forEach_kept | exact rfl | apply ite_kept | split)

theorem State.seeOpen_kept {k : Nat} {r0 s : State} (hk : Kept pp r0 s) (hm : Sub [.est] pp) : Kept pp r0 (State.seeOpen s k) := by
  unfold State.seeOpen
  repeat' (first | exact sub_of rfl hm | with_reducible first | assumption | intro _ | apply State.modStr_kept | exact rfl | apply ite_kept | split)

theorem State.checkString_kept {k : Nat} {r0 s : State} (hk : Kept pp r0 s) (hm : Sub [.est, .guard] pp) : Kept pp r0 (State.checkString s k) := by
  unfold State.checkString
  repeat' (first | exact sub_of rfl hm | with_reducible first | assumption | intro _ | apply State.timeLevel_kept | apply State.factors_kept | apply State.substTimers_kept | apply State.seeOpen_kept | apply forEach_kept | exact rfl)

theorem State.cross_kept {k level : Nat} {r0 s : State} (hk : Kept pp r0 s) (hm : Sub [.est, .guard] pp) : Kept pp r0 (State.cross s k level) := by
  unfold State.cross
  repeat' (first | exact sub_of rfl hm | with_reducible first | assumption | intro _ | apply State.modStr_kept | apply State.ask_kept | exact rfl)

theorem execLimitLevelCrossed_goes {port sid level : Nat} {s : State} (hm : Sub [.est, .guard] pp) : Goes pp s (execLimitLevelCrossed port sid level s) := by
  unfold execLimitLevelCrossed
  apply onlyIf_goes
  repeat' (first | exact sub_of rfl hm | with_reducible first | exact Kept.refl _ | assumption | intro _ | apply State.when_kept | apply State.cross_kept | exact rfl)

theorem execNodeLoss_goes {port pos : Nat} {s : State} (hm : Sub [.guard] pp) : Goes pp s (execNodeLoss port pos s) := by
  unfold execNodeLoss
  dsimp only
  repeat' (first | apply onlyIf_goes | apply next_goes | apply ite_goes | split)
  repeat' (first | exact sub_of rfl hm | with_reducible first | exact Kept.refl _ | assumption | intro _ | apply State.ask_kept | exact rfl | apply ite_kept | split)

theorem State.watchString_kept {k : Nat} {r0 s : State} (hk : Kept pp r0 s) (hm : Sub [.guard] pp) : Kept pp r0 (State.watchString s k) := by
  unfold State.watchString
  repeat' (first | exact sub_of rfl hm | exact .inl (hm.mem (by decide)) | exact .inr fun _ => rfl | with_reducible first | assumption | intro _ | apply State.onGuard_kept | exact rfl | apply ite_kept | split)

theorem State.weldsMet_kept  {r0 s : State} (hk : Kept pp r0 s) (hm : Sub [.guard] pp) : Kept pp r0 (State.weldsMet s) := by
  unfold State.weldsMet
  repeat' (first | exact sub_of rfl hm | exact .inl (hm.mem (by decide)) | exact .inr fun _ => rfl | with_reducible first | assumption | intro _ | apply State.when_kept | apply State.onGuard_kept | apply State.watchString_kept | apply forEach_kept | exact rfl | apply ite_kept | split)

theorem execWeldCheck_goes {port sid : Nat} {s : State} (hm : Sub [.est, .guard] pp) : Goes pp s (execWeldCheck port sid s) := by
  unfold execWeldCheck
  dsimp only
  repeat' (first | apply onlyIf_goes | apply next_goes | apply ite_goes | split)
  repeat' (first | exact sub_of rfl hm | exact .inl (hm.mem (by decide)) | exact .inr fun _ => rfl | with_reducible first | exact Kept.refl _ | assumption | intro _ | apply State.modStr_kept | apply State.onGuard_kept | apply State.ask_kept | exact rfl | apply ite_kept | split)

theorem State.clearTrip_kept  {r0 s : State} (hk : Kept pp r0 s) (hm : Sub [.mail, .mode, .rings, .est, .latch, .guard, .disp, .events] pp) : Kept pp r0 (State.clearTrip s) := by
  unfold State.clearTrip
  repeat' (first | exact sub_of rfl hm | exact .inl (hm.mem (by decide)) | exact .inr fun _ => rfl | with_reducible first | assumption | intro _ | apply State.modFpi_kept | apply State.onGuard_kept | apply State.raise_kept | apply State.enterMode_kept | apply forEach_kept | exact rfl)

theorem State.clearString_kept {k : Nat} {r0 s : State} (hk : Kept pp r0 s) (hm : Sub [.est, .guard, .events] pp) : Kept pp r0 (State.clearString s k) := by
  unfold State.clearString
  repeat' (first | exact sub_of rfl hm | exact .inl (hm.mem (by decide)) | exact .inr fun _ => rfl | with_reducible first | assumption | intro _ | apply State.when_kept | apply State.modStr_kept | apply State.modFpi_kept | apply State.onGuard_kept | apply State.raise_kept | apply State.joinStrings_kept | apply forEach_kept | exact rfl)

theorem State.judgeClear_kept {c : Rq × Nat × Nat} {r0 s : State} (hk : Kept pp r0 s) (hm : Sub [.mail, .mode, .rings, .est, .latch, .guard, .disp, .events] pp) : Kept pp r0 (State.judgeClear s c) := by
  unfold State.judgeClear
  repeat' (first | exact sub_of rfl hm | with_reducible first | assumption | intro _ | apply State.raise_kept | apply State.followRings_kept | apply State.ok_kept | apply State.refuse_kept | apply State.clearTrip_kept | apply State.clearString_kept | exact rfl | apply ite_kept | split)

theorem State.clears_kept  {r0 s : State} (hk : Kept pp r0 s) (hm : Sub [.mail, .mode, .rings, .est, .latch, .guard, .disp, .events] pp) : Kept pp r0 (State.clears s) := by
  unfold State.clears
  repeat' (first | exact sub_of rfl hm | exact .inl (hm.mem (by decide)) | exact .inr fun _ => rfl | with_reducible first | assumption | intro _ | apply State.onGuard_kept | apply State.judgeClear_kept | apply forEach_kept | exact rfl)

theorem State.changeRing_kept {port : Nat} {st : RingState} {r0 s : State} (hk : Kept pp r0 s) (hm : Sub [.rings, .est, .events] pp) : Kept pp r0 (State.changeRing s port st) := by
  unfold State.changeRing
  repeat' (first | exact sub_of rfl hm | with_reducible first | assumption | intro _ | apply State.modRing_kept | apply State.modStr_kept | apply State.raise_kept | apply forEach_kept | exact rfl | apply ite_kept | split)

theorem State.postHeld_kept {key : Nat} {r0 s : State} (hk : Kept pp r0 s) (hm : Sub [.mail] pp) : Kept pp r0 (State.postHeld s key) := by
  unfold State.postHeld
  repeat' (first | exact sub_of rfl hm | exact .inl (hm.mem (by decide)) | exact .inr fun _ => rfl | with_reducible first | assumption | intro _ | apply State.onSys_kept | apply State.respond_kept | apply forEach_kept | exact rfl)

theorem State.finishRing_kept {port : Nat} {r0 s : State} (hk : Kept pp r0 s) (hm : Sub [.mail, .mode, .rings, .est, .disp, .events] pp) : Kept pp r0 (State.finishRing s port) := by
  unfold State.finishRing
  repeat' (first | exact sub_of rfl hm | with_reducible first | assumption | intro _ | apply State.modRing_kept | apply State.followRings_kept | apply State.changeRing_kept | apply State.postHeld_kept | exact rfl | apply ite_kept | split)

theorem State.leaveRing_kept {port : Nat} {st : RingState} {r0 s : State} (hk : Kept pp r0 s) (hm : Sub [.mail, .mode, .rings, .est, .guard, .disp, .events, .can] pp) : Kept pp r0 (State.leaveRing s port st) := by
  unfold State.leaveRing
  repeat' (first | exact sub_of rfl hm | exact .inl (hm.mem (by decide)) | exact .inr fun _ => rfl | with_reducible first | assumption | intro _ | apply State.modRing_kept | apply State.onGuard_kept | apply State.raise_kept | apply State.followRings_kept | apply State.beginStringDisc_kept | apply State.changeRing_kept | exact rfl | apply ite_kept | split)

theorem State.cycleDone_kept {mismatch : Bool} {r0 s : State} (hk : Kept pp r0 s) (hm : Sub [.power, .guard] pp) : Kept pp r0 (State.cycleDone s mismatch) := by
  unfold State.cycleDone
  repeat' (first | exact sub_of rfl hm | exact .inl (hm.mem (by decide)) | exact .inr fun _ => rfl | with_reducible first | assumption | intro _ | apply State.when_kept | apply State.onGuard_kept | apply State.onPower_kept | apply State.ask_kept | exact rfl | apply ite_kept | split)

theorem State.guardCycle_kept {convs : List Int} {mismatch : Bool} {r0 s : State} (hk : Kept pp r0 s) (hm : Sub [.power, .mail, .mode, .rings, .est, .latch, .guard, .disp, .events, .recs, .load, .can] pp) : Kept pp r0 (State.guardCycle s convs mismatch) := by
  unfold State.guardCycle
  repeat' (first | exact sub_of rfl hm | with_reducible first | assumption | intro _ | apply State.act_kept | apply State.preLimit_kept | apply State.seqCycle_kept | apply State.discCycle_kept | apply State.takeInputs_kept | apply State.checkString_kept | apply State.weldsMet_kept | apply State.clears_kept | apply State.finishRing_kept | apply State.cycleDone_kept | apply forEach_kept | exact rfl)

theorem execGuardCycle_goes {convs : List Int} {firstMismatch rerunMismatch : Bool} {xor : Nat} {s : State} (hm : Sub [.power, .mail, .mode, .rings, .est, .latch, .guard, .disp, .events, .recs, .load, .can] pp) : Goes pp s (execGuardCycle convs firstMismatch rerunMismatch xor s) := by
  unfold execGuardCycle
  repeat' (first | apply onlyIf_goes | apply ite_goes | split)
  repeat' (first | exact sub_of rfl hm | with_reducible first | exact Kept.refl _ | assumption | intro _ | apply State.guardFault_kept | apply State.guardCycle_kept | exact rfl | apply ite_kept | split)

theorem State.commitCounters_kept  {r0 s : State} (hk : Kept pp r0 s) (hm : Sub [.events, .recs] pp) : Kept pp r0 (State.commitCounters s) := by
  unfold State.commitCounters
  repeat' (first | exact sub_of rfl hm | exact .inl (hm.mem (by decide)) | exact .inr fun _ => rfl | with_reducible first | assumption | intro _ | apply State.onRecs_kept | apply State.count_kept | apply forEach_kept | exact rfl | apply ite_kept | split)

theorem State.sendOwed_kept {port : Nat} {r0 s : State} (hk : Kept pp r0 s) (hm : Sub [.rings, .est] pp) : Kept pp r0 (State.sendOwed s port) := by
  unfold State.sendOwed
  repeat' (first | exact sub_of rfl hm | with_reducible first | assumption | intro _ | apply State.sendBalance_kept | apply forEach_kept | exact rfl | apply ite_kept | split)

theorem State.takeSweep_kept  {r0 s : State} (hk : Kept pp r0 s) (hm : Sub [.beam, .rings, .est, .guard, .disp, .recs, .can] pp) : Kept pp r0 (State.takeSweep s) := by
  unfold State.takeSweep
  repeat' (first | exact sub_of rfl hm | with_reducible first | assumption | intro _ | apply State.when_kept | apply State.modRing_kept | apply State.onBeam_kept | apply State.applyDuties_kept | apply State.latchFpi_kept | apply State.takeSettings_kept | apply State.sendOwed_kept | apply forEach_kept | exact rfl)

theorem State.showSkip_kept  {r0 s : State} (hk : Kept pp r0 s) (hm : Sub [.beam, .marks, .events] pp) : Kept pp r0 (State.showSkip s) := by
  unfold State.showSkip
  repeat' (first | exact sub_of rfl hm | with_reducible first | assumption | intro _ | apply State.modMark_kept | apply State.beamEv_kept | exact rfl)

theorem execSweepLaunch_goes  {s : State} (hm : Sub [.beam, .marks, .rings, .est, .guard, .disp, .events, .recs, .can] pp) : Goes pp s (execSweepLaunch s) := by
  unfold execSweepLaunch
  repeat' (first | apply onlyIf_goes | apply ite_goes)
  repeat' (first | exact sub_of rfl hm | with_reducible first | exact Kept.refl _ | assumption | intro _ | apply State.when_kept | apply State.onBeam_kept | apply State.launchSync_kept | apply State.takeSweep_kept | apply State.showSkip_kept | exact rfl | apply ite_kept | split)

theorem execSweepMark_goes  {s : State} (hm : Sub [.sys, .beam, .marks, .rings, .sched, .est, .guard, .disp, .events, .store, .recs, .can, .upd] pp) : Goes pp s (execSweepMark s) := by
  unfold execSweepMark
  repeat' (first | apply onlyIf_goes | apply ite_goes)
  repeat' (first | exact sub_of rfl hm | with_reducible first | exact Kept.refl _ | assumption | intro _ | apply State.when_kept | apply State.onBeam_kept | apply State.fireM0_kept | apply State.rateControl_kept | apply State.heartbeat_kept | apply State.commitCounters_kept | apply State.takeSweep_kept | apply State.showSkip_kept | exact rfl | apply ite_kept | split)

theorem execRingRejoinConnect_goes {port : Nat} {s : State} (hm : Sub [.rings, .est, .guard, .events] pp) : Goes pp s (execRingRejoinConnect port s) := by
  unfold execRingRejoinConnect
  apply onlyIf_goes
  repeat' (first | exact sub_of rfl hm | with_reducible first | exact Kept.refl _ | assumption | intro _ | apply State.modRing_kept | apply State.joinStrings_kept | exact rfl)

theorem State.ringFault_kept {t : Nat} {r0 s : State} (hk : Kept pp r0 s) (hm : Sub [.mail, .events] pp) : Kept pp r0 (State.ringFault s t) := by
  unfold State.ringFault
  repeat' (first | exact sub_of rfl hm | with_reducible first | assumption | intro _ | apply State.modPage_kept | apply State.raise_kept | exact rfl | apply ite_kept | split)

theorem State.setRqTail_kept {t v : Nat} {r0 s : State} (hk : Kept pp r0 s) (hm : Sub [.mail, .events] pp) : Kept pp r0 (State.setRqTail s t v) := by
  unfold State.setRqTail
  repeat' (first | exact sub_of rfl hm | with_reducible first | assumption | intro _ | apply State.when_kept | apply State.modPage_kept | apply State.ringFault_kept | exact rfl)

theorem State.setRsTail_kept {t v : Nat} {r0 s : State} (hk : Kept pp r0 s) (hm : Sub [.mail, .events] pp) : Kept pp r0 (State.setRsTail s t v) := by
  unfold State.setRsTail
  repeat' (first | exact sub_of rfl hm | with_reducible first | assumption | intro _ | apply State.when_kept | apply State.modPage_kept | apply State.ringFault_kept | exact rfl)

theorem State.setEpoch_kept {t v : Nat} {r0 s : State} (hk : Kept pp r0 s) (hm : Sub [.mail] pp) : Kept pp r0 (State.setEpoch s t v) := by
  unfold State.setEpoch
  repeat' (first | exact sub_of rfl hm | with_reducible first | assumption | intro _ | apply State.modPage_kept | exact rfl | apply ite_kept | split)

theorem execRqTail_goes {tenant value : Nat} {s : State} (hm : Sub [.mail, .events] pp) : Goes pp s (execRqTail tenant value s) := by
  unfold execRqTail
  apply onlyIf_goes
  repeat' (first | exact sub_of rfl hm | with_reducible first | exact Kept.refl _ | assumption | intro _ | apply State.setRqTail_kept | exact rfl)

theorem execRsTail_goes {tenant value : Nat} {s : State} (hm : Sub [.mail, .events] pp) : Goes pp s (execRsTail tenant value s) := by
  unfold execRsTail
  apply onlyIf_goes
  repeat' (first | exact sub_of rfl hm | with_reducible first | exact Kept.refl _ | assumption | intro _ | apply State.setRsTail_kept | exact rfl)

theorem execEpoch_goes {tenant value : Nat} {s : State} (hm : Sub [.mail] pp) : Goes pp s (execEpoch tenant value s) := by
  unfold execEpoch
  apply onlyIf_goes
  repeat' (first | exact sub_of rfl hm | with_reducible first | exact Kept.refl _ | assumption | intro _ | apply State.setEpoch_kept | exact rfl)

theorem execRqEn_goes {tenant : Nat} {s : State} (hm : Sub [.mail] pp) : Goes pp s (execRqEn tenant s) := by
  unfold execRqEn
  apply onlyIf_goes
  repeat' (first | exact sub_of rfl hm | with_reducible first | exact Kept.refl _ | assumption | intro _ | apply State.modPage_kept | exact rfl)

theorem execRsEn_goes {tenant : Nat} {s : State} (hm : Sub [.mail] pp) : Goes pp s (execRsEn tenant s) := by
  unfold execRsEn
  apply onlyIf_goes
  repeat' (first | exact sub_of rfl hm | with_reducible first | exact Kept.refl _ | assumption | intro _ | apply State.modPage_kept | exact rfl)

theorem State.registerWrite_kept {t off v : Nat} {r0 s : State} (hk : Kept pp r0 s) (hm : Sub [.mail, .sys, .rings, .est, .latch, .guard, .events, .recs, .load] pp) : Kept pp r0 (State.registerWrite s t off v) := by
  unfold State.registerWrite
  repeat' (first | exact sub_of rfl hm | exact .inl (hm.mem (by decide)) | exact .inr fun _ => rfl | with_reducible first | assumption | intro _ | apply State.when_kept | apply State.modPage_kept | apply State.onSys_kept | apply State.stopLane_kept | apply State.setRqTail_kept | apply State.setRsTail_kept | apply State.setEpoch_kept | exact rfl | apply ite_kept | split)

theorem State.registerAfter_kept {t off : Nat} {r0 s : State} (hk : Kept pp r0 s) (hm : Sub [.mail, .sys] pp) : Kept pp r0 (State.registerAfter s t off) := by
  unfold State.registerAfter
  repeat' (first | exact sub_of rfl hm | exact .inl (hm.mem (by decide)) | exact .inr fun _ => rfl | with_reducible first | assumption | intro _ | apply State.when_kept | apply State.modPage_kept | apply State.onSys_kept | exact rfl | apply ite_kept | split)

theorem execRegisterWrite_goes {tenant offset : Nat} {value : Option Nat} {s : State} (hm : Sub [.mail, .sys, .rings, .est, .latch, .guard, .events, .recs, .load] pp) : Goes pp s (execRegisterWrite tenant offset value s) := by
  unfold execRegisterWrite
  repeat' (first | apply onlyIf_goes | split)
  repeat' (first | exact sub_of rfl hm | with_reducible first | exact Kept.refl _ | assumption | intro _ | apply State.registerWrite_kept | apply State.registerAfter_kept | exact rfl | apply ite_kept | split)

theorem State.staleRequest_kept {t : Nat} {r0 s : State} (hk : Kept pp r0 s) (hm : Sub [.mail] pp) : Kept pp r0 (State.staleRequest s t) := by
  unfold State.staleRequest
  repeat' (first | exact sub_of rfl hm | exact .inl (hm.mem (by decide)) | exact .inr fun _ => rfl | with_reducible first | assumption | intro _ | apply State.modPage_kept | apply State.onSys_kept | exact rfl)

theorem State.takeIn_kept {t : Nat} {h : Hdr} {eth : Bool} {p : List Byte} {r0 s : State} (hk : Kept pp r0 s) (hm : Sub [.mail] pp) : Kept pp r0 (State.takeIn s t h eth p) := by
  unfold State.takeIn
  repeat' (first | exact sub_of rfl hm | with_reducible first | assumption | intro _ | apply State.modPage_kept | apply State.refuse_kept | exact rfl | apply ite_kept | split)

theorem State.startTurn_kept {t : Nat} {r0 s : State} (hk : Kept pp r0 s) (hm : Sub [.mail] pp) : Kept pp r0 (State.startTurn s t) := by
  unfold State.startTurn
  repeat' (first | exact sub_of rfl hm | exact .inl (hm.mem (by decide)) | exact .inr fun _ => rfl | with_reducible first | assumption | intro _ | apply State.onSys_kept | exact rfl | apply ite_kept | split)

theorem State.startArrived_kept {t : Nat} {r0 s : State} (hk : Kept pp r0 s) (hm : Sub [.mail] pp) : Kept pp r0 (State.startArrived s t) := by
  unfold State.startArrived
  repeat' (first | exact sub_of rfl hm | with_reducible first | assumption | intro _ | apply State.modPage_kept | apply State.refuse_kept | apply State.staleRequest_kept | apply State.takeIn_kept | apply State.startTurn_kept | exact rfl | apply ite_kept | split)

theorem State.serveArrived_kept {n : Nat} {r0 s : State} (h : Kept pp r0 s) (hm : Sub [.mail] pp) :
    Kept pp r0 (State.serveArrived n s) := by
  induction n generalizing s with
  | zero => exact h
  | succ n ih =>
    unfold State.serveArrived
    split
    · exact ih (State.startArrived_kept h hm)
    · exact h

theorem State.serveRounds_kept {r0 s : State} (h : Kept pp r0 s) (hm : Sub [.mail] pp) : Kept pp r0 s.serveRounds :=
  State.serveArrived_kept h hm

theorem execRequestFetch_goes {tenant : Nat} {slot : List Byte} {accessOk : Bool} {s : State} (hm : Sub [.mail, .events] pp) :
    Goes pp s (execRequestFetch tenant slot accessOk s) := by
  unfold execRequestFetch
  have hb : Sub [.mail] pp := sub_of rfl hm
  have h1 := State.modPage_kept (k := tenant) (f := fun p => { p with rqHead := (p.rqHead + 1) % 65536 }) (Kept.refl (pp := pp) s) hb
  exact onlyIf_goes (ite_kept (State.ringFault_kept (Kept.refl s) (sub_of rfl hm)) (ite_kept
    (State.staleRequest_kept h1 (sub_of rfl hm))
    (State.serveRounds_kept (State.takeIn_kept (State.startTurn_kept h1 (sub_of rfl hm)) (sub_of rfl hm)) (sub_of rfl hm))))

theorem State.dropLate_kept {t : Nat} {r0 s : State} (hk : Kept pp r0 s) (hm : Sub [.mail] pp) : Kept pp r0 (State.dropLate s t) := by
  unfold State.dropLate
  repeat' (first | exact sub_of rfl hm | exact .inl (hm.mem (by decide)) | exact .inr fun _ => rfl | with_reducible first | assumption | intro _ | apply State.modPage_kept | apply State.onSys_kept | exact rfl)

theorem State.postPcie_kept {t : Nat} {accessOk : Bool} {r0 s : State} (hk : Kept pp r0 s) (hm : Sub [.mail, .events] pp) : Kept pp r0 (State.postPcie s t accessOk) := by
  unfold State.postPcie
  repeat' (first | exact sub_of rfl hm | exact .inl (hm.mem (by decide)) | exact .inr fun _ => rfl | with_reducible first | assumption | intro _ | apply State.when_kept | apply State.modPage_kept | apply State.onSys_kept | apply State.ringFault_kept | apply State.dropLate_kept | exact rfl | apply ite_kept | split)

theorem State.postEth_kept {t : Nat} {r0 s : State} (hk : Kept pp r0 s) (hm : Sub [.mail] pp) : Kept pp r0 (State.postEth s t) := by
  unfold State.postEth
  dsimp only
  repeat' (first | exact sub_of rfl hm | with_reducible first | assumption | intro _ | apply State.modPage_kept | apply State.dropLate_kept | exact rfl | apply ite_kept | split)

theorem execResponsePost_goes {tenant : Nat} {eth accessOk : Bool} {s : State} (hm : Sub [.mail, .events] pp) : Goes pp s (execResponsePost tenant eth accessOk s) := by
  unfold execResponsePost
  repeat' (first | apply onlyIf_goes | apply ite_goes)
  repeat' (first | exact sub_of rfl hm | with_reducible first | exact Kept.refl _ | assumption | intro _ | apply State.postPcie_kept | apply State.postEth_kept | exact rfl | apply ite_kept | split)

theorem execIrqTimeout_goes {tenant : Nat} {s : State} (hm : Sub [.mail] pp) : Goes pp s (execIrqTimeout tenant s) := by
  unfold execIrqTimeout
  apply onlyIf_goes
  repeat' (first | exact sub_of rfl hm | with_reducible first | exact Kept.refl _ | assumption | intro _ | apply State.modPage_kept | exact rfl)

theorem State.toD0_kept  {r0 s : State} (hk : Kept pp r0 s) (hm : Sub [.mail, .sys, .events] pp) : Kept pp r0 (State.toD0 s) := by
  unfold State.toD0
  repeat' (first | exact sub_of rfl hm | exact .inl (hm.mem (by decide)) | exact .inr fun _ => rfl | with_reducible first | assumption | intro _ | apply State.onSys_kept | apply State.raise_kept | exact rfl | apply ite_kept | split)

theorem State.endpointReset_kept {linkStays : Bool} {r0 s : State} (hk : Kept pp r0 s) (hm : Sub [.mail, .sys, .events] pp) : Kept pp r0 (State.endpointReset s linkStays) := by
  unfold State.endpointReset
  repeat' (first | exact sub_of rfl hm | exact .inl (hm.mem (by decide)) | exact .inr fun _ => rfl | with_reducible first | assumption | intro _ | apply State.modPage_kept | apply State.onSys_kept | apply State.raise_kept | apply State.toD0_kept | apply forEach_kept | exact rfl)

theorem execPcieReset_goes {linkStays : Bool} {s : State} (hm : Sub [.mail, .sys, .events] pp) : Goes pp s (execPcieReset linkStays s) := by
  unfold execPcieReset
  apply next_goes
  repeat' (first | exact sub_of rfl hm | with_reducible first | exact Kept.refl _ | assumption | intro _ | apply State.endpointReset_kept | exact rfl)

theorem execPcieLinkUp_goes {width rate : Nat} {s : State} (hm : Sub [.sys, .events] pp) : Goes pp s (execPcieLinkUp width rate s) := by
  unfold execPcieLinkUp
  apply onlyIf_goes
  repeat' (first | exact sub_of rfl hm | exact .inl (hm.mem (by decide)) | exact .inr fun _ => rfl | with_reducible first | exact Kept.refl _ | assumption | intro _ | apply State.onSys_kept | apply State.raise_kept | exact rfl)

theorem execD3hotEntry_goes  {s : State} (hm : Sub [.sys] pp) : Goes pp s (execD3hotEntry s) := by
  unfold execD3hotEntry
  apply onlyIf_goes
  repeat' (first | exact sub_of rfl hm | exact .inl (hm.mem (by decide)) | exact .inr fun _ => rfl | with_reducible first | exact Kept.refl _ | assumption | intro _ | apply State.onSys_kept | exact rfl)

theorem execD0Resume_goes  {s : State} (hm : Sub [.mail, .sys, .events] pp) : Goes pp s (execD0Resume s) := by
  unfold execD0Resume
  apply onlyIf_goes
  repeat' (first | exact sub_of rfl hm | with_reducible first | exact Kept.refl _ | assumption | intro _ | apply State.toD0_kept | exact rfl)

theorem execWakeCause_goes {cause : Nat} {s : State} (hm : Sub [.mail] pp) : Goes pp s (execWakeCause cause s) := by
  unfold execWakeCause
  apply onlyIf_goes
  repeat' (first | exact sub_of rfl hm | with_reducible first | exact Kept.refl _ | assumption | intro _ | apply State.wake_kept | exact rfl)

theorem State.authFail_kept {port : Nat} {r0 s : State} (hk : Kept pp r0 s) (hm : Sub [.mail, .events] pp) : Kept pp r0 (State.authFail s port) := by
  unfold State.authFail
  repeat' (first | exact sub_of rfl hm | exact .inl (hm.mem (by decide)) | exact .inr fun _ => rfl | with_reducible first | assumption | intro _ | apply State.onSys_kept | apply State.raise_kept | exact rfl | apply ite_kept | split)

theorem State.replayFail_kept {tenant : Nat} {r0 s : State} (hk : Kept pp r0 s) (hm : Sub [.mail, .events] pp) : Kept pp r0 (State.replayFail s tenant) := by
  unfold State.replayFail
  repeat' (first | exact sub_of rfl hm | exact .inl (hm.mem (by decide)) | exact .inr fun _ => rfl | with_reducible first | assumption | intro _ | apply State.onSys_kept | apply State.raise_kept | exact rfl | apply ite_kept | split)

theorem State.ethRequest_kept {h : Hdr} {body : List Byte} {r0 s : State} (hk : Kept pp r0 s) (hm : Sub [.mail] pp) : Kept pp r0 (State.ethRequest s h body) := by
  unfold State.ethRequest
  repeat' (first | exact sub_of rfl hm | with_reducible first | assumption | intro _ | apply State.when_kept | apply State.modPage_kept | apply State.respond_kept | apply State.refuse_kept | apply State.setEpoch_kept | apply State.staleRequest_kept | apply State.takeIn_kept | apply State.serveRounds_kept | exact rfl | apply ite_kept | split)

theorem execMailboxDatagram_goes {port : Nat} {bytes : List Byte} {sameNet : Bool} {s : State} (hm : Sub [.mail, .events] pp) : Goes pp s (execMailboxDatagram port bytes sameNet s) := by
  unfold execMailboxDatagram
  repeat' (first | apply onlyIf_goes | apply ite_goes)
  repeat' (first | exact sub_of rfl hm | with_reducible first | exact Kept.refl _ | assumption | intro _ | apply State.modPage_kept | apply State.authFail_kept | apply State.replayFail_kept | apply State.ethRequest_kept | exact rfl | apply ite_kept | split)

theorem execStopDatagram_goes {port : Nat} {bytes : List Byte} {s : State} (hm : Sub [.mail, .rings, .est, .latch, .guard, .events, .recs, .load] pp) : Goes pp s (execStopDatagram port bytes s) := by
  unfold execStopDatagram
  repeat' (first | apply onlyIf_goes | apply ite_goes)
  repeat' (first | exact sub_of rfl hm | with_reducible first | exact Kept.refl _ | assumption | intro _ | apply State.modPage_kept | apply State.wake_kept | apply State.stopLane_kept | apply State.authFail_kept | apply State.replayFail_kept | exact rfl | apply ite_kept | split)

theorem execEthernetLink_goes {port : Nat} {up : Bool} {s : State} (hm : Sub [.mail, .sys, .events] pp) : Goes pp s (execEthernetLink port up s) := by
  unfold execEthernetLink
  repeat' (first | apply onlyIf_goes | apply ite_goes)
  repeat' (first | exact sub_of rfl hm | exact .inl (hm.mem (by decide)) | exact .inr fun _ => rfl | with_reducible first | exact Kept.refl _ | assumption | intro _ | apply State.onSys_kept | apply State.raise_kept | apply State.wake_kept | exact rfl | apply ite_kept | split)

theorem execCursorExpiry_goes {cursor : Nat} {s : State} (hm : Sub [.bulk] pp) : Goes pp s (execCursorExpiry cursor s) := by
  unfold execCursorExpiry
  repeat' (first | apply onlyIf_goes | apply next_goes | split)
  repeat' (first | exact sub_of rfl hm | exact .inl (hm.mem (by decide)) | exact .inr fun _ => rfl | with_reducible first | exact Kept.refl _ | assumption | intro _ | apply State.onSys_kept | exact rfl | apply ite_kept | split)
  all_goals first | exact sub_of rfl hm | exact .inl (hm.mem (by decide)) | exact .inr fun _ => rfl | exact rfl | exact ⟨rfl, rfl⟩ | exact ⟨rfl, rfl, rfl, rfl, rfl⟩ | exact ⟨rfl, rfl, rfl⟩ | (refine .inr fun _ => ?_; (repeat' split) <;> exact rfl) | exact (Kept.refl _).same rfl rfl rfl (fun p => by cases p <;> first | exact .inr rfl | exact .inl (hm.mem (by decide))) | (repeat' split) <;> first | exact rfl | exact ⟨rfl, rfl⟩ | exact ⟨rfl, rfl, rfl, rfl, rfl⟩ | exact ⟨rfl, rfl, rfl⟩

theorem execPtpMessage_goes {port domain : Nat} {master : BitVec 64} {s : State} (hm : Sub [.sys, .events] pp) : Goes pp s (execPtpMessage port domain master s) := by
  unfold execPtpMessage
  repeat' (first | apply onlyIf_goes | apply ite_goes)
  repeat' (first | exact sub_of rfl hm | exact .inl (hm.mem (by decide)) | exact .inr fun _ => rfl | with_reducible first | exact Kept.refl _ | assumption | intro _ | apply State.when_kept | apply State.onSys_kept | apply State.raise_kept | exact rfl | apply ite_kept | split)

theorem execAnnounceTimeout_goes {otherAnnounces : Bool} {s : State} (hm : Sub [.sys, .events] pp) : Goes pp s (execAnnounceTimeout otherAnnounces s) := by
  unfold execAnnounceTimeout
  repeat' (first | apply next_goes | apply ite_goes)
  repeat' (first | exact sub_of rfl hm | exact .inl (hm.mem (by decide)) | exact .inr fun _ => rfl | with_reducible first | exact Kept.refl _ | assumption | intro _ | apply State.when_kept | apply State.onSys_kept | apply State.raise_kept | exact rfl | apply ite_kept | split)

theorem execNotificationMark_goes {unit : Nat} {s : State} (hm : Sub [.mail, .beam, .marks, .events] pp) : Goes pp s (execNotificationMark unit s) := by
  unfold execNotificationMark
  apply onlyIf_goes
  repeat' (first | exact sub_of rfl hm | with_reducible first | exact Kept.refl _ | assumption | intro _ | apply State.notify_kept | apply State.fireMark_kept | exact rfl)

theorem State.newIdentity_kept {port : Nat} {n : Node} {r0 s : State} (hk : Kept pp r0 s) (hm : Sub [.est, .events] pp) : Kept pp r0 (State.newIdentity s port n) := by
  unfold State.newIdentity
  repeat' (first | exact sub_of rfl hm | with_reducible first | assumption | intro _ | apply State.modCell_kept | apply State.raise_kept | apply forEach_kept | exact rfl)

theorem State.acceptSerials_kept {f : RingFacts} {r0 s : State} (hk : Kept pp r0 s) (hm : Sub [.rings, .est, .events] pp) : Kept pp r0 (State.acceptSerials s f) := by
  unfold State.acceptSerials
  repeat' (first | exact sub_of rfl hm | with_reducible first | assumption | intro _ | apply State.when_kept | apply State.modRing_kept | apply State.newIdentity_kept | apply forEach_kept | exact rfl | apply ite_kept | split)

theorem State.seedLearned_kept {port : Nat} {r0 s : State} (hk : Kept pp r0 s) (hm : Sub [.est] pp) : Kept pp r0 (State.seedLearned s port) := by
  unfold State.seedLearned
  repeat' (first | exact sub_of rfl hm | with_reducible first | assumption | intro _ | apply State.when_kept | apply State.modCell_kept | apply forEach_kept | exact rfl)

theorem State.activateRing_kept {f : RingFacts} {r0 s : State} (hk : Kept pp r0 s) (hm : Sub [.rings, .est, .events] pp) : Kept pp r0 (State.activateRing s f) := by
  unfold State.activateRing
  repeat' (first | exact sub_of rfl hm | with_reducible first | assumption | intro _ | apply State.modRing_kept | apply State.modStr_kept | apply State.buildStrings_kept | apply State.changeRing_kept | apply State.acceptSerials_kept | apply State.seedLearned_kept | apply forEach_kept | exact rfl)

theorem State.tryActivate_kept {f : RingFacts} {r0 s : State} (hk : Kept pp r0 s) (hm : Sub [.rings, .est, .events, .recs] pp) : Kept pp r0 (State.tryActivate s f) := by
  unfold State.tryActivate
  dsimp only
  repeat' (first | exact sub_of rfl hm | with_reducible first | assumption | intro _ | apply State.modRing_kept | apply State.raise_kept | apply State.count_kept | apply State.changeRing_kept | apply State.activateRing_kept | exact rfl | apply ite_kept | split)

theorem execRingStatus_goes {rq : Rq} {port : Nat} {s : State} (hm : Sub [.mail] pp) : Goes pp s (execRingStatus rq port s) := by
  unfold execRingStatus
  apply readCmd_goes
  repeat' (first | exact sub_of rfl hm | with_reducible first | exact Kept.refl _ | assumption | intro _ | exact rfl)

theorem State.surveyRing_kept {f : RingFacts} {r0 s : State} (hk : Kept pp r0 s) (hm : Sub [.rings, .est, .events, .recs] pp) : Kept pp r0 (State.surveyRing s f) := by
  unfold State.surveyRing
  dsimp only
  repeat' (first | exact sub_of rfl hm | with_reducible first | assumption | intro _ | apply State.modRing_kept | apply State.raise_kept | apply State.count_kept | apply State.acceptSerials_kept | exact rfl | apply ite_kept | split)

theorem State.setRingState_kept {rq : Rq} {f : RingFacts} {st : RingState} {r0 s : State} (hk : Kept pp r0 s) (hm : Sub [.mail, .mode, .rings, .est, .guard, .disp, .events, .recs, .can] pp) : Kept pp r0 (State.setRingState s rq f st) := by
  unfold State.setRingState
  dsimp only
  repeat' (first | exact sub_of rfl hm | exact .inl (hm.mem (by decide)) | exact .inr fun _ => rfl | with_reducible first | assumption | intro _ | apply State.onSys_kept | apply State.followRings_kept | apply State.ok_kept | apply State.refuse_kept | apply State.changeRing_kept | apply State.leaveRing_kept | apply State.tryActivate_kept | apply State.surveyRing_kept | exact rfl | apply ite_kept | split)

theorem execSetRingState_goes {rq : Rq} {port state count : Nat} {mute : List Nat} {s : State} (hm : Sub [.mail, .mode, .rings, .est, .guard, .disp, .events, .recs, .can] pp) : Goes pp s (execSetRingState rq port state count mute s) := by
  unfold execSetRingState
  apply next_goes
  repeat' (first | exact sub_of rfl hm | with_reducible first | exact Kept.refl _ | assumption | intro _ | apply State.count_kept | apply State.setRingState_kept | apply mailbox_kept | apply checked_kept | exact rfl)

theorem execEnumerate_goes {rq : Rq} {port count : Nat} {s : State} (hm : Sub [.mail, .rings, .nodes, .events] pp) : Goes pp s (execEnumerate rq port count s) := by
  unfold execEnumerate
  repeat' (first | apply next_goes | apply ite_goes)
  repeat' (first | exact sub_of rfl hm | with_reducible first | exact Kept.refl _ | assumption | intro _ | apply State.count_kept | apply State.ok_kept | apply State.refuse_kept | apply State.enumerate_kept | apply mailbox_kept | apply checked_kept | exact rfl | apply ite_kept | split)

theorem State.storeCalibration_kept {port f r : Nat} {r0 s : State} (hk : Kept pp r0 s) (hm : Sub [.rings, .nodes, .store] pp) : Kept pp r0 (State.storeCalibration s port f r) := by
  unfold State.storeCalibration
  repeat' (first | exact sub_of rfl hm | with_reducible first | assumption | intro _ | apply State.modRing_kept | apply State.modNode_kept | apply State.commitCfg_kept | apply forEach_kept | exact rfl | apply ite_kept | split)

theorem execCalibrate_goes {rq : Rq} {port f r : Nat} {s : State} (hm : Sub [.mail, .rings, .nodes, .store] pp) : Goes pp s (execCalibrate rq port f r s) := by
  unfold execCalibrate
  apply next_goes
  repeat' (first | exact sub_of rfl hm | with_reducible first | exact Kept.refl _ | assumption | intro _ | apply State.ok_kept | apply State.storeCalibration_kept | apply mailbox_kept | apply checked_kept | exact rfl)

theorem execNodeRead_goes {rq : Rq} {port pos addr count : Nat} {s : State} (hm : Sub [.mail, .rings] pp) : Goes pp s (execNodeRead rq port pos addr count s) := by
  unfold execNodeRead
  apply next_goes
  repeat' (first | exact sub_of rfl hm | with_reducible first | exact Kept.refl _ | assumption | intro _ | apply State.count_kept | apply State.queueCmd_kept | apply mailbox_kept | apply checked_kept | exact rfl)

theorem execNodeWrite_goes {rq : Rq} {port pos addr : Nat} {data : List Byte} {s : State} (hm : Sub [.mail, .rings] pp) : Goes pp s (execNodeWrite rq port pos addr data s) := by
  unfold execNodeWrite
  apply next_goes
  repeat' (first | exact sub_of rfl hm | with_reducible first | exact Kept.refl _ | assumption | intro _ | apply State.queueCmd_kept | apply mailbox_kept | apply checked_kept | exact rfl)

theorem execStoreConfig_goes {rq : Rq} {port : Nat} {mute : List Nat} {s : State} (hm : Sub [.mail, .rings, .est, .store] pp) : Goes pp s (execStoreConfig rq port mute s) := by
  unfold execStoreConfig
  apply next_goes
  repeat' (first | exact sub_of rfl hm | with_reducible first | exact Kept.refl _ | assumption | intro _ | apply State.modRing_kept | apply State.commitCfg_kept | apply State.respond_kept | apply State.buildStrings_kept | apply mailbox_kept | apply checked_kept | exact rfl)

end Sys2Proof.Machine
end

