-- ==== Sys2Proof/Laws/KeptBulk.lean ====
section
/-! SUPPORT. Each operation and each meaning of Bulk, Settings, System, Words, CellData, Images, Tables, DispatchCmds goes on and keeps the queue, the clock, canonical tables, and every part outside its list. -/
namespace Sys2Proof.Machine
open Sys2Proof

variable {pp : List Part}

theorem State.releaseCursor_kept {id : Nat} {r0 s : State} (hk : Kept pp r0 s) (hm : Sub [.bulk] pp) : Kept pp r0 (State.releaseCursor s id) := by
  unfold State.releaseCursor
  repeat' (first | exact sub_of rfl hm | exact .inl (hm.mem (by decide)) | exact .inr fun _ => rfl | with_reducible first | assumption | intro _ | apply State.onSys_kept | exact rfl)
  all_goals first | exact sub_of rfl hm | exact .inl (hm.mem (by decide)) | exact .inr fun _ => rfl | exact rfl | exact ⟨rfl, rfl⟩ | exact ⟨rfl, rfl, rfl, rfl, rfl⟩ | exact ⟨rfl, rfl, rfl⟩ | (refine .inr fun _ => ?_; (repeat' split) <;> exact rfl) | exact hk.same rfl rfl rfl (fun p => by cases p <;> first | exact .inr rfl | exact .inl (hm.mem (by decide))) | (repeat' split) <;> first | exact rfl | exact ⟨rfl, rfl⟩ | exact ⟨rfl, rfl, rfl, rfl, rfl⟩ | exact ⟨rfl, rfl, rfl⟩

theorem State.bulkAnswer_kept {rq : Rq} {op cursor gen items remaining bytes : Nat} {data : List Byte} {r0 s : State} (hk : Kept pp r0 s) (hm : Sub [.mail] pp) : Kept pp r0 (State.bulkAnswer s rq op cursor gen items remaining bytes data) := by
  unfold State.bulkAnswer
  repeat' (first | exact sub_of rfl hm | with_reducible first | assumption | intro _ | apply State.respond_kept | exact rfl)

theorem State.keepCursor_kept {c : Cursor} {r0 s : State} (hk : Kept pp r0 s) (hm : Sub [.bulk] pp) : Kept pp r0 (State.keepCursor s c) := by
  unfold State.keepCursor
  repeat' (first | exact sub_of rfl hm | exact .inl (hm.mem (by decide)) | exact .inr fun _ => rfl | with_reducible first | assumption | intro _ | apply State.onSys_kept | exact rfl | apply ite_kept | split)

theorem bulkCmd_goes {rq : Rq} {op : Nat} {w : Who} {modes : List Mode} {b : Bulk} {start : State → List (Bool × Refuse)}
    {fresh : State → Cursor} {call : Cursor → State → State} {s : State} (hc : ∀ c, Kept pp s (call c s)) (hm : Sub [.mail, .bulk] pp) :
    Goes pp s (bulkCmd rq op w modes b start fresh call s) := by
  have hb : Sub [.mail] pp := sub_of rfl hm
  refine next_goes (ite_kept (Kept.refl s) (mailbox_kept (fun h => checked_kept (fun h => ite_kept
    (State.refuse_kept (State.releaseCursor_kept h (sub_of rfl hm)) hb) (checked_kept (fun h => ?_) h hb)) h hb) (Kept.refl s) hb))
  split
  · exact ite_kept (State.bulkAnswer_kept (State.releaseCursor_kept h (sub_of rfl hm)) (sub_of rfl hm)) (hc _)
  · exact checked_kept (fun _ => hc _) h hb

theorem State.toAperture_kept {rq : Rq} {b : Bulk} {data : List Byte} {r0 s : State} (hk : Kept pp r0 s) (hm : Sub [.bulk] pp) : Kept pp r0 (State.toAperture s rq b data) := by
  unfold State.toAperture
  repeat' (first | exact sub_of rfl hm | exact .inl (hm.mem (by decide)) | exact .inr fun _ => rfl | with_reducible first | assumption | intro _ | apply State.onSys_kept | exact rfl | apply ite_kept | split)

theorem State.bulkDeliver_kept {rq : Rq} {op : Nat} {b : Bulk} {dma : Option Nat} {c : Cursor} {r0 s : State} (hk : Kept pp r0 s) (hm : Sub [.mail, .bulk] pp) : Kept pp r0 (State.bulkDeliver s rq op b dma c) := by
  unfold State.bulkDeliver
  repeat' (first | exact sub_of rfl hm | with_reducible first | assumption | intro _ | apply State.refuse_kept | apply State.releaseCursor_kept | apply State.bulkAnswer_kept | apply State.keepCursor_kept | apply State.toAperture_kept | exact rfl | apply ite_kept | split)

theorem bulkRead_goes {rq : Rq} {op : Nat} {b : Bulk} {dma : Option Nat} {start : State → List (Bool × Refuse)} {gen : State → Option Nat} {items : State → List (List Byte)} {s : State} (hm : Sub [.mail, .bulk] pp) : Goes pp s (bulkRead rq op b dma start gen items s) := by
  unfold bulkRead
  apply bulkCmd_goes
  repeat' (first | exact sub_of rfl hm | with_reducible first | exact Kept.refl _ | assumption | intro _ | apply State.bulkDeliver_kept | exact rfl)

theorem State.hostStores_kept {rq : Rq} {b : Bulk} {data : List Byte} {r0 s : State} (hk : Kept pp r0 s) (hm : Sub [.bulk] pp) : Kept pp r0 (State.hostStores s rq b data) := by
  unfold State.hostStores
  repeat' (first | exact sub_of rfl hm | with_reducible first | assumption | intro _ | apply State.toAperture_kept | exact rfl)

theorem State.bulkTake_kept {rq : Rq} {op : Nat} {b : Bulk} {dma : Option Nat} {data : List Byte} {need : Nat}
    {finish : List Byte → Nat → State → State} {c : Cursor} {r0 s : State} (hf : ∀ l n t, Kept pp r0 t → Kept pp r0 (finish l n t))
    (h : Kept pp r0 s) (hm : Sub [.mail, .bulk] pp) : Kept pp r0 (s.bulkTake rq op b dma data need finish c) := by
  unfold State.bulkTake
  have h1 := State.hostStores_kept (rq := rq) (b := b) (data := data) h (sub_of rfl hm)
  dsimp only
  split
  · exact State.refuse_kept h1 (sub_of rfl hm)
  · exact ite_kept (State.bulkAnswer_kept (State.keepCursor_kept h1 (sub_of rfl hm)) (sub_of rfl hm))
      (hf _ _ _ (State.releaseCursor_kept h1 (sub_of rfl hm)))

theorem State.storeParam_kept {r : ParamRow} {keys : List Nat} {v : Int} {r0 s : State} (hk : Kept pp r0 s) (hm : Sub [.est] pp) : Kept pp r0 (State.storeParam s r keys v) := by
  unfold State.storeParam
  try dsimp only
  repeat' (first | exact sub_of rfl hm | exact .inl (hm.mem (by decide)) | exact .inr fun _ => rfl | with_reducible first | exact Kept.refl _ | assumption | intro _ _ _ | intro _ _ | intro _ | apply ite_kept | apply State.onEst_kept | apply foldl_kept | exact rfl | split | exact (by assumption : Kept _ _ _).same rfl rfl rfl (fun p => by cases p <;> first | exact .inr rfl | exact .inl (hm.mem (by decide))) | exact (Kept.refl _).same rfl rfl rfl (fun p => by cases p <;> first | exact .inr rfl | exact .inl (hm.mem (by decide))))
  all_goals (try dsimp only)
  all_goals (first | exact sub_of rfl hm | exact .inl (hm.mem (by decide)) | exact .inr fun _ => rfl | exact rfl | exact ⟨rfl, rfl⟩ | exact ⟨rfl, rfl, rfl, rfl, rfl⟩ | exact ⟨rfl, rfl, rfl⟩ | (refine .inr fun _ => ?_; (repeat' split) <;> exact rfl) | exact hk.same rfl rfl rfl (fun p => by cases p <;> first | exact .inr rfl | exact .inl (hm.mem (by decide))) | exact (Kept.refl _).same rfl rfl rfl (fun p => by cases p <;> first | exact .inr rfl | exact .inl (hm.mem (by decide))) | exact (by assumption : Kept _ _ _).same rfl rfl rfl (fun p => by cases p <;> first | exact .inr rfl | exact .inl (hm.mem (by decide))) | ((repeat' split) <;> first | exact rfl | exact ⟨rfl, rfl⟩ | exact ⟨rfl, rfl, rfl, rfl, rfl⟩ | exact ⟨rfl, rfl, rfl⟩))

theorem State.paramFollows_kept {r : ParamRow} {v : Int} {r0 s : State} (hk : Kept pp r0 s) (hm : Sub [.sys, .disp, .events] pp) : Kept pp r0 (State.paramFollows s r v) := by
  unfold State.paramFollows
  repeat' (first | exact sub_of rfl hm | exact .inl (hm.mem (by decide)) | exact .inr fun _ => rfl | with_reducible first | assumption | intro _ | apply State.onSys_kept | apply State.newSlotCyc_kept | exact rfl | apply ite_kept | split)

theorem setParam_goes {rq : Rq} {op param port string : Nat} {value : Int} {s : State} (hm : Sub [.mail, .sys, .est, .disp, .events, .store] pp) : Goes pp s (setParam rq op param port string value s) := by
  unfold setParam
  apply nvWrite_goes
  repeat' (first | exact sub_of rfl hm | with_reducible first | exact Kept.refl _ | assumption | intro _ | apply State.storeParam_kept | apply State.paramFollows_kept | exact rfl | apply ite_kept | split)

theorem getParam_goes {rq : Rq} {op param port string : Nat} {s : State} (hm : Sub [.mail] pp) : Goes pp s (getParam rq op param port string s) := by
  unfold getParam
  apply readCmd_goes
  repeat' (first | exact sub_of rfl hm | with_reducible first | exact Kept.refl _ | assumption | intro _ | exact rfl | apply ite_kept | split)

theorem execSetParam_goes {rq : Rq} {param port string : Nat} {value : Int} {s : State} (hm : Sub [.mail, .sys, .est, .disp, .events, .store] pp) : Goes pp s (execSetParam rq param port string value s) := by
  unfold execSetParam
  apply setParam_goes
  repeat' (first | exact sub_of rfl hm | with_reducible first | exact Kept.refl _ | assumption | intro _ | exact rfl)

theorem execGetParam_goes {rq : Rq} {param port string : Nat} {s : State} (hm : Sub [.mail] pp) : Goes pp s (execGetParam rq param port string s) := by
  unfold execGetParam
  apply getParam_goes
  repeat' (first | exact sub_of rfl hm | with_reducible first | exact Kept.refl _ | assumption | intro _ | exact rfl)

theorem execCellSetParam_goes {rq : Rq} {param port string : Nat} {value : Int} {s : State} (hm : Sub [.mail, .sys, .est, .disp, .events, .store] pp) : Goes pp s (execCellSetParam rq param port string value s) := by
  unfold execCellSetParam
  apply setParam_goes
  repeat' (first | exact sub_of rfl hm | with_reducible first | exact Kept.refl _ | assumption | intro _ | exact rfl)

theorem execCellGetParam_goes {rq : Rq} {param port string : Nat} {s : State} (hm : Sub [.mail] pp) : Goes pp s (execCellGetParam rq param port string s) := by
  unfold execCellGetParam
  apply getParam_goes
  repeat' (first | exact sub_of rfl hm | with_reducible first | exact Kept.refl _ | assumption | intro _ | exact rfl)

theorem execDispatchSetParam_goes {rq : Rq} {param port string : Nat} {value : Int} {s : State} (hm : Sub [.mail, .sys, .est, .disp, .events, .store] pp) : Goes pp s (execDispatchSetParam rq param port string value s) := by
  unfold execDispatchSetParam
  apply setParam_goes
  repeat' (first | exact sub_of rfl hm | with_reducible first | exact Kept.refl _ | assumption | intro _ | exact rfl)

theorem execDispatchGetParam_goes {rq : Rq} {param port string : Nat} {s : State} (hm : Sub [.mail] pp) : Goes pp s (execDispatchGetParam rq param port string s) := by
  unfold execDispatchGetParam
  apply getParam_goes
  repeat' (first | exact sub_of rfl hm | with_reducible first | exact Kept.refl _ | assumption | intro _ | exact rfl)

theorem execProtSetParam_goes {rq : Rq} {param port string : Nat} {value : Int} {s : State} (hm : Sub [.mail, .sys, .est, .disp, .events, .store] pp) : Goes pp s (execProtSetParam rq param port string value s) := by
  unfold execProtSetParam
  apply setParam_goes
  repeat' (first | exact sub_of rfl hm | with_reducible first | exact Kept.refl _ | assumption | intro _ | exact rfl)

theorem execProtGetParam_goes {rq : Rq} {param port string : Nat} {s : State} (hm : Sub [.mail] pp) : Goes pp s (execProtGetParam rq param port string s) := by
  unfold execProtGetParam
  apply getParam_goes
  repeat' (first | exact sub_of rfl hm | with_reducible first | exact Kept.refl _ | assumption | intro _ | exact rfl)

theorem execIdentity_goes {rq : Rq} {s : State} (hm : Sub [.mail] pp) : Goes pp s (execIdentity rq s) := by
  unfold execIdentity
  apply readCmd_goes
  repeat' (first | exact sub_of rfl hm | with_reducible first | exact Kept.refl _ | assumption | intro _ | exact rfl)

theorem execStatus_goes {rq : Rq} {s : State} (hm : Sub [.mail] pp) : Goes pp s (execStatus rq s) := by
  unfold execStatus
  apply readCmd_goes
  repeat' (first | exact sub_of rfl hm | with_reducible first | exact Kept.refl _ | assumption | intro _ | exact rfl)

theorem execLinkStatus_goes {rq : Rq} {s : State} (hm : Sub [.mail] pp) : Goes pp s (execLinkStatus rq s) := by
  unfold execLinkStatus
  apply readCmd_goes
  repeat' (first | exact sub_of rfl hm | with_reducible first | exact Kept.refl _ | assumption | intro _ | exact rfl)

theorem execEcho_goes {rq : Rq} {payload : List Byte} {s : State} (hm : Sub [.mail] pp) : Goes pp s (execEcho rq payload s) := by
  unfold execEcho
  apply readCmd_goes
  repeat' (first | exact sub_of rfl hm | with_reducible first | exact Kept.refl _ | assumption | intro _ | exact rfl)

theorem State.refuseTransition_kept {rq : Rq} {op target mask : Nat} {r0 s : State} (hk : Kept pp r0 s) (hm : Sub [.mail, .events] pp) : Kept pp r0 (State.refuseTransition s rq op target mask) := by
  unfold State.refuseTransition
  repeat' (first | exact sub_of rfl hm | with_reducible first | assumption | intro _ | apply State.raise_kept | apply State.refuse_kept | exact rfl)

theorem execSetMode_goes {rq : Rq} {target : Nat} {s : State} (hm : Sub [.mail, .mode, .sys, .rings, .est, .disp, .events, .store] pp) : Goes pp s (execSetMode rq target s) := by
  unfold execSetMode
  repeat' (first | apply next_goes | apply ite_goes)
  repeat' (first | exact sub_of rfl hm | exact .inl (hm.mem (by decide)) | exact .inr fun _ => rfl | with_reducible first | exact Kept.refl _ | assumption | intro _ | apply State.onSys_kept | apply State.ok_kept | apply State.okNv_kept | apply State.refuse_kept | apply State.enterMode_kept | apply State.refuseTransition_kept | apply mailbox_kept | apply checked_kept | exact rfl | apply ite_kept | split)

theorem execConnect_goes {rq : Rq} {s : State} (hm : Sub [.mail, .mode, .rings, .est, .guard, .disp, .events] pp) : Goes pp s (execConnect rq s) := by
  unfold execConnect
  repeat' (first | apply next_goes | apply ite_goes)
  repeat' (first | exact sub_of rfl hm | exact .inl (hm.mem (by decide)) | exact .inr fun _ => rfl | with_reducible first | exact Kept.refl _ | assumption | intro _ | apply State.onGuard_kept | apply State.ok_kept | apply State.enterMode_kept | apply State.refuseTransition_kept | apply mailbox_kept | apply checked_kept | exact rfl | apply ite_kept | split)

theorem execDisconnect_goes {rq : Rq} {s : State} (hm : Sub [.mail, .mode, .rings, .est, .latch, .guard, .disp, .events] pp) : Goes pp s (execDisconnect rq s) := by
  unfold execDisconnect
  apply plainCmd_goes
  repeat' (first | exact sub_of rfl hm | with_reducible first | exact Kept.refl _ | assumption | intro _ | apply State.ordinaryBank_kept | exact rfl)

theorem State.shutDown_kept  {r0 s : State} (hk : Kept pp r0 s) (hm : Sub [.mail, .mode, .run, .guard, .disp, .events, .loops, .load] pp) : Kept pp r0 (State.shutDown s) := by
  unfold State.shutDown
  repeat' (first | exact sub_of rfl hm | exact .inl (hm.mem (by decide)) | exact .inr fun _ => rfl | with_reducible first | assumption | intro _ | apply State.onGuard_kept | apply State.onSys_kept | apply State.onLoops_kept | apply State.onLoad_kept | apply State.setMode_kept | apply State.applyChannels_kept | exact rfl)
  all_goals first | exact sub_of rfl hm | exact .inl (hm.mem (by decide)) | exact .inr fun _ => rfl | exact rfl | exact ⟨rfl, rfl⟩ | exact ⟨rfl, rfl, rfl, rfl, rfl⟩ | exact ⟨rfl, rfl, rfl⟩ | (refine .inr fun _ => ?_; (repeat' split) <;> exact rfl) | exact hk.same rfl rfl rfl (fun p => by cases p <;> first | exact .inr rfl | exact .inl (hm.mem (by decide))) | (repeat' split) <;> first | exact rfl | exact ⟨rfl, rfl⟩ | exact ⟨rfl, rfl, rfl, rfl, rfl⟩ | exact ⟨rfl, rfl, rfl⟩

theorem execShutdown_goes {rq : Rq} {s : State} (hm : Sub [.mail, .mode, .run, .est, .guard, .disp, .events, .recs, .loops, .load] pp) : Goes pp s (execShutdown rq s) := by
  unfold execShutdown
  apply next_goes
  repeat' (first | exact sub_of rfl hm | with_reducible first | exact Kept.refl _ | assumption | intro _ | apply State.raise_kept | apply State.respond_kept | apply State.learnedCheckpoint_kept | apply State.socCheckpoint_kept | apply State.shutDown_kept | apply mailbox_kept | apply checked_kept | exact rfl)

theorem execWhoami_goes {rq : Rq} {s : State} (hm : Sub [.mail] pp) : Goes pp s (execWhoami rq s) := by
  unfold execWhoami
  apply readCmd_goes
  repeat' (first | exact sub_of rfl hm | with_reducible first | exact Kept.refl _ | assumption | intro _ | exact rfl)

theorem State.setAlloc_kept {t : Nat} {en : Bool} {dis chg e init : Nat} {r0 s : State} (hk : Kept pp r0 s) (hm : Sub [.beam, .marks, .disp, .events] pp) : Kept pp r0 (State.setAlloc s t en dis chg e init) := by
  unfold State.setAlloc
  repeat' (first | exact sub_of rfl hm | with_reducible first | assumption | intro _ | apply State.modTenant_kept | apply State.armM3_kept | exact rfl | apply ite_kept | split)

theorem execSetAlloc_goes {rq : Rq} {tenant : Nat} {enabled : Bool} {dis chg e init : Nat} {s : State} (hm : Sub [.mail, .beam, .marks, .disp, .events, .store] pp) : Goes pp s (execSetAlloc rq tenant enabled dis chg e init s) := by
  unfold execSetAlloc
  apply nvWrite_goes
  repeat' (first | exact sub_of rfl hm | with_reducible first | exact Kept.refl _ | assumption | intro _ | apply State.setAlloc_kept | exact rfl | apply ite_kept | split)

theorem execGetAlloc_goes {rq : Rq} {tenant : Nat} {s : State} (hm : Sub [.mail] pp) : Goes pp s (execGetAlloc rq tenant s) := by
  unfold execGetAlloc
  apply readCmd_goes
  repeat' (first | exact sub_of rfl hm | with_reducible first | exact Kept.refl _ | assumption | intro _ | exact rfl)

theorem State.installKey_kept {t slot key : Nat} {r0 s : State} (hk : Kept pp r0 s) (hm : Sub [.mail] pp) : Kept pp r0 (State.installKey s t slot key) := by
  unfold State.installKey
  repeat' (first | exact sub_of rfl hm | with_reducible first | assumption | intro _ | apply State.modPage_kept | exact rfl)

theorem execInstallKey_goes {rq : Rq} {tenant slot key : Nat} {s : State} (hm : Sub [.mail, .events, .store] pp) : Goes pp s (execInstallKey rq tenant slot key s) := by
  unfold execInstallKey
  apply nvWrite_goes
  repeat' (first | exact sub_of rfl hm | with_reducible first | exact Kept.refl _ | assumption | intro _ | apply State.when_kept | apply State.raise_kept | apply State.installKey_kept | exact rfl)

theorem readWords_kept {value : State → Nat → Word} {after : State → Nat → State} {l : List Nat} {r0 s : State}
    (ha : ∀ t o, Kept pp r0 t → Kept pp r0 (after t o)) (h : Kept pp r0 s) : Kept pp r0 (readWords value after l s).2 := by
  induction l generalizing s with
  | nil => exact h
  | cons o l ih => exact ih (ha _ _ h)

theorem writeWords_kept {judge : State → Nat → Nat → Option Refuse} {put : State → Nat → Nat → State} {l : List (Nat × Nat)}
    {r0 s : State} (hp : ∀ t o w, Kept pp r0 t → Kept pp r0 (put t o w)) (h : Kept pp r0 s) : Kept pp r0 (writeWords judge put l s).2 := by
  induction l generalizing s with
  | nil => exact h
  | cons e l ih =>
    unfold writeWords
    split
    · exact h
    · exact ih (hp _ _ _ h)

theorem regRead_goes {rq : Rq} {op off count : Nat} {known : Nat → Bool} {value : State → Nat → Word}
    {after : State → Nat → State} {s : State} (ha : ∀ t o, Kept pp s t → Kept pp s (after t o)) (hm : Sub [.mail] pp) :
    Goes pp s (regRead rq op off count known value after s) :=
  next_goes (mailbox_kept (fun h => checked_kept (fun h => State.ok_kept (readWords_kept ha h) hm) h hm) (Kept.refl s) hm)

theorem regWrite_goes {rq : Rq} {op off : Nat} {data : List Nat} {modes : List Mode} {nv : Bool} {known : Nat → Bool}
    {judge : State → Nat → Nat → Option Refuse} {put : State → Nat → Nat → State} {s : State}
    (hp : ∀ t o w, Kept pp s t → Kept pp s (put t o w)) (hn : nv = true → .store ∈ pp) (hm : Sub [.mail] pp) :
    Goes pp s (regWrite rq op off data modes nv known judge put s) := by
  refine next_goes (mailbox_kept (fun h => checked_kept (fun h => ?_) h hm) (Kept.refl s) hm)
  dsimp only
  have hl := foldl_kept (l := (wordOffsets off data.length).zip data) (f := fun t e => put t e.1 e.2) (fun t x => hp t x.1 x.2) h
  split
  · exact State.refuse_kept h hm
  · exact ite_kept' (fun _ => State.ok_kept hl hm) fun hv => ite_kept (State.okNv_kept hl
      (Sub.cons hm.head (Sub.cons (hn (by simpa using hv)) (sub_of rfl hm)))) (State.refuse_kept h hm)

theorem regWriteSeq_goes {rq : Rq} {op off : Nat} {data : List Nat} {modes : List Mode} {known : Nat → Bool}
    {judge : State → Nat → Nat → Option Refuse} {put : State → Nat → Nat → State} {s : State}
    (hp : ∀ t o w, Kept pp s t → Kept pp s (put t o w)) (hm : Sub [.mail] pp) :
    Goes pp s (regWriteSeq rq op off data modes known judge put s) := by
  refine next_goes (mailbox_kept (fun h => checked_kept (fun h => ?_) h hm) (Kept.refl s) hm)
  have hl := writeWords_kept (judge := judge) (l := (wordOffsets off data.length).zip data) hp h
  split
  · exact State.refuse_kept h hm
  · rename_i t ht
    rw [ht] at hl
    exact State.ok_kept hl hm

theorem execReadCell_goes {rq : Rq} {point : Nat} {s : State} (hm : Sub [.mail] pp) : Goes pp s (execReadCell rq point s) := by
  unfold execReadCell
  apply readCmd_goes
  repeat' (first | exact sub_of rfl hm | with_reducible first | exact Kept.refl _ | assumption | intro _ | exact rfl)

theorem execReadTemp_goes {rq : Rq} {point : Nat} {s : State} (hm : Sub [.mail] pp) : Goes pp s (execReadTemp rq point s) := by
  unfold execReadTemp
  apply readCmd_goes
  repeat' (first | exact sub_of rfl hm | with_reducible first | exact Kept.refl _ | assumption | intro _ | exact rfl)

theorem execReadString_goes {rq : Rq} {port string : Nat} {s : State} (hm : Sub [.mail] pp) : Goes pp s (execReadString rq port string s) := by
  unfold execReadString
  apply readCmd_goes
  repeat' (first | exact sub_of rfl hm | with_reducible first | exact Kept.refl _ | assumption | intro _ | exact rfl)

theorem execReadStringThermal_goes {rq : Rq} {port string : Nat} {s : State} (hm : Sub [.mail] pp) : Goes pp s (execReadStringThermal rq port string s) := by
  unfold execReadStringThermal
  apply readCmd_goes
  repeat' (first | exact sub_of rfl hm | with_reducible first | exact Kept.refl _ | assumption | intro _ | exact rfl)

theorem execReadBankThermal_goes {rq : Rq} {s : State} (hm : Sub [.mail] pp) : Goes pp s (execReadBankThermal rq s) := by
  unfold execReadBankThermal
  apply readCmd_goes
  repeat' (first | exact sub_of rfl hm | with_reducible first | exact Kept.refl _ | assumption | intro _ | exact rfl)

theorem execReadLearned_goes {rq : Rq} {point : Nat} {s : State} (hm : Sub [.mail] pp) : Goes pp s (execReadLearned rq point s) := by
  unfold execReadLearned
  apply readCmd_goes
  repeat' (first | exact sub_of rfl hm | with_reducible first | exact Kept.refl _ | assumption | intro _ | exact rfl)

theorem execReadImpedance_goes {rq : Rq} {point : Nat} {s : State} (hm : Sub [.mail] pp) : Goes pp s (execReadImpedance rq point s) := by
  unfold execReadImpedance
  apply readCmd_goes
  repeat' (first | exact sub_of rfl hm | with_reducible first | exact Kept.refl _ | assumption | intro _ | exact rfl)

theorem execBulkCells_goes {rq : Rq} {b : Bulk} {dma : Option Nat} {s : State} (hm : Sub [.mail, .bulk] pp) : Goes pp s (execBulkCells rq b dma s) := by
  unfold execBulkCells
  apply bulkRead_goes
  repeat' (first | exact sub_of rfl hm | with_reducible first | exact Kept.refl _ | assumption | intro _ | exact rfl)

theorem execBulkStrings_goes {rq : Rq} {b : Bulk} {dma : Option Nat} {s : State} (hm : Sub [.mail, .bulk] pp) : Goes pp s (execBulkStrings rq b dma s) := by
  unfold execBulkStrings
  apply bulkRead_goes
  repeat' (first | exact sub_of rfl hm | with_reducible first | exact Kept.refl _ | assumption | intro _ | exact rfl)

theorem execBulkStringThermal_goes {rq : Rq} {b : Bulk} {dma : Option Nat} {s : State} (hm : Sub [.mail, .bulk] pp) : Goes pp s (execBulkStringThermal rq b dma s) := by
  unfold execBulkStringThermal
  apply bulkRead_goes
  repeat' (first | exact sub_of rfl hm | with_reducible first | exact Kept.refl _ | assumption | intro _ | exact rfl)

theorem execBulkLearned_goes {rq : Rq} {b : Bulk} {dma : Option Nat} {s : State} (hm : Sub [.mail, .bulk] pp) : Goes pp s (execBulkLearned rq b dma s) := by
  unfold execBulkLearned
  apply bulkRead_goes
  repeat' (first | exact sub_of rfl hm | with_reducible first | exact Kept.refl _ | assumption | intro _ | exact rfl)

theorem execBulkImpedance_goes {rq : Rq} {b : Bulk} {dma : Option Nat} {s : State} (hm : Sub [.mail, .bulk] pp) : Goes pp s (execBulkImpedance rq b dma s) := by
  unfold execBulkImpedance
  apply bulkRead_goes
  repeat' (first | exact sub_of rfl hm | with_reducible first | exact Kept.refl _ | assumption | intro _ | exact rfl)

theorem execSetTempMap_goes {rq : Rq} {port pos : Nat} {map : List Nat} {s : State} (hm : Sub [.mail, .conf, .store] pp) : Goes pp s (execSetTempMap rq port pos map s) := by
  unfold execSetTempMap
  apply nvWrite_goes
  repeat' (first | exact sub_of rfl hm | with_reducible first | exact Kept.refl _ | assumption | intro _ | apply State.onConf_kept | exact rfl)

theorem execGetTempMap_goes {rq : Rq} {port pos : Nat} {s : State} (hm : Sub [.mail, .fresh] pp) : Goes pp s (execGetTempMap rq port pos s) := by
  unfold execGetTempMap
  apply next_goes
  repeat' (first | exact sub_of rfl hm | with_reducible first | exact Kept.refl _ | assumption | intro _ | apply State.free_kept | apply State.ok_kept | apply mailbox_kept | apply checked_kept | exact rfl)

theorem execWriteThermal_goes {rq : Rq} {port string : Nat} {levels : List Int} {s : State} (hm : Sub [.mail, .est] pp) : Goes pp s (execWriteThermal rq port string levels s) := by
  unfold execWriteThermal
  try dsimp only
  first
  | apply plainCmd_goes
  | skip
  repeat' (first | apply onlyIf_goes | apply next_goes | apply done_goes | apply ite_goes)
  repeat' (first | exact sub_of rfl hm | exact .inl (hm.mem (by decide)) | exact .inr fun _ => rfl | with_reducible first | exact Kept.refl _ | assumption | intro _ _ _ | intro _ _ | intro _ | apply ite_kept | apply State.onEst_kept | apply foldl_kept | exact rfl | split | exact (by assumption : Kept _ _ _).same rfl rfl rfl (fun p => by cases p <;> first | exact .inr rfl | exact .inl (hm.mem (by decide))) | exact (Kept.refl _).same rfl rfl rfl (fun p => by cases p <;> first | exact .inr rfl | exact .inl (hm.mem (by decide))))
  all_goals (try dsimp only)
  all_goals (first | exact sub_of rfl hm | exact .inl (hm.mem (by decide)) | exact .inr fun _ => rfl | exact rfl | exact ⟨rfl, rfl⟩ | exact ⟨rfl, rfl, rfl, rfl, rfl⟩ | exact ⟨rfl, rfl, rfl⟩ | (refine .inr fun _ => ?_; (repeat' split) <;> exact rfl) | exact (Kept.refl _).same rfl rfl rfl (fun p => by cases p <;> first | exact .inr rfl | exact .inl (hm.mem (by decide))) | exact (Kept.refl _).same rfl rfl rfl (fun p => by cases p <;> first | exact .inr rfl | exact .inl (hm.mem (by decide))) | exact (by assumption : Kept _ _ _).same rfl rfl rfl (fun p => by cases p <;> first | exact .inr rfl | exact .inl (hm.mem (by decide))) | ((repeat' split) <;> first | exact rfl | exact ⟨rfl, rfl⟩ | exact ⟨rfl, rfl, rfl, rfl, rfl⟩ | exact ⟨rfl, rfl, rfl⟩))

theorem execReadThermal_goes {rq : Rq} {port string buf : Nat} {s : State} (hm : Sub [.mail] pp) : Goes pp s (execReadThermal rq port string buf s) := by
  unfold execReadThermal
  apply readCmd_goes
  repeat' (first | exact sub_of rfl hm | with_reducible first | exact Kept.refl _ | assumption | intro _ | exact rfl)

theorem execTinRead_goes {rq : Rq} {off count : Nat} {s : State} (hm : Sub [.mail] pp) : Goes pp s (execTinRead rq off count s) := by
  unfold execTinRead
  apply regRead_goes
  repeat' (first | exact sub_of rfl hm | with_reducible first | exact Kept.refl _ | assumption | intro _ | apply State.count_kept | exact rfl)

theorem State.tinPut_kept {off w : Nat} {r0 s : State} (hk : Kept pp r0 s) (hm : Sub [.conf] pp) : Kept pp r0 (State.tinPut s off w) := by
  unfold State.tinPut
  repeat' (first | exact sub_of rfl hm | with_reducible first | assumption | intro _ | apply State.when_kept | apply State.setTinConf_kept | exact rfl | apply ite_kept | split)

theorem execTinWrite_goes {rq : Rq} {off : Nat} {data : List Nat} {s : State} (hm : Sub [.mail, .conf, .store] pp) : Goes pp s (execTinWrite rq off data s) := by
  unfold execTinWrite
  apply regWrite_goes
  repeat' (first | exact sub_of rfl hm | with_reducible first | exact Kept.refl _ | assumption | exact fun _ => hm.mem (by decide) | exact fun h => absurd h (by decide) | exact hm.mem (by decide) | intro _ | apply State.tinPut_kept | exact rfl)

theorem execSetGroup_goes {rq : Rq} {group source ch unit : Nat} {strings : List (Nat × Nat)} {s : State} (hm : Sub [.mail, .conf, .store] pp) : Goes pp s (execSetGroup rq group source ch unit strings s) := by
  unfold execSetGroup
  apply nvWrite_goes
  repeat' (first | exact sub_of rfl hm | with_reducible first | exact Kept.refl _ | assumption | intro _ | apply State.onConf_kept | exact rfl | apply ite_kept | split)

theorem execGetGroup_goes {rq : Rq} {group : Nat} {s : State} (hm : Sub [.mail] pp) : Goes pp s (execGetGroup rq group s) := by
  unfold execGetGroup
  apply readCmd_goes
  repeat' (first | exact sub_of rfl hm | with_reducible first | exact Kept.refl _ | assumption | intro _ | exact rfl)

theorem State.abandonInterval_kept {k : Nat} {r0 s : State} (hk : Kept pp r0 s) (hm : Sub [.est, .events, .fresh] pp) : Kept pp r0 (State.abandonInterval s k) := by
  unfold State.abandonInterval
  repeat' (first | exact sub_of rfl hm | with_reducible first | assumption | intro _ | apply State.free_kept | apply State.modCell_kept | apply State.modStr_kept | apply State.raise_kept | apply forEach_kept | exact rfl | apply ite_kept | split)

theorem State.resetLearned_kept {scope port id : Nat} {ps : List Nat} {r0 s : State} (hk : Kept pp r0 s) (hm : Sub [.est, .events, .fresh] pp) : Kept pp r0 (State.resetLearned s scope port id ps) := by
  unfold State.resetLearned
  repeat' (first | exact sub_of rfl hm | with_reducible first | assumption | intro _ | apply State.modCell_kept | apply State.raise_kept | apply State.abandonInterval_kept | apply forEach_kept | exact rfl | apply ite_kept | split)

theorem execResetLearned_goes {rq : Rq} {scope port id input : Nat} {s : State} (hm : Sub [.mail, .est, .events, .store, .fresh] pp) : Goes pp s (execResetLearned rq scope port id input s) := by
  unfold execResetLearned
  apply nvWrite_goes
  repeat' (first | exact sub_of rfl hm | with_reducible first | exact Kept.refl _ | assumption | intro _ | apply State.resetLearned_kept | exact rfl)

theorem execClearShort_goes {rq : Rq} {port string : Nat} {s : State} (hm : Sub [.mail, .est, .store] pp) : Goes pp s (execClearShort rq port string s) := by
  unfold execClearShort
  apply nvWrite_goes
  repeat' (first | exact sub_of rfl hm | with_reducible first | exact Kept.refl _ | assumption | intro _ | apply State.modCell_kept | apply State.modStr_kept | apply forEach_kept | exact rfl)

theorem State.takeImage_kept {rq : Rq} {l : List Byte} {consumed : Nat} {r0 s : State} (hk : Kept pp r0 s) (hm : Sub [.mail, .sched, .events, .fresh] pp) : Kept pp r0 (State.takeImage rq l consumed s) := by
  unfold State.takeImage
  repeat' (first | exact sub_of rfl hm | with_reducible first | assumption | intro _ | apply State.free_kept | apply State.onSched_kept | apply State.raise_kept | apply State.refuse_kept | apply State.bulkAnswer_kept | exact rfl | apply ite_kept | split)

theorem execLoadImage_goes {rq : Rq} {b : Bulk} {data : List Byte} {dma : Option Nat} {s : State} (hm : Sub [.mail, .bulk, .sched, .events, .fresh] pp) : Goes pp s (execLoadImage rq b data dma s) := by
  unfold execLoadImage
  apply bulkCmd_goes
  repeat' (first | exact sub_of rfl hm | with_reducible first | exact Kept.refl _ | assumption | intro _ | apply State.bulkTake_kept | apply State.takeImage_kept | exact rfl)

theorem execReadImage_goes {rq : Rq} {b : Bulk} {dma : Option Nat} {s : State} (hm : Sub [.mail, .bulk] pp) : Goes pp s (execReadImage rq b dma s) := by
  unfold execReadImage
  apply bulkRead_goes
  repeat' (first | exact sub_of rfl hm | with_reducible first | exact Kept.refl _ | assumption | intro _ | exact rfl | apply ite_kept | split)

theorem execKernelInfo_goes {rq : Rq} {s : State} (hm : Sub [.mail] pp) : Goes pp s (execKernelInfo rq s) := by
  unfold execKernelInfo
  apply readCmd_goes
  repeat' (first | exact sub_of rfl hm | with_reducible first | exact Kept.refl _ | assumption | intro _ | exact rfl)

theorem execWriteLimits_goes {rq : Rq} {port string : Nat} {fields : List Nat} {s : State} (hm : Sub [.mail, .guard] pp) : Goes pp s (execWriteLimits rq port string fields s) := by
  unfold execWriteLimits
  apply plainCmd_goes
  repeat' (first | exact sub_of rfl hm | exact .inl (hm.mem (by decide)) | exact .inr fun _ => rfl | with_reducible first | exact Kept.refl _ | assumption | intro _ | apply State.onGuard_kept | apply foldl_kept | exact rfl)

theorem execReadLimits_goes {rq : Rq} {port string buf : Nat} {s : State} (hm : Sub [.mail] pp) : Goes pp s (execReadLimits rq port string buf s) := by
  unfold execReadLimits
  apply readCmd_goes
  repeat' (first | exact sub_of rfl hm | with_reducible first | exact Kept.refl _ | assumption | intro _ | exact rfl)

theorem execWriteSeq_goes {rq : Rq} {section_ first : Nat} {roles : List Nat} {words : List (List Nat)} {s : State} (hm : Sub [.mail, .guard] pp) : Goes pp s (execWriteSeq rq section_ first roles words s) := by
  unfold execWriteSeq
  apply plainCmd_goes
  repeat' (first | exact sub_of rfl hm | exact .inl (hm.mem (by decide)) | exact .inr fun _ => rfl | with_reducible first | exact Kept.refl _ | assumption | intro _ | apply State.onGuard_kept | exact rfl | apply ite_kept | split)

theorem execReadSeq_goes {rq : Rq} {section_ first count buf : Nat} {s : State} (hm : Sub [.mail] pp) : Goes pp s (execReadSeq rq section_ first count buf s) := by
  unfold execReadSeq
  apply readCmd_goes
  repeat' (first | exact sub_of rfl hm | with_reducible first | exact Kept.refl _ | assumption | intro _ | apply State.count_kept | exact rfl | apply ite_kept | split)

theorem State.refuseStaged_kept {rq : Rq} {d : Nat} {row : Option Nat} {hi lo : Nat} {r0 s : State} (hk : Kept pp r0 s) (hm : Sub [.mail, .events, .fresh] pp) : Kept pp r0 (State.refuseStaged s rq d row hi lo) := by
  unfold State.refuseStaged
  repeat' (first | exact sub_of rfl hm | with_reducible first | assumption | intro _ | apply State.free_kept | apply State.raise_kept | apply State.refuse_kept | exact rfl)

theorem execExchange_goes {rq : Rq} {mask : Nat} {s : State} (hm : Sub [.mail, .sys, .beam, .marks, .events, .fresh] pp) : Goes pp s (execExchange rq mask s) := by
  unfold execExchange
  repeat' (first | apply next_goes | apply ite_goes | split)
  repeat' (first | exact sub_of rfl hm | exact .inl (hm.mem (by decide)) | exact .inr fun _ => rfl | with_reducible first | exact Kept.refl _ | assumption | intro _ | apply State.onSys_kept | apply State.refuse_kept | apply State.armM3_kept | apply State.refuseStaged_kept | apply mailbox_kept | apply checked_kept | exact rfl | apply ite_kept | split)

theorem State.discardBuffers_kept {mask : Nat} {r0 s : State} (hk : Kept pp r0 s) (hm : Sub [.sched, .est, .guard] pp) : Kept pp r0 (State.discardBuffers s mask) := by
  unfold State.discardBuffers
  try dsimp only
  repeat' (first | exact sub_of rfl hm | exact .inl (hm.mem (by decide)) | exact .inr fun _ => rfl | with_reducible first | exact Kept.refl _ | assumption | intro _ _ _ | intro _ _ | intro _ | apply ite_kept | apply State.when_kept | apply State.onGuard_kept | apply State.onEst_kept | apply State.onSched_kept | apply foldl_kept | exact rfl | split | exact (by assumption : Kept _ _ _).same rfl rfl rfl (fun p => by cases p <;> first | exact .inr rfl | exact .inl (hm.mem (by decide))) | exact (Kept.refl _).same rfl rfl rfl (fun p => by cases p <;> first | exact .inr rfl | exact .inl (hm.mem (by decide))))
  all_goals (try dsimp only)
  all_goals (first | exact sub_of rfl hm | exact .inl (hm.mem (by decide)) | exact .inr fun _ => rfl | exact rfl | exact ⟨rfl, rfl⟩ | exact ⟨rfl, rfl, rfl, rfl, rfl⟩ | exact ⟨rfl, rfl, rfl⟩ | (refine .inr fun _ => ?_; (repeat' split) <;> exact rfl) | exact hk.same rfl rfl rfl (fun p => by cases p <;> first | exact .inr rfl | exact .inl (hm.mem (by decide))) | exact (Kept.refl _).same rfl rfl rfl (fun p => by cases p <;> first | exact .inr rfl | exact .inl (hm.mem (by decide))) | exact (by assumption : Kept _ _ _).same rfl rfl rfl (fun p => by cases p <;> first | exact .inr rfl | exact .inl (hm.mem (by decide))) | ((repeat' split) <;> first | exact rfl | exact ⟨rfl, rfl⟩ | exact ⟨rfl, rfl, rfl, rfl, rfl⟩ | exact ⟨rfl, rfl, rfl⟩))

theorem execDiscard_goes {rq : Rq} {mask : Nat} {s : State} (hm : Sub [.mail, .sched, .est, .guard] pp) : Goes pp s (execDiscard rq mask s) := by
  unfold execDiscard
  apply plainCmd_goes
  repeat' (first | exact sub_of rfl hm | with_reducible first | exact Kept.refl _ | assumption | intro _ | apply State.discardBuffers_kept | exact rfl)

theorem State.exchangeKernel_kept {gen : Nat} {r0 s : State} (hk : Kept pp r0 s) (hm : Sub [.sched, .rods, .est, .events] pp) : Kept pp r0 (State.exchangeKernel s gen) := by
  unfold State.exchangeKernel
  repeat' (first | exact sub_of rfl hm | with_reducible first | assumption | intro _ | apply State.when_kept | apply State.modRod_kept | apply State.modStr_kept | apply State.onSched_kept | apply State.raise_kept | apply forEach_kept | exact rfl | apply ite_kept | split)

theorem State.revertKernel_kept {gen : Nat} {r0 s : State} (hk : Kept pp r0 s) (hm : Sub [.sched, .rods, .est, .events] pp) : Kept pp r0 (State.revertKernel s gen) := by
  unfold State.revertKernel
  repeat' (first | exact sub_of rfl hm | with_reducible first | assumption | intro _ | apply State.onSched_kept | apply State.raise_kept | apply State.exchangeKernel_kept | exact rfl | apply ite_kept | split)

theorem State.exchangeLimits_kept  {r0 s : State} (hk : Kept pp r0 s) (hm : Sub [.est, .guard] pp) : Kept pp r0 (State.exchangeLimits s) := by
  unfold State.exchangeLimits
  repeat' (first | exact sub_of rfl hm | exact .inl (hm.mem (by decide)) | exact .inr fun _ => rfl | with_reducible first | assumption | intro _ | apply State.modStr_kept | apply State.onGuard_kept | apply forEach_kept | exact rfl)

theorem State.exchangeThermal_kept  {r0 s : State} (hk : Kept pp r0 s) (hm : Sub [.est] pp) : Kept pp r0 (State.exchangeThermal s) := by
  unfold State.exchangeThermal
  try dsimp only
  repeat' (first | exact sub_of rfl hm | exact .inl (hm.mem (by decide)) | exact .inr fun _ => rfl | with_reducible first | exact Kept.refl _ | assumption | intro _ _ _ | intro _ _ | intro _ | apply ite_kept | apply State.modStr_kept | apply State.onEst_kept | apply forEach_kept | apply foldl_kept | exact rfl | split | exact (by assumption : Kept _ _ _).same rfl rfl rfl (fun p => by cases p <;> first | exact .inr rfl | exact .inl (hm.mem (by decide))) | exact (Kept.refl _).same rfl rfl rfl (fun p => by cases p <;> first | exact .inr rfl | exact .inl (hm.mem (by decide))))
  all_goals (try dsimp only)
  all_goals (first | exact sub_of rfl hm | exact .inl (hm.mem (by decide)) | exact .inr fun _ => rfl | exact rfl | exact ⟨rfl, rfl⟩ | exact ⟨rfl, rfl, rfl, rfl, rfl⟩ | exact ⟨rfl, rfl, rfl⟩ | (refine .inr fun _ => ?_; (repeat' split) <;> exact rfl) | exact hk.same rfl rfl rfl (fun p => by cases p <;> first | exact .inr rfl | exact .inl (hm.mem (by decide))) | exact (Kept.refl _).same rfl rfl rfl (fun p => by cases p <;> first | exact .inr rfl | exact .inl (hm.mem (by decide))) | exact (by assumption : Kept _ _ _).same rfl rfl rfl (fun p => by cases p <;> first | exact .inr rfl | exact .inl (hm.mem (by decide))) | ((repeat' split) <;> first | exact rfl | exact ⟨rfl, rfl⟩ | exact ⟨rfl, rfl, rfl, rfl, rfl⟩ | exact ⟨rfl, rfl, rfl⟩))

theorem State.takeSeq_kept {t : SeqTable} {r0 s : State} (hk : Kept pp r0 s) (hm : Sub [.guard, .load] pp) : Kept pp r0 (State.takeSeq s t) := by
  unfold State.takeSeq
  repeat' (first | exact sub_of rfl hm | exact .inl (hm.mem (by decide)) | exact .inr fun _ => rfl | with_reducible first | assumption | intro _ | apply State.when_kept | apply State.onGuard_kept | apply State.onLoad_kept | apply State.turnOff_kept | apply State.applyChannels_kept | apply forEach_kept | exact rfl)

theorem State.exchangeSeq_kept  {r0 s : State} (hk : Kept pp r0 s) (hm : Sub [.guard, .load] pp) : Kept pp r0 (State.exchangeSeq s) := by
  unfold State.exchangeSeq
  repeat' (first | exact sub_of rfl hm | exact .inl (hm.mem (by decide)) | exact .inr fun _ => rfl | with_reducible first | assumption | intro _ | apply State.onGuard_kept | apply State.takeSeq_kept | exact rfl | apply ite_kept | split)

theorem State.takeStored_kept  {r0 s : State} (hk : Kept pp r0 s) (hm : Sub [.est, .guard, .load] pp) : Kept pp r0 (State.takeStored s) := by
  unfold State.takeStored
  repeat' (first | exact sub_of rfl hm | exact .inl (hm.mem (by decide)) | exact .inr fun _ => rfl | with_reducible first | assumption | intro _ | apply State.when_kept | apply State.modStr_kept | apply State.onGuard_kept | apply State.takeSeq_kept | apply forEach_kept | exact rfl | apply ite_kept | split)

theorem State.answerExchange_kept {gen : Nat} {r0 s : State} (hk : Kept pp r0 s) (hm : Sub [.mail, .sys, .events, .store] pp) : Kept pp r0 (State.answerExchange s gen) := by
  unfold State.answerExchange
  repeat' (first | exact sub_of rfl hm | exact .inl (hm.mem (by decide)) | exact .inr fun _ => rfl | with_reducible first | assumption | intro _ | apply State.onSys_kept | apply State.raise_kept | apply State.commitCfg_kept | apply State.respond_kept | exact rfl | apply ite_kept | split)

theorem execExchangeMark_goes  {s : State} (hm : Sub [.mail, .sys, .beam, .marks, .sched, .rods, .est, .guard, .disp, .events, .store, .load] pp) : Goes pp s (execExchangeMark s) := by
  unfold execExchangeMark
  repeat' (first | apply onlyIf_goes | apply ite_goes)
  repeat' (first | exact sub_of rfl hm | with_reducible first | exact Kept.refl _ | assumption | intro _ | apply State.when_kept | apply State.fireMark_kept | apply State.applyAllocs_kept | apply State.exchangeKernel_kept | apply State.revertKernel_kept | apply State.exchangeLimits_kept | apply State.exchangeThermal_kept | apply State.exchangeSeq_kept | apply State.takeStored_kept | apply State.answerExchange_kept | exact rfl | apply ite_kept | split)

theorem execSubmit_goes {rq : Rq} {entries : List (Nat × Int × Nat × Bool)} {s : State} (hm : Sub [.mail, .disp] pp) : Goes pp s (execSubmit rq entries s) := by
  unfold execSubmit
  repeat' (first | apply next_goes | split)
  repeat' (first | exact sub_of rfl hm | with_reducible first | exact Kept.refl _ | assumption | intro _ | apply State.modTenant_kept | apply State.ok_kept | apply State.refuse_kept | apply mailbox_kept | apply foldl_kept | exact rfl | apply ite_kept | split)

theorem execReadSchedule_goes {rq : Rq} {tenant fromSlot : Nat} {s : State} (hm : Sub [.mail] pp) : Goes pp s (execReadSchedule rq tenant fromSlot s) := by
  unfold execReadSchedule
  apply readCmd_goes
  repeat' (first | exact sub_of rfl hm | with_reducible first | exact Kept.refl _ | assumption | intro _ | exact rfl)

theorem execTenantRecord_goes {rq : Rq} {tenant : Nat} {s : State} (hm : Sub [.mail] pp) : Goes pp s (execTenantRecord rq tenant s) := by
  unfold execTenantRecord
  apply readCmd_goes
  repeat' (first | exact sub_of rfl hm | with_reducible first | exact Kept.refl _ | assumption | intro _ | exact rfl)

theorem execBankRecord_goes {rq : Rq} {s : State} (hm : Sub [.mail] pp) : Goes pp s (execBankRecord rq s) := by
  unfold execBankRecord
  apply readCmd_goes
  repeat' (first | exact sub_of rfl hm | with_reducible first | exact Kept.refl _ | assumption | intro _ | exact rfl)

theorem State.clearStop_kept {rq : Rq} {t : Nat} {r0 s : State} (hk : Kept pp r0 s) (hm : Sub [.guard] pp) : Kept pp r0 (State.clearStop s rq t) := by
  unfold State.clearStop
  repeat' (first | exact sub_of rfl hm | exact .inl (hm.mem (by decide)) | exact .inr fun _ => rfl | with_reducible first | assumption | intro _ | apply State.when_kept | apply State.onGuard_kept | exact rfl)

theorem execResume_goes {rq : Rq} {tenant : Nat} {s : State} (hm : Sub [.mail, .guard] pp) : Goes pp s (execResume rq tenant s) := by
  unfold execResume
  apply plainCmd_goes
  repeat' (first | exact sub_of rfl hm | with_reducible first | exact Kept.refl _ | assumption | intro _ | apply State.clearStop_kept | exact rfl)

theorem State.adjustLedger_kept {t e : Nat} {r0 s : State} (hk : Kept pp r0 s) (hm : Sub [.disp, .events] pp) : Kept pp r0 (State.adjustLedger s t e) := by
  unfold State.adjustLedger
  repeat' (first | exact sub_of rfl hm | with_reducible first | assumption | intro _ | apply State.modTenant_kept | apply State.raise_kept | exact rfl)

theorem execLedgerAdjust_goes {rq : Rq} {tenant e : Nat} {s : State} (hm : Sub [.mail, .disp, .events] pp) : Goes pp s (execLedgerAdjust rq tenant e s) := by
  unfold execLedgerAdjust
  apply plainCmd_goes
  repeat' (first | exact sub_of rfl hm | with_reducible first | exact Kept.refl _ | assumption | intro _ | apply State.adjustLedger_kept | exact rfl)

theorem execSetBinding_goes {rq : Rq} {src ch mode failsafe : Nat} {x0 : Int} {db : Nat} {gain : Int} {pmax : Nat} {s : State} (hm : Sub [.mail, .conf, .store] pp) : Goes pp s (execSetBinding rq src ch mode failsafe x0 db gain pmax s) := by
  unfold execSetBinding
  apply nvWrite_goes
  repeat' (first | exact sub_of rfl hm | with_reducible first | exact Kept.refl _ | assumption | intro _ | apply State.onConf_kept | exact rfl)

theorem execGetBinding_goes {rq : Rq} {s : State} (hm : Sub [.mail] pp) : Goes pp s (execGetBinding rq s) := by
  unfold execGetBinding
  apply readCmd_goes
  repeat' (first | exact sub_of rfl hm | with_reducible first | exact Kept.refl _ | assumption | intro _ | exact rfl)

end Sys2Proof.Machine
end

