-- ==== Sys2Proof/Laws/KeptCanCore.lean ====
section
/-! SUPPORT. Each operation and each meaning of CanCore, ProtCmds, BeamCmds, LoopEng goes on and keeps the queue, the clock, canonical tables, and every part outside its list. -/
namespace Sys2Proof.Machine
open Sys2Proof

variable {pp : List Part}

theorem State.busOff_kept {n : Nat} {r0 s : State} (hk : Kept pp r0 s) (hm : Sub [.events, .can] pp) : Kept pp r0 (State.busOff s n) := by
  unfold State.busOff
  repeat' (first | exact sub_of rfl hm | with_reducible first | assumption | intro _ | apply State.modCtrl_kept | apply State.raise_kept | exact rfl)

theorem State.followErrors_kept {n : Nat} {r0 s : State} (hk : Kept pp r0 s) (hm : Sub [.events, .can] pp) : Kept pp r0 (State.followErrors s n) := by
  unfold State.followErrors
  repeat' (first | exact sub_of rfl hm | with_reducible first | assumption | intro _ | apply State.when_kept | apply State.modCtrl_kept | apply State.raise_kept | apply State.busOff_kept | exact rfl | apply ite_kept | split)

theorem State.leaveAlone_kept {n : Nat} {r0 s : State} (hk : Kept pp r0 s) (hm : Sub [.events, .can] pp) : Kept pp r0 (State.leaveAlone s n) := by
  unfold State.leaveAlone
  repeat' (first | exact sub_of rfl hm | with_reducible first | assumption | intro _ | apply State.modCtrl_kept | apply State.raise_kept | apply State.startFrame_kept | exact rfl | apply ite_kept | split)

theorem State.retryLimit_kept {n place : Nat} {m : TxMsg} {code : Nat} {r0 s : State} (hk : Kept pp r0 s) (hm : Sub [.events, .can] pp) : Kept pp r0 (State.retryLimit s n place m code) := by
  unfold State.retryLimit
  repeat' (first | exact sub_of rfl hm | with_reducible first | assumption | intro _ | apply State.modCtrl_kept | apply State.raise_kept | exact rfl | apply ite_kept | split)

theorem State.txEnd_kept {n code : Nat} {r0 s : State} (hk : Kept pp r0 s) (hm : Sub [.events, .can] pp) : Kept pp r0 (State.txEnd s n code) := by
  unfold State.txEnd
  repeat' (first | exact sub_of rfl hm | with_reducible first | assumption | intro _ | apply State.modCtrl_kept | apply State.chooseAgain_kept | apply State.followErrors_kept | apply State.retryLimit_kept | exact rfl | apply ite_kept | split)

theorem State.guardTxEnd_kept {code : Nat} {r0 s : State} (hk : Kept pp r0 s) (hm : Sub [.can] pp) : Kept pp r0 (State.guardTxEnd s code) := by
  unfold State.guardTxEnd
  try dsimp only
  repeat' (first | exact sub_of rfl hm | exact .inl (hm.mem (by decide)) | exact .inr fun _ => rfl | with_reducible first | exact Kept.refl _ | assumption | intro _ _ _ | intro _ _ | intro _ | apply ite_kept | apply State.onCan_kept | apply foldl_kept | exact rfl | split | exact (by assumption : Kept _ _ _).same rfl rfl rfl (fun p => by cases p <;> first | exact .inr rfl | exact .inl (hm.mem (by decide))) | exact (Kept.refl _).same rfl rfl rfl (fun p => by cases p <;> first | exact .inr rfl | exact .inl (hm.mem (by decide))))
  all_goals (try dsimp only)
  all_goals (first | exact sub_of rfl hm | exact .inl (hm.mem (by decide)) | exact .inr fun _ => rfl | exact rfl | exact ⟨rfl, rfl⟩ | exact ⟨rfl, rfl, rfl, rfl, rfl⟩ | exact ⟨rfl, rfl, rfl⟩ | (refine .inr fun _ => ?_; (repeat' split) <;> exact rfl) | exact hk.same rfl rfl rfl (fun p => by cases p <;> first | exact .inr rfl | exact .inl (hm.mem (by decide))) | exact (Kept.refl _).same rfl rfl rfl (fun p => by cases p <;> first | exact .inr rfl | exact .inl (hm.mem (by decide))) | exact (by assumption : Kept _ _ _).same rfl rfl rfl (fun p => by cases p <;> first | exact .inr rfl | exact .inl (hm.mem (by decide))) | ((repeat' split) <;> first | exact rfl | exact ⟨rfl, rfl⟩ | exact ⟨rfl, rfl, rfl, rfl, rfl⟩ | exact ⟨rfl, rfl, rfl⟩))

theorem State.framePassed_kept {n : Nat} {r0 s : State} (hk : Kept pp r0 s) (hm : Sub [.can] pp) : Kept pp r0 (State.framePassed s n) := by
  unfold State.framePassed
  repeat' (first | exact sub_of rfl hm | with_reducible first | assumption | intro _ | apply State.when_kept | apply State.onCan_kept | exact rfl)
  all_goals first | exact sub_of rfl hm | exact .inl (hm.mem (by decide)) | exact .inr fun _ => rfl | exact rfl | exact ⟨rfl, rfl⟩ | exact ⟨rfl, rfl, rfl, rfl, rfl⟩ | exact ⟨rfl, rfl, rfl⟩ | (refine .inr fun _ => ?_; (repeat' split) <;> exact rfl) | exact hk.same rfl rfl rfl (fun p => by cases p <;> first | exact .inr rfl | exact .inl (hm.mem (by decide))) | (repeat' split) <;> first | exact rfl | exact ⟨rfl, rfl⟩ | exact ⟨rfl, rfl, rfl, rfl, rfl⟩ | exact ⟨rfl, rfl, rfl⟩

theorem execCanTxComplete_goes {ch : Nat} {guard : Bool} {result : Nat} {s : State} (hm : Sub [.events, .can] pp) : Goes pp s (execCanTxComplete ch guard result s) := by
  unfold execCanTxComplete
  repeat' (first | apply onlyIf_goes | apply ite_goes)
  repeat' (first | exact sub_of rfl hm | with_reducible first | exact Kept.refl _ | assumption | intro _ | apply State.chooseAgain_kept | apply State.txEnd_kept | apply State.guardTxEnd_kept | apply State.framePassed_kept | exact rfl | apply ite_kept | split)

theorem State.probed_kept {n : Nat} {r0 s : State} (hk : Kept pp r0 s) (hm : Sub [.can] pp) : Kept pp r0 (State.probed s n) := by
  unfold State.probed
  repeat' (first | exact sub_of rfl hm | with_reducible first | assumption | intro _ | apply State.modCtrl_kept | exact rfl)

theorem execAloneProbe_goes {ch result : Nat} {s : State} (hm : Sub [.events, .can] pp) : Goes pp s (execAloneProbe ch result s) := by
  unfold execAloneProbe
  repeat' (first | apply onlyIf_goes | apply ite_goes)
  repeat' (first | exact sub_of rfl hm | with_reducible first | exact Kept.refl _ | assumption | intro _ | apply State.modCtrl_kept | apply State.followErrors_kept | apply State.leaveAlone_kept | apply State.probed_kept | exact rfl | apply ite_kept | split)

theorem execAloneLeft_goes {ch : Nat} {acknowledged : Bool} {s : State} (hm : Sub [.events, .can] pp) : Goes pp s (execAloneLeft ch acknowledged s) := by
  unfold execAloneLeft
  apply onlyIf_goes
  repeat' (first | exact sub_of rfl hm | with_reducible first | exact Kept.refl _ | assumption | intro _ | apply State.when_kept | apply State.leaveAlone_kept | apply State.probed_kept | exact rfl)

theorem State.rejoinBus_kept {n : Nat} {r0 s : State} (hk : Kept pp r0 s) (hm : Sub [.events, .can] pp) : Kept pp r0 (State.rejoinBus s n) := by
  unfold State.rejoinBus
  repeat' (first | exact sub_of rfl hm | with_reducible first | assumption | intro _ | apply State.modCtrl_kept | apply State.raise_kept | apply State.startFrame_kept | exact rfl | apply ite_kept | split)

theorem execBusOffRecovery_goes {ch sequences : Nat} {s : State} (hm : Sub [.events, .can] pp) : Goes pp s (execBusOffRecovery ch sequences s) := by
  unfold execBusOffRecovery
  apply onlyIf_goes
  repeat' (first | exact sub_of rfl hm | with_reducible first | exact Kept.refl _ | assumption | intro _ | apply State.rejoinBus_kept | exact rfl)

theorem execCanReceiveError_goes {ch lec : Nat} {primary : Bool} {s : State} (hm : Sub [.events, .can] pp) : Goes pp s (execCanReceiveError ch lec primary s) := by
  unfold execCanReceiveError
  try dsimp only
  repeat' (first | apply onlyIf_goes | apply next_goes | apply done_goes | apply ite_goes)
  repeat' (first | exact sub_of rfl hm | exact .inl (hm.mem (by decide)) | exact .inr fun _ => rfl | with_reducible first | exact Kept.refl _ | assumption | intro _ _ _ | intro _ _ | intro _ | apply ite_kept | apply State.when_kept | apply State.modCtrl_kept | apply State.onCan_kept | apply State.chooseAgain_kept | apply State.followErrors_kept | apply foldl_kept | exact rfl | split | exact (by assumption : Kept _ _ _).same rfl rfl rfl (fun p => by cases p <;> first | exact .inr rfl | exact .inl (hm.mem (by decide))) | exact (Kept.refl _).same rfl rfl rfl (fun p => by cases p <;> first | exact .inr rfl | exact .inl (hm.mem (by decide))))
  all_goals (try dsimp only)
  all_goals (first | exact sub_of rfl hm | exact .inl (hm.mem (by decide)) | exact .inr fun _ => rfl | exact rfl | exact ⟨rfl, rfl⟩ | exact ⟨rfl, rfl, rfl, rfl, rfl⟩ | exact ⟨rfl, rfl, rfl⟩ | (refine .inr fun _ => ?_; (repeat' split) <;> exact rfl) | exact (Kept.refl _).same rfl rfl rfl (fun p => by cases p <;> first | exact .inr rfl | exact .inl (hm.mem (by decide))) | exact (Kept.refl _).same rfl rfl rfl (fun p => by cases p <;> first | exact .inr rfl | exact .inl (hm.mem (by decide))) | exact (by assumption : Kept _ _ _).same rfl rfl rfl (fun p => by cases p <;> first | exact .inr rfl | exact .inl (hm.mem (by decide))) | ((repeat' split) <;> first | exact rfl | exact ⟨rfl, rfl⟩ | exact ⟨rfl, rfl, rfl, rfl, rfl⟩ | exact ⟨rfl, rfl, rfl⟩))

theorem execCanTimingWrite_goes {ch : Nat} {s : State} (hm : Sub [.can] pp) : Goes pp s (execCanTimingWrite ch s) := by
  unfold execCanTimingWrite
  repeat' (first | apply onlyIf_goes | apply ite_goes)
  repeat' (first | exact sub_of rfl hm | with_reducible first | exact Kept.refl _ | assumption | intro _ | apply State.modCtrl_kept | exact rfl | apply ite_kept | split)

theorem State.canDisable_kept {n : Nat} {r0 s : State} (hk : Kept pp r0 s) (hm : Sub [.can] pp) : Kept pp r0 (State.canDisable s n) := by
  unfold State.canDisable
  repeat' (first | exact sub_of rfl hm | with_reducible first | assumption | intro _ | apply State.modCtrl_kept | apply State.setCan_kept | exact rfl)

theorem execCanDisable_goes {ch : Nat} {s : State} (hm : Sub [.can] pp) : Goes pp s (execCanDisable ch s) := by
  unfold execCanDisable
  apply onlyIf_goes
  repeat' (first | exact sub_of rfl hm | with_reducible first | exact Kept.refl _ | assumption | intro _ | apply State.canDisable_kept | exact rfl)

theorem execPop_goes {ch : Nat} {s : State} (hm : Sub [.can] pp) : Goes pp s (execPop ch s) := by
  unfold execPop
  apply onlyIf_goes
  repeat' (first | exact sub_of rfl hm | with_reducible first | exact Kept.refl _ | assumption | intro _ | apply State.modCtrl_kept | exact rfl)

theorem State.storeFrame_kept {n k : Nat} {f : Frame} {r0 s : State} (hk : Kept pp r0 s) (hm : Sub [.events, .can] pp) : Kept pp r0 (State.storeFrame s n k f) := by
  unfold State.storeFrame
  repeat' (first | exact sub_of rfl hm | with_reducible first | assumption | intro _ | apply State.when_kept | apply State.modCtrl_kept | apply State.raise_kept | exact rfl | apply ite_kept | split)

theorem State.filterFrame_kept {n : Nat} {f : Frame} {r0 s : State} (hk : Kept pp r0 s) (hm : Sub [.events, .can] pp) : Kept pp r0 (State.filterFrame s n f) := by
  unfold State.filterFrame
  repeat' (first | exact sub_of rfl hm | with_reducible first | assumption | intro _ | apply State.storeFrame_kept | exact rfl | apply ite_kept | split)

theorem State.unitStale_kept {u : Nat} {r0 s : State} (hk : Kept pp r0 s) (hm : Sub [.events, .can] pp) : Kept pp r0 (State.unitStale s u) := by
  unfold State.unitStale
  repeat' (first | exact sub_of rfl hm | with_reducible first | assumption | intro _ | apply State.modUnit_kept | apply State.raise_kept | exact rfl)

theorem State.unitFrame_kept {u : Nat} {d : List Byte} {r0 s : State} (hk : Kept pp r0 s) (hm : Sub [.events, .recs, .can] pp) : Kept pp r0 (State.unitFrame s u d) := by
  unfold State.unitFrame
  repeat' (first | exact sub_of rfl hm | with_reducible first | assumption | intro _ | apply State.when_kept | apply State.modUnit_kept | apply State.raise_kept | apply State.count_kept | apply State.unitStale_kept | exact rfl | apply ite_kept | split)

theorem State.requestAlarm_kept {ch src : Nat} {r0 s : State} (hk : Kept pp r0 s) (hm : Sub [.guard] pp) : Kept pp r0 (State.requestAlarm s ch src) := by
  unfold State.requestAlarm
  repeat' (first | exact sub_of rfl hm | with_reducible first | assumption | intro _ | apply State.ask_kept | apply forEach_kept | exact rfl | apply ite_kept | split)

theorem State.alarmFrame_kept {ch src : Nat} {d : List Byte} {r0 s : State} (hk : Kept pp r0 s) (hm : Sub [.guard, .events, .recs, .can] pp) : Kept pp r0 (State.alarmFrame s ch src d) := by
  unfold State.alarmFrame
  repeat' (first | exact sub_of rfl hm | with_reducible first | assumption | intro _ | apply State.when_kept | apply State.modAlarm_kept | apply State.raise_kept | apply State.count_kept | apply State.requestAlarm_kept | exact rfl | apply ite_kept | split)

theorem State.takeFrame_kept {n : Nat} {f : Frame} {r0 s : State} (hk : Kept pp r0 s) (hm : Sub [.guard, .events, .recs, .can] pp) : Kept pp r0 (State.takeFrame s n f) := by
  unfold State.takeFrame
  dsimp only
  repeat' (first | exact sub_of rfl hm | with_reducible first | assumption | intro _ | apply State.unitFrame_kept | apply State.alarmFrame_kept | exact rfl | apply ite_kept | split)

theorem State.recDown_kept {n : Nat} {r0 s : State} (hk : Kept pp r0 s) (hm : Sub [.can, .fresh] pp) : Kept pp r0 (State.recDown s n) := by
  unfold State.recDown
  repeat' (first | exact sub_of rfl hm | with_reducible first | assumption | intro _ | apply State.free_kept | apply State.modCtrl_kept | exact rfl | apply ite_kept | split)

theorem State.receive_kept {n : Nat} {f : Frame} {remote : Bool} {r0 s : State} (hk : Kept pp r0 s) (hm : Sub [.guard, .events, .recs, .can, .fresh] pp) : Kept pp r0 (State.receive s n f remote) := by
  unfold State.receive
  try dsimp only
  repeat' (first | exact sub_of rfl hm | exact .inl (hm.mem (by decide)) | exact .inr fun _ => rfl | with_reducible first | exact Kept.refl _ | assumption | intro _ _ _ | intro _ _ | intro _ | apply ite_kept | apply State.when_kept | apply State.modCtrl_kept | apply State.onCan_kept | apply State.chooseAgain_kept | apply State.followErrors_kept | apply State.leaveAlone_kept | apply State.filterFrame_kept | apply State.takeFrame_kept | apply State.recDown_kept | apply foldl_kept | exact rfl | split | exact (by assumption : Kept _ _ _).same rfl rfl rfl (fun p => by cases p <;> first | exact .inr rfl | exact .inl (hm.mem (by decide))) | exact (Kept.refl _).same rfl rfl rfl (fun p => by cases p <;> first | exact .inr rfl | exact .inl (hm.mem (by decide))))
  all_goals (try dsimp only)
  all_goals (first | exact sub_of rfl hm | exact .inl (hm.mem (by decide)) | exact .inr fun _ => rfl | exact rfl | exact ⟨rfl, rfl⟩ | exact ⟨rfl, rfl, rfl, rfl, rfl⟩ | exact ⟨rfl, rfl, rfl⟩ | (refine .inr fun _ => ?_; (repeat' split) <;> exact rfl) | exact hk.same rfl rfl rfl (fun p => by cases p <;> first | exact .inr rfl | exact .inl (hm.mem (by decide))) | exact (Kept.refl _).same rfl rfl rfl (fun p => by cases p <;> first | exact .inr rfl | exact .inl (hm.mem (by decide))) | exact (by assumption : Kept _ _ _).same rfl rfl rfl (fun p => by cases p <;> first | exact .inr rfl | exact .inl (hm.mem (by decide))) | ((repeat' split) <;> first | exact rfl | exact ⟨rfl, rfl⟩ | exact ⟨rfl, rfl, rfl, rfl, rfl⟩ | exact ⟨rfl, rfl, rfl⟩))

theorem execCanFrameReceived_goes {ch : Nat} {xtd fdf brs remote : Bool} {id : Nat} {data : List Byte} {s : State} (hm : Sub [.guard, .events, .recs, .can, .fresh] pp) : Goes pp s (execCanFrameReceived ch xtd fdf brs remote id data s) := by
  unfold execCanFrameReceived
  apply onlyIf_goes
  repeat' (first | exact sub_of rfl hm | with_reducible first | exact Kept.refl _ | assumption | intro _ | apply State.framePassed_kept | apply State.receive_kept | exact rfl)

theorem execPcsStatusFrame_goes {unit : Nat} {iDc : Int} {vDc state count : Nat} {s : State} (hm : Sub [.guard, .events, .recs, .can, .fresh] pp) : Goes pp s (execPcsStatusFrame unit iDc vDc state count s) := by
  unfold execPcsStatusFrame
  apply onlyIf_goes
  repeat' (first | exact sub_of rfl hm | with_reducible first | exact Kept.refl _ | assumption | intro _ | apply State.count_kept | apply State.framePassed_kept | apply State.receive_kept | exact rfl)

theorem execPcsUnitStale_goes {unit : Nat} {s : State} (hm : Sub [.events, .can] pp) : Goes pp s (execPcsUnitStale unit s) := by
  unfold execPcsUnitStale
  repeat' (first | apply onlyIf_goes | split)
  repeat' (first | exact sub_of rfl hm | with_reducible first | exact Kept.refl _ | assumption | intro _ | apply State.modUnit_kept | apply State.unitStale_kept | exact rfl | apply ite_kept | split)

theorem execAlarmFrame_goes {ch source state count : Nat} {s : State} (hm : Sub [.guard, .events, .recs, .can, .fresh] pp) : Goes pp s (execAlarmFrame ch source state count s) := by
  unfold execAlarmFrame
  apply onlyIf_goes
  repeat' (first | exact sub_of rfl hm | with_reducible first | exact Kept.refl _ | assumption | intro _ | apply State.count_kept | apply State.framePassed_kept | apply State.receive_kept | exact rfl)

theorem execAlarmSourceLost_goes {ch source : Nat} {s : State} (hm : Sub [.guard, .events, .can] pp) : Goes pp s (execAlarmSourceLost ch source s) := by
  unfold execAlarmSourceLost
  apply onlyIf_goes
  repeat' (first | exact sub_of rfl hm | with_reducible first | exact Kept.refl _ | assumption | intro _ | apply State.when_kept | apply State.modAlarm_kept | apply State.raise_kept | apply State.requestAlarm_kept | exact rfl)

theorem State.canAfter_kept {off : Nat} {r0 s : State} (hk : Kept pp r0 s) (hm : Sub [.events, .recs, .can, .fresh] pp) : Kept pp r0 (State.canAfter s off) := by
  unfold State.canAfter
  dsimp only
  repeat' (first | exact sub_of rfl hm | with_reducible first | assumption | intro _ | apply State.free_kept | apply State.modCtrl_kept | apply State.count_kept | exact rfl | apply ite_kept | split)

theorem execCanRead_goes {rq : Rq} {off count : Nat} {s : State} (hm : Sub [.mail, .events, .recs, .can, .fresh] pp) : Goes pp s (execCanRead rq off count s) := by
  unfold execCanRead
  apply regRead_goes
  repeat' (first | exact sub_of rfl hm | with_reducible first | exact Kept.refl _ | assumption | intro _ | apply State.count_kept | apply State.canAfter_kept | exact rfl)

theorem State.dropBuffers_kept {n base count : Nat} {r0 s : State} (hk : Kept pp r0 s) (hm : Sub [.can] pp) : Kept pp r0 (State.dropBuffers s n base count) := by
  unfold State.dropBuffers
  repeat' (first | exact sub_of rfl hm | with_reducible first | assumption | intro _ | apply State.modCtrl_kept | apply State.count_kept | apply State.startFrame_kept | apply foldl_kept | exact rfl)

theorem dropUnits_kept {at_ : Nat} {r0 s : State} (h : Kept pp r0 s) (hm : Sub [.can] pp) :
    Kept pp r0 (s.onCan fun c => { c with units := [], pcsAt := at_ }) := by
  refine h.comp ⟨rfl, rfl, fun hs => ?_, fun p => by cases p <;> first | exact .inr rfl | exact .inl hm.head⟩
  simp only [State.tablesOk, State.coreTablesOk, State.unitTablesOk, Bool.and_eq_true] at hs
  simp [State.tablesOk, State.coreTablesOk, State.unitTablesOk, hs]

theorem State.canPut_kept {off w : Nat} {r0 s : State} (h : Kept pp r0 s) (hm : Sub [.events, .can] pp) : Kept pp r0 (s.canPut off w) := by
  unfold State.canPut
  dsimp only
  have hc : Sub [.can] pp := sub_of rfl hm
  refine ite_kept ?_ (ite_kept ?_ (ite_kept ?_ (ite_kept h (State.setCan_kept h hc))))
  · refine State.when_kept (fun h => dropUnits_kept h hc) (State.setCan_kept (State.when_kept (fun h => State.dropBuffers_kept h hc) ?_) hc)
    exact ite_kept h (State.onCan_kept (fun _ => ⟨rfl, rfl, rfl⟩) h hc)
  · exact State.setCan_kept (State.when_kept (fun h => State.dropBuffers_kept h hc) h) hc
  · split
    · have h2 := State.setCan_kept (off := off) (w := BitVec.ofNat 32 (w &&& canMask off)) (State.when_kept
        (c := s.canEn (canPlace off).1 && !bit (BitVec.ofNat 32 (w &&& canMask off)) 0) (f := (·.canDisable (canPlace off).1))
        (fun h => State.canDisable_kept h (sub_of rfl hm)) h) hc
      exact ite_kept (State.rejoinBus_kept h2 (sub_of rfl hm)) (ite_kept (State.modCtrl_kept h2 hc) (State.startFrame_kept h2 (sub_of rfl hm)))
    · exact State.when_kept (fun h => State.modCtrl_kept h hc) (State.setCan_kept h hc)
    · exact State.when_kept (fun h => State.modCtrl_kept h hc) (State.setCan_kept h hc)
    · exact State.when_kept (fun h => State.modCtrl_kept h hc) (State.setCan_kept h hc)
    · exact State.modCtrl_kept h hc
    · exact State.when_kept (fun h => State.modCtrl_kept h hc) h
    · exact h

theorem State.canProposed_kept {l : List (Nat × Nat)} {r0 s : State} (hk : Kept pp r0 s) (hm : Sub [.can] pp) : Kept pp r0 (State.canProposed s l) := by
  unfold State.canProposed
  repeat' (first | exact sub_of rfl hm | with_reducible first | assumption | intro _ | apply State.setCan_kept | apply foldl_kept | exact rfl | apply ite_kept | split)

theorem execCanWrite_goes {rq : Rq} {off : Nat} {data : List Nat} {s : State} (hm : Sub [.mail, .events, .can] pp) : Goes pp s (execCanWrite rq off data s) := by
  unfold execCanWrite
  dsimp only
  repeat' (first | apply next_goes | split)
  repeat' (first | exact sub_of rfl hm | with_reducible first | exact Kept.refl _ | assumption | intro _ | apply State.ok_kept | apply State.refuse_kept | apply State.canPut_kept | apply State.canProposed_kept | apply mailbox_kept | apply checked_kept | apply foldl_kept | exact rfl | apply ite_kept | split)

theorem execCanSend_goes {rq : Rq} {ch cflags id : Nat} {data : List Byte} {s : State} (hm : Sub [.mail, .can] pp) : Goes pp s (execCanSend rq ch cflags id data s) := by
  unfold execCanSend
  repeat' (first | apply next_goes | apply ite_goes)
  repeat' (first | exact sub_of rfl hm | with_reducible first | exact Kept.refl _ | assumption | intro _ | apply State.modCtrl_kept | apply State.ok_kept | apply State.startFrame_kept | apply mailbox_kept | apply checked_kept | exact rfl | apply ite_kept | split)

theorem execCanStatus_goes {rq : Rq} {s : State} (hm : Sub [.mail] pp) : Goes pp s (execCanStatus rq s) := by
  unfold execCanStatus
  apply readCmd_goes
  repeat' (first | exact sub_of rfl hm | with_reducible first | exact Kept.refl _ | assumption | intro _ | exact rfl)

theorem execProtRead_goes {rq : Rq} {off count : Nat} {s : State} (hm : Sub [.mail] pp) : Goes pp s (execProtRead rq off count s) := by
  unfold execProtRead
  apply regRead_goes
  repeat' (first | exact sub_of rfl hm | with_reducible first | exact Kept.refl _ | assumption | intro _ | apply State.count_kept | exact rfl)

theorem State.protPut_kept {off w : Nat} {r0 s : State} (hk : Kept pp r0 s) (hm : Sub [.conf] pp) : Kept pp r0 (State.protPut s off w) := by
  unfold State.protPut
  repeat' (first | exact sub_of rfl hm | with_reducible first | assumption | intro _ | apply State.onConf_kept | apply State.setFpiConf_kept | exact rfl | apply ite_kept | split)

theorem execProtWrite_goes {rq : Rq} {off : Nat} {data : List Nat} {s : State} (hm : Sub [.mail, .conf, .store] pp) : Goes pp s (execProtWrite rq off data s) := by
  unfold execProtWrite
  apply regWrite_goes
  repeat' (first | exact sub_of rfl hm | with_reducible first | exact Kept.refl _ | assumption | exact fun _ => hm.mem (by decide) | exact fun h => absurd h (by decide) | exact hm.mem (by decide) | intro _ | apply State.protPut_kept | exact rfl)

theorem execStringProt_goes {rq : Rq} {port string : Nat} {s : State} (hm : Sub [.mail] pp) : Goes pp s (execStringProt rq port string s) := by
  unfold execStringProt
  apply readCmd_goes
  repeat' (first | exact sub_of rfl hm | with_reducible first | exact Kept.refl _ | assumption | intro _ | exact rfl)

theorem State.awaitGuard_kept {c : Rq × Nat × Nat} {r0 s : State} (hk : Kept pp r0 s) (hm : Sub [.mail, .mode, .rings, .est, .latch, .guard, .disp, .events] pp) : Kept pp r0 (State.awaitGuard s c) := by
  unfold State.awaitGuard
  repeat' (first | exact sub_of rfl hm | exact .inl (hm.mem (by decide)) | exact .inr fun _ => rfl | with_reducible first | assumption | intro _ | apply State.onGuard_kept | apply State.judgeClear_kept | apply State.clears_kept | exact rfl | apply ite_kept | split)

theorem execClearTrip_goes {rq : Rq} {tripId : Nat} {s : State} (hm : Sub [.mail, .mode, .rings, .est, .latch, .guard, .disp, .events] pp) : Goes pp s (execClearTrip rq tripId s) := by
  unfold execClearTrip
  apply next_goes
  repeat' (first | exact sub_of rfl hm | with_reducible first | exact Kept.refl _ | assumption | intro _ | apply State.awaitGuard_kept | apply mailbox_kept | exact rfl)

theorem execClearString_goes {rq : Rq} {port string : Nat} {s : State} (hm : Sub [.mail, .mode, .rings, .est, .latch, .guard, .disp, .events] pp) : Goes pp s (execClearString rq port string s) := by
  unfold execClearString
  apply next_goes
  repeat' (first | exact sub_of rfl hm | with_reducible first | exact Kept.refl _ | assumption | intro _ | apply State.awaitGuard_kept | apply mailbox_kept | apply checked_kept | exact rfl)

theorem State.ackWeld_kept  {r0 s : State} (hk : Kept pp r0 s) (hm : Sub [.est, .latch] pp) : Kept pp r0 (State.ackWeld s) := by
  unfold State.ackWeld
  repeat' (first | exact sub_of rfl hm | exact .inl (hm.mem (by decide)) | exact .inr fun _ => rfl | with_reducible first | assumption | intro _ | apply State.modStr_kept | apply State.onGuard_kept | apply forEach_kept | exact rfl)

theorem execWeldAck_goes {rq : Rq} {tripId : Nat} {s : State} (hm : Sub [.mail, .est, .latch, .store] pp) : Goes pp s (execWeldAck rq tripId s) := by
  unfold execWeldAck
  apply nvWrite_goes
  repeat' (first | exact sub_of rfl hm | with_reducible first | exact Kept.refl _ | assumption | intro _ | apply State.ackWeld_kept | exact rfl)

theorem execMapAlarm_goes {rq : Rq} {ch source kind port string : Nat} {s : State} (hm : Sub [.mail, .conf, .store] pp) : Goes pp s (execMapAlarm rq ch source kind port string s) := by
  unfold execMapAlarm
  apply nvWrite_goes
  repeat' (first | exact sub_of rfl hm | with_reducible first | exact Kept.refl _ | assumption | intro _ | apply State.onConf_kept | exact rfl | apply ite_kept | split)

theorem execBeamRead_goes {rq : Rq} {off count : Nat} {s : State} (hm : Sub [.mail, .beam] pp) : Goes pp s (execBeamRead rq off count s) := by
  unfold execBeamRead
  apply regRead_goes
  repeat' (first | exact sub_of rfl hm | with_reducible first | exact Kept.refl _ | assumption | intro _ | apply State.count_kept | apply State.beamReadEffect_kept | exact rfl)

theorem State.beamPut_kept {off w : Nat} {r0 s : State} (hk : Kept pp r0 s) (hm : Sub [.beam, .marks, .disp, .events, .loops] pp) : Kept pp r0 (State.beamPut s off w) := by
  unfold State.beamPut
  repeat' (first | exact sub_of rfl hm | with_reducible first | assumption | intro _ | apply State.when_kept | apply State.beamWrite_kept | apply State.newSlotCyc_kept | exact rfl)

theorem execBeamWrite_goes {rq : Rq} {off : Nat} {data : List Nat} {s : State} (hm : Sub [.mail, .beam, .marks, .disp, .events, .loops] pp) : Goes pp s (execBeamWrite rq off data s) := by
  unfold execBeamWrite
  apply regWriteSeq_goes
  repeat' (first | exact sub_of rfl hm | with_reducible first | exact Kept.refl _ | assumption | exact fun _ => hm.mem (by decide) | exact fun h => absurd h (by decide) | exact hm.mem (by decide) | intro _ | apply State.beamPut_kept | exact rfl | apply ite_kept | split)

theorem State.setSweep_kept {step : Nat} {r0 s : State} (hk : Kept pp r0 s) (hm : Sub [.beam, .marks, .sched] pp) : Kept pp r0 (State.setSweep s step) := by
  unfold State.setSweep
  repeat' (first | exact sub_of rfl hm | with_reducible first | assumption | intro _ | apply State.modMark_kept | apply State.onBeam_kept | apply State.onSched_kept | exact rfl | apply ite_kept | split)

theorem execSetSweep_goes {rq : Rq} {step : Nat} {s : State} (hm : Sub [.mail, .beam, .marks, .sched, .store] pp) : Goes pp s (execSetSweep rq step s) := by
  unfold execSetSweep
  apply nvWrite_goes
  repeat' (first | exact sub_of rfl hm | with_reducible first | exact Kept.refl _ | assumption | intro _ | apply State.setSweep_kept | exact rfl)

theorem execBeamTime_goes {rq : Rq} {s : State} (hm : Sub [.mail] pp) : Goes pp s (execBeamTime rq s) := by
  unfold execBeamTime
  apply readCmd_goes
  repeat' (first | exact sub_of rfl hm | with_reducible first | exact Kept.refl _ | assumption | intro _ | exact rfl)

theorem execReadConfig_goes {rq : Rq} {b : Bulk} {dma : Option Nat} {s : State} (hm : Sub [.mail, .bulk] pp) : Goes pp s (execReadConfig rq b dma s) := by
  unfold execReadConfig
  apply bulkRead_goes
  repeat' (first | exact sub_of rfl hm | with_reducible first | exact Kept.refl _ | assumption | intro _ | exact rfl)

theorem execRodStatus_goes {rq : Rq} {first count : Nat} {s : State} (hm : Sub [.mail] pp) : Goes pp s (execRodStatus rq first count s) := by
  unfold execRodStatus
  apply readCmd_goes
  repeat' (first | exact sub_of rfl hm | with_reducible first | exact Kept.refl _ | assumption | intro _ | apply State.count_kept | exact rfl)

theorem execSchedStatus_goes {rq : Rq} {s : State} (hm : Sub [.mail] pp) : Goes pp s (execSchedStatus rq s) := by
  unfold execSchedStatus
  apply readCmd_goes
  repeat' (first | exact sub_of rfl hm | with_reducible first | exact Kept.refl _ | assumption | intro _ | exact rfl)

theorem execRodRelease_goes {rq : Rq} {rod : Nat} {s : State} (hm : Sub [.mail, .rods] pp) : Goes pp s (execRodRelease rq rod s) := by
  unfold execRodRelease
  repeat' (first | apply next_goes | apply ite_goes)
  repeat' (first | exact sub_of rfl hm | with_reducible first | exact Kept.refl _ | assumption | intro _ | apply State.modRod_kept | apply State.holdAnswer_kept | apply mailbox_kept | apply checked_kept | exact rfl | apply ite_kept | split)

theorem State.axisCount_kept {n sig : Nat} {c : Int} {r0 s : State} (hk : Kept pp r0 s) (hm : Sub [.loops] pp) : Kept pp r0 (State.axisCount s n sig c) := by
  unfold State.axisCount
  repeat' (first | exact sub_of rfl hm | with_reducible first | assumption | intro _ | apply State.modAxis_kept | exact rfl | apply ite_kept | split)

theorem State.axisFault_kept {n kind : Nat} {r0 s : State} (hk : Kept pp r0 s) (hm : Sub [.events, .loops] pp) : Kept pp r0 (State.axisFault s n kind) := by
  unfold State.axisFault
  repeat' (first | exact sub_of rfl hm | with_reducible first | assumption | intro _ | apply State.modAxis_kept | apply State.raise_kept | exact rfl | apply ite_kept | split)

theorem State.edgeFault_kept {n : Nat} {r0 s : State} (hk : Kept pp r0 s) (hm : Sub [.events, .recs, .loops] pp) : Kept pp r0 (State.edgeFault s n) := by
  unfold State.edgeFault
  repeat' (first | exact sub_of rfl hm | with_reducible first | assumption | intro _ | apply State.modAxis_kept | apply State.raise_kept | apply State.count_kept | apply State.axisFault_kept | exact rfl | apply ite_kept | split)

theorem State.axisSample_kept {n : Nat} {a b : Bool} {r0 s : State} (hk : Kept pp r0 s) (hm : Sub [.events, .recs, .loops] pp) : Kept pp r0 (State.axisSample s n a b) := by
  unfold State.axisSample
  repeat' (first | exact sub_of rfl hm | with_reducible first | assumption | intro _ | apply State.modAxis_kept | apply State.axisCount_kept | apply State.edgeFault_kept | exact rfl | apply ite_kept | split)

theorem State.axisAnalogue_kept {n : Nat} {sin cos : Int} {r0 s : State} (hk : Kept pp r0 s) (hm : Sub [.loops] pp) : Kept pp r0 (State.axisAnalogue s n sin cos) := by
  unfold State.axisAnalogue
  repeat' (first | exact sub_of rfl hm | with_reducible first | assumption | intro _ | apply State.when_kept | apply State.modAxis_kept | apply State.axisCount_kept | exact rfl | apply ite_kept | split)

theorem State.faultEv_kept {n : Nat} {r0 s : State} (hk : Kept pp r0 s) (hm : Sub [.events, .loops] pp) : Kept pp r0 (State.faultEv s n) := by
  unfold State.faultEv
  repeat' (first | exact sub_of rfl hm | with_reducible first | assumption | intro _ | apply State.when_kept | apply State.modAxis_kept | apply State.raise_kept | exact rfl)

theorem State.axisTick_kept {n : Nat} {r0 s : State} (hk : Kept pp r0 s) (hm : Sub [.events, .loops] pp) : Kept pp r0 (State.axisTick s n) := by
  unfold State.axisTick
  repeat' (first | exact sub_of rfl hm | with_reducible first | assumption | intro _ | apply State.modAxis_kept | apply State.raise_kept | apply State.axisFault_kept | exact rfl | apply ite_kept | split)

theorem State.profileStep_kept {k div : Nat} {r0 s : State} (hk : Kept pp r0 s) (hm : Sub [.events, .loops] pp) : Kept pp r0 (State.profileStep s k div) := by
  unfold State.profileStep
  repeat' (first | exact sub_of rfl hm | with_reducible first | assumption | intro _ | apply State.when_kept | apply State.modAxis_kept | apply State.raise_kept | exact rfl | apply ite_kept | split)

theorem State.injStep_kept {n : Nat} {r0 s : State} (hk : Kept pp r0 s) (hm : Sub [.loops] pp) : Kept pp r0 (State.injStep s n) := by
  unfold State.injStep
  repeat' (first | exact sub_of rfl hm | with_reducible first | assumption | intro _ | apply State.modLoop_kept | exact rfl | apply ite_kept | split)

theorem State.loopEvent_kept {n b : Nat} {r0 s : State} (hk : Kept pp r0 s) (hm : Sub [.loops] pp) : Kept pp r0 (State.loopEvent s n b) := by
  unfold State.loopEvent
  repeat' (first | exact sub_of rfl hm | with_reducible first | assumption | intro _ | apply State.onLoops_kept | exact rfl)
  all_goals first | exact sub_of rfl hm | exact .inl (hm.mem (by decide)) | exact .inr fun _ => rfl | exact rfl | exact ⟨rfl, rfl⟩ | exact ⟨rfl, rfl, rfl, rfl, rfl⟩ | exact ⟨rfl, rfl, rfl⟩ | (refine .inr fun _ => ?_; (repeat' split) <;> exact rfl) | exact hk.same rfl rfl rfl (fun p => by cases p <;> first | exact .inr rfl | exact .inl (hm.mem (by decide))) | (repeat' split) <;> first | exact rfl | exact ⟨rfl, rfl⟩ | exact ⟨rfl, rfl, rfl, rfl, rfl⟩ | exact ⟨rfl, rfl, rfl⟩

theorem State.captureEnd_kept {n : Nat} {aborted : Bool} {r0 s : State} (hk : Kept pp r0 s) (hm : Sub [.events, .loops] pp) : Kept pp r0 (State.captureEnd s n aborted) := by
  unfold State.captureEnd
  repeat' (first | exact sub_of rfl hm | with_reducible first | assumption | intro _ | apply State.modLoop_kept | apply State.raise_kept | apply State.loopEvent_kept | exact rfl | apply ite_kept | split)

theorem State.arm_kept {n : Nat} {r0 s : State} (hk : Kept pp r0 s) (hm : Sub [.loops] pp) : Kept pp r0 (State.arm s n) := by
  unfold State.arm
  repeat' (first | exact sub_of rfl hm | with_reducible first | assumption | intro _ | apply State.modLoop_kept | exact rfl)

theorem State.captureFault_kept {n : Nat} {r0 s : State} (hk : Kept pp r0 s) (hm : Sub [.events, .loops] pp) : Kept pp r0 (State.captureFault s n) := by
  unfold State.captureFault
  repeat' (first | exact sub_of rfl hm | with_reducible first | assumption | intro _ | apply State.modLoop_kept | apply State.captureEnd_kept | exact rfl | apply ite_kept | split)

theorem State.captureStep_kept {n : Nat} {item : Int × Int × Int × Int} {r0 s : State} (hk : Kept pp r0 s) (hm : Sub [.events, .loops] pp) : Kept pp r0 (State.captureStep s n item) := by
  unfold State.captureStep
  repeat' (first | exact sub_of rfl hm | with_reducible first | assumption | intro _ | apply State.modLoop_kept | apply State.captureEnd_kept | exact rfl | apply ite_kept | split)

theorem State.supervisionFault_kept {n : Nat} {r0 s : State} (hk : Kept pp r0 s) (hm : Sub [.events, .loops] pp) : Kept pp r0 (State.supervisionFault s n) := by
  unfold State.supervisionFault
  repeat' (first | exact sub_of rfl hm | with_reducible first | assumption | intro _ | apply State.modLoop_kept | apply State.raise_kept | apply State.loopEvent_kept | apply State.captureFault_kept | exact rfl | apply ite_kept | split)

theorem State.sourceFault_kept {n : Nat} {r0 s : State} (hk : Kept pp r0 s) (hm : Sub [.events, .loops] pp) : Kept pp r0 (State.sourceFault s n) := by
  unfold State.sourceFault
  repeat' (first | exact sub_of rfl hm | with_reducible first | assumption | intro _ | apply State.modLoop_kept | apply State.raise_kept | apply State.loopEvent_kept | apply State.captureFault_kept | exact rfl | apply ite_kept | split)

theorem State.superviseStep_kept {n : Nat} {pv : Option Int} {r0 s : State} (hk : Kept pp r0 s) (hm : Sub [.events, .loops] pp) : Kept pp r0 (State.superviseStep s n pv) := by
  unfold State.superviseStep
  repeat' (first | exact sub_of rfl hm | with_reducible first | assumption | intro _ | apply State.when_kept | apply State.modLoop_kept | apply State.supervisionFault_kept | exact rfl | apply ite_kept | split)

theorem State.pidStep_kept {n : Nat} {pv spT inj : Int} {r0 s : State} (hk : Kept pp r0 s) (hm : Sub [.loops] pp) : Kept pp r0 (State.pidStep s n pv spT inj) := by
  unfold State.pidStep
  repeat' (first | exact sub_of rfl hm | with_reducible first | assumption | intro _ | apply State.modLoop_kept | exact rfl | apply ite_kept | split)

theorem State.restartStep_kept {n : Nat} {r0 s : State} (hk : Kept pp r0 s) (hm : Sub [.events, .loops] pp) : Kept pp r0 (State.restartStep s n) := by
  unfold State.restartStep
  repeat' (first | exact sub_of rfl hm | with_reducible first | assumption | intro _ | apply State.modLoop_kept | apply State.raise_kept | exact rfl | apply ite_kept | split)

theorem State.injValue_kept {n : Nat} {r0 s : State} (h : Kept pp r0 s) (hm : Sub [.fresh] pp) : Kept pp r0 (s.injValue n).2 := by
  unfold State.injValue
  dsimp only
  split
  · exact h
  · split
    · exact h
    · exact State.free_kept h hm
    · exact h

theorem State.setPoint_kept {n : Nat} {pv : Int} {r0 s : State} (h : Kept pp r0 s) (hm : Sub [.events, .loops] pp) :
    Kept pp r0 (s.setPoint n pv).2 := by
  unfold State.setPoint
  dsimp only
  split
  · exact State.modLoop_kept h (sub_of rfl hm)
  · split
    · exact h
    · exact State.captureFault_kept (State.raise_kept (State.loopEvent_kept (State.modLoop_kept h (sub_of rfl hm)) (sub_of rfl hm))
        (sub_of rfl hm)) (sub_of rfl hm)

theorem State.loopPeriod_kept {n : Nat} {r0 s : State} (h : Kept pp r0 s) (hm : Sub [.events, .loops, .fresh] pp) :
    Kept pp r0 (s.loopPeriod n) := by
  unfold State.loopPeriod
  have h2 := State.superviseStep_kept (n := n) (pv := (s.restartStep n).loopPv n)
    (State.when_kept (c := ((s.restartStep n).loopPv n).isNone) (f := (·.sourceFault n))
      (fun h => State.sourceFault_kept h (sub_of rfl hm)) (State.restartStep_kept (n := n) h (sub_of rfl hm))) (sub_of rfl hm)
  refine State.injStep_kept (State.captureStep_kept (ite_kept (State.modLoop_kept (State.injValue_kept ?_ (sub_of rfl hm)) (sub_of rfl hm))
    (State.pidStep_kept (State.setPoint_kept (State.injValue_kept ?_ (sub_of rfl hm)) (sub_of rfl hm)) (sub_of rfl hm)))
    (sub_of rfl hm)) (sub_of rfl hm) <;>
  exact State.when_kept (fun h => State.profileStep_kept h (sub_of rfl hm)) h2

theorem State.loopTick_kept {n : Nat} {r0 s : State} (hk : Kept pp r0 s) (hm : Sub [.events, .loops, .fresh] pp) : Kept pp r0 (State.loopTick s n) := by
  unfold State.loopTick
  repeat' (first | exact sub_of rfl hm | with_reducible first | assumption | intro _ | apply State.modLoop_kept | apply State.loopPeriod_kept | exact rfl | apply ite_kept | split)

theorem State.writeOutputs_kept  {r0 s : State} (hk : Kept pp r0 s) (hm : Sub [.loops] pp) : Kept pp r0 (State.writeOutputs s) := by
  unfold State.writeOutputs
  repeat' (first | exact sub_of rfl hm | with_reducible first | assumption | intro _ | apply State.onLoops_kept | apply foldl_kept | exact rfl | apply ite_kept | split)
  all_goals first | exact sub_of rfl hm | exact .inl (hm.mem (by decide)) | exact .inr fun _ => rfl | exact rfl | exact ⟨rfl, rfl⟩ | exact ⟨rfl, rfl, rfl, rfl, rfl⟩ | exact ⟨rfl, rfl, rfl⟩ | (refine .inr fun _ => ?_; (repeat' split) <;> exact rfl) | exact hk.same rfl rfl rfl (fun p => by cases p <;> first | exact .inr rfl | exact .inl (hm.mem (by decide))) | (repeat' split) <;> first | exact rfl | exact ⟨rfl, rfl⟩ | exact ⟨rfl, rfl, rfl, rfl, rfl⟩ | exact ⟨rfl, rfl, rfl⟩

theorem State.engineLoad_kept  {r0 s : State} (hk : Kept pp r0 s) (hm : Sub [.loops, .fresh] pp) : Kept pp r0 (State.engineLoad s) := by
  unfold State.engineLoad
  repeat' (first | exact sub_of rfl hm | with_reducible first | assumption | intro _ | apply State.free_kept | apply State.onLoops_kept | exact rfl | apply ite_kept | split)
  all_goals first | exact sub_of rfl hm | exact .inl (hm.mem (by decide)) | exact .inr fun _ => rfl | exact rfl | exact ⟨rfl, rfl⟩ | exact ⟨rfl, rfl, rfl, rfl, rfl⟩ | exact ⟨rfl, rfl, rfl⟩ | (refine .inr fun _ => ?_; (repeat' split) <;> exact rfl) | exact hk.same rfl rfl rfl (fun p => by cases p <;> first | exact .inr rfl | exact .inl (hm.mem (by decide))) | (repeat' split) <;> first | exact rfl | exact ⟨rfl, rfl⟩ | exact ⟨rfl, rfl, rfl, rfl, rfl⟩ | exact ⟨rfl, rfl, rfl⟩

theorem State.engineTick_kept {ains : List Int} {r0 s : State} (hk : Kept pp r0 s) (hm : Sub [.beam, .events, .loops, .fresh] pp) : Kept pp r0 (State.engineTick s ains) := by
  unfold State.engineTick
  repeat' (first | exact sub_of rfl hm | with_reducible first | assumption | intro _ | apply State.takeAin_kept | apply State.axisTick_kept | apply State.loopTick_kept | apply State.writeOutputs_kept | apply State.engineLoad_kept | apply forEach_kept | exact rfl)

theorem execLoopTick_goes {ains : List Int} {s : State} (hm : Sub [.beam, .events, .loops, .fresh] pp) : Goes pp s (execLoopTick ains s) := by
  unfold execLoopTick
  apply onlyIf_goes
  repeat' (first | exact sub_of rfl hm | with_reducible first | exact Kept.refl _ | assumption | intro _ | apply State.onLoops_kept | apply State.engineTick_kept | exact rfl)
  all_goals first | exact sub_of rfl hm | exact .inl (hm.mem (by decide)) | exact .inr fun _ => rfl | exact rfl | exact ⟨rfl, rfl⟩ | exact ⟨rfl, rfl, rfl, rfl, rfl⟩ | exact ⟨rfl, rfl, rfl⟩ | (refine .inr fun _ => ?_; (repeat' split) <;> exact rfl) | exact (Kept.refl _).same rfl rfl rfl (fun p => by cases p <;> first | exact .inr rfl | exact .inl (hm.mem (by decide))) | (repeat' split) <;> first | exact rfl | exact ⟨rfl, rfl⟩ | exact ⟨rfl, rfl, rfl, rfl, rfl⟩ | exact ⟨rfl, rfl, rfl⟩

end Sys2Proof.Machine
end

