-- ==== Sys2Proof/Laws/KeptLoopCmds.lean ====
section
/-! SUPPORT. Each operation and each meaning of LoopCmds, LoadCmds, RecordsCmds goes on and keeps the queue, the clock, canonical tables, and every part outside its list. -/
namespace Sys2Proof.Machine
open Sys2Proof

variable {pp : List Part}

theorem State.loopAfter_kept {off : Nat} {r0 s : State} (hk : Kept pp r0 s) (hm : Sub [.events, .recs, .loops] pp) : Kept pp r0 (State.loopAfter s off) := by
  unfold State.loopAfter
  repeat' (first | exact sub_of rfl hm | with_reducible first | assumption | intro _ | apply State.modAxis_kept | apply State.count_kept | exact rfl | apply ite_kept | split)

theorem execLoopRead_goes {rq : Rq} {off count : Nat} {s : State} (hm : Sub [.mail, .events, .recs, .loops] pp) : Goes pp s (execLoopRead rq off count s) := by
  unfold execLoopRead
  apply regRead_goes
  repeat' (first | exact sub_of rfl hm | with_reducible first | exact Kept.refl _ | assumption | intro _ | apply State.count_kept | apply State.loopAfter_kept | exact rfl)

theorem State.loopProposed_kept {l : List (Nat × Nat)} {r0 s : State} (hk : Kept pp r0 s) (hm : Sub [.loops] pp) : Kept pp r0 (State.loopProposed s l) := by
  unfold State.loopProposed
  repeat' (first | exact sub_of rfl hm | with_reducible first | assumption | intro _ | apply State.setLoop_kept | apply foldl_kept | exact rfl | apply ite_kept | split)

theorem State.loopStart_kept {n : Nat} {r0 s : State} (hk : Kept pp r0 s) (hm : Sub [.loops] pp) : Kept pp r0 (State.loopStart s n) := by
  unfold State.loopStart
  repeat' (first | exact sub_of rfl hm | with_reducible first | assumption | intro _ | apply State.when_kept | apply State.modLoop_kept | apply State.modAxis_kept | apply State.onLoops_kept | exact rfl | apply ite_kept | split)
  all_goals first | exact sub_of rfl hm | exact .inl (hm.mem (by decide)) | exact .inr fun _ => rfl | exact rfl | exact ⟨rfl, rfl⟩ | exact ⟨rfl, rfl, rfl, rfl, rfl⟩ | exact ⟨rfl, rfl, rfl⟩ | (refine .inr fun _ => ?_; (repeat' split) <;> exact rfl) | exact hk.same rfl rfl rfl (fun p => by cases p <;> first | exact .inr rfl | exact .inl (hm.mem (by decide))) | (repeat' split) <;> first | exact rfl | exact ⟨rfl, rfl⟩ | exact ⟨rfl, rfl, rfl, rfl, rfl⟩ | exact ⟨rfl, rfl, rfl⟩

theorem State.loopRestart_kept {n : Nat} {r0 s : State} (hk : Kept pp r0 s) (hm : Sub [.loops] pp) : Kept pp r0 (State.loopRestart s n) := by
  unfold State.loopRestart
  repeat' (first | exact sub_of rfl hm | with_reducible first | assumption | intro _ | apply State.when_kept | apply State.modLoop_kept | exact rfl)

theorem State.loopPut_kept {off w : Nat} {r0 s : State} (hk : Kept pp r0 s) (hm : Sub [.events, .loops] pp) : Kept pp r0 (State.loopPut s off w) := by
  unfold State.loopPut
  repeat' (first | exact sub_of rfl hm | with_reducible first | assumption | intro _ | apply State.when_kept | apply State.modLoop_kept | apply State.modAxis_kept | apply State.onLoops_kept | apply State.setLoop_kept | apply State.faultEv_kept | apply State.arm_kept | apply State.loopStart_kept | apply State.loopRestart_kept | exact rfl | apply ite_kept | split)
  all_goals first | exact sub_of rfl hm | exact .inl (hm.mem (by decide)) | exact .inr fun _ => rfl | exact rfl | exact ⟨rfl, rfl⟩ | exact ⟨rfl, rfl, rfl, rfl, rfl⟩ | exact ⟨rfl, rfl, rfl⟩ | (refine .inr fun _ => ?_; (repeat' split) <;> exact rfl) | exact hk.same rfl rfl rfl (fun p => by cases p <;> first | exact .inr rfl | exact .inl (hm.mem (by decide))) | (repeat' split) <;> first | exact rfl | exact ⟨rfl, rfl⟩ | exact ⟨rfl, rfl, rfl, rfl, rfl⟩ | exact ⟨rfl, rfl, rfl⟩

theorem State.loopWriteAll_kept {l : List (Nat × Nat)} {r0 s : State} (hk : Kept pp r0 s) (hm : Sub [.events, .store, .loops] pp) : Kept pp r0 (State.loopWriteAll s l) := by
  unfold State.loopWriteAll
  repeat' (first | exact sub_of rfl hm | with_reducible first | assumption | intro _ | apply State.cfgOwed_kept | apply State.loopPut_kept | apply foldl_kept | exact rfl)

theorem execLoopWrite_goes {rq : Rq} {off : Nat} {data : List Nat} {s : State} (hm : Sub [.mail, .events, .store, .loops] pp) : Goes pp s (execLoopWrite rq off data s) := by
  unfold execLoopWrite
  dsimp only
  repeat' (first | apply next_goes | split)
  repeat' (first | exact sub_of rfl hm | with_reducible first | exact Kept.refl _ | assumption | intro _ | apply State.ok_kept | apply State.refuse_kept | apply State.loopProposed_kept | apply State.loopWriteAll_kept | apply mailbox_kept | apply checked_kept | exact rfl | apply ite_kept | split)

theorem execLoopEnable_goes {n : Nat} {s : State} (hm : Sub [.events, .store, .loops] pp) : Goes pp s (execLoopEnable n s) := by
  unfold execLoopEnable
  apply onlyIf_goes
  repeat' (first | exact sub_of rfl hm | with_reducible first | exact Kept.refl _ | assumption | intro _ | apply State.loopProposed_kept | apply State.loopWriteAll_kept | exact rfl)

theorem execLoopRestart_goes {n : Nat} {s : State} (hm : Sub [.loops] pp) : Goes pp s (execLoopRestart n s) := by
  unfold execLoopRestart
  apply onlyIf_goes
  repeat' (first | exact sub_of rfl hm | with_reducible first | exact Kept.refl _ | assumption | intro _ | apply State.loopRestart_kept | exact rfl)

theorem execSupervisionFault_goes {n : Nat} {s : State} (hm : Sub [.events, .loops] pp) : Goes pp s (execSupervisionFault n s) := by
  unfold execSupervisionFault
  apply onlyIf_goes
  repeat' (first | exact sub_of rfl hm | with_reducible first | exact Kept.refl _ | assumption | intro _ | apply State.supervisionFault_kept | exact rfl)

theorem execCaptureArm_goes {n : Nat} {s : State} (hm : Sub [.loops] pp) : Goes pp s (execCaptureArm n s) := by
  unfold execCaptureArm
  apply onlyIf_goes
  repeat' (first | exact sub_of rfl hm | with_reducible first | exact Kept.refl _ | assumption | intro _ | apply State.arm_kept | exact rfl)

theorem execCaptureComplete_goes {n : Nat} {s : State} (hm : Sub [.events, .loops] pp) : Goes pp s (execCaptureComplete n s) := by
  unfold execCaptureComplete
  apply onlyIf_goes
  repeat' (first | exact sub_of rfl hm | with_reducible first | exact Kept.refl _ | assumption | intro _ | apply State.captureEnd_kept | exact rfl)

theorem execCapture_goes {rq : Rq} {b : Bulk} {dma : Option Nat} {s : State} (hm : Sub [.mail, .bulk] pp) : Goes pp s (execCapture rq b dma s) := by
  unfold execCapture
  apply bulkRead_goes
  repeat' (first | exact sub_of rfl hm | with_reducible first | exact Kept.refl _ | assumption | intro _ | exact rfl)

theorem execAxisTarget_goes {rq : Rq} {ax : Nat} {target : Int} {s : State} (hm : Sub [.mail, .loops] pp) : Goes pp s (execAxisTarget rq ax target s) := by
  unfold execAxisTarget
  apply plainCmd_goes
  repeat' (first | exact sub_of rfl hm | with_reducible first | exact Kept.refl _ | assumption | intro _ | apply State.modAxis_kept | exact rfl)

theorem execLoopConfigSave_goes  {s : State} (hm : Sub [.store, .recs] pp) : Goes pp s (execLoopConfigSave s) := by
  unfold execLoopConfigSave
  apply onlyIf_goes
  repeat' (first | exact sub_of rfl hm | exact .inl (hm.mem (by decide)) | exact .inr fun _ => rfl | with_reducible first | exact Kept.refl _ | assumption | intro _ | apply State.onRecs_kept | apply State.commitCfg_kept | exact rfl)

theorem execAxisEdge_goes {ax : Nat} {a b : Bool} {sin cos : Int} {s : State} (hm : Sub [.events, .recs, .loops] pp) : Goes pp s (execAxisEdge ax a b sin cos s) := by
  unfold execAxisEdge
  repeat' (first | apply onlyIf_goes | apply ite_goes)
  repeat' (first | exact sub_of rfl hm | with_reducible first | exact Kept.refl _ | assumption | intro _ | apply State.axisSample_kept | apply State.axisAnalogue_kept | exact rfl | apply ite_kept | split)

theorem execAxisIndex_goes {ax : Nat} {s : State} (hm : Sub [.loops] pp) : Goes pp s (execAxisIndex ax s) := by
  unfold execAxisIndex
  apply onlyIf_goes
  repeat' (first | exact sub_of rfl hm | with_reducible first | exact Kept.refl _ | assumption | intro _ | apply State.modAxis_kept | exact rfl)

theorem execAxisWireFault_goes {ax pair heldNs : Nat} {s : State} (hm : Sub [.events, .loops] pp) : Goes pp s (execAxisWireFault ax pair heldNs s) := by
  unfold execAxisWireFault
  apply onlyIf_goes
  repeat' (first | exact sub_of rfl hm | with_reducible first | exact Kept.refl _ | assumption | intro _ | apply State.when_kept | apply State.modAxis_kept | apply State.axisFault_kept | exact rfl)

theorem execAxisAmplitudeFault_goes {ax : Nat} {high : Bool} {s : State} (hm : Sub [.events, .loops] pp) : Goes pp s (execAxisAmplitudeFault ax high s) := by
  unfold execAxisAmplitudeFault
  repeat' (first | apply onlyIf_goes | apply ite_goes)
  repeat' (first | exact sub_of rfl hm | with_reducible first | exact Kept.refl _ | assumption | intro _ | apply State.modAxis_kept | apply State.axisFault_kept | exact rfl | apply ite_kept | split)

theorem execAxisStill_goes {ax : Nat} {s : State} (hm : Sub [.loops] pp) : Goes pp s (execAxisStill ax s) := by
  unfold execAxisStill
  apply onlyIf_goes
  repeat' (first | exact sub_of rfl hm | with_reducible first | exact Kept.refl _ | assumption | intro _ | apply State.modAxis_kept | exact rfl)

theorem execFaultev_goes {ax : Nat} {s : State} (hm : Sub [.events, .loops] pp) : Goes pp s (execFaultev ax s) := by
  unfold execFaultev
  apply onlyIf_goes
  repeat' (first | exact sub_of rfl hm | with_reducible first | exact Kept.refl _ | assumption | intro _ | apply State.faultEv_kept | exact rfl)

theorem execOutputOpen_goes {n heldUs : Nat} {s : State} (hm : Sub [.events, .loops] pp) : Goes pp s (execOutputOpen n heldUs s) := by
  unfold execOutputOpen
  repeat' (first | apply onlyIf_goes | apply ite_goes)
  repeat' (first | exact sub_of rfl hm | with_reducible first | exact Kept.refl _ | assumption | intro _ | apply State.when_kept | apply State.onLoops_kept | apply State.raise_kept | exact rfl | apply ite_kept | split)
  all_goals first | exact sub_of rfl hm | exact .inl (hm.mem (by decide)) | exact .inr fun _ => rfl | exact rfl | exact ⟨rfl, rfl⟩ | exact ⟨rfl, rfl, rfl, rfl, rfl⟩ | exact ⟨rfl, rfl, rfl⟩ | (refine .inr fun _ => ?_; (repeat' split) <;> exact rfl) | exact (Kept.refl _).same rfl rfl rfl (fun p => by cases p <;> first | exact .inr rfl | exact .inl (hm.mem (by decide))) | (repeat' split) <;> first | exact rfl | exact ⟨rfl, rfl⟩ | exact ⟨rfl, rfl, rfl, rfl, rfl⟩ | exact ⟨rfl, rfl, rfl⟩

theorem execAinBroken_goes {n : Nat} {value : Int} {s : State} (hm : Sub [.loops] pp) : Goes pp s (execAinBroken n value s) := by
  unfold execAinBroken
  apply onlyIf_goes
  repeat' (first | exact sub_of rfl hm | with_reducible first | exact Kept.refl _ | assumption | intro _ | apply State.putAin_kept | exact rfl)

theorem State.driveFrames_kept  {r0 s : State} (hk : Kept pp r0 s) (hm : Sub [.loops, .can] pp) : Kept pp r0 (State.driveFrames s) := by
  unfold State.driveFrames
  repeat' (first | exact sub_of rfl hm | with_reducible first | assumption | intro _ | apply State.modCtrl_kept | apply State.onLoops_kept | apply State.startFrame_kept | apply foldl_kept | exact rfl | apply ite_kept | split)
  all_goals first | exact sub_of rfl hm | exact .inl (hm.mem (by decide)) | exact .inr fun _ => rfl | exact rfl | exact ⟨rfl, rfl⟩ | exact ⟨rfl, rfl, rfl, rfl, rfl⟩ | exact ⟨rfl, rfl, rfl⟩ | (refine .inr fun _ => ?_; (repeat' split) <;> exact rfl) | exact hk.same rfl rfl rfl (fun p => by cases p <;> first | exact .inr rfl | exact .inl (hm.mem (by decide))) | (repeat' split) <;> first | exact rfl | exact ⟨rfl, rfl⟩ | exact ⟨rfl, rfl, rfl, rfl, rfl⟩ | exact ⟨rfl, rfl, rfl⟩

theorem execDriveFramePeriod_goes  {s : State} (hm : Sub [.loops, .can] pp) : Goes pp s (execDriveFramePeriod s) := by
  unfold execDriveFramePeriod
  repeat' (first | apply onlyIf_goes | split)
  repeat' (first | exact sub_of rfl hm | with_reducible first | exact Kept.refl _ | assumption | intro _ | apply State.driveFrames_kept | exact rfl | apply ite_kept | split)

theorem State.loadEvent_kept {i : Nat} {r0 s : State} (hk : Kept pp r0 s) (hm : Sub [.load] pp) : Kept pp r0 (State.loadEvent s i) := by
  unfold State.loadEvent
  repeat' (first | exact sub_of rfl hm | with_reducible first | assumption | intro _ | apply State.onLoad_kept | exact rfl)

theorem State.loadAfter_kept {off : Nat} {r0 s : State} (hk : Kept pp r0 s) (hm : Sub [.load] pp) : Kept pp r0 (State.loadAfter s off) := by
  unfold State.loadAfter
  repeat' (first | exact sub_of rfl hm | with_reducible first | assumption | intro _ | apply State.modChan_kept | apply State.count_kept | exact rfl | apply ite_kept | split)

theorem State.takeMeas_kept {meas : List (Nat × Int)} {vload : Int} {mean : Nat} {r0 s : State} (h : Kept pp r0 s)
    (hm : Sub [.load] pp) : Kept pp r0 (s.takeMeas meas vload mean) := by
  unfold State.takeMeas
  have h1 : Kept pp r0 (forEach chanNums (fun n t => t.modChan n fun c =>
      { c with i := if c.on then satN 65535 (nth (0, 0) meas n).1 else 0, dt := (nth (0, 0) meas n).2,
               clamp := c.clamp && decide (0 < (nth (0, 0) meas n).1) }) s) :=
    forEach_kept (fun _ _ h => State.modChan_kept h hm) h
  exact State.onLoad_kept (fun _ => rfl) h1 hm

theorem Goes.after {r s : State} {o : Host.Outcome State Fault Refusal} (h : Kept pp r s) (g : Goes pp s o) : Goes pp r o := by
  obtain ⟨t, e, k⟩ := g
  exact ⟨t, e, h.comp k⟩

theorem execLoadRead_goes {rq : Rq} {off count : Nat} {meas : List (Nat × Int)} {vload : Int} {mean : Nat} {s : State}
    (hm : Sub [.mail, .load] pp) : Goes pp s (execLoadRead rq off count meas vload mean s) := by
  unfold execLoadRead
  exact Goes.after (State.takeMeas_kept (Kept.refl s) (sub_of rfl hm))
    (regRead_goes (fun _ _ h => State.loadAfter_kept h (sub_of rfl hm)) (sub_of rfl hm))

theorem execChStatus_goes {rq : Rq} {meas : List (Nat × Int)} {vload : Int} {mean : Nat} {s : State}
    (hm : Sub [.mail, .load] pp) : Goes pp s (execChStatus rq meas vload mean s) := by
  unfold execChStatus
  exact Goes.after (State.takeMeas_kept (Kept.refl s) (sub_of rfl hm)) (readCmd_goes (sub_of rfl hm))

theorem State.setCmd_kept {cmd : Nat} {r0 s : State} (hk : Kept pp r0 s) (hm : Sub [.load] pp) : Kept pp r0 (State.setCmd s cmd) := by
  unfold State.setCmd
  repeat' (first | exact sub_of rfl hm | with_reducible first | assumption | intro _ | apply State.modChan_kept | apply State.onLoad_kept | apply forEach_kept | exact rfl | apply ite_kept | split)

theorem State.guardOwned_kept {rq : Rq} {op mask : Nat} {r0 s : State} (hk : Kept pp r0 s) (hm : Sub [.mail, .events] pp) : Kept pp r0 (State.guardOwned s rq op mask) := by
  unfold State.guardOwned
  repeat' (first | exact sub_of rfl hm | with_reducible first | assumption | intro _ | apply State.raise_kept | apply State.refuse_kept | exact rfl)

theorem execSetOutputs_goes {rq : Rq} {mask value : Nat} {s : State} (hm : Sub [.mail, .events, .load] pp) : Goes pp s (execSetOutputs rq mask value s) := by
  unfold execSetOutputs
  repeat' (first | apply next_goes | apply ite_goes)
  repeat' (first | exact sub_of rfl hm | with_reducible first | exact Kept.refl _ | assumption | intro _ | apply State.ok_kept | apply State.applyChannels_kept | apply State.setCmd_kept | apply State.guardOwned_kept | apply mailbox_kept | apply checked_kept | exact rfl | apply ite_kept | split)

theorem execRestart_goes {rq : Rq} {mask : Nat} {s : State} (hm : Sub [.mail, .events, .load] pp) : Goes pp s (execRestart rq mask s) := by
  unfold execRestart
  repeat' (first | apply next_goes | apply ite_goes)
  repeat' (first | exact sub_of rfl hm | with_reducible first | exact Kept.refl _ | assumption | intro _ | apply State.modChan_kept | apply State.onLoad_kept | apply State.ok_kept | apply State.applyChannels_kept | apply State.guardOwned_kept | apply forEach_kept | apply mailbox_kept | apply checked_kept | exact rfl | apply ite_kept | split)

theorem execRestartRecommand_goes {n : Nat} {s : State} (hm : Sub [.load] pp) : Goes pp s (execRestartRecommand n s) := by
  unfold execRestartRecommand
  apply onlyIf_goes
  repeat' (first | exact sub_of rfl hm | with_reducible first | exact Kept.refl _ | assumption | intro _ | apply State.modChan_kept | apply State.applyChannels_kept | apply State.setCmd_kept | exact rfl)

theorem State.loadPut_kept {off w : Nat} {r0 s : State} (hk : Kept pp r0 s) (hm : Sub [.load] pp) : Kept pp r0 (State.loadPut s off w) := by
  unfold State.loadPut
  repeat' (first | exact sub_of rfl hm | with_reducible first | assumption | intro _ | apply State.onLoad_kept | apply State.setCmd_kept | exact rfl | apply ite_kept | split)

theorem execLoadWrite_goes {rq : Rq} {off : Nat} {data : List Nat} {s : State} (hm : Sub [.mail, .events, .store, .load] pp) : Goes pp s (execLoadWrite rq off data s) := by
  unfold execLoadWrite
  repeat' (first | apply next_goes | apply ite_goes | split)
  repeat' (first | exact sub_of rfl hm | with_reducible first | exact Kept.refl _ | assumption | intro _ | apply State.cfgOwed_kept | apply State.ok_kept | apply State.refuse_kept | apply State.applyChannels_kept | apply State.guardOwned_kept | apply State.loadPut_kept | apply mailbox_kept | apply checked_kept | apply foldl_kept | exact rfl | apply ite_kept | split)

theorem execLoadConfigSave_goes  {s : State} (hm : Sub [.store, .recs] pp) : Goes pp s (execLoadConfigSave s) := by
  unfold execLoadConfigSave
  apply onlyIf_goes
  repeat' (first | exact sub_of rfl hm | exact .inl (hm.mem (by decide)) | exact .inr fun _ => rfl | with_reducible first | exact Kept.refl _ | assumption | intro _ | apply State.onRecs_kept | apply State.commitCfg_kept | exact rfl)

theorem execInEdge_goes {n : Nat} {high : Bool} {s : State} (hm : Sub [.load] pp) : Goes pp s (execInEdge n high s) := by
  unfold execInEdge
  apply onlyIf_goes
  repeat' (first | exact sub_of rfl hm | with_reducible first | exact Kept.refl _ | assumption | intro _ | apply State.when_kept | apply State.onLoad_kept | apply State.applyChannels_kept | exact rfl)

theorem execInMinimumTimeEnd_goes {n : Nat} {s : State} (hm : Sub [.load] pp) : Goes pp s (execInMinimumTimeEnd n s) := by
  unfold execInMinimumTimeEnd
  apply onlyIf_goes
  repeat' (first | exact sub_of rfl hm | with_reducible first | exact Kept.refl _ | assumption | intro _ | apply State.applyChannels_kept | exact rfl)

theorem execInrushWindowEnd_goes {n : Nat} {s : State} (hm : Sub [.load] pp) : Goes pp s (execInrushWindowEnd n s) := by
  unfold execInrushWindowEnd
  apply onlyIf_goes
  repeat' (first | exact sub_of rfl hm | with_reducible first | exact Kept.refl _ | assumption | intro _ | apply State.modChan_kept | exact rfl)

theorem execSlewRampComplete_goes {n : Nat} {vout vload : Int} {s : State} (hm : Sub [.load] pp) : Goes pp s (execSlewRampComplete n vout vload s) := by
  unfold execSlewRampComplete
  apply onlyIf_goes
  repeat' (first | exact sub_of rfl hm | with_reducible first | exact Kept.refl _ | assumption | intro _ | apply State.modChan_kept | exact rfl)

theorem State.overcurrent_kept {n stage ma : Nat} {r0 s : State} (hk : Kept pp r0 s) (hm : Sub [.guard, .events, .load] pp) : Kept pp r0 (State.overcurrent s n stage ma) := by
  unfold State.overcurrent
  repeat' (first | exact sub_of rfl hm | with_reducible first | assumption | intro _ | apply State.modChan_kept | apply State.raise_kept | apply State.applyChannels_kept | apply State.dropout_kept | apply State.loadEvent_kept | exact rfl)

theorem execOvercurrentLatch_goes {n ma heldUs : Nat} {s : State} (hm : Sub [.guard, .events, .load] pp) : Goes pp s (execOvercurrentLatch n ma heldUs s) := by
  unfold execOvercurrentLatch
  repeat' (first | apply onlyIf_goes | apply ite_goes)
  repeat' (first | exact sub_of rfl hm | with_reducible first | exact Kept.refl _ | assumption | intro _ | apply State.overcurrent_kept | exact rfl | apply ite_kept | split)

theorem execSlewRampTimeout_goes {n ma : Nat} {s : State} (hm : Sub [.guard, .events, .load] pp) : Goes pp s (execSlewRampTimeout n ma s) := by
  unfold execSlewRampTimeout
  apply onlyIf_goes
  repeat' (first | exact sub_of rfl hm | with_reducible first | exact Kept.refl _ | assumption | intro _ | apply State.overcurrent_kept | exact rfl)

theorem execThermalSwitchOff_goes {n : Nat} {dt : Int} {s : State} (hm : Sub [.guard, .events, .load] pp) : Goes pp s (execThermalSwitchOff n dt s) := by
  unfold execThermalSwitchOff
  apply onlyIf_goes
  repeat' (first | exact sub_of rfl hm | with_reducible first | exact Kept.refl _ | assumption | intro _ | apply State.when_kept | apply State.modChan_kept | apply State.raise_kept | apply State.applyChannels_kept | apply State.dropout_kept | apply State.loadEvent_kept | exact rfl)

theorem execThermalRestart_goes {n : Nat} {dt : Int} {s : State} (hm : Sub [.load] pp) : Goes pp s (execThermalRestart n dt s) := by
  unfold execThermalRestart
  apply onlyIf_goes
  repeat' (first | exact sub_of rfl hm | with_reducible first | exact Kept.refl _ | assumption | intro _ | apply State.modChan_kept | apply State.applyChannels_kept | exact rfl)

theorem execOpenLoadJudgement_goes {n : Nat} {samples : List Nat} {s : State} (hm : Sub [.events, .load] pp) : Goes pp s (execOpenLoadJudgement n samples s) := by
  unfold execOpenLoadJudgement
  repeat' (first | apply onlyIf_goes | apply ite_goes)
  repeat' (first | exact sub_of rfl hm | with_reducible first | exact Kept.refl _ | assumption | intro _ | apply State.modChan_kept | apply State.raise_kept | apply State.loadEvent_kept | exact rfl | apply ite_kept | split)

theorem execStaggeredTurnOn_goes  {s : State} (hm : Sub [.load] pp) : Goes pp s (execStaggeredTurnOn s) := by
  unfold execStaggeredTurnOn
  repeat' (first | apply onlyIf_goes | split)
  repeat' (first | exact sub_of rfl hm | with_reducible first | exact Kept.refl _ | assumption | intro _ | apply State.onLoad_kept | apply State.turnOn_kept | exact rfl | apply ite_kept | split)

theorem State.supSet_kept {i : Nat} {r0 s : State} (hk : Kept pp r0 s) (hm : Sub [.load] pp) : Kept pp r0 (State.supSet s i) := by
  unfold State.supSet
  repeat' (first | exact sub_of rfl hm | with_reducible first | assumption | intro _ | apply State.onLoad_kept | apply State.loadEvent_kept | exact rfl)

theorem State.supplyFault_kept {cause : Nat} {ps : List Int} {r0 s : State} (hk : Kept pp r0 s) (hm : Sub [.guard, .load] pp) : Kept pp r0 (State.supplyFault s cause ps) := by
  unfold State.supplyFault
  repeat' (first | exact sub_of rfl hm | with_reducible first | assumption | intro _ | apply State.applyChannels_kept | apply State.dropout_kept | exact rfl)

theorem execVloadUnderVoltage_goes {vload : Int} {heldUs : Nat} {s : State} (hm : Sub [.guard, .events, .load] pp) : Goes pp s (execVloadUnderVoltage vload heldUs s) := by
  unfold execVloadUnderVoltage
  apply onlyIf_goes
  repeat' (first | exact sub_of rfl hm | with_reducible first | exact Kept.refl _ | assumption | intro _ | apply State.onLoad_kept | apply State.raise_kept | apply State.supSet_kept | apply State.supplyFault_kept | exact rfl)

theorem execVloadRestored_goes {vload : Int} {heldMs : Nat} {s : State} (hm : Sub [.events, .load] pp) : Goes pp s (execVloadRestored vload heldMs s) := by
  unfold execVloadRestored
  repeat' (first | apply onlyIf_goes | apply ite_goes)
  repeat' (first | exact sub_of rfl hm | with_reducible first | exact Kept.refl _ | assumption | intro _ | apply State.when_kept | apply State.onLoad_kept | apply State.raise_kept | apply State.applyChannels_kept | exact rfl | apply ite_kept | split)

theorem execLoadDump_goes {vload : Int} {s : State} (hm : Sub [.events, .load] pp) : Goes pp s (execLoadDump vload s) := by
  unfold execLoadDump
  repeat' (first | apply next_goes | apply ite_goes)
  repeat' (first | exact sub_of rfl hm | with_reducible first | exact Kept.refl _ | assumption | intro _ | apply State.onLoad_kept | apply State.raise_kept | apply State.supSet_kept | exact rfl | apply ite_kept | split)

theorem execReverseSupply_goes {vload : Int} {heldUs : Nat} {s : State} (hm : Sub [.guard, .events, .load] pp) : Goes pp s (execReverseSupply vload heldUs s) := by
  unfold execReverseSupply
  repeat' (first | apply onlyIf_goes | apply ite_goes)
  repeat' (first | exact sub_of rfl hm | with_reducible first | exact Kept.refl _ | assumption | intro _ | apply State.onLoad_kept | apply State.raise_kept | apply State.turnOn_kept | apply State.applyChannels_kept | apply State.dropout_kept | apply State.supSet_kept | apply forEach_kept | exact rfl | apply ite_kept | split)

theorem execLoadGroundLost_goes {offset : Int} {heldUs : Nat} {s : State} (hm : Sub [.guard, .events, .load] pp) : Goes pp s (execLoadGroundLost offset heldUs s) := by
  unfold execLoadGroundLost
  apply onlyIf_goes
  repeat' (first | exact sub_of rfl hm | with_reducible first | exact Kept.refl _ | assumption | intro _ | apply State.onLoad_kept | apply State.raise_kept | apply State.supSet_kept | apply State.supplyFault_kept | exact rfl)

theorem execLoadGroundRestored_goes {offset : Int} {heldMs : Nat} {s : State} (hm : Sub [.events, .load] pp) : Goes pp s (execLoadGroundRestored offset heldMs s) := by
  unfold execLoadGroundRestored
  apply onlyIf_goes
  repeat' (first | exact sub_of rfl hm | with_reducible first | exact Kept.refl _ | assumption | intro _ | apply State.onLoad_kept | apply State.raise_kept | apply State.applyChannels_kept | exact rfl)

theorem execTotalOverload_goes {mean : Nat} {s : State} (hm : Sub [.events, .load] pp) : Goes pp s (execTotalOverload mean s) := by
  unfold execTotalOverload
  repeat' (first | apply next_goes | apply ite_goes)
  repeat' (first | exact sub_of rfl hm | with_reducible first | exact Kept.refl _ | assumption | intro _ | apply State.onLoad_kept | apply State.raise_kept | apply State.supSet_kept | exact rfl | apply ite_kept | split)

theorem execLoadShed_goes {mean : Nat} {s : State} (hm : Sub [.guard, .events, .load] pp) : Goes pp s (execLoadShed mean s) := by
  unfold execLoadShed
  repeat' (first | apply onlyIf_goes | split)
  repeat' (first | exact sub_of rfl hm | with_reducible first | exact Kept.refl _ | assumption | intro _ | apply State.onLoad_kept | apply State.overcurrent_kept | exact rfl | apply ite_kept | split)

theorem State.notifyEvent_kept {e : Rec} {r0 s : State} (hk : Kept pp r0 s) (hm : Sub [.mail, .events] pp) : Kept pp r0 (State.notifyEvent s e) := by
  unfold State.notifyEvent
  repeat' (first | exact sub_of rfl hm | with_reducible first | assumption | intro _ | apply State.when_kept | apply State.notify_kept | exact rfl)

theorem State.closeOpen_kept  {r0 s : State} (hk : Kept pp r0 s) (hm : Sub [.mail, .events, .recs] pp) : Kept pp r0 (State.closeOpen s) := by
  unfold State.closeOpen
  repeat' (first | exact sub_of rfl hm | exact .inl (hm.mem (by decide)) | exact .inr fun _ => rfl | with_reducible first | assumption | intro _ | apply State.when_kept | apply State.onRecs_kept | apply State.notifyEvent_kept | exact rfl | apply ite_kept | split)

theorem State.mergeEvent_kept {e : Rec} {r0 s : State} (hk : Kept pp r0 s) (hm : Sub [.mail, .events, .recs] pp) : Kept pp r0 (State.mergeEvent s e) := by
  unfold State.mergeEvent
  repeat' (first | exact sub_of rfl hm | exact .inl (hm.mem (by decide)) | exact .inr fun _ => rfl | with_reducible first | assumption | intro _ | apply State.when_kept | apply State.onRecs_kept | apply State.closeOpen_kept | exact rfl)

theorem State.newRecord_kept {v : Ev} {at_ : Nat × Nat} {r0 s : State} (hk : Kept pp r0 s) (hm : Sub [.mail, .events, .recs] pp) :
    Kept pp r0 (s.newRecord v at_) := by
  unfold State.newRecord
  refine State.when_kept (fun h => State.wake_kept h (sub_of rfl hm)) (State.notifyEvent_kept (State.onRecs_kept (fun _ => rfl)
    (State.closeOpen_kept hk (sub_of rfl hm)) (.inl (hm.mem (by decide))) (.inr fun _ => ?_) (.inl (hm.mem (by decide)))) (sub_of rfl hm))
  dsimp only [Records.storePart]

theorem State.tailWrite_kept {v : Ev} {at_ : Nat × Nat} {r0 s : State} (hk : Kept pp r0 s) (hm : Sub [.mail, .events, .recs] pp) : Kept pp r0 (State.tailWrite s v at_) := by
  unfold State.tailWrite
  try dsimp only
  repeat' (first | exact sub_of rfl hm | exact .inl (hm.mem (by decide)) | exact .inr fun _ => rfl | with_reducible first | exact Kept.refl _ | assumption | intro _ _ _ | intro _ _ | intro _ | apply ite_kept | apply State.mergeEvent_kept | apply State.newRecord_kept | apply foldl_kept | exact rfl | split | exact (by assumption : Kept _ _ _).same rfl rfl rfl (fun p => by cases p <;> first | exact .inr rfl | exact .inl (hm.mem (by decide))) | exact (Kept.refl _).same rfl rfl rfl (fun p => by cases p <;> first | exact .inr rfl | exact .inl (hm.mem (by decide))))
  all_goals (try dsimp only)
  all_goals (first | exact sub_of rfl hm | exact .inl (hm.mem (by decide)) | exact .inr fun _ => rfl | exact rfl | exact ⟨rfl, rfl⟩ | exact ⟨rfl, rfl, rfl, rfl, rfl⟩ | exact ⟨rfl, rfl, rfl⟩ | (refine .inr fun _ => ?_; (repeat' split) <;> exact rfl) | exact hk.same rfl rfl rfl (fun p => by cases p <;> first | exact .inr rfl | exact .inl (hm.mem (by decide))) | exact (Kept.refl _).same rfl rfl rfl (fun p => by cases p <;> first | exact .inr rfl | exact .inl (hm.mem (by decide))) | exact (by assumption : Kept _ _ _).same rfl rfl rfl (fun p => by cases p <;> first | exact .inr rfl | exact .inl (hm.mem (by decide))) | ((repeat' split) <;> first | exact rfl | exact ⟨rfl, rfl⟩ | exact ⟨rfl, rfl, rfl, rfl, rfl⟩ | exact ⟨rfl, rfl, rfl⟩))

theorem execEventTailWrite_goes {s : State} (hm : Sub [.mail, .events, .recs] pp) : Goes pp s (execEventTailWrite s) := by
  unfold execEventTailWrite
  split
  · exact next_goes (Kept.refl s)
  · exact onlyIf_goes (State.tailWrite_kept (State.onRecs_kept (fun _ => rfl) (Kept.refl s) (.inl (hm.mem (by decide))) (.inr fun _ => rfl)
      (.inl (hm.mem (by decide)))) hm)

theorem State.drainQueue_kept  {r0 s : State} (hk : Kept pp r0 s) (hm : Sub [.mail, .events, .recs] pp) : Kept pp r0 (State.drainQueue s) := by
  unfold State.drainQueue
  repeat' (first | exact sub_of rfl hm | exact .inl (hm.mem (by decide)) | exact .inr fun _ => rfl | with_reducible first | assumption | intro _ | apply State.when_kept | apply State.onRecs_kept | apply State.tailWrite_kept | apply forEach_kept | exact rfl)

theorem execLogPageProgram_goes  {s : State} (hm : Sub [.events, .store, .recs] pp) : Goes pp s (execLogPageProgram s) := by
  unfold execLogPageProgram
  apply onlyIf_goes
  repeat' (first | exact sub_of rfl hm | exact .inl (hm.mem (by decide)) | exact .inr fun _ => rfl | with_reducible first | exact Kept.refl _ | assumption | intro _ | apply State.onRecs_kept | exact rfl)
  all_goals first | exact sub_of rfl hm | exact .inl (hm.mem (by decide)) | exact .inr fun _ => rfl | exact rfl | exact ⟨rfl, rfl⟩ | exact ⟨rfl, rfl, rfl, rfl, rfl⟩ | exact ⟨rfl, rfl, rfl⟩ | (refine .inr fun _ => ?_; (repeat' split) <;> exact rfl) | exact (Kept.refl _).same rfl rfl rfl (fun p => by cases p <;> first | exact .inr rfl | exact .inl (hm.mem (by decide))) | (repeat' split) <;> first | exact rfl | exact ⟨rfl, rfl⟩ | exact ⟨rfl, rfl, rfl, rfl, rfl⟩ | exact ⟨rfl, rfl, rfl⟩

theorem execFlashBlockRetired_goes {region block : Nat} {s : State} (hm : Sub [.events, .recs] pp) : Goes pp s (execFlashBlockRetired region block s) := by
  unfold execFlashBlockRetired
  repeat' (first | apply next_goes | apply ite_goes)
  repeat' (first | exact sub_of rfl hm | exact .inl (hm.mem (by decide)) | exact .inr fun _ => rfl | with_reducible first | exact Kept.refl _ | assumption | intro _ | apply State.onRecs_kept | apply State.raise_kept | exact rfl | apply ite_kept | split)

theorem execOperatingTimeCount_goes  {s : State} (hm : Sub [.events, .recs] pp) : Goes pp s (execOperatingTimeCount s) := by
  unfold execOperatingTimeCount
  apply onlyIf_goes
  repeat' (first | exact sub_of rfl hm | with_reducible first | exact Kept.refl _ | assumption | intro _ | apply State.count_kept | exact rfl)

theorem execLogState_goes {rq : Rq} {s : State} (hm : Sub [.mail] pp) : Goes pp s (execLogState rq s) := by
  unfold execLogState
  apply readCmd_goes
  repeat' (first | exact sub_of rfl hm | with_reducible first | exact Kept.refl _ | assumption | intro _ | exact rfl)

theorem State.reportCorrupt_kept {bad : List (Nat × List Byte)} {es : List Rec} {r0 s : State} (hk : Kept pp r0 s) (hm : Sub [.events, .recs] pp) : Kept pp r0 (State.reportCorrupt s bad es) := by
  unfold State.reportCorrupt
  repeat' (first | exact sub_of rfl hm | exact .inl (hm.mem (by decide)) | exact .inr fun _ => rfl | with_reducible first | assumption | intro _ | apply State.onRecs_kept | apply State.raise_kept | apply forEach_kept | exact rfl | apply ite_kept | split)

theorem State.readLogCall_kept {rq : Rq} {b : Bulk} {bad : List (Nat × List Byte)} {dma : Option Nat} {c : Cursor} {r0 s : State} (hk : Kept pp r0 s) (hm : Sub [.mail, .bulk, .events, .recs] pp) : Kept pp r0 (State.readLogCall s rq b bad dma c) := by
  unfold State.readLogCall
  dsimp only
  repeat' (first | exact sub_of rfl hm | with_reducible first | assumption | intro _ | apply State.refuse_kept | apply State.releaseCursor_kept | apply State.bulkAnswer_kept | apply State.keepCursor_kept | apply State.toAperture_kept | apply State.reportCorrupt_kept | exact rfl | apply ite_kept | split)

theorem execReadLog_goes {rq : Rq} {b : Bulk} {bad : List (Nat × List Byte)} {dma : Option Nat} {s : State} (hm : Sub [.mail, .bulk, .events, .recs] pp) : Goes pp s (execReadLog rq b bad dma s) := by
  unfold execReadLog
  apply bulkCmd_goes
  repeat' (first | exact sub_of rfl hm | with_reducible first | exact Kept.refl _ | assumption | intro _ | apply State.readLogCall_kept | exact rfl)

theorem execReadRecent_goes {rq : Rq} {from_ count : Nat} {bad : List (Nat × List Byte)} {s : State} (hm : Sub [.mail, .events, .recs] pp) : Goes pp s (execReadRecent rq from_ count bad s) := by
  unfold execReadRecent
  apply next_goes
  repeat' (first | exact sub_of rfl hm | with_reducible first | exact Kept.refl _ | assumption | intro _ | apply State.count_kept | apply State.ok_kept | apply State.reportCorrupt_kept | apply mailbox_kept | apply checked_kept | exact rfl)

theorem execSetSeverity_goes {rq : Rq} {wake notify : Nat} {s : State} (hm : Sub [.mail, .conf, .store] pp) : Goes pp s (execSetSeverity rq wake notify s) := by
  unfold execSetSeverity
  apply nvWrite_goes
  repeat' (first | exact sub_of rfl hm | with_reducible first | exact Kept.refl _ | assumption | intro _ | apply State.wake_kept | apply State.notify_kept | apply State.onConf_kept | exact rfl)

theorem execReadCounters_goes {rq : Rq} {port string : Nat} {s : State} (hm : Sub [.mail] pp) : Goes pp s (execReadCounters rq port string s) := by
  unfold execReadCounters
  apply readCmd_goes
  repeat' (first | exact sub_of rfl hm | with_reducible first | exact Kept.refl _ | assumption | intro _ | exact rfl | apply ite_kept | split)

theorem State.loadStore_kept {c : Store} {r0 s : State} (hk : Kept pp r0 s) (hm : Sub [.mail, .conf, .sys, .beam, .rings, .sched, .est, .guard, .disp, .recs, .can] pp) : Kept pp r0 (State.loadStore s c) := by
  unfold State.loadStore
  try dsimp only
  repeat' (first | exact sub_of rfl hm | exact .inl (hm.mem (by decide)) | exact .inr fun _ => rfl | with_reducible first | exact Kept.refl _ | assumption | intro _ _ _ | intro _ _ | intro _ | apply ite_kept | apply State.modRing_kept | apply State.modTenant_kept | apply State.modPage_kept | apply State.onBeam_kept | apply State.onGuard_kept | apply State.onSys_kept | apply State.onRecs_kept | apply State.onEst_kept | apply State.onSched_kept | apply State.applyConf_kept | apply forEach_kept | apply foldl_kept | exact rfl | split | exact (by assumption : Kept _ _ _).same rfl rfl rfl (fun p => by cases p <;> first | exact .inr rfl | exact .inl (hm.mem (by decide))) | exact (Kept.refl _).same rfl rfl rfl (fun p => by cases p <;> first | exact .inr rfl | exact .inl (hm.mem (by decide))))
  all_goals (try dsimp only)
  all_goals (first | exact sub_of rfl hm | exact .inl (hm.mem (by decide)) | exact .inr fun _ => rfl | exact rfl | exact ⟨rfl, rfl⟩ | exact ⟨rfl, rfl, rfl, rfl, rfl⟩ | exact ⟨rfl, rfl, rfl⟩ | (refine .inr fun _ => ?_; (repeat' split) <;> exact rfl) | exact hk.same rfl rfl rfl (fun p => by cases p <;> first | exact .inr rfl | exact .inl (hm.mem (by decide))) | exact (Kept.refl _).same rfl rfl rfl (fun p => by cases p <;> first | exact .inr rfl | exact .inl (hm.mem (by decide))) | exact (by assumption : Kept _ _ _).same rfl rfl rfl (fun p => by cases p <;> first | exact .inr rfl | exact .inl (hm.mem (by decide))) | ((repeat' split) <;> first | exact rfl | exact ⟨rfl, rfl⟩ | exact ⟨rfl, rfl, rfl, rfl, rfl⟩ | exact ⟨rfl, rfl, rfl⟩))

theorem keysRise_map {α β : Type} (f : Nat → α → β) (t : Tbl α) (h : keysRise t = true) :
    keysRise (t.map (fun e => (e.1, f e.1 e.2))) = true := by
  induction t with
  | nil => rfl
  | cons e t ih =>
    refine keysRise_cons (ih (keysRise_tail h)) fun x hx => ?_
    obtain ⟨y, hy, rfl⟩ := List.mem_map.1 hx
    exact keysRise_head_lt h y hy

theorem keysRise_filter {α : Type} (p : Nat × α → Bool) (t : Tbl α) (h : keysRise t = true) : keysRise (t.filter p) = true := by
  induction t with
  | nil => rfl
  | cons e t ih =>
    rw [List.filter_cons]
    split
    · exact keysRise_cons (ih (keysRise_tail h)) fun x hx => keysRise_head_lt h x (List.mem_filter.1 hx).1
    · exact ih (keysRise_tail h)

theorem tok_tmap {α β : Type} [DecidableEq β] (d : β) (f : Nat → α → β) (t : Tbl α) (h : keysRise t = true) :
    tok d (tmap d f t) = true :=
  tok_intro (keysRise_filter _ _ (keysRise_map f t h)) fun e he => by
    have := (List.mem_filter.1 he).2
    simpa using this

theorem State.coldReset_kept {r0 s : State} (h : Kept pp r0 s) (hm : Sub [.power, .mail, .bulk, .mode, .run, .conf, .sys, .beam, .marks, .rings, .sched, .rods, .est, .latch, .guard, .disp, .events, .store, .recs, .loops, .load, .can, .upd] pp) : Kept pp r0 s.coldReset := by
  refine h.comp ⟨rfl, rfl, fun hs => ?_, fun p => by cases p <;> first | exact .inr rfl | exact .inl (hm.mem (by decide))⟩
  have hst : keysRise s.est.strs = true := tok_keysRise (State.tablesOk_str hs)
  have hce : keysRise s.est.cells = true := tok_keysRise (State.tablesOk_cell hs)
  have hpg : keysRise s.sys.pages = true := tok_keysRise (State.tablesOk_page hs)
  have h1 := tok_tmap Str.reset (fun _ q => Str.latched q) s.est.strs hst
  have h2 := tok_tmap Page.reset (fun _ p => Page.kept p) s.sys.pages hpg
  have h0 := tok_tmap Cell.reset (fun _ c => Cell.latched c) s.est.cells hce
  have h3 : tok cnt0 s.recs.counters = true := by
    simp only [State.tablesOk, State.coreTablesOk, State.unitTablesOk, Bool.and_eq_true] at hs; simp [hs]
  have h4 := State.tablesOk_node hs
  simp only [State.tablesOk, State.coreTablesOk, State.unitTablesOk, Bool.and_eq_true]
  exact ⟨⟨⟨⟨⟨⟨⟨⟨⟨⟨rfl, h4⟩, h0⟩, h1⟩, rfl⟩, rfl⟩, rfl⟩, rfl⟩, rfl⟩, h3⟩, ⟨⟨⟨⟨⟨⟨⟨rfl, rfl⟩, h2⟩, rfl⟩, rfl⟩, rfl⟩, rfl⟩, rfl⟩, rfl⟩

theorem State.vmainLost_kept {vmain : Int} {r0 s : State} (hk : Kept pp r0 s) (hm : Sub [.power, .mail, .bulk, .mode, .run, .conf, .sys, .beam, .marks, .rings, .sched, .rods, .est, .latch, .guard, .disp, .events, .store, .recs, .loops, .load, .can, .upd] pp) : Kept pp r0 (State.vmainLost s vmain) := by
  unfold State.vmainLost
  repeat' (first | exact sub_of rfl hm | exact .inl (hm.mem (by decide)) | exact .inr fun _ => rfl | with_reducible first | assumption | intro _ | apply State.onSys_kept | apply State.onLoad_kept | apply State.onPower_kept | apply State.raise_kept | apply State.wake_kept | apply State.settle_kept | apply State.applyChannels_kept | apply State.cycleId_kept | apply State.emergencyBank_kept | apply State.closeOpen_kept | apply State.coldReset_kept | exact rfl | apply ite_kept | split)

theorem execHoldup_goes {vmain heldUs : Nat} {s : State} (hm : Sub [.power, .mail, .bulk, .mode, .run, .conf, .sys, .beam, .marks, .rings, .sched, .rods, .est, .latch, .guard, .disp, .events, .store, .recs, .loops, .load, .can, .upd] pp) : Goes pp s (execHoldup vmain heldUs s) := by
  unfold execHoldup
  apply onlyIf_goes
  repeat' (first | exact sub_of rfl hm | with_reducible first | exact Kept.refl _ | assumption | intro _ | apply State.vmainLost_kept | exact rfl)

theorem execFlushComplete_goes {inProgress : List (Nat × Nat)} {s : State} (hm : Sub [.power, .mail, .bulk, .mode, .run, .conf, .sys, .beam, .marks, .rings, .sched, .rods, .est, .latch, .guard, .disp, .events, .store, .recs, .loops, .load, .can, .upd] pp) : Goes pp s (execFlushComplete inProgress s) := by
  unfold execFlushComplete
  apply onlyIf_goes
  repeat' (first | exact sub_of rfl hm | exact .inl (hm.mem (by decide)) | exact .inr fun _ => rfl | with_reducible first | exact Kept.refl _ | assumption | intro _ | apply State.onRecs_kept | apply State.copyLedgers_kept | apply State.commitCounters_kept | apply State.closeOpen_kept | apply State.drainQueue_kept | apply State.coldReset_kept | exact rfl)

end Sys2Proof.Machine
end

