-- ==== Sys2Proof/Laws/KeptUpdate.lean ====
section
/-! SUPPORT. Each operation and each meaning of Update, Power goes on and keeps the queue, the clock, canonical tables, and every part outside its list. -/
namespace Sys2Proof.Machine
open Sys2Proof

variable {pp : List Part}

theorem execUpdateState_goes {rq : Rq} {s : State} (hm : Sub [.mail] pp) : Goes pp s (execUpdateState rq s) := by
  unfold execUpdateState
  apply readCmd_goes
  repeat' (first | exact sub_of rfl hm | with_reducible first | exact Kept.refl _ | assumption | intro _ | exact rfl)

theorem State.beginImage_kept {target id len slot : Nat} {r0 s : State} (hk : Kept pp r0 s) (hm : Sub [.recs, .upd] pp) : Kept pp r0 (State.beginImage s target id len slot) := by
  unfold State.beginImage
  repeat' (first | exact sub_of rfl hm | exact .inl (hm.mem (by decide)) | exact .inr fun _ => rfl | with_reducible first | assumption | intro _ | apply State.onRecs_kept | apply State.onUpd_kept | exact rfl | apply ite_kept | split)

theorem execBegin_goes {rq : Rq} {target id length : Nat} {s : State} (hm : Sub [.mail, .store, .recs, .upd] pp) : Goes pp s (execBegin rq target id length s) := by
  unfold execBegin
  apply nvWrite_goes
  repeat' (first | exact sub_of rfl hm | with_reducible first | exact Kept.refl _ | assumption | intro _ | apply State.beginImage_kept | exact rfl)

theorem State.refuseBlock_kept {rq : Rq} {op d off : Nat} {r0 s : State} (hk : Kept pp r0 s) (hm : Sub [.mail, .events] pp) : Kept pp r0 (State.refuseBlock s rq op d off) := by
  unfold State.refuseBlock
  repeat' (first | exact sub_of rfl hm | with_reducible first | assumption | intro _ | apply State.raise_kept | apply State.refuse_kept | exact rfl)

theorem State.storeBlock_kept {off : Nat} {l : List Byte} {r0 s : State} (hk : Kept pp r0 s) (hm : Sub [.events, .recs, .upd] pp) : Kept pp r0 (State.storeBlock s off l) := by
  unfold State.storeBlock
  dsimp only
  repeat' (first | exact sub_of rfl hm | exact .inl (hm.mem (by decide)) | exact .inr fun _ => rfl | with_reducible first | assumption | intro _ | apply State.onRecs_kept | apply State.onUpd_kept | apply State.raise_kept | exact rfl | apply ite_kept | split)

theorem State.romOpen_kept {off : Nat} {l : List Byte} {r0 s : State} (hk : Kept pp r0 s) (hm : Sub [.recs, .upd] pp) : Kept pp r0 (State.romOpen s off l) := by
  unfold State.romOpen
  repeat' (first | exact sub_of rfl hm | with_reducible first | assumption | intro _ | apply State.onUpd_kept | apply State.beginImage_kept | exact rfl | apply ite_kept | split)

theorem State.takeBlock_kept {rq : Rq} {off : Nat} {l : List Byte} {n : Nat} {r0 s : State} (hk : Kept pp r0 s) (hm : Sub [.mail, .events, .recs, .upd] pp) : Kept pp r0 (State.takeBlock rq off l n s) := by
  unfold State.takeBlock
  dsimp only
  repeat' (first | exact sub_of rfl hm | with_reducible first | assumption | intro _ | apply State.bulkAnswer_kept | apply State.refuseBlock_kept | apply State.storeBlock_kept | apply State.romOpen_kept | exact rfl | apply ite_kept | split)

theorem execWriteBlock_goes {rq : Rq} {b : Bulk} {data : List Byte} {dma : Option Nat} {s : State} (hm : Sub [.mail, .bulk, .events, .recs, .upd] pp) : Goes pp s (execWriteBlock rq b data dma s) := by
  unfold execWriteBlock
  apply bulkCmd_goes
  repeat' (first | exact sub_of rfl hm | with_reducible first | exact Kept.refl _ | assumption | intro _ | apply State.bulkTake_kept | apply State.takeBlock_kept | exact rfl)

theorem State.romBoot_kept  {r0 s : State} (hk : Kept pp r0 s) (hm : Sub [.power, .mode, .run] pp) : Kept pp r0 (State.romBoot s) := by
  unfold State.romBoot
  repeat' (first | exact sub_of rfl hm | exact .inl (hm.mem (by decide)) | exact .inr fun _ => rfl | with_reducible first | assumption | intro _ | apply State.onSys_kept | apply State.onPower_kept | exact rfl)

theorem State.romSelect_kept {f : Fw} {r0 s : State} (hk : Kept pp r0 s) (hm : Sub [.power, .mode, .run, .sys, .upd] pp) : Kept pp r0 (State.romSelect s f) := by
  unfold State.romSelect
  repeat' (first | exact sub_of rfl hm | exact .inl (hm.mem (by decide)) | exact .inr fun _ => rfl | with_reducible first | assumption | intro _ | apply State.onSys_kept | apply State.onUpd_kept | apply State.romBoot_kept | exact rfl | apply ite_kept | split)

theorem State.verified_kept  {r0 s : State} (hk : Kept pp r0 s) (hm : Sub [.power, .mode, .run, .sys, .events, .upd] pp) : Kept pp r0 (State.verified s) := by
  unfold State.verified
  repeat' (first | exact sub_of rfl hm | with_reducible first | assumption | intro _ | apply State.onUpd_kept | apply State.raise_kept | apply State.romSelect_kept | exact rfl | apply ite_kept | split)

theorem execVerify_goes {rq : Rq} {s : State} (hm : Sub [.power, .mail, .mode, .run, .sys, .events, .store, .upd] pp) : Goes pp s (execVerify rq s) := by
  unfold execVerify
  repeat' (first | apply next_goes | apply ite_goes | split)
  repeat' (first | exact sub_of rfl hm | with_reducible first | exact Kept.refl _ | assumption | intro _ | apply State.onUpd_kept | apply State.ok_kept | apply State.okNv_kept | apply State.refuse_kept | apply State.refuseBlock_kept | apply State.verified_kept | apply mailbox_kept | exact rfl | apply ite_kept | split)

theorem State.schedule_kept {w : Nat} {back : Bool} {r0 s : State} (hk : Kept pp r0 s) (hm : Sub [.beam, .marks, .events, .upd] pp) : Kept pp r0 (State.schedule s w back) := by
  unfold State.schedule
  repeat' (first | exact sub_of rfl hm | with_reducible first | assumption | intro _ | apply State.onBeam_kept | apply State.onUpd_kept | apply State.raise_kept | apply State.markEnable_kept | exact rfl | apply ite_kept | split)

theorem execSchedule_goes {rq : Rq} {actWall : Nat} {s : State} (hm : Sub [.mail, .beam, .marks, .events, .store, .upd] pp) : Goes pp s (execSchedule rq actWall s) := by
  unfold execSchedule
  apply nvWrite_goes
  repeat' (first | exact sub_of rfl hm | with_reducible first | exact Kept.refl _ | assumption | intro _ | apply State.verified_kept | apply State.schedule_kept | exact rfl)

theorem State.cancelActivation_kept {by_ : Nat} {r0 s : State} (hk : Kept pp r0 s) (hm : Sub [.marks, .events, .upd] pp) : Kept pp r0 (State.cancelActivation s by_) := by
  unfold State.cancelActivation
  repeat' (first | exact sub_of rfl hm | with_reducible first | assumption | intro _ | apply State.modMark_kept | apply State.onUpd_kept | apply State.raise_kept | apply State.verified_kept | exact rfl | apply ite_kept | split)

theorem execCancel_goes {rq : Rq} {s : State} (hm : Sub [.mail, .marks, .events, .upd] pp) : Goes pp s (execCancel rq s) := by
  unfold execCancel
  apply plainCmd_goes
  repeat' (first | exact sub_of rfl hm | with_reducible first | exact Kept.refl _ | assumption | intro _ | apply State.when_kept | apply State.cancelActivation_kept | exact rfl)

theorem execActivationExpiry_goes  {s : State} (hm : Sub [.marks, .events, .upd] pp) : Goes pp s (execActivationExpiry s) := by
  unfold execActivationExpiry
  apply onlyIf_goes
  repeat' (first | exact sub_of rfl hm | with_reducible first | exact Kept.refl _ | assumption | intro _ | apply State.cancelActivation_kept | exact rfl)

theorem execCommit_goes {rq : Rq} {s : State} (hm : Sub [.mail, .events, .store, .upd] pp) : Goes pp s (execCommit rq s) := by
  unfold execCommit
  apply nvWrite_goes
  repeat' (first | exact sub_of rfl hm | with_reducible first | exact Kept.refl _ | assumption | intro _ | apply State.when_kept | apply State.onUpd_kept | apply State.raise_kept | exact rfl)

theorem execRollback_goes {rq : Rq} {actWall : Nat} {s : State} (hm : Sub [.mail, .beam, .marks, .events, .store, .upd] pp) : Goes pp s (execRollback rq actWall s) := by
  unfold execRollback
  apply nvWrite_goes
  repeat' (first | exact sub_of rfl hm | with_reducible first | exact Kept.refl _ | assumption | intro _ | apply State.schedule_kept | exact rfl)

theorem State.slotBack_kept  {r0 s : State} (hk : Kept pp r0 s) (hm : Sub [.upd] pp) : Kept pp r0 (State.slotBack s) := by
  unfold State.slotBack
  repeat' (first | exact sub_of rfl hm | with_reducible first | assumption | intro _ | apply State.onUpd_kept | apply State.verified_kept | exact rfl)

theorem State.slotNew_kept  {r0 s : State} (hk : Kept pp r0 s) (hm : Sub [.upd] pp) : Kept pp r0 (State.slotNew s) := by
  unfold State.slotNew
  repeat' (first | exact sub_of rfl hm | with_reducible first | assumption | intro _ | apply State.onUpd_kept | exact rfl)

theorem State.answerAll_kept  {r0 s : State} (hk : Kept pp r0 s) (hm : Sub [.mail, .bulk, .mode, .sys, .rings, .est, .latch, .guard, .disp, .events] pp) : Kept pp r0 (State.answerAll s) := by
  unfold State.answerAll
  repeat' (first | exact sub_of rfl hm | exact .inl (hm.mem (by decide)) | exact .inr fun _ => rfl | with_reducible first | assumption | intro _ | apply State.modRing_kept | apply State.onGuard_kept | apply State.onSys_kept | apply State.refuse_kept | apply State.clears_kept | apply forEach_kept | exact rfl)

theorem State.holdDispatch_kept  {r0 s : State} (hk : Kept pp r0 s) (hm : Sub [.guard, .disp, .events, .can] pp) : Kept pp r0 (State.holdDispatch s) := by
  unfold State.holdDispatch
  repeat' (first | exact sub_of rfl hm | exact .inl (hm.mem (by decide)) | exact .inr fun _ => rfl | with_reducible first | assumption | intro _ | apply State.onGuard_kept | apply State.onDisp_kept | apply State.raise_kept | apply State.settle_kept | apply State.sendZero_kept | exact rfl)

theorem execActivationMark_goes  {s : State} (hm : Sub [.mail, .bulk, .mode, .run, .sys, .beam, .marks, .rings, .sched, .est, .latch, .guard, .disp, .events, .recs, .can, .upd] pp) : Goes pp s (execActivationMark s) := by
  unfold execActivationMark
  repeat' (first | apply onlyIf_goes | apply done_goes | apply ite_goes)
  repeat' (first | exact sub_of rfl hm | exact .inl (hm.mem (by decide)) | exact .inr fun _ => rfl | with_reducible first | exact Kept.refl _ | assumption | intro _ | apply State.modMark_kept | apply State.onBeam_kept | apply State.onSys_kept | apply State.onSched_kept | apply State.onUpd_kept | apply State.count_kept | apply State.drainQueue_kept | apply State.slotBack_kept | apply State.slotNew_kept | apply State.answerAll_kept | apply State.holdDispatch_kept | exact rfl | apply ite_kept | split)
  all_goals first | exact sub_of rfl hm | exact .inl (hm.mem (by decide)) | exact .inr fun _ => rfl | exact rfl | exact ⟨rfl, rfl⟩ | exact ⟨rfl, rfl, rfl, rfl, rfl⟩ | exact ⟨rfl, rfl, rfl⟩ | (refine .inr fun _ => ?_; (repeat' split) <;> exact rfl) | exact (Kept.refl _).same rfl rfl rfl (fun p => by cases p <;> first | exact .inr rfl | exact .inl (hm.mem (by decide))) | (repeat' split) <;> first | exact rfl | exact ⟨rfl, rfl⟩ | exact ⟨rfl, rfl, rfl, rfl, rfl⟩ | exact ⟨rfl, rfl, rfl⟩

theorem State.migrate_kept {oldFormat newFormat : Nat} {dflts : List Nat} {r0 s : State} (hk : Kept pp r0 s) (hm : Sub [.est, .guard, .disp, .events, .store, .recs, .can, .upd] pp) : Kept pp r0 (State.migrate s oldFormat newFormat dflts) := by
  unfold State.migrate
  try dsimp only
  repeat' (first | exact sub_of rfl hm | exact .inl (hm.mem (by decide)) | exact .inr fun _ => rfl | with_reducible first | exact Kept.refl _ | assumption | intro _ _ _ | intro _ _ | intro _ | apply ite_kept | apply State.onEst_kept | apply State.onUpd_kept | apply State.raise_kept | apply State.commitCfg_kept | apply State.applyConf_kept | apply foldl_kept | exact rfl | split | exact (by assumption : Kept _ _ _).same rfl rfl rfl (fun p => by cases p <;> first | exact .inr rfl | exact .inl (hm.mem (by decide))) | exact (Kept.refl _).same rfl rfl rfl (fun p => by cases p <;> first | exact .inr rfl | exact .inl (hm.mem (by decide))))
  all_goals (try dsimp only)
  all_goals (first | exact sub_of rfl hm | exact .inl (hm.mem (by decide)) | exact .inr fun _ => rfl | exact rfl | exact ⟨rfl, rfl⟩ | exact ⟨rfl, rfl, rfl, rfl, rfl⟩ | exact ⟨rfl, rfl, rfl⟩ | (refine .inr fun _ => ?_; (repeat' split) <;> exact rfl) | exact hk.same rfl rfl rfl (fun p => by cases p <;> first | exact .inr rfl | exact .inl (hm.mem (by decide))) | exact (Kept.refl _).same rfl rfl rfl (fun p => by cases p <;> first | exact .inr rfl | exact .inl (hm.mem (by decide))) | exact (by assumption : Kept _ _ _).same rfl rfl rfl (fun p => by cases p <;> first | exact .inr rfl | exact .inl (hm.mem (by decide))) | ((repeat' split) <;> first | exact rfl | exact ⟨rfl, rfl⟩ | exact ⟨rfl, rfl, rfl, rfl, rfl⟩ | exact ⟨rfl, rfl, rfl⟩))

theorem State.storeBack_kept  {r0 s : State} (hk : Kept pp r0 s) (hm : Sub [.mail, .conf, .sys, .beam, .marks, .rings, .sched, .rods, .est, .guard, .disp, .events, .recs, .can, .upd] pp) : Kept pp r0 (State.storeBack s) := by
  unfold State.storeBack
  repeat' (first | exact sub_of rfl hm | with_reducible first | assumption | intro _ | apply State.when_kept | apply State.modRod_kept | apply State.onSched_kept | apply State.onUpd_kept | apply State.armM3_kept | apply State.loadStore_kept | apply forEach_kept | exact rfl | apply ite_kept | split)

theorem State.resumeWork_kept  {r0 s : State} (hk : Kept pp r0 s) (hm : Sub [.rings, .est, .can] pp) : Kept pp r0 (State.resumeWork s) := by
  unfold State.resumeWork
  repeat' (first | exact sub_of rfl hm | with_reducible first | assumption | intro _ | apply State.modRing_kept | apply State.modStr_kept | apply State.modBal_kept | apply State.modUnit_kept | apply State.onEst_kept | apply forEach_kept | exact rfl)
  all_goals first | exact sub_of rfl hm | exact .inl (hm.mem (by decide)) | exact .inr fun _ => rfl | exact rfl | exact ⟨rfl, rfl⟩ | exact ⟨rfl, rfl, rfl, rfl, rfl⟩ | exact ⟨rfl, rfl, rfl⟩ | (refine .inr fun _ => ?_; (repeat' split) <;> exact rfl) | exact hk.same rfl rfl rfl (fun p => by cases p <;> first | exact .inr rfl | exact .inl (hm.mem (by decide))) | (repeat' split) <;> first | exact rfl | exact ⟨rfl, rfl⟩ | exact ⟨rfl, rfl, rfl, rfl, rfl⟩ | exact ⟨rfl, rfl, rfl⟩

theorem execNewFirmwareStart_goes {oldFormat newFormat : Nat} {dflts : List Nat} {s : State} (hm : Sub [.mail, .run, .conf, .sys, .beam, .marks, .rings, .sched, .rods, .est, .guard, .disp, .events, .store, .recs, .can, .upd] pp) : Goes pp s (execNewFirmwareStart oldFormat newFormat dflts s) := by
  unfold execNewFirmwareStart
  repeat' (first | apply onlyIf_goes | apply ite_goes)
  repeat' (first | exact sub_of rfl hm | exact .inl (hm.mem (by decide)) | exact .inr fun _ => rfl | with_reducible first | exact Kept.refl _ | assumption | intro _ | apply State.when_kept | apply State.onSys_kept | apply State.onUpd_kept | apply State.raise_kept | apply State.migrate_kept | apply State.storeBack_kept | apply State.resumeWork_kept | exact rfl | apply ite_kept | split)

theorem State.enterRecovery_kept {cause : Nat} {r0 s : State} (hk : Kept pp r0 s) (hm : Sub [.mail, .bulk, .mode, .run, .disp, .events, .loops, .load, .upd] pp) : Kept pp r0 (State.enterRecovery s cause) := by
  unfold State.enterRecovery
  repeat' (first | exact sub_of rfl hm | exact .inl (hm.mem (by decide)) | exact .inr fun _ => rfl | with_reducible first | assumption | intro _ | apply State.onSys_kept | apply State.onLoops_kept | apply State.onUpd_kept | apply State.raise_kept | apply State.setMode_kept | apply State.applyChannels_kept | exact rfl)
  all_goals first | exact sub_of rfl hm | exact .inl (hm.mem (by decide)) | exact .inr fun _ => rfl | exact rfl | exact ⟨rfl, rfl⟩ | exact ⟨rfl, rfl, rfl, rfl, rfl⟩ | exact ⟨rfl, rfl, rfl⟩ | (refine .inr fun _ => ?_; (repeat' split) <;> exact rfl) | exact hk.same rfl rfl rfl (fun p => by cases p <;> first | exact .inr rfl | exact .inl (hm.mem (by decide))) | (repeat' split) <;> first | exact rfl | exact ⟨rfl, rfl⟩ | exact ⟨rfl, rfl, rfl, rfl, rfl⟩ | exact ⟨rfl, rfl, rfl⟩

theorem State.bootFailed_kept {kind : Nat} {r0 s : State} (hk : Kept pp r0 s) (hm : Sub [.power, .mail, .bulk, .mode, .run, .sys, .disp, .events, .loops, .load, .upd] pp) : Kept pp r0 (State.bootFailed s kind) := by
  unfold State.bootFailed
  repeat' (first | exact sub_of rfl hm | exact .inl (hm.mem (by decide)) | exact .inr fun _ => rfl | with_reducible first | assumption | intro _ | apply State.onSys_kept | apply State.onPower_kept | apply State.onUpd_kept | apply State.raise_kept | apply State.slotBack_kept | apply State.enterRecovery_kept | exact rfl | apply ite_kept | split)

theorem execBootFail_goes {kind : Nat} {s : State} (hm : Sub [.power, .mail, .bulk, .mode, .run, .sys, .disp, .events, .loops, .load, .upd] pp) : Goes pp s (execBootFail kind s) := by
  unfold execBootFail
  apply onlyIf_goes
  repeat' (first | exact sub_of rfl hm | with_reducible first | exact Kept.refl _ | assumption | intro _ | apply State.bootFailed_kept | exact rfl)

theorem execRecoveryEntry_goes {cause : Nat} {s : State} (hm : Sub [.mail, .bulk, .mode, .run, .disp, .events, .loops, .load, .upd] pp) : Goes pp s (execRecoveryEntry cause s) := by
  unfold execRecoveryEntry
  apply onlyIf_goes
  repeat' (first | exact sub_of rfl hm | with_reducible first | exact Kept.refl _ | assumption | intro _ | apply State.enterRecovery_kept | exact rfl)

theorem execRecovRelease_goes  {s : State} (hm : Sub [.power, .mode, .run, .sys, .upd] pp) : Goes pp s (execRecovRelease s) := by
  unfold execRecovRelease
  repeat' (first | apply next_goes | apply ite_goes)
  repeat' (first | exact sub_of rfl hm | exact .inl (hm.mem (by decide)) | exact .inr fun _ => rfl | with_reducible first | exact Kept.refl _ | assumption | intro _ | apply State.onSys_kept | apply State.onUpd_kept | apply State.romBoot_kept | exact rfl | apply ite_kept | split)

theorem State.startNodes_kept {port : Nat} {r0 s : State} (hk : Kept pp r0 s) (hm : Sub [.rings, .events, .upd] pp) : Kept pp r0 (State.startNodes s port) := by
  unfold State.startNodes
  repeat' (first | exact sub_of rfl hm | with_reducible first | assumption | intro _ | apply State.onUpd_kept | apply State.raise_kept | apply State.queueCmd_kept | apply State.nodeNext_kept | apply forEach_kept | exact rfl)

theorem execNodeUpdate_goes {rq : Rq} {port : Nat} {s : State} (hm : Sub [.mail, .rings, .events, .upd] pp) : Goes pp s (execNodeUpdate rq port s) := by
  unfold execNodeUpdate
  apply plainCmd_goes
  repeat' (first | exact sub_of rfl hm | with_reducible first | exact Kept.refl _ | assumption | intro _ | apply State.startNodes_kept | exact rfl)

theorem execNodeReturnTimeout_goes  {s : State} (hm : Sub [.events, .upd] pp) : Goes pp s (execNodeReturnTimeout s) := by
  unfold execNodeReturnTimeout
  repeat' (first | apply onlyIf_goes | apply next_goes | apply ite_goes | split)
  repeat' (first | exact sub_of rfl hm | with_reducible first | exact Kept.refl _ | assumption | intro _ | apply State.nodeFailed_kept | exact rfl | apply ite_kept | split)

theorem execPowerUp_goes {vmain vana : Nat} {recov latchOk : Bool} {s : State} (hm : Sub [.power, .sys, .beam, .est, .latch, .events, .loops] pp) : Goes pp s (execPowerUp vmain vana recov latchOk s) := by
  unfold execPowerUp
  repeat' (first | apply onlyIf_goes | apply ite_goes)
  repeat' (first | exact sub_of rfl hm | exact .inl (hm.mem (by decide)) | exact .inr fun _ => rfl | with_reducible first | exact Kept.refl _ | assumption | intro _ | apply State.modStr_kept | apply State.onGuard_kept | apply State.onSys_kept | apply State.onPower_kept | apply State.raise_kept | apply State.syncReset_kept | apply forEach_kept | exact rfl | apply ite_kept | split)

theorem execRomHandover_goes {good : Bool} {s : State} (hm : Sub [.power, .mail, .bulk, .mode, .run, .sys, .disp, .events, .loops, .load, .upd] pp) : Goes pp s (execRomHandover good s) := by
  unfold execRomHandover
  repeat' (first | apply onlyIf_goes | apply ite_goes)
  repeat' (first | exact sub_of rfl hm | exact .inl (hm.mem (by decide)) | exact .inr fun _ => rfl | with_reducible first | exact Kept.refl _ | assumption | intro _ | apply State.onSys_kept | apply State.onPower_kept | apply State.onUpd_kept | apply State.enterRecovery_kept | apply State.bootFailed_kept | exact rfl | apply ite_kept | split)

theorem State.resolveCounter_kept {key : Nat} {r0 s : State} (h : Kept pp r0 s) (hm : Sub [.events, .recs] pp) :
    Kept pp r0 (s.resolveCounter key) :=
  forEach_kept (fun _ _ ht => State.when_kept (fun h => State.raise_kept h (sub_of rfl hm)) (setCounter_kept ht (sub_of rfl hm))) h

theorem State.discardMarked_kept  {r0 s : State} (hk : Kept pp r0 s) (hm : Sub [.events, .recs, .upd] pp) : Kept pp r0 (State.discardMarked s) := by
  unfold State.discardMarked
  repeat' (first | exact sub_of rfl hm | exact .inl (hm.mem (by decide)) | exact .inr fun _ => rfl | with_reducible first | assumption | intro _ | apply State.when_kept | apply State.onRecs_kept | apply State.onUpd_kept | apply State.raise_kept | apply forEach_kept | exact rfl | apply ite_kept | split)

theorem State.startRecords_kept {bad : List Nat} {r0 s : State} (hk : Kept pp r0 s) (hm : Sub [.events, .recs, .upd] pp) : Kept pp r0 (State.startRecords s bad) := by
  unfold State.startRecords
  repeat' (first | exact sub_of rfl hm | exact .inl (hm.mem (by decide)) | exact .inr fun _ => rfl | with_reducible first | assumption | intro _ | apply State.when_kept | apply State.onRecs_kept | apply State.raise_kept | apply State.count_kept | apply State.resolveCounter_kept | apply State.discardMarked_kept | apply forEach_kept | exact rfl)
  all_goals first | exact sub_of rfl hm | exact .inl (hm.mem (by decide)) | exact .inr fun _ => rfl | exact rfl | exact ⟨rfl, rfl⟩ | exact ⟨rfl, rfl, rfl, rfl, rfl⟩ | exact ⟨rfl, rfl, rfl⟩ | (refine .inr fun _ => ?_; (repeat' split) <;> exact rfl) | exact hk.same rfl rfl rfl (fun p => by cases p <;> first | exact .inr rfl | exact .inl (hm.mem (by decide))) | (repeat' split) <;> first | exact rfl | exact ⟨rfl, rfl⟩ | exact ⟨rfl, rfl, rfl, rfl, rfl⟩ | exact ⟨rfl, rfl, rfl⟩

theorem State.loadLedgers_kept  {r0 s : State} (hk : Kept pp r0 s) (hm : Sub [.disp] pp) : Kept pp r0 (State.loadLedgers s) := by
  unfold State.loadLedgers
  repeat' (first | exact sub_of rfl hm | with_reducible first | assumption | intro _ | apply State.when_kept | apply State.modTenant_kept | apply forEach_kept | exact rfl)

theorem State.coldCell_kept {p : Nat} {soc : Option SocSlot} {learned : Option LearnedSlot} {r0 s : State} (hk : Kept pp r0 s) (hm : Sub [.est] pp) : Kept pp r0 (State.coldCell s p soc learned) := by
  unfold State.coldCell
  repeat' (first | exact sub_of rfl hm | with_reducible first | assumption | intro _ | apply State.modCell_kept | exact rfl)

theorem State.loadCells_kept {socBad learnedBad : List Nat} {r0 s : State} (hk : Kept pp r0 s) (hm : Sub [.est] pp) : Kept pp r0 (State.loadCells s socBad learnedBad) := by
  unfold State.loadCells
  repeat' (first | exact sub_of rfl hm | with_reducible first | assumption | intro _ | apply State.buildStrings_kept | apply State.coldCell_kept | apply forEach_kept | exact rfl)

theorem enableLoops_kept {l : Tbl Word} {r0 s : State} (hk : Kept pp r0 s) (hm : Sub [.events, .loops] pp) : Kept pp r0 (enableLoops l s) := by
  unfold enableLoops
  repeat' (first | exact sub_of rfl hm | with_reducible first | assumption | intro _ | apply State.loopPut_kept | apply forEach_kept | exact rfl)

theorem State.restoreRegs_kept {c : Store} {r0 s : State} (hk : Kept pp r0 s) (hm : Sub [.beam, .marks, .events, .loops, .load, .can] pp) : Kept pp r0 (State.restoreRegs s c) := by
  unfold State.restoreRegs
  repeat' (first | exact sub_of rfl hm | with_reducible first | assumption | intro _ | apply State.onLoad_kept | apply State.beamWrite_kept | apply State.applyChannels_kept | apply State.canPut_kept | apply State.loopPut_kept | apply forEach_kept | apply enableLoops_kept | exact rfl | apply ite_kept | split)

theorem State.startMarks_kept  {r0 s : State} (hk : Kept pp r0 s) (hm : Sub [.beam, .marks, .disp, .events] pp) : Kept pp r0 (State.startMarks s) := by
  unfold State.startMarks
  repeat' (first | exact sub_of rfl hm | with_reducible first | assumption | intro _ | apply State.when_kept | apply State.modMark_kept | apply State.onBeam_kept | apply State.onDisp_kept | apply State.count_kept | apply State.markEnable_kept | apply State.armM3_kept | apply State.programM2_kept | exact rfl | apply ite_kept | split)

theorem State.startRods_kept  {r0 s : State} (hk : Kept pp r0 s) (hm : Sub [.rods] pp) : Kept pp r0 (State.startRods s) := by
  unfold State.startRods
  repeat' (first | exact sub_of rfl hm | with_reducible first | assumption | intro _ | apply State.modRod_kept | apply forEach_kept | exact rfl | apply ite_kept | split)

theorem execReckonerStart_goes {bad : List Nat} {cfgOk : Bool} {socBad learnedBad : List Nat} {s : State} (hm : Sub [.power, .mail, .conf, .sys, .beam, .marks, .rings, .sched, .rods, .est, .guard, .disp, .events, .store, .recs, .loops, .load, .can, .upd] pp) : Goes pp s (execReckonerStart bad cfgOk socBad learnedBad s) := by
  unfold execReckonerStart
  repeat' (first | apply onlyIf_goes | apply ite_goes)
  repeat' (first | exact sub_of rfl hm | exact .inl (hm.mem (by decide)) | exact .inr fun _ => rfl | with_reducible first | exact Kept.refl _ | assumption | intro _ | apply State.onRecs_kept | apply State.onEst_kept | apply State.onPower_kept | apply State.onUpd_kept | apply State.loadStore_kept | apply State.startRecords_kept | apply State.loadLedgers_kept | apply State.loadCells_kept | apply State.restoreRegs_kept | apply State.startMarks_kept | apply State.startRods_kept | exact rfl | apply ite_kept | split)
  all_goals first | exact sub_of rfl hm | exact .inl (hm.mem (by decide)) | exact .inr fun _ => rfl | exact rfl | exact ⟨rfl, rfl⟩ | exact ⟨rfl, rfl, rfl, rfl, rfl⟩ | exact ⟨rfl, rfl, rfl⟩ | (refine .inr fun _ => ?_; (repeat' split) <;> exact rfl) | exact (Kept.refl _).same rfl rfl rfl (fun p => by cases p <;> first | exact .inr rfl | exact .inl (hm.mem (by decide))) | (repeat' split) <;> first | exact rfl | exact ⟨rfl, rfl⟩ | exact ⟨rfl, rfl, rfl, rfl, rfl⟩ | exact ⟨rfl, rfl, rfl⟩

theorem execMailboxOpen_goes {facts : List (Nat × Nat × List Nat)} {s : State} (hm : Sub [.power, .mail, .mode, .run, .rings, .est, .disp, .events, .recs] pp) : Goes pp s (execMailboxOpen facts s) := by
  unfold execMailboxOpen
  apply onlyIf_goes
  repeat' (first | exact sub_of rfl hm | exact .inl (hm.mem (by decide)) | exact .inr fun _ => rfl | with_reducible first | exact Kept.refl _ | assumption | intro _ | apply State.onSys_kept | apply State.onPower_kept | apply State.enterMode_kept | apply State.tryActivate_kept | apply forEach_kept | exact rfl)

theorem execVmainLow_goes {vmain heldMs : Nat} {s : State} (hm : Sub [.power, .events] pp) : Goes pp s (execVmainLow vmain heldMs s) := by
  unfold execVmainLow
  repeat' (first | apply onlyIf_goes | apply next_goes | apply ite_goes)
  repeat' (first | exact sub_of rfl hm | with_reducible first | exact Kept.refl _ | assumption | intro _ | apply State.onPower_kept | apply State.raise_kept | exact rfl | apply ite_kept | split)

theorem State.vanaGone_kept {vana : Int} {r0 s : State} (hk : Kept pp r0 s) (hm : Sub [.power, .guard, .events] pp) : Kept pp r0 (State.vanaGone s vana) := by
  unfold State.vanaGone
  repeat' (first | exact sub_of rfl hm | exact .inl (hm.mem (by decide)) | exact .inr fun _ => rfl | with_reducible first | assumption | intro _ | apply State.onGuard_kept | apply State.onPower_kept | apply State.raise_kept | apply State.ask_kept | exact rfl | apply ite_kept | split)

theorem execVanaLost_goes {vana heldUs : Nat} {s : State} (hm : Sub [.power, .guard, .events] pp) : Goes pp s (execVanaLost vana heldUs s) := by
  unfold execVanaLost
  apply onlyIf_goes
  repeat' (first | exact sub_of rfl hm | with_reducible first | exact Kept.refl _ | assumption | intro _ | apply State.vanaGone_kept | exact rfl)

theorem execVanaRestored_goes {vana heldMs : Nat} {facts : List (Nat × Nat × List Nat)} {s : State} (hm : Sub [.power, .mail, .mode, .beam, .rings, .est, .guard, .disp, .events, .recs, .loops] pp) : Goes pp s (execVanaRestored vana heldMs facts s) := by
  unfold execVanaRestored
  apply onlyIf_goes
  repeat' (first | exact sub_of rfl hm | with_reducible first | exact Kept.refl _ | assumption | intro _ | apply State.onPower_kept | apply State.raise_kept | apply State.followRings_kept | apply State.syncReset_kept | apply State.causeGone_kept | apply State.tryActivate_kept | apply forEach_kept | exact rfl)

theorem execSupplyOverVoltage_goes {vanaSide : Bool} {highest heldMs : Nat} {s : State} (hm : Sub [.power, .mail, .bulk, .mode, .run, .conf, .sys, .beam, .marks, .rings, .sched, .rods, .est, .latch, .guard, .disp, .events, .store, .recs, .loops, .load, .can, .upd, .fresh] pp) : Goes pp s (execSupplyOverVoltage vanaSide highest heldMs s) := by
  unfold execSupplyOverVoltage
  repeat' (first | apply onlyIf_goes | apply ite_goes)
  repeat' (first | exact sub_of rfl hm | with_reducible first | exact Kept.refl _ | assumption | intro _ | apply State.free_kept | apply State.raise_kept | apply State.vmainLost_kept | apply State.vanaGone_kept | exact rfl | apply ite_kept | split)

theorem execVioMismatch_goes {vio heldMs : Nat} {s : State} (hm : Sub [.power, .mail, .sys, .events, .load] pp) : Goes pp s (execVioMismatch vio heldMs s) := by
  unfold execVioMismatch
  apply onlyIf_goes
  repeat' (first | exact sub_of rfl hm | with_reducible first | exact Kept.refl _ | assumption | intro _ | apply State.onLoad_kept | apply State.onPower_kept | apply State.raise_kept | apply State.applyChannels_kept | apply State.endpointReset_kept | exact rfl)

theorem execVioReturn_goes {vio : Nat} {s : State} (hm : Sub [.power] pp) : Goes pp s (execVioReturn vio s) := by
  unfold execVioReturn
  apply onlyIf_goes
  repeat' (first | exact sub_of rfl hm | with_reducible first | exact Kept.refl _ | assumption | intro _ | apply State.onPower_kept | exact rfl)

theorem execHoldupArmed_goes {bank : Nat} {s : State} (hm : Sub [.power, .events] pp) : Goes pp s (execHoldupArmed bank s) := by
  unfold execHoldupArmed
  repeat' (first | apply onlyIf_goes | apply ite_goes)
  repeat' (first | exact sub_of rfl hm | with_reducible first | exact Kept.refl _ | assumption | intro _ | apply State.onPower_kept | apply State.raise_kept | exact rfl | apply ite_kept | split)

end Sys2Proof.Machine
end

