-- ==== Sys2Proof/Laws/Mail.lean ====
section
/-! SUPPORT. What the mailbox's shared operations can do: the judgement of a request, its checks, its answer. -/
namespace Sys2Proof.Machine
open Sys2Proof

variable {s : State} {rq : Rq} {op : Nat} {w : Who} {modes : List Mode}

/-- A running module judges by tenant and mode alone. -/
theorem judge_running (h1 : s.sys.shut = false) (h2 : s.sys.run = .running)
    (h3 : rq.tenant = 0 ∨ op / 256 < 3 ∨ ((s.tenant rq.tenant).exists_ = true ∧ (s.tenant rq.tenant).enabled = true)) :
    s.judge rq op w modes =
      if !w.admits rq.tenant then some denied
      else if !modes.contains s.sys.mode then some (wrongMode (modeCode s.sys.mode)) else none := by
  have h : ¬(rq.tenant ≠ 0 ∧ 3 ≤ op / 256 ∧
      ¬((s.tenant rq.tenant).exists_ = true ∧ (s.tenant rq.tenant).enabled = true)) := by
    rintro ⟨a, b, c⟩
    rcases h3 with h | h | h
    · exact a h
    · omega
    · exact c h
  unfold State.judge
  rw [if_neg (by simp [h1]), if_neg (by simp [h2]), if_neg (by simp [h2]), if_neg h]

/-- What `served` says, part by part. -/
theorem served_iff : served s rq op modes = true ↔ s.sys.shut = false ∧ s.sys.run = .running ∧ s.sys.mode ∈ modes ∧
    s.mayStart rq = true ∧
    (rq.tenant = 0 ∨ op / 256 < 3 ∨ ((s.tenant rq.tenant).exists_ = true ∧ (s.tenant rq.tenant).enabled = true)) := by
  simp [served, and_assoc, or_assoc]

/-- A served request of a tenant that the Tenants entry takes in reaches its body. -/
theorem mailbox_served {body : State → State} (h : served s rq op modes = true) (hw : w.admits rq.tenant = true) :
    mailbox rq op w modes body s = body s := by
  obtain ⟨h1, h2, h3, h4, h5⟩ := served_iff.1 h
  have hj : s.judge rq op w modes = none := by simp [judge_running h1 h2 h5, hw, h3]
  simp [mailbox, State.serving, h2, h4, hj]

/-- A tenant outside the Tenants entry is answered DENIED. -/
theorem mailbox_denied {body : State → State} (h1 : s.sys.shut = false) (h2 : s.sys.run = .running) (hm : s.mayStart rq = true)
    (h3 : rq.tenant = 0 ∨ op / 256 < 3 ∨ ((s.tenant rq.tenant).exists_ = true ∧ (s.tenant rq.tenant).enabled = true))
    (hw : w.admits rq.tenant = false) : mailbox rq op w modes body s = s.refuse rq op denied := by
  simp [mailbox, State.serving, h2, hm, judge_running h1 h2 h3, hw]

/-- A mode outside the Modes entry is answered WRONG_MODE. -/
theorem mailbox_wrongMode {body : State → State} (h1 : s.sys.shut = false) (h2 : s.sys.run = .running) (hm : s.mayStart rq = true)
    (h3 : rq.tenant = 0 ∨ op / 256 < 3 ∨ ((s.tenant rq.tenant).exists_ = true ∧ (s.tenant rq.tenant).enabled = true))
    (hw : w.admits rq.tenant = true) (hx : s.sys.mode ∉ modes) :
    mailbox rq op w modes body s = s.refuse rq op (wrongMode (modeCode s.sys.mode)) := by
  simp [mailbox, State.serving, h2, hm, judge_running h1 h2 h3, hw, hx]

/-- When every check holds, the effect comes about. -/
theorem checked_ok {checks : List (Bool × Refuse)} {effect : State → State} (h : ∀ c ∈ checks, c.1 = true) :
    checked rq op checks effect s = effect s := by
  have hn : checks.find? (fun c => !c.1) = none := List.find?_eq_none.2 fun c hc => by simp [h c hc]
  simp [checked, hn]

/-- The first failing check is the answer. -/
theorem checked_fail {pre post : List (Bool × Refuse)} {r : Refuse} {effect : State → State} (h : ∀ c ∈ pre, c.1 = true) :
    checked rq op (pre ++ (false, r) :: post) effect s = s.refuse rq op r := by
  have hn : pre.find? (fun c => !c.1) = none := List.find?_eq_none.2 fun c hc => by simp [h c hc]
  simp [checked, List.find?_append, hn]

/-- A served read whose checks hold answers its record. -/
theorem readCmd_ok {checks : State → List (Bool × Refuse)} {rec : State → List Byte} (h : served s rq op allModes = true)
    (hw : w.admits rq.tenant = true) (hc : ∀ c ∈ checks s, c.1 = true) :
    readCmd rq op w checks rec s = .next (s.ok rq op (rec s)) := by
  simp only [readCmd, mailbox_served h hw, checked_ok hc]

/-- A served command without a commit whose checks hold has its effect and an empty answer. -/
theorem plainCmd_ok {checks : State → List (Bool × Refuse)} {effect : State → State} (h : served s rq op modes = true)
    (hw : w.admits rq.tenant = true) (hc : ∀ c ∈ checks s, c.1 = true) :
    plainCmd rq op w modes checks effect s = .next ((effect s).ok rq op []) := by
  simp only [plainCmd, mailbox_served h hw, checked_ok hc]

/-- A served NV-class write whose checks hold has its effect, a commit and an empty answer. -/
theorem nvWrite_ok {checks : State → List (Bool × Refuse)} {effect : State → State} (h : served s rq op modes = true)
    (hw : w.admits rq.tenant = true) (hc : ∀ c ∈ checks s, c.1 = true) (hn : s.nvOk = true) :
    nvWrite rq op w modes checks effect s = .next ((effect s).okNv rq op) := by
  have hall : ∀ c ∈ checks s ++ [(s.nvOk, nvFault)], c.1 = true := by
    intro c h
    rcases List.mem_append.1 h with h | h
    · exact hc c h
    · simp only [List.mem_singleton] at h; subst h; exact hn
  simp only [nvWrite, mailbox_served h hw, checked_ok hall]

/-- In D0 a response joins the end of its page's queue. -/
theorem respond_d0 {r : Resp} (hd : s.sys.d3 = false) :
    s.respond r = (s.modPage r.rq.tenant fun p => { p with waiting := p.waiting ++ [r] }).wake 4 := by
  simp [State.respond, hd]

section
variable (s : State) (r : Resp)
@[simp] theorem State.respond_pending : (s.respond r).pending = s.pending := by unfold State.respond; dsimp only; split <;> rfl
@[simp] theorem State.respond_clock : (s.respond r).clock = s.clock := by unfold State.respond; dsimp only; split <;> rfl
@[simp] theorem State.respond_fresh : (s.respond r).fresh = s.fresh := by unfold State.respond; dsimp only; split <;> rfl
@[simp] theorem State.respond_power : (s.respond r).power = s.power := by unfold State.respond; dsimp only; split <;> rfl
@[simp] theorem State.respond_beam : (s.respond r).beam = s.beam := by unfold State.respond; dsimp only; split <;> rfl
@[simp] theorem State.respond_rings : (s.respond r).rings = s.rings := by unfold State.respond; dsimp only; split <;> rfl
@[simp] theorem State.respond_nodes : (s.respond r).nodes = s.nodes := by unfold State.respond; dsimp only; split <;> rfl
@[simp] theorem State.respond_sched : (s.respond r).sched = s.sched := by unfold State.respond; dsimp only; split <;> rfl
@[simp] theorem State.respond_est : (s.respond r).est = s.est := by unfold State.respond; dsimp only; split <;> rfl
@[simp] theorem State.respond_guard : (s.respond r).guard = s.guard := by unfold State.respond; dsimp only; split <;> rfl
@[simp] theorem State.respond_disp : (s.respond r).disp = s.disp := by unfold State.respond; dsimp only; split <;> rfl
@[simp] theorem State.respond_recs : (s.respond r).recs = s.recs := by unfold State.respond; dsimp only; split <;> rfl
@[simp] theorem State.respond_loops : (s.respond r).loops = s.loops := by unfold State.respond; dsimp only; split <;> rfl
@[simp] theorem State.respond_load : (s.respond r).load = s.load := by unfold State.respond; dsimp only; split <;> rfl
@[simp] theorem State.respond_can : (s.respond r).can = s.can := by unfold State.respond; dsimp only; split <;> rfl
@[simp] theorem State.respond_upd : (s.respond r).upd = s.upd := by unfold State.respond; dsimp only; split <;> rfl
end

end Sys2Proof.Machine
end

