-- ==== Sys2Proof/Tests/Slice0.lean ====
section
/-! SUPPORT. Tests: the operand check refuses ill-formed commands; small results from the specification's tables and worked
examples; and for every statement with hypotheses a concrete state and operands that meet them. -/
namespace Sys2Proof.Tests
open Sys2Proof Sys2Proof.Machine
set_option Elab.async false

/-! ### Helpers -/

/-- The module in service, in STANDBY. -/
def up : State := { State.reset with
  sys := { State.reset.sys with run := .running, mode := .standby }
  power := { State.reset.power with vmain := true, vana := true, pwrgd := true, armed := true, stage := 6 } }
/-- `up` in a mode. -/
def upIn (m : Mode) : State := { up with sys := { up.sys with mode := m } }
/-- A request of tenant 0. -/
def rq0 : Rq := ⟨0, 7, 0, 0, false, 0⟩
/-- A mark unit that is due at the present angle. -/
def dueMark : Mark := { Mark.reset with step := 163840, stepNow := 163840, en := true }
/-- The module with ring 5 ACTIVE and the sweep mark due. -/
def sweeping : State := (up.modRing 5 fun r => { r with state := .active }).modMark 0 fun _ => dueMark
/-- The module with ring 5 changed. -/
def rg (f : Ring → Ring) : State := up.modRing 5 f
/-- The module with the node at place 1 of ring 5 changed. -/
def nd (f : Node → Node) : State := up.modNode (nodeKey 5 1) f
/-- A command of the Reckoner waiting for, or outstanding at, position 1. -/
def cmd1 : LinkCmd := ⟨1, .read 0 4, 9, false, false, 0, 0, none, false, some (rq0, 0x0804)⟩
/-- A record of position 1 with nothing in it but its CRC. -/
def rec1 : List Byte :=
  let b := le 2 1 ++ List.replicate 94 0
  b ++ le 4 (crc32c b)
/-- The identity stored for position 1 of ring 5, string 3. -/
def id1 : NodeId := ⟨1, 1, 0, 3, 9⟩
/-- An image whose every word is `w`. -/
def imageOf1 (w : Nat) : Image where
  id := 0x10001
  ver := 1
  selfWrite := true
  code := List.replicate 70 (BitVec.ofNat 32 w)
  weight := 1
  entries := [(1, 0, 100)]
  columns := []
  tables := [([0, 1, 1, 4, 0, 0, -16, 0], [5, 1000, -7]), ([1, 2, 1, 4, 1, 4, -16, 0], [1, 20, -300, 4000, 5, 60, -700, 8000, 9])]
  bytes := []
/-- The registers of a pass of entry 1 with data in them and index scalar S9 at 64. -/
def ctx1 (b : Bool) : RodCtx :=
  { RodCtx.reset with
    entry := 1
    n := 4
    string := 327683
    passB := b
    stack := [4]
    masks := [15]
    v := [(2, [3, -7, 20000, -32768, 0, 5]), (3, [2, 5, 20000, 1, 7, 9])]
    a := [(1, [70000, -5, 3])]
    sd := [(2, 12), (3, -4)]
    si := [(9, 64), (10, 3)]
    lm := 0xFFFF
    maxCycles := 100
    bankA := [(4, [1, 2, 3])]
    bankB := [(4, [-1, -2, -3])] }
/-- Rod 3 in such a pass. -/
def rodAt (w : Nat) (b : Bool) : State :=
  (up.modRod 3 fun r => { r with ctx := ctx1 b }).onSched fun q => { q with service := some (imageOf1 w) }
/-- The key of string 3 of ring 5. -/
def k3 : Nat := strKey 5 3
/-- The module with string 3 of ring 5 configured, one cell at position 1, the ring ACTIVE. -/
def withStr : State :=
  (((up.modNode (nodeKey 5 1) fun n => { n with pos := 1, string := 3, cellEn := 1, serial := 9 }).modRing 5 fun r =>
    { r with state := .active, config := [id1], nodes := 1 }).modStr k3 fun q => { q with cells := [cellPoint 5 1 0] }).onEst fun e =>
      { e with configured := [k3] }
/-- A state long after reset. -/
def late (s : State) : State := { s with clock := 10000000000000 }
/-- `withStr` with its string changed. -/
def sx3 (f : Str → Str) : State := withStr.modStr k3 f
/-- `withStr` with two cells to balance, and cooling. -/
def balSt : State :=
  ((withStr.modStr k3 fun q => { q with cells := [cellPoint 5 1 0, cellPoint 5 1 1] }).onEst fun e =>
    { e with live := [(pkBank 0x330F, 10000000)] }).modCell (cellPoint 5 1 0) (fun c =>
      { c with pub := { c.pub with flags := 0x80, socInt := 40000, v := 3300, sigma := 10 }, learned := { c.learned with cap := 5000 } })
    |>.modCell (cellPoint 5 1 1) (fun c =>
      { c with pub := { c.pub with flags := 0x80, socInt := 30000, v := 3200, sigma := 10 }, learned := { c.learned with cap := 5000 } })
/-- A sequence on a step. -/
def seq0 (sec step : Nat) : SeqRun := ⟨sec, step, true, 0, 0, SeqTable.reset, [], 0, 0, 0, 0, false, none, false⟩
/-- A sequence with one string run on a step. -/
def seqS (step : Nat) : SeqRun := { seq0 2 0 with runs := [⟨k3, [], step, true, 0, 0⟩] }
/-- `withStr` with a sequence in progress. -/
def inSeq (q : SeqRun) : State := late (withStr.onGuard fun g => { g with seq := some q })
/-- An emergency bank request. -/
def bankReq : Req := { kind := 1, string := none, cause := 0x0601, params := [], withId := false, logs := true, dir := 0 }
/-- `withStr` with its string measured alone by input 0 at 100 A. -/
def measuredStr : State :=
  late ((withStr.modFpi 0 fun f => { f with val := 100000 }).onEst fun e => { e with groups := [(2, [1, 0, 0, k3])] })
/-- The module with the PCI Express link up and page `n` changed. -/
def pg (n : Nat) (f : Page → Page) : State := (up.modPage n f).onSys fun y => { y with pcieUp := true }
/-- A request's header. -/
def hdr (op tag ep len flags ten seq : Nat) : List Byte :=
  le 2 op ++ le 1 tag ++ le 1 ep ++ le 2 len ++ le 2 flags ++ le 1 ten ++ [0] ++ le 2 0 ++ le 4 seq
/-- A datagram of a header with the MAC of key 5. -/
def dgram (op tag flags seq : Nat) : List Byte :=
  hdr op tag 0 0 flags 3 seq ++ hmac (le 32 5) (hdr op tag 0 0 flags 3 seq)
/-- The module with ETH0 up and key 5 in slot 0 of tenant 3. -/
def eth (f : Page → Page) : State :=
  ((up.modPage 3 f).modPage 3 fun p => { p with keys := [(0, 5)] }).onSys fun y => { y with eth0 := true }
/-- A waiting response of tenant 3. -/
def resp3 (eth : Bool) (ep : Nat) : Resp := ⟨0x0E01, ⟨3, 7, ep, 0, eth, 0⟩, 0, 0, 0, [], [], false, false, false⟩
/-- A cursor. -/
def cur1 : Cursor := ⟨4, 3, 0x0E04, (0, 0, 0), none, [[1, 2]], 0, [], 0⟩
/-- The bank's rated values are set. -/
def bankSt : State := up.onEst fun e => { e with params := [(pkBank 0x5101, 1000000), (pkBank 0x5102, 1000000), (pkBank 0x5103, 1000000)] }
/-- A bank that may connect. -/
def fitSt : State :=
  bankSt.onGuard fun g => { g with stopOk := true, cycles := 100, table := { g.table with roles := [0, 1, 2, 3], connect := [] } }
/-- `bankSt` with tenant 3 allocated. -/
def tenSt (f : Tenant → Tenant) : State :=
  bankSt.modTenant 3 fun q => f { q with exists_ := true, enabled := true, pDis := 10, pChg := 10, eAlloc := 5 }
/-- A bulk block that names everything. -/
def ball : Bulk := ⟨0, 4096, 0, 255, 65535, 0⟩
/-- `withStr` with generation 7 published. -/
def pubStr : State := (withStr.onEst fun e => { e with pubGen := some 7 }).modCell (cellPoint 5 1 0) fun c => { c with pub := { c.pub with gen := 7 } }
/-- A kernel image of 88 bytes: one NOP, one entry, one column. -/
def img88 : List Byte :=
  let a := le 4 0x494B5A4B ++ le 2 1 ++ le 2 0 ++ le 4 0x10001 ++ le 4 1 ++ le 4 48 ++ le 4 4 ++ le 4 64 ++ le 4 24 ++ le 4 0 ++ le 4 0 ++ le 4 88
  let b := le 4 0 ++ le 4 0 ++ le 4 0 ++ le 4 0 ++
    ([1, 1, 0, 0] ++ le 2 1 ++ le 2 0 ++ [1, 0] ++ le 2 0 ++ le 4 100 ++ le 2 0 ++ [2, 4, 0, 0, 0, 0])
  a ++ le 4 (crc32c (a ++ le 4 0 ++ b)) ++ b
/-- A bulk block whose data stand in the host's buffer. -/
def bhost (n : Nat) : Bulk := ⟨4096, 4096, 0, 255, 65535, n⟩
/-- The present image is `imageOf1 0`. -/
def imgSt : State := up.onSched fun q => { q with service := some (imageOf1 0) }
/-- Ring 5 in SERVICE with the node at place 1 at position `p`. -/
def svc (p : Nat) (f : Ring → Ring) : State :=
  (nd fun n => { n with pos := p }).modRing 5 fun r => f { r with state := .service }
/-- Axis 2 with limits 10 and 100. -/
def axSt : State := up.onLoops fun l => { l with regs := [(0x2080, 0x40), (0x20A0, 10), (0x20A4, 100)] }
/-- The bank's roles 3 and 4 belong to channels 3 and 4. -/
def ownSt : State := up.onGuard fun g => { g with table := { g.table with roles := [3, 4, 255, 255] } }
/-- `withStr` with the guard failed. -/
def failStr (f : Str → Str) : State := (sx3 f).onGuard fun g => { g with failed := true }
/-- A CAN frame. -/
def frm : Frame := ⟨false, false, false, 5, [1]⟩
/-- Loop 2 with registers and state. -/
def lp (rs : Tbl Word) (f : Loop → Loop) : State := (up.modLoop 2 f).onLoops fun l => { l with regs := rs }
/-- Axis 2 with registers and state. -/
def axn (rs : Tbl Word) (f : Axis → Axis) : State := late ((up.modAxis 2 f).onLoops fun l => { l with regs := rs })
/-- Load channel `n` with a configuration and state. -/
def chn (n : Nat) (c : Word) (f : Chan → Chan) : State := late ((up.modChan n f).onLoad fun l => { l with cfg := [(n, c)], sup := 0 })
/-- CAN controller 1 enabled, in a state. -/
def ctl (f : Ctrl → Ctrl) : State := late ((up.modCtrl 1 f).onCan fun c => { c with regs := [(0x140, 0x10000005)] })
/-- The PCS bus on controller 1 with four units. -/
def pcs (f : Unit_ → Unit_) : State :=
  late ((up.modUnit 2 f).onCan fun c => { c with regs := [(0, 0x91000004), (0x140, 0x10000005)] })
/-- A record of the log. -/
def rcd (n : Nat) (c : Bool) : Rec := ⟨n, mkEv 0x0601 [1, 2], 3, 4, 0, c⟩
/-- The module with the log, or the update record, changed. -/
def lg (f : Records → Records) : State := up.onRecs f
def ud (f : Update → Update) : State := up.onUpd f
/-- A verified image, time locked to PTP. -/
def ptp (f : Update → Update) : State := (ud f).onSys fun y => { y with ptpLock := true, wall := 1000000000000#64 }
/-- The module while the ROM runs. -/
def romSt (f : Update → Update) : State := late (((ud f).onSys fun y => { y with run := .rom, mode := .off }).onPower fun p => { p with stage := 2 })
/-- The module on its way through the start at a stage, handed over. -/
def startAt (n : Nat) : State := late (((ud fun u => { u with handAt := some 1 }).onSys fun y => { y with run := .restarting }).onPower fun p => { p with stage := n })
/-- `up` with the supplies changed. -/
def sup (f : Power → Power) : State := late (up.onPower f)
/-- The block at offset 4096 of an image of 8,192 bytes has come. -/
def resent (l : List Byte) : State := ud fun u => { u with begun := some (0, 5, 8192), blocks := [(4096, l)] }
theorem resent_ok (l : List Byte) : (resent l).blockFault 4096 l = 0 := by
  simp [State.blockFault, resent, ud, State.onUpd, tfind?]
/-- The module with ring 5 ACTIVE and the node at its place 1 changed. -/
def nda (f : Node → Node) : State := (nd f).modRing 5 fun r => { r with state := .active }
/-- A collection block. -/
def blk : Block := ⟨1, true, false, false, 0, 100⟩
/-- The module with a trip body on ring 5 and the node at its place 1 changed. -/
def ndt (f : Node → Node) : State := (nd f).modRing 5 fun r => { r with tripBody := some (3, 1, 0xFFFF, 0x0601) }
/-- Ring 5 whose collection frame is in flight from the A end. -/
def col (f : Ring → Ring) : State := rg fun r => f { r with state := .active, collecting := true, ends := [false], config := [id1] }
/-- The module with ring 5 in SERVICE and the node at its place 1 changed. -/
def nds (f : Node → Node) : State := (nd f).modRing 5 fun r => { r with state := .service }
/-- A work item of string 3 of ring 5. -/
def itm : Item := ⟨k3, 0, 1, 4, 0, 5, [], [], 0, true, [], 0⟩
/-- `withStr` in ONLINE with a burst of its string due for its next sample. -/
def bursting : State :=
  ((sx3 fun q => { q with burst := some 3, closed := true }).onSys fun y => { y with mode := .online }).modMark 1 fun _ => dueMark
/-- A state with M0's interval set. -/
def m0 (s : State) : State := s.modMark 0 fun m => { m with step := 131072 }
theorem quiet_eth (m : Nat) : ((eth fun p => p).page m).arrived = [] := by
  rcases Decidable.em (m = 3) with rfl | h
  · decide +kernel
  · show (((up.modPage 3 fun p => p).modPage 3 fun p => { p with keys := [(0, 5)] }).page m).arrived = []
    rw [State.page_modPage_ne _ _ h, State.page_modPage_ne _ _ h]
    rfl
/-- The next state an outcome holds. -/
def got (o : Host.Outcome State Fault Refusal) : State := match o with | .next t => t | _ => State.reset
/-- The outcome is a next state. -/
def isNext (o : Host.Outcome State Fault Refusal) : Bool := match o with | .next _ => true | _ => false
theorem next_of : ∀ (o : Host.Outcome State Fault Refusal), isNext o = true → o = .next (got o)
  | .next _, _ => rfl
/-- A request and a bulk block with a field outside its width. -/
def rqBad : Rq := ⟨256, 7, 0, 0, false, 0⟩
def bBad : Bulk := ⟨0, 4096, 0, 256, 65535, 0⟩
/-- Some state meets the hypotheses of a statement about a rod that issues a word. -/
def Issued (rod w cyc : Nat) (cond : Image → RodCtx → Prop) : Prop :=
  ∃ s : State, s.tablesOk = true ∧ s.fetches rod w cyc = true ∧ cond (s.rodImage rod) (s.rod rod).ctx
theorem issued (s : State) (rod w cyc : Nat) (cond : Image → RodCtx → Prop) (h : s.tablesOk = true ∧ s.fetches rod w cyc = true)
    (hc : cond (s.rodImage rod) (s.rod rod).ctx) : Issued rod w cyc cond := ⟨s, h.1, h.2, hc⟩
theorem issued_all (l : List (Nat × Nat))
    (h : (l.all fun w => decide ((rodAt w.1 false).tablesOk = true ∧ (rodAt w.1 false).fetches 3 w.1 w.2 = true)) = true) :
    ∀ w ∈ l, Issued 3 w.1 w.2 always := fun w hw =>
  issued (rodAt w.1 false) 3 w.1 w.2 always (of_decide_eq_true (List.all_eq_true.1 h w hw)) trivial

/-! ### Well-formed and ill-formed commands -/

/-- A command of each shape whose operands lie in their ranges is well formed. -/
theorem test_wf_good_1 : ([
    .trackerCycle 1 1 1 1 true, .inputOverRange 1 1, .overRangeReturn 1 1, .sourceChange 1, .markEnable 1, .registerWrite 1 0 none,
    .rippleBurstSample [] [], .notificationMark 4, .rxLock 1 1 true 1 1, .rxLockLost 1 1 true 1 1, .faultSet 1 1 true, .ringRejoin 1, .enum 1 1,
    .clear 1 1, .ringEcho 1 1 1 true, .echoReply 1 1 true 1, .census 1 1, .collectLaunch 1, .collect 1 1 none, .leaseExpired 1 1, .leaseTimeout 1 1,
    .nodeSync 1 1 1 true, .nodeSample 1 1 (List.replicate 32 1) (List.replicate 8 1) 1 1 1 1 true true,
    .nodeProjectedSample 1 1 1 (List.replicate 32 1) (List.replicate 8 1) 1 1 1 1 true true, .recordReceived 1 1 (List.replicate 100 1),
    .collectFrameClosed 1 1 true true, .skewLimit 1, .keepalive 1 1 none, .switchWatchdogExpiry 1 1, .nodeStart 1 1 true, .commandLaunch 1,
    .readNode 1 1 1 true 1 1 none, .writeNode 1 1 1 true true 1 (List.replicate 1 1) true none, .balance 1 1 1 true 1 1 (List.replicate 32 1) none,
    .switch 1 1 1 true true 1 none, .unwrap 1 1 1 true true none, .response 1 1 1 1 [] none, .commandTimeout 1 1, .busyRetry 1 1,
    .fwBlock 1 1 1 true true 1 (List.replicate 1 1) none, .fwActivate 1 1 1 true true 1 none, .nodeFwRestart 1 1 1 true, .trip 1 1 none,
    .tripBodyTimeout 1 1, .invocationEnd 1 none] : List Instr).all (wfInstr) = true := by decide +kernel
/-- A command of each shape whose operands lie in their ranges is well formed. -/
theorem test_wf_good_2 : ([
    .windowClose 1, .tableWalk 1 1 true true, .dieTempSample (List.replicate 8 1), .classStarved 3, .burstAbandoned 1 1, .rodTestDone 1 1,
    .rodReload 1 1 true, .nop 1 1, .vadd 1 1 1 1 1, .vsub 1 1 1 1 1, .vneg 1 1 1 1, .vabs 1 1 1 1, .vmax 1 1 1 1 1, .vmin 1 1 1 1 1, .vmov 1 1 1 1,
    .vmul 1 1 1 1 1, .vshr 1 1 1 1 1, .vshl 1 1 1 1 1, .vsel 1 1 1 1 1, .vcgt 1 1 1 1, .vceq 1 1 1 1, .qdiv 1 1 1 1 1, .vbcl 1 1 1 1 8,
    .amac 1 1 1 1 1, .amsu 1 1 1 1 1, .aldv 1 1 1 1 1, .aadv 1 1 1 1 1, .aext 1 1 1 1 1, .aclr 1 1 1, .arsum 1 1 1 1, .vrsum 1 1 1 1, .vbc 1 1 1 1 1,
    .sadd 1 1 1 1 1, .ssub 1 1 1 1 1, .smul 1 1 8 8 8, .sli 1 1 1 1, .vli 1 1 1 1, .scmp 1 1 1 1, .vld 1 1 1 8 0, .vst 1 1 1 8 0, .tlu 1 1 1 1 1,
    .tlu2 1 1 1 1 1 1, .lmset 1 1 1, .lmget 1 1 8, .lmld 1 1 8] : List Instr).all (wfInstr) = true := by decide +kernel
/-- A command of each shape whose operands lie in their ranges is well formed. -/
theorem test_wf_good_3 : ([
    .lmand 1 1 8, .br 1 1 1 1, .loop 1 1 8 1, .call 1 1 1, .ret 1 1, .endPass 1 1, .kfence 1 1, .cst 1 1 8 8 0, .observerRun 1 1, .observerBlend 1,
    .observerUnavailable 1 1, .rippleBurstStart 1 1, .restPoint 1 1, .estimatorHealth 1, .sensorRestored 1 1 1, .balancingQuiet 1 1,
    .balancingMismatch 1 1, .balancingExclusionEnd 1 1, .tinConversion 1 1 1, .tinFault 1, .tinRecovered 1, .stopLaneTenant 1,
    .stopDatagram 1 (List.replicate 16 1), .comparatorCrossing 1 true 1, .guardCycle (List.replicate 16 1) true true 1, .limitLevelCrossed 1 1 1,
    .nodeLoss 1 1, .stepTimeout none, .weldCheck 1 1, .rqTail 1 1, .requestFetch 1 (List.replicate 256 1) true, .responsePost 1 true true,
    .rsTail 1 1, .epoch 1 1, .rqEn 1, .rsEn 1, .irqTimeout 1, .wakeCause 1, .mailboxDatagram 1 [] true, .ptpMessage 1 1 1, .ethernetLink 1 true,
    .identity rq0, .status rq0, .setMode rq0 1, .connect rq0] : List Instr).all (wfInstr) = true := by decide +kernel
/-- A command of each shape whose operands lie in their ranges is well formed. -/
theorem test_wf_good_4 : ([
    .disconnect rq0, .shutdown rq0, .setParam rq0 1 1 1 1, .getParam rq0 1 1 1, .whoami rq0, .setAlloc rq0 1 true 1 1 1 1, .getAlloc rq0 1,
    .installKey rq0 1 1 1, .readCell rq0 1, .readTemp rq0 1, .readString rq0 1 1, .readStringThermal rq0 1 1, .readBankThermal rq0,
    .readLearned rq0 1, .readImpedance rq0 1, .cellSetParam rq0 1 1 1 1, .cellGetParam rq0 1 1 1, .bulkCells rq0 ball none,
    .bulkStrings rq0 ball none, .bulkStringThermal rq0 ball none, .bulkLearned rq0 ball none, .bulkImpedance rq0 ball none,
    .setTempMap rq0 1 1 (List.replicate 32 1), .getTempMap rq0 1 1, .writeThermal rq0 1 1 (List.replicate 7 1), .readThermal rq0 1 1 1,
    .tinRead rq0 1 1, .tinWrite rq0 1 [], .setGroup rq0 1 1 1 1 [], .getGroup rq0 1, .resetLearned rq0 1 1 1 1, .clearShort rq0 1 1, .kernelInfo rq0,
    .loadImage rq0 ball [] none, .exchange rq0 1, .discard rq0 1, .readImage rq0 ball none, .submit rq0 (List.replicate 1 (1, 1, 1, true)),
    .readSchedule rq0 1 1, .tenantRecord rq0 1, .bankRecord rq0, .resume rq0 1, .ledgerAdjust rq0 1 1, .setBinding rq0 1 1 1 1 1 1 1 1,
    .getBinding rq0] : List Instr).all (wfInstr) = true := by decide +kernel
/-- A command of each shape whose operands lie in their ranges is well formed. -/
theorem test_wf_good_5 : ([
    .dispatchSetParam rq0 1 1 1 1, .dispatchGetParam rq0 1 1 1, .protRead rq0 1 1, .protWrite rq0 1 [], .stringProt rq0 1 1, .clearTrip rq0 1,
    .clearString rq0 1 1, .weldAck rq0 1, .mapAlarm rq0 1 1 1 1 1, .protSetParam rq0 1 1 1 1, .protGetParam rq0 1 1 1,
    .writeLimits rq0 1 1 (List.replicate 20 1), .readLimits rq0 1 1 1, .writeSeq rq0 1 1 (List.replicate 4 1) [], .readSeq rq0 1 1 1 1,
    .beamRead rq0 1 1, .beamWrite rq0 1 [], .setSweep rq0 1, .beamTime rq0, .ringStatus rq0 1, .setRingState rq0 1 1 1 [], .enumerate rq0 1 1,
    .calibrate rq0 1 1 1, .nodeRead rq0 1 1 1 1, .nodeWrite rq0 1 1 1 [], .storeConfig rq0 1 [], .readConfig rq0 ball none, .loopRead rq0 1 1,
    .loopWrite rq0 1 [], .axisTarget rq0 1 1, .capture rq0 ball none, .loadRead rq0 1 1 (List.replicate 24 (1, 1)) 1 1, .loadWrite rq0 1 [],
    .setOutputs rq0 1 1, .chStatus rq0 (List.replicate 24 (1, 1)) 1 1, .restart rq0 1, .restartRecommand 1, .canRead rq0 1 1, .canWrite rq0 1 [],
    .canSend rq0 1 1 1 [], .canStatus rq0, .logState rq0, .readLog rq0 ball [] none, .readRecent rq0 1 1 [], .setSeverity rq0 1 1] : List Instr).all (wfInstr) = true := by decide +kernel
/-- A command of each shape whose operands lie in their ranges is well formed. -/
theorem test_wf_good_6 : ([
    .readCounters rq0 1 1, .updateState rq0, .begin rq0 1 1 1, .writeBlock rq0 ball [] none, .verify rq0, .schedule rq0 1, .cancel rq0, .commit rq0,
    .rollback rq0 1, .nodeUpdate rq0 1, .rodStatus rq0 1 1, .schedStatus rq0, .rodRelease rq0 1, .linkStatus rq0, .echo rq0 [],
    .loopTick (List.replicate 8 1), .loopEnable 1, .loopRestart 1, .supervisionFault 1, .captureArm 1, .captureComplete 1, .axisEdge 1 true true 1 1,
    .axisIndex 1, .axisWireFault 1 1 1, .axisAmplitudeFault 1 true, .axisStill 1, .faultev 1, .outputOpen 1 1, .inEdge 1 true, .inrushWindowEnd 1,
    .slewRampComplete 22 1 1, .slewRampTimeout 22 1, .overcurrentLatch 1 1 1, .thermalSwitchOff 1 1, .thermalRestart 1 1,
    .openLoadJudgement 1 (List.replicate 100 1), .vloadUnderVoltage 1 1, .vloadRestored 1 1, .loadDump 1, .reverseSupply 1 1,
    .canFrameReceived 1 true true true true 1 [], .pcsStatusFrame 1 1 1 1 1, .pcsUnitStale 1, .alarmFrame 1 1 1 1, .alarmSourceLost 1 1] : List Instr).all (wfInstr) = true := by decide +kernel
/-- A command of each shape whose operands lie in their ranges is well formed. -/
theorem test_wf_good_7 : ([
    .canTxComplete 1 true 1, .busOffRecovery 1 1, .aloneProbe 1 1, .aloneLeft 1 true, .pop 1, .canTimingWrite 1, .canDisable 1,
    .flashBlockRetired 1 1, .mailboxOpen [], .ringRejoinConnect 1, .vanaRestored 1 1 [], .newFirmwareStart 1 1 [], .bootFail 1, .recoveryEntry 1,
    .nodeHot 1 1 true, .pcieLinkUp 1 1, .comparatorRearm 1, .ainBroken 1 1, .canReceiveError 1 1 true, .inMinimumTimeEnd 1] : List Instr).all (wfInstr) = true := by decide +kernel
/-- One operand outside its range: the check refuses the command. -/
theorem test_wf_bad_1 : ([
    .trackerCycle 65536 1 1 1 true, .trackerCycle 1 8388608 1 1 true, .trackerCycle 1 1 1 2 true, .inputOverRange 11 1, .overRangeReturn 11 1,
    .sourceChange 3, .markEnable 16, .registerWrite 256 0 none, .registerWrite 1 4096 none, .registerWrite 1 1 none,
    .registerWrite 1 0 (some 4294967296), .rippleBurstSample [(268435456, 1)] [], .notificationMark 3, .notificationMark 15, .rxLock 128 1 true 1 1,
    .rxLock 1 65535 true 1 1, .rxLockLost 128 1 true 1 1, .rxLockLost 1 65535 true 1 1, .faultSet 128 1 true, .faultSet 1 65535 true,
    .ringRejoin 128, .enum 128 1, .enum 1 65535, .clear 128 1, .clear 1 0, .clear 1 65535, .ringEcho 128 1 1 true, .ringEcho 1 0 1 true,
    .ringEcho 1 65535 1 true, .ringEcho 1 1 0 true, .ringEcho 1 1 65535 true, .echoReply 128 1 true 1, .echoReply 1 0 true 1,
    .echoReply 1 65535 true 1, .census 128 1, .census 1 65535, .collectLaunch 128, .collect 128 1 none, .collect 1 0 none, .collect 1 65535 none,
    .leaseExpired 128 1, .leaseExpired 1 0, .leaseExpired 1 65535, .leaseTimeout 128 1, .leaseTimeout 1 0] : List Instr).all (fun i => !wfInstr i) = true := by decide +kernel
/-- One operand outside its range: the check refuses the command. -/
theorem test_wf_bad_2 : ([
    .leaseTimeout 1 65535, .nodeSync 128 1 1 true, .nodeSync 1 0 1 true, .nodeSync 1 65535 1 true, .nodeSync 1 1 256 true,
    .nodeSample 128 1 (List.replicate 32 1) (List.replicate 8 1) 1 1 1 1 true true,
    .nodeSample 1 0 (List.replicate 32 1) (List.replicate 8 1) 1 1 1 1 true true,
    .nodeSample 1 65535 (List.replicate 32 1) (List.replicate 8 1) 1 1 1 1 true true,
    .nodeSample 1 1 (List.replicate 31 1) (List.replicate 8 1) 1 1 1 1 true true,
    .nodeSample 1 1 (List.replicate 32 1) (List.replicate 7 1) 1 1 1 1 true true,
    .nodeSample 1 1 (List.replicate 32 65536) (List.replicate 8 1) 1 1 1 1 true true,
    .nodeSample 1 1 (List.replicate 32 1) (List.replicate 8 65536) 1 1 1 1 true true,
    .nodeSample 1 1 (List.replicate 32 1) (List.replicate 8 1) 65536 1 1 1 true true,
    .nodeSample 1 1 (List.replicate 32 1) (List.replicate 8 1) 1 65536 1 1 true true,
    .nodeSample 1 1 (List.replicate 32 1) (List.replicate 8 1) 1 1 65536 1 true true,
    .nodeSample 1 1 (List.replicate 32 1) (List.replicate 8 1) 1 1 1 8 true true,
    .nodeProjectedSample 128 1 1 (List.replicate 32 1) (List.replicate 8 1) 1 1 1 1 true true,
    .nodeProjectedSample 1 0 1 (List.replicate 32 1) (List.replicate 8 1) 1 1 1 1 true true,
    .nodeProjectedSample 1 65535 1 (List.replicate 32 1) (List.replicate 8 1) 1 1 1 1 true true,
    .nodeProjectedSample 1 1 256 (List.replicate 32 1) (List.replicate 8 1) 1 1 1 1 true true,
    .nodeProjectedSample 1 1 1 (List.replicate 31 1) (List.replicate 8 1) 1 1 1 1 true true,
    .nodeProjectedSample 1 1 1 (List.replicate 32 1) (List.replicate 7 1) 1 1 1 1 true true,
    .nodeProjectedSample 1 1 1 (List.replicate 32 65536) (List.replicate 8 1) 1 1 1 1 true true,
    .nodeProjectedSample 1 1 1 (List.replicate 32 1) (List.replicate 8 65536) 1 1 1 1 true true,
    .nodeProjectedSample 1 1 1 (List.replicate 32 1) (List.replicate 8 1) 65536 1 1 1 true true,
    .nodeProjectedSample 1 1 1 (List.replicate 32 1) (List.replicate 8 1) 1 65536 1 1 true true,
    .nodeProjectedSample 1 1 1 (List.replicate 32 1) (List.replicate 8 1) 1 1 65536 1 true true,
    .nodeProjectedSample 1 1 1 (List.replicate 32 1) (List.replicate 8 1) 1 1 1 8 true true, .recordReceived 128 1 (List.replicate 100 1),
    .recordReceived 1 0 (List.replicate 100 1), .recordReceived 1 65535 (List.replicate 100 1), .recordReceived 1 1 (List.replicate 99 1),
    .collectFrameClosed 128 1 true true, .skewLimit 128, .keepalive 128 1 none, .keepalive 1 0 none, .keepalive 1 65535 none,
    .switchWatchdogExpiry 128 1, .switchWatchdogExpiry 1 0, .switchWatchdogExpiry 1 65535, .nodeStart 128 1 true, .nodeStart 1 0 true,
    .nodeStart 1 65535 true, .commandLaunch 128, .readNode 128 1 1 true 1 1 none] : List Instr).all (fun i => !wfInstr i) = true := by decide +kernel
/-- One operand outside its range: the check refuses the command. -/
theorem test_wf_bad_3 : ([
    .readNode 1 0 1 true 1 1 none, .readNode 1 65535 1 true 1 1 none, .readNode 1 1 65536 true 1 1 none, .readNode 1 1 1 true 65536 1 none,
    .readNode 1 1 1 true 1 0 none, .readNode 1 1 1 true 1 241 none, .writeNode 128 1 1 true true 1 (List.replicate 1 1) true none,
    .writeNode 1 0 1 true true 1 (List.replicate 1 1) true none, .writeNode 1 65535 1 true true 1 (List.replicate 1 1) true none,
    .writeNode 1 1 65536 true true 1 (List.replicate 1 1) true none, .writeNode 1 1 1 true true 65536 (List.replicate 1 1) true none,
    .writeNode 1 1 1 true true 1 [] true none, .writeNode 1 1 1 true true 1 (List.replicate 241 1) true none,
    .balance 128 1 1 true 1 1 (List.replicate 32 1) none, .balance 1 0 1 true 1 1 (List.replicate 32 1) none,
    .balance 1 65535 1 true 1 1 (List.replicate 32 1) none, .balance 1 1 65536 true 1 1 (List.replicate 32 1) none,
    .balance 1 1 1 true 0 1 (List.replicate 32 1) none, .balance 1 1 1 true 256 1 (List.replicate 32 1) none,
    .balance 1 1 1 true 1 4294967296 (List.replicate 32 1) none, .balance 1 1 1 true 1 1 (List.replicate 31 1) none,
    .balance 1 1 1 true 1 1 (List.replicate 32 256) none, .switch 128 1 1 true true 1 none, .switch 1 0 1 true true 1 none,
    .switch 1 65535 1 true true 1 none, .switch 1 1 65536 true true 1 none, .switch 1 1 1 true true 256 none, .unwrap 128 1 1 true true none,
    .unwrap 1 0 1 true true none, .unwrap 1 65535 1 true true none, .unwrap 1 1 65536 true true none, .response 128 1 1 1 [] none,
    .response 1 0 1 1 [] none, .response 1 65535 1 1 [] none, .response 1 1 65536 1 [] none, .response 1 1 1 256 [] none,
    .response 1 1 1 1 (List.replicate 255 1) none, .commandTimeout 128 1, .commandTimeout 1 0, .commandTimeout 1 65535, .busyRetry 128 1,
    .busyRetry 1 0, .busyRetry 1 65535, .fwBlock 128 1 1 true true 1 (List.replicate 1 1) none, .fwBlock 1 0 1 true true 1 (List.replicate 1 1) none] : List Instr).all (fun i => !wfInstr i) = true := by decide +kernel
/-- One operand outside its range: the check refuses the command. -/
theorem test_wf_bad_4 : ([
    .fwBlock 1 65535 1 true true 1 (List.replicate 1 1) none, .fwBlock 1 1 65536 true true 1 (List.replicate 1 1) none,
    .fwBlock 1 1 1 true true 4294967296 (List.replicate 1 1) none, .fwBlock 1 1 1 true true 1 [] none,
    .fwBlock 1 1 1 true true 1 (List.replicate 241 1) none, .fwActivate 128 1 1 true true 1 none, .fwActivate 1 0 1 true true 1 none,
    .fwActivate 1 65535 1 true true 1 none, .fwActivate 1 1 65536 true true 1 none, .fwActivate 1 1 1 true true 4294967296 none,
    .nodeFwRestart 128 1 1 true, .nodeFwRestart 1 0 1 true, .nodeFwRestart 1 65535 1 true, .nodeFwRestart 1 1 4294967296 true, .trip 128 1 none,
    .trip 1 0 none, .trip 1 65535 none, .tripBodyTimeout 128 1, .tripBodyTimeout 1 0, .tripBodyTimeout 1 65535, .invocationEnd 128 none,
    .windowClose 128, .tableWalk 128 1 true true, .tableWalk 1 64 true true, .dieTempSample (List.replicate 7 1), .classStarved 2, .classStarved 6,
    .burstAbandoned 128 1, .burstAbandoned 1 65536, .rodTestDone 128 1, .rodReload 128 1 true, .nop 128 1, .vadd 128 1 1 1 1, .vadd 1 1 16 1 1,
    .vadd 1 1 1 16 1, .vadd 1 1 1 1 16, .vsub 128 1 1 1 1, .vsub 1 1 16 1 1, .vsub 1 1 1 16 1, .vsub 1 1 1 1 16, .vneg 128 1 1 1, .vneg 1 1 16 1,
    .vneg 1 1 1 16, .vabs 128 1 1 1, .vabs 1 1 16 1] : List Instr).all (fun i => !wfInstr i) = true := by decide +kernel
/-- One operand outside its range: the check refuses the command. -/
theorem test_wf_bad_5 : ([
    .vabs 1 1 1 16, .vmax 128 1 1 1 1, .vmax 1 1 16 1 1, .vmax 1 1 1 16 1, .vmax 1 1 1 1 16, .vmin 128 1 1 1 1, .vmin 1 1 16 1 1, .vmin 1 1 1 16 1,
    .vmin 1 1 1 1 16, .vmov 128 1 1 1, .vmov 1 1 16 1, .vmov 1 1 1 16, .vmul 128 1 1 1 1, .vmul 1 1 16 1 1, .vmul 1 1 1 16 1, .vmul 1 1 1 1 16,
    .vshr 128 1 1 1 1, .vshr 1 1 16 1 1, .vshr 1 1 1 16 1, .vshr 1 1 1 1 16, .vshl 128 1 1 1 1, .vshl 1 1 16 1 1, .vshl 1 1 1 16 1, .vshl 1 1 1 1 16,
    .vsel 128 1 1 1 1, .vsel 1 1 16 1 1, .vsel 1 1 1 16 1, .vsel 1 1 1 1 16, .vcgt 128 1 1 1, .vcgt 1 1 16 1, .vcgt 1 1 1 16, .vceq 128 1 1 1,
    .vceq 1 1 16 1, .vceq 1 1 1 16, .qdiv 128 1 1 1 1, .qdiv 1 1 16 1 1, .qdiv 1 1 1 16 1, .qdiv 1 1 1 1 16, .vbcl 128 1 1 1 8, .vbcl 1 1 16 1 8,
    .vbcl 1 1 1 16 8, .vbcl 1 1 1 1 16, .vbcl 1 1 1 1 7, .amac 128 1 1 1 1, .amac 1 1 4 1 1] : List Instr).all (fun i => !wfInstr i) = true := by decide +kernel
/-- One operand outside its range: the check refuses the command. -/
theorem test_wf_bad_6 : ([
    .amac 1 1 1 16 1, .amac 1 1 1 1 16, .amsu 128 1 1 1 1, .amsu 1 1 4 1 1, .amsu 1 1 1 16 1, .amsu 1 1 1 1 16, .aldv 128 1 1 1 1, .aldv 1 1 4 1 1,
    .aldv 1 1 1 16 1, .aldv 1 1 1 1 16, .aadv 128 1 1 1 1, .aadv 1 1 4 1 1, .aadv 1 1 1 16 1, .aadv 1 1 1 1 16, .aext 128 1 1 1 1, .aext 1 1 16 1 1,
    .aext 1 1 1 4 1, .aext 1 1 1 1 16, .aclr 128 1 1, .aclr 1 1 4, .arsum 128 1 1 1, .arsum 1 1 16 1, .arsum 1 1 1 4, .arsum 1 1 8 1,
    .vrsum 128 1 1 1, .vrsum 1 1 16 1, .vrsum 1 1 1 16, .vrsum 1 1 8 1, .vbc 128 1 1 1 1, .vbc 1 1 16 1 1, .vbc 1 1 1 16 1, .vbc 1 1 1 1 16,
    .vbc 1 1 1 8 1, .sadd 128 1 1 1 1, .sadd 1 1 16 1 1, .sadd 1 1 1 16 1, .sadd 1 1 1 1 16, .sadd 1 1 8 1 1, .sadd 1 1 1 1 8, .ssub 128 1 1 1 1,
    .ssub 1 1 16 1 1, .ssub 1 1 1 16 1, .ssub 1 1 1 1 16, .ssub 1 1 8 1 1, .ssub 1 1 1 1 8] : List Instr).all (fun i => !wfInstr i) = true := by decide +kernel
/-- One operand outside its range: the check refuses the command. -/
theorem test_wf_bad_7 : ([
    .smul 128 1 8 8 8, .smul 1 1 16 8 8, .smul 1 1 8 16 8, .smul 1 1 8 8 16, .smul 1 1 7 8 8, .smul 1 1 8 7 8, .smul 1 1 8 8 7, .sli 128 1 1 1,
    .sli 1 1 16 1, .sli 1 1 1 (-2097153), .sli 1 1 1 2097152, .vli 128 1 1 1, .vli 1 1 16 1, .vli 1 1 1 65536, .vli 1 1 1 32768, .scmp 128 1 1 1,
    .scmp 1 1 16 1, .scmp 1 1 1 16, .scmp 1 1 1 8, .vld 128 1 1 8 0, .vld 1 1 16 8 0, .vld 1 1 1 16 0, .vld 1 1 1 8 262144, .vld 1 1 1 8 1,
    .vld 1 1 1 7 0, .vst 128 1 1 8 0, .vst 1 1 16 8 0, .vst 1 1 1 16 0, .vst 1 1 1 8 262144, .vst 1 1 1 8 1, .vst 1 1 1 7 0, .tlu 128 1 1 1 1,
    .tlu 1 1 16 1 1, .tlu 1 1 1 16 1, .tlu 1 1 1 1 64, .tlu2 128 1 1 1 1 1, .tlu2 1 1 16 1 1 1, .tlu2 1 1 1 16 1 1, .tlu2 1 1 1 1 16 1,
    .tlu2 1 1 1 1 1 64, .lmset 128 1 1, .lmset 1 1 65536, .lmget 128 1 8, .lmget 1 1 16, .lmget 1 1 7] : List Instr).all (fun i => !wfInstr i) = true := by decide +kernel
/-- One operand outside its range: the check refuses the command. -/
theorem test_wf_bad_8 : ([
    .lmld 128 1 8, .lmld 1 1 16, .lmld 1 1 7, .lmand 128 1 8, .lmand 1 1 16, .lmand 1 1 7, .br 128 1 1 1, .br 1 1 10 1, .br 1 1 1 (-32769),
    .br 1 1 1 32768, .loop 128 1 8 1, .loop 1 1 16 1, .loop 1 1 8 (-32769), .loop 1 1 8 32768, .loop 1 1 7 1, .call 128 1 1, .call 1 1 (-32769),
    .call 1 1 32768, .ret 128 1, .endPass 128 1, .kfence 128 1, .cst 128 1 8 8 0, .cst 1 1 16 8 0, .cst 1 1 8 16 0, .cst 1 1 8 8 262144,
    .cst 1 1 8 8 1, .cst 1 1 7 8 0, .cst 1 1 8 7 0, .observerRun 128 1, .observerRun 1 65536, .observerBlend 64, .observerUnavailable 128 1,
    .observerUnavailable 1 65536, .rippleBurstStart 128 1, .rippleBurstStart 1 65536, .restPoint 128 1, .restPoint 1 65536,
    .estimatorHealth 268435456, .sensorRestored 128 1 1, .sensorRestored 1 0 1, .sensorRestored 1 65535 1, .sensorRestored 1 1 8,
    .balancingQuiet 128 1, .balancingQuiet 1 65536, .balancingMismatch 128 1] : List Instr).all (fun i => !wfInstr i) = true := by decide +kernel
/-- One operand outside its range: the check refuses the command. -/
theorem test_wf_bad_9 : ([
    .balancingMismatch 1 0, .balancingMismatch 1 65535, .balancingExclusionEnd 128 1, .balancingExclusionEnd 1 0, .balancingExclusionEnd 1 65535,
    .tinConversion 16 1 1, .tinFault 16, .tinRecovered 16, .stopLaneTenant 0, .stopLaneTenant 256, .stopDatagram 2 (List.replicate 16 1),
    .stopDatagram 1 (List.replicate 15 1), .comparatorCrossing 16 true 1, .guardCycle (List.replicate 15 1) true true 1,
    .guardCycle (List.replicate 16 32768) true true 1, .guardCycle (List.replicate 16 1) true true 4294967296, .limitLevelCrossed 128 1 1,
    .limitLevelCrossed 1 65536 1, .limitLevelCrossed 1 1 10, .nodeLoss 128 1, .nodeLoss 1 0, .nodeLoss 1 65535, .stepTimeout (some 128),
    .weldCheck 128 1, .weldCheck 1 65536, .rqTail 256 1, .rqTail 1 65536, .requestFetch 256 (List.replicate 256 1) true,
    .requestFetch 1 (List.replicate 255 1) true, .responsePost 256 true true, .rsTail 256 1, .rsTail 1 65536, .epoch 256 1, .epoch 1 256, .rqEn 256,
    .rsEn 256, .irqTimeout 256, .wakeCause 7, .mailboxDatagram 2 [] true, .ptpMessage 2 1 1, .ptpMessage 1 128 1, .ethernetLink 2 true,
    .identity rqBad, .status rqBad, .setMode rqBad 1] : List Instr).all (fun i => !wfInstr i) = true := by decide +kernel
/-- One operand outside its range: the check refuses the command. -/
theorem test_wf_bad_10 : ([
    .setMode rq0 256, .connect rqBad, .disconnect rqBad, .shutdown rqBad, .setParam rqBad 1 1 1 1, .setParam rq0 65536 1 1 1,
    .setParam rq0 1 256 1 1, .setParam rq0 1 1 65536 1, .setParam rq0 1 1 1 (-9223372036854775809), .setParam rq0 1 1 1 9223372036854775808,
    .getParam rqBad 1 1 1, .getParam rq0 65536 1 1, .getParam rq0 1 256 1, .getParam rq0 1 1 65536, .whoami rqBad, .setAlloc rqBad 1 true 1 1 1 1,
    .setAlloc rq0 256 true 1 1 1 1, .setAlloc rq0 1 true 4294967296 1 1 1, .setAlloc rq0 1 true 1 4294967296 1 1,
    .setAlloc rq0 1 true 1 1 18446744073709551616 1, .setAlloc rq0 1 true 1 1 1 18446744073709551616, .getAlloc rqBad 1, .getAlloc rq0 256,
    .installKey rqBad 1 1 1, .installKey rq0 256 1 1, .installKey rq0 1 256 1,
    .installKey rq0 1 1 115792089237316195423570985008687907853269984665640564039457584007913129639936, .readCell rqBad 1, .readCell rq0 4294967296,
    .readTemp rqBad 1, .readTemp rq0 4294967296, .readString rqBad 1 1, .readString rq0 256 1, .readString rq0 1 65536, .readStringThermal rqBad 1 1,
    .readStringThermal rq0 256 1, .readStringThermal rq0 1 65536, .readBankThermal rqBad, .readLearned rqBad 1, .readLearned rq0 4294967296,
    .readImpedance rqBad 1, .readImpedance rq0 4294967296, .cellSetParam rqBad 1 1 1 1, .cellSetParam rq0 65536 1 1 1, .cellSetParam rq0 1 256 1 1] : List Instr).all (fun i => !wfInstr i) = true := by decide +kernel
/-- One operand outside its range: the check refuses the command. -/
theorem test_wf_bad_11 : ([
    .cellSetParam rq0 1 1 65536 1, .cellSetParam rq0 1 1 1 (-9223372036854775809), .cellSetParam rq0 1 1 1 9223372036854775808,
    .cellGetParam rqBad 1 1 1, .cellGetParam rq0 65536 1 1, .cellGetParam rq0 1 256 1, .cellGetParam rq0 1 1 65536, .bulkCells rqBad ball none,
    .bulkCells rq0 bBad none, .bulkStrings rqBad ball none, .bulkStrings rq0 bBad none, .bulkStringThermal rqBad ball none,
    .bulkStringThermal rq0 bBad none, .bulkLearned rqBad ball none, .bulkLearned rq0 bBad none, .bulkImpedance rqBad ball none,
    .bulkImpedance rq0 bBad none, .setTempMap rqBad 1 1 (List.replicate 32 1), .setTempMap rq0 256 1 (List.replicate 32 1),
    .setTempMap rq0 1 65536 (List.replicate 32 1), .setTempMap rq0 1 1 (List.replicate 31 1), .setTempMap rq0 1 1 (List.replicate 32 16),
    .getTempMap rqBad 1 1, .getTempMap rq0 256 1, .getTempMap rq0 1 65536, .writeThermal rqBad 1 1 (List.replicate 7 1),
    .writeThermal rq0 256 1 (List.replicate 7 1), .writeThermal rq0 1 65536 (List.replicate 7 1), .writeThermal rq0 1 1 (List.replicate 6 1),
    .writeThermal rq0 1 1 (List.replicate 7 65536), .readThermal rqBad 1 1 1, .readThermal rq0 256 1 1, .readThermal rq0 1 65536 1,
    .readThermal rq0 1 1 256, .tinRead rqBad 1 1, .tinRead rq0 4294967296 1, .tinRead rq0 1 65536, .tinWrite rqBad 1 [], .tinWrite rq0 4294967296 [],
    .tinWrite rq0 1 (List.replicate 59 1), .tinWrite rq0 1 (List.replicate 1 4294967296), .setGroup rqBad 1 1 1 1 [], .setGroup rq0 256 1 1 1 [],
    .setGroup rq0 1 256 1 1 [], .setGroup rq0 1 1 256 1 []] : List Instr).all (fun i => !wfInstr i) = true := by decide +kernel
/-- One operand outside its range: the check refuses the command. -/
theorem test_wf_bad_12 : ([
    .setGroup rq0 1 1 1 256 [], .setGroup rq0 1 1 1 1 (List.replicate 59 (1, 1)), .setGroup rq0 1 1 1 1 [(1, 65536)], .getGroup rqBad 1,
    .getGroup rq0 256, .resetLearned rqBad 1 1 1 1, .resetLearned rq0 256 1 1 1, .resetLearned rq0 1 256 1 1, .resetLearned rq0 1 1 65536 1,
    .resetLearned rq0 1 1 1 256, .clearShort rqBad 1 1, .clearShort rq0 256 1, .clearShort rq0 1 65536, .kernelInfo rqBad,
    .loadImage rqBad ball [] none, .loadImage rq0 bBad [] none, .exchange rqBad 1, .exchange rq0 256, .discard rqBad 1, .discard rq0 256,
    .readImage rqBad ball none, .readImage rq0 bBad none, .submit rqBad (List.replicate 1 (1, 1, 1, true)), .submit rq0 [],
    .submit rq0 (List.replicate 16 (1, 1, 1, true)), .submit rq0 [(1, 2147483648, 1, true)], .readSchedule rqBad 1 1, .readSchedule rq0 256 1,
    .readSchedule rq0 1 4294967296, .tenantRecord rqBad 1, .tenantRecord rq0 256, .bankRecord rqBad, .resume rqBad 1, .resume rq0 256,
    .ledgerAdjust rqBad 1 1, .ledgerAdjust rq0 256 1, .ledgerAdjust rq0 1 18446744073709551616, .setBinding rqBad 1 1 1 1 1 1 1 1,
    .setBinding rq0 256 1 1 1 1 1 1 1, .setBinding rq0 1 256 1 1 1 1 1 1, .setBinding rq0 1 1 256 1 1 1 1 1, .setBinding rq0 1 1 1 256 1 1 1 1,
    .setBinding rq0 1 1 1 1 (-2147483649) 1 1 1, .setBinding rq0 1 1 1 1 2147483648 1 1 1, .setBinding rq0 1 1 1 1 1 4294967296 1 1] : List Instr).all (fun i => !wfInstr i) = true := by decide +kernel
/-- One operand outside its range: the check refuses the command. -/
theorem test_wf_bad_13 : ([
    .setBinding rq0 1 1 1 1 1 1 (-2147483649) 1, .setBinding rq0 1 1 1 1 1 1 2147483648 1, .setBinding rq0 1 1 1 1 1 1 1 4294967296,
    .getBinding rqBad, .dispatchSetParam rqBad 1 1 1 1, .dispatchSetParam rq0 65536 1 1 1, .dispatchSetParam rq0 1 256 1 1,
    .dispatchSetParam rq0 1 1 65536 1, .dispatchSetParam rq0 1 1 1 (-9223372036854775809), .dispatchSetParam rq0 1 1 1 9223372036854775808,
    .dispatchGetParam rqBad 1 1 1, .dispatchGetParam rq0 65536 1 1, .dispatchGetParam rq0 1 256 1, .dispatchGetParam rq0 1 1 65536,
    .protRead rqBad 1 1, .protRead rq0 4294967296 1, .protRead rq0 1 65536, .protWrite rqBad 1 [], .protWrite rq0 4294967296 [],
    .protWrite rq0 1 (List.replicate 59 1), .protWrite rq0 1 (List.replicate 1 4294967296), .stringProt rqBad 1 1, .stringProt rq0 256 1,
    .stringProt rq0 1 65536, .clearTrip rqBad 1, .clearTrip rq0 65536, .clearString rqBad 1 1, .clearString rq0 256 1, .clearString rq0 1 65536,
    .weldAck rqBad 1, .weldAck rq0 65536, .mapAlarm rqBad 1 1 1 1 1, .mapAlarm rq0 256 1 1 1 1, .mapAlarm rq0 1 256 1 1 1, .mapAlarm rq0 1 1 256 1 1,
    .mapAlarm rq0 1 1 1 256 1, .mapAlarm rq0 1 1 1 1 65536, .protSetParam rqBad 1 1 1 1, .protSetParam rq0 65536 1 1 1, .protSetParam rq0 1 256 1 1,
    .protSetParam rq0 1 1 65536 1, .protSetParam rq0 1 1 1 (-9223372036854775809), .protSetParam rq0 1 1 1 9223372036854775808,
    .protGetParam rqBad 1 1 1, .protGetParam rq0 65536 1 1] : List Instr).all (fun i => !wfInstr i) = true := by decide +kernel
/-- One operand outside its range: the check refuses the command. -/
theorem test_wf_bad_14 : ([
    .protGetParam rq0 1 256 1, .protGetParam rq0 1 1 65536, .writeLimits rqBad 1 1 (List.replicate 20 1),
    .writeLimits rq0 256 1 (List.replicate 20 1), .writeLimits rq0 1 65536 (List.replicate 20 1), .writeLimits rq0 1 1 (List.replicate 19 1),
    .writeLimits rq0 1 1 (List.replicate 20 65536), .readLimits rqBad 1 1 1, .readLimits rq0 256 1 1, .readLimits rq0 1 65536 1,
    .readLimits rq0 1 1 256, .writeSeq rqBad 1 1 (List.replicate 4 1) [], .writeSeq rq0 256 1 (List.replicate 4 1) [],
    .writeSeq rq0 1 256 (List.replicate 4 1) [], .writeSeq rq0 1 1 (List.replicate 3 1) [], .writeSeq rq0 1 1 (List.replicate 4 256) [],
    .writeSeq rq0 1 1 (List.replicate 4 1) (List.replicate 15 [1]), .writeSeq rq0 1 1 (List.replicate 4 1) [[1]], .readSeq rqBad 1 1 1 1,
    .readSeq rq0 256 1 1 1, .readSeq rq0 1 256 1 1, .readSeq rq0 1 1 256 1, .readSeq rq0 1 1 1 256, .beamRead rqBad 1 1, .beamRead rq0 4294967296 1,
    .beamRead rq0 1 65536, .beamWrite rqBad 1 [], .beamWrite rq0 4294967296 [], .beamWrite rq0 1 (List.replicate 59 1),
    .beamWrite rq0 1 (List.replicate 1 4294967296), .setSweep rqBad 1, .setSweep rq0 4294967296, .beamTime rqBad, .ringStatus rqBad 1,
    .ringStatus rq0 256, .setRingState rqBad 1 1 1 [], .setRingState rq0 256 1 1 [], .setRingState rq0 1 256 1 [], .setRingState rq0 1 1 65535 [],
    .enumerate rqBad 1 1, .enumerate rq0 256 1, .enumerate rq0 1 65535, .calibrate rqBad 1 1 1, .calibrate rq0 256 1 1, .calibrate rq0 1 4294967296 1] : List Instr).all (fun i => !wfInstr i) = true := by decide +kernel
/-- One operand outside its range: the check refuses the command. -/
theorem test_wf_bad_15 : ([
    .calibrate rq0 1 1 4294967296, .nodeRead rqBad 1 1 1 1, .nodeRead rq0 256 1 1 1, .nodeRead rq0 1 65536 1 1, .nodeRead rq0 1 1 65536 1,
    .nodeRead rq0 1 1 1 65536, .nodeWrite rqBad 1 1 1 [], .nodeWrite rq0 256 1 1 [], .nodeWrite rq0 1 65536 1 [], .nodeWrite rq0 1 1 65536 [],
    .nodeWrite rq0 1 1 1 (List.replicate 233 1), .storeConfig rqBad 1 [], .storeConfig rq0 256 [], .readConfig rqBad ball none,
    .readConfig rq0 bBad none, .loopRead rqBad 1 1, .loopRead rq0 4294967296 1, .loopRead rq0 1 65536, .loopWrite rqBad 1 [],
    .loopWrite rq0 4294967296 [], .loopWrite rq0 1 (List.replicate 59 1), .loopWrite rq0 1 (List.replicate 1 4294967296), .axisTarget rqBad 1 1,
    .axisTarget rq0 256 1, .axisTarget rq0 1 (-2147483649), .axisTarget rq0 1 2147483648, .capture rqBad ball none, .capture rq0 bBad none,
    .loadRead rqBad 1 1 (List.replicate 24 (1, 1)) 1 1, .loadRead rq0 4294967296 1 (List.replicate 24 (1, 1)) 1 1,
    .loadRead rq0 1 65536 (List.replicate 24 (1, 1)) 1 1, .loadRead rq0 1 1 (List.replicate 23 (1, 1)) 1 1, .loadWrite rqBad 1 [],
    .loadWrite rq0 4294967296 [], .loadWrite rq0 1 (List.replicate 59 1), .loadWrite rq0 1 (List.replicate 1 4294967296), .setOutputs rqBad 1 1,
    .setOutputs rq0 4294967296 1, .setOutputs rq0 1 4294967296, .chStatus rqBad (List.replicate 24 (1, 1)) 1 1,
    .chStatus rq0 (List.replicate 23 (1, 1)) 1 1, .restart rqBad 1, .restart rq0 4294967296, .restartRecommand 24, .canRead rqBad 1 1] : List Instr).all (fun i => !wfInstr i) = true := by decide +kernel
/-- One operand outside its range: the check refuses the command. -/
theorem test_wf_bad_16 : ([
    .canRead rq0 4294967296 1, .canRead rq0 1 65536, .canWrite rqBad 1 [], .canWrite rq0 4294967296 [], .canWrite rq0 1 (List.replicate 59 1),
    .canWrite rq0 1 (List.replicate 1 4294967296), .canSend rqBad 1 1 1 [], .canSend rq0 256 1 1 [], .canSend rq0 1 8 1 [],
    .canSend rq0 1 1 4294967296 [], .canSend rq0 1 1 1 (List.replicate 233 1), .canStatus rqBad, .logState rqBad, .readLog rqBad ball [] none,
    .readLog rq0 bBad [] none, .readRecent rqBad 1 1 [], .readRecent rq0 4294967296 1 [], .readRecent rq0 1 65536 [], .setSeverity rqBad 1 1,
    .setSeverity rq0 256 1, .setSeverity rq0 1 256, .readCounters rqBad 1 1, .readCounters rq0 256 1, .readCounters rq0 1 65536, .updateState rqBad,
    .begin rqBad 1 1 1, .begin rq0 256 1 1, .begin rq0 1 4294967296 1, .begin rq0 1 1 4294967296, .writeBlock rqBad ball [] none,
    .writeBlock rq0 bBad [] none, .verify rqBad, .schedule rqBad 1, .schedule rq0 18446744073709551616, .cancel rqBad, .commit rqBad,
    .rollback rqBad 1, .rollback rq0 18446744073709551616, .nodeUpdate rqBad 1, .nodeUpdate rq0 256, .rodStatus rqBad 1 1, .rodStatus rq0 256 1,
    .rodStatus rq0 1 256, .schedStatus rqBad, .rodRelease rqBad 1] : List Instr).all (fun i => !wfInstr i) = true := by decide +kernel
/-- One operand outside its range: the check refuses the command. -/
theorem test_wf_bad_17 : ([
    .rodRelease rq0 256, .linkStatus rqBad, .echo rqBad [], .echo rq0 (List.replicate 241 1), .loopTick (List.replicate 7 1),
    .loopTick (List.replicate 8 2147483648), .loopEnable 32, .loopRestart 32, .supervisionFault 32, .captureArm 32, .captureComplete 32,
    .axisEdge 16 true true 1 1, .axisEdge 1 true true (-32769) 1, .axisEdge 1 true true 32768 1, .axisEdge 1 true true 1 (-32769),
    .axisEdge 1 true true 1 32768, .axisIndex 16, .axisWireFault 16 1 1, .axisWireFault 1 3 1, .axisAmplitudeFault 16 true, .axisStill 16,
    .faultev 16, .outputOpen 8 1, .inEdge 24 true, .inrushWindowEnd 22, .slewRampComplete 21 1 1, .slewRampComplete 24 1 1, .slewRampTimeout 21 1,
    .slewRampTimeout 24 1, .overcurrentLatch 24 1 1, .thermalSwitchOff 24 1, .thermalSwitchOff 1 (-32769), .thermalSwitchOff 1 32768,
    .thermalRestart 24 1, .thermalRestart 1 (-32769), .thermalRestart 1 32768, .openLoadJudgement 24 (List.replicate 100 1),
    .openLoadJudgement 1 (List.replicate 99 1), .vloadUnderVoltage (-32769) 1, .vloadUnderVoltage 32768 1, .vloadRestored (-32769) 1,
    .vloadRestored 32768 1, .loadDump (-32769), .loadDump 32768, .reverseSupply (-32769) 1] : List Instr).all (fun i => !wfInstr i) = true := by decide +kernel
/-- One operand outside its range: the check refuses the command. -/
theorem test_wf_bad_18 : ([
    .reverseSupply 32768 1, .canFrameReceived 8 true true true true 1 [], .canFrameReceived 1 true true true true 536870912 [],
    .canFrameReceived 1 false true true true 2048 [], .canFrameReceived 1 true true true true 1 (List.replicate 65 1), .pcsStatusFrame 16 1 1 1 1,
    .pcsStatusFrame 1 (-2147483649) 1 1 1, .pcsStatusFrame 1 2147483648 1 1 1, .pcsStatusFrame 1 1 65536 1 1, .pcsStatusFrame 1 1 1 256 1,
    .pcsStatusFrame 1 1 1 1 256, .pcsUnitStale 16, .alarmFrame 8 1 1 1, .alarmFrame 1 64 1 1, .alarmFrame 1 1 256 1, .alarmFrame 1 1 1 256,
    .alarmSourceLost 8 1, .alarmSourceLost 1 64, .canTxComplete 8 true 1, .canTxComplete 1 true 7, .busOffRecovery 8 1, .aloneProbe 8 1,
    .aloneProbe 1 7, .aloneLeft 8 true, .pop 8, .canTimingWrite 8, .canDisable 8, .flashBlockRetired 65536 1, .flashBlockRetired 1 65536,
    .mailboxOpen [(128, 1, [])], .ringRejoinConnect 128, .vanaRestored 1 1 [(128, 1, [])], .newFirmwareStart 65536 1 [],
    .newFirmwareStart 1 65536 [], .bootFail 3, .recoveryEntry 0, .recoveryEntry 4, .nodeHot 128 1 true, .nodeHot 1 0 true, .nodeHot 1 65535 true,
    .pcieLinkUp 3 1, .pcieLinkUp 1 0, .pcieLinkUp 1 5, .comparatorRearm 16, .ainBroken 8 1] : List Instr).all (fun i => !wfInstr i) = true := by decide +kernel
/-- One operand outside its range: the check refuses the command. -/
theorem test_wf_bad_19 : ([
    .canReceiveError 8 1 true, .canReceiveError 1 0 true, .canReceiveError 1 7 true, .inMinimumTimeEnd 24] : List Instr).all (fun i => !wfInstr i) = true := by decide +kernel

/-! ### Results from the specification -/

/-- Point addresses (00 R15). -/
theorem test_point_address : cellPoint 17 233 5 = 0x02201D25 := by decide
theorem test_point_fields : pointPort 0x02201D25 = 17 ∧ pointPos 0x02201D25 = 233 ∧ pointInput 0x02201D25 = 5 := by decide
theorem test_temp_point : pointTemp 0x82201D23 = true ∧ pointPort 0x82201D23 = 17 ∧ pointPos 0x82201D23 = 233 ∧
    pointInput 0x82201D23 = 3 := by decide
/-- The words of the worked kernel (05). -/
theorem test_kernel_words : [kM 0x20 1 15 0x20, kT 0x23 5 3 1 0, kR 0x15 0 0 0 0 0, kR 0x10 0 2 4 0 0, kR 0x14 6 0 0 0 11,
    kR 0x02 7 5 6 0 0, kM 0x21 8 15 0x140, kR 0x34 0 0 0 0 0] =
    [0x807C0020, 0x8D4C4000, 0x54000000, 0x40090000, 0x51800B00, 0x09D58000, 0x863C0140, 0xD0000000] := by decide
/-- Conversion to Q15 (05 R130). -/
theorem test_q15_exact : q15Of (33125 / 10000) 2 = 27136 := by decide +kernel
theorem test_q15_rounds : q15Of (31800 / 10000) 2 = 26051 := by decide +kernel
/-- Rounding half away from zero: words 5 and 8 of the worked kernel (05). -/
theorem test_rnd_halves : rnd 7680 10 = 8 ∧ rnd (-7680) 10 = -8 ∧ rnd 691200 11 = 338 ∧ rnd (-691200) 11 = -338 := by decide
/-- The fold at word 11 of the worked kernel (05 R107). -/
theorem test_fold : foldSig 0xFFFFFFFF 0xFFFFFFED = 0x1EDC6F52 := by decide
/-- Word 8 of the worked kernel, AEXT V6, A0, #11, in pass A. -/
theorem test_aext : (((got (execAext 3 0 6 0 11 ((rodAt 0x51800B00 false).modRod 3 fun r =>
    { r with ctx := { r.ctx with a := [(0, [691200])] } }))).rod 3).ctx.vc 6 0) = 338 := by decide +kernel
/-- The compensation of the calibrated ring, positions 1 and 640 (03 R72), and its skew figures (03 R75). -/
theorem test_compensation : compOf 30 325855 163215 163150 = (1999985, 1837105) ∧
    compOf 325855 30 163215 163150 = (1837040, 1999985) := by decide
theorem test_skew : skewFigure 163215 163150 163215 = 37 ∧ skewFigure 163215 163150 163295 = 77 := by decide
/-- The derating of the Cinder Lane string (07 R191). -/
theorem test_factor : factorOf (6000 - 5320) 1000 = 680 := by decide
/-- balance() on the raw duties, and after heat scaling (07 R197). -/
theorem test_balance_charge : (balancePlan (77 / 100) [(1, 198, true), (2, 128, true), (3, 115, false), (4, 96, false), (5, 67, false),
    (6, 48, false)]).map (fun x => x.2.1) = [198, 128, 88, 73, 51, 36] := by decide +kernel
theorem test_balance_discharge : (balancePlan (77 / 100) [(1, 137, true), (2, 89, true), (3, 61, false), (4, 50, false), (5, 35, false),
    (6, 25, false)]).map (fun x => x.2.1) = [134, 87, 61, 50, 35, 25] := by decide +kernel
/-- The droop of 100 MW per Hz at 49.800 Hz (09 R258). -/
theorem test_droop : Binding.termOf ⟨3, 0, 0, 0, 50000, 20, -100000, 20000000⟩ 49800 = 18000000 := by decide
/-- CRC-32C of the nine digits, the check value of the polynomial 0x1EDC6F41 (03). -/
theorem test_crc : crc32c [0x31, 0x32, 0x33, 0x34, 0x35, 0x36, 0x37, 0x38, 0x39] = 0xE3069283 := by decide +kernel
/-- No word spells a command: the table gives its rows no bits. -/
theorem test_no_word : decodeTableWord 32 0x51800B00 = none := rfl
/-- Reset: nothing waits and the module is in OFF with the ROM running. -/
theorem test_reset : State.reset.pending = [] ∧ State.reset.sys.mode = .off ∧ State.reset.sys.run = .rom := by decide
/-- A step on an empty queue is a tick of the clock. -/
theorem test_idle : (got (step up)).clock = up.clock + 1 := by decide +kernel
/-- SHA-384 and SHA-256 of the three letters abc (FIPS 180-4). -/
theorem test_sha384 : unle (sha384 [0x61, 0x62, 0x63]).reverse =
    0xcb00753f45a35e8bb5a03d699ac65007272c32ab0eded1631a8b605a43ff5bed8086072ba1e7cc2358baeca134c825a7 := by decide +kernel
theorem test_sha256 : unle (sha256 [0x61, 0x62, 0x63]).reverse =
    0xba7816bf8f01cfea414140de5dae2223b00361a396177a9cb410ff61f20015ad := by decide +kernel
/-- A READ of four bytes at 0x0020 with RESYNC, to position 5 (03 R65, R66); read back from its bytes, and discarded where its CRC
fails or a reserved flag is set (03 R67). -/
def readFrame : LinkFrame := sentFrame 5 7 true (.cmd (.read 0x20 4))
theorem test_frame_bytes : readFrame.bytes.take 14 = [0x20, 0x01, 0x05, 0, 0, 0, 0x07, 0, 0x04, 0, 0x20, 0, 0x04, 0] := by decide +kernel
theorem test_frame_read : parseFrame readFrame.bytes = some readFrame := by decide +kernel
theorem test_frame_crc : parseFrame (readFrame.bytes.take 14 ++ [0, 0, 0, 0]) = none := by decide +kernel
theorem test_frame_reserved : parseFrame (withCrc [0x20, 0x11, 0x05, 0, 0, 0, 0x07, 0, 0x04, 0, 0x20, 0, 0x04, 0]) = none := by decide +kernel

/-! ### Hypotheses that can be met -/

theorem witness_VectorInstructionsCompute_issued :
    ∀ w ∈ ([
      (0, (1 + 1)), (kR 0x01 1 2 3 0 0, (1 + 1)), (kR 0x02 1 2 3 0 0, (1 + 1)), (kR 0x03 1 2 0 0 0, (1 + 1)), (kR 0x04 1 2 0 0 0, (1 + 1)),
      (kR 0x05 1 2 3 0 0, (1 + 1)), (kR 0x06 1 2 3 0 0, (1 + 1)), (kR 0x07 1 2 0 0 0, (1 + 1)), (kR 0x08 1 2 3 0 0, (1 + 1)),
      (kR 0x09 1 2 0 0 5, (1 + 1)), (kR 0x0A 1 2 0 0 5, (1 + 1)), (kR 0x0B 1 2 3 0 0, (1 + 1)), (kR 0x0C 0 2 3 0 0, (1 + 1)),
      (kR 0x0D 0 2 3 0 0, (1 + 1))] : List (Nat × Nat)), Issued 3 w.1 w.2 always :=
  issued_all _ (by decide +kernel)
theorem witness_VectorInstructionsCompute_conditions :
    Issued 3 (kR 0x0E 1 2 3 0 0) (8 + 1) (fun _ c => ∀ i < min c.n 16, c.vc 3 i ≠ 0) ∧
    Issued 3 (kR 0x0F 1 2 10 0 0) (1 + 1) (fun _ c => (c.sx_ 10).toNat ≤ 15) :=
  ⟨issued (rodAt (kR 0x0E 1 2 3 0 0) false) _ _ _ _ (by decide +kernel) (by decide +kernel),
    issued (rodAt (kR 0x0F 1 2 10 0 0) false) _ _ _ _ (by decide +kernel) (by decide +kernel)⟩
theorem witness_AccumulatorsAndScalarsCompute_issued :
    ∀ w ∈ ([
      (kR 0x10 0 2 3 1 0, (1 + 1)), (kR 0x11 0 2 3 1 0, (1 + 1)), (kR 0x12 0 2 0 1 5, (1 + 1)), (kR 0x13 0 2 0 1 5, (1 + 1)),
      (kR 0x14 1 0 0 1 5, (1 + 1)), (kR 0x15 0 0 0 1 0, (1 + 1)), (kR 0x16 1 0 0 1 0, (2 + 1)), (kR 0x17 1 2 0 0 0, (2 + 1)),
      (kR 0x18 1 2 0 0 5, (1 + 1)), (kR 0x19 1 2 3 0 0, (1 + 1)), (kR 0x1A 1 2 3 0 0, (1 + 1)), (kR 0x1B 9 10 9 0 0, (1 + 1)),
      (kI 0x1C 1 (-2097152), (1 + 1)), (kI 0x1D 1 65535, (1 + 1)), (kR 0x1E 0 2 3 0 0, (1 + 1))] : List (Nat × Nat)), Issued 3 w.1 w.2 always :=
  issued_all _ (by decide +kernel)
theorem witness_LoadsStoresTablesAndMasksCompute_issued :
    ∀ w ∈ ([
      (kI 0x24 0 65535, (1 + 1)), (kR 0x25 9 0 0 0 0, (1 + 1)), (kR 0x26 0 10 0 0 0, (1 + 1)), (kR 0x27 0 10 0 0 0, (1 + 1))] : List (Nat × Nat)), Issued 3 w.1 w.2 always :=
  issued_all _ (by decide +kernel)
theorem witness_LoadsStoresTablesAndMasksCompute_conditions :
    Issued 3 (kM 0x20 1 9 64) (1 + 1) (fun _ c => (c.sx_ 9).toNat + 64 % 262144 ≤ 0x1FFFF ∧ 32 ∣ (c.sx_ 9).toNat + 64 % 262144) ∧
    Issued 3 (kT 0x22 1 2 0 0) (4 + 1) (fun im _ => (im.table? (0 % 64)).isSome = true) ∧
    Issued 3 (kT 0x23 1 2 3 1) (6 + 1) (fun im _ => (im.table? (1 % 64)).isSome = true) ∧
    Issued 3 (kM 0x36 10 9 64) (1 + 1) (fun im c => im.selfWrite = true ∧ ∃ a, (c.sx_ 9).toNat + 64 % 262144 = 4 * a ∧ a < im.code.length ∧ (c.overlay.length < 64 ∨ (tfind? c.overlay a).isSome = true)) :=
  ⟨issued (rodAt (kM 0x20 1 9 64) false) _ _ _ _ (by decide +kernel) (by decide +kernel),
    issued (rodAt (kT 0x22 1 2 0 0) false) _ _ _ _ (by decide +kernel) (by decide +kernel),
    issued (rodAt (kT 0x23 1 2 3 1) false) _ _ _ _ (by decide +kernel) (by decide +kernel),
    issued (rodAt (kM 0x36 10 9 64) false) _ _ _ _ (by decide +kernel) (by exact ⟨by decide +kernel, 32, by decide +kernel⟩)⟩
theorem witness_JumpsAndPassEnds_issued :
    ∀ w ∈ ([
      (kR 0x35 0 0 0 0 0, (3 + 1))] : List (Nat × Nat)), Issued 3 w.1 w.2 always :=
  issued_all _ (by decide +kernel)
theorem witness_JumpsAndPassEnds_conditions :
    Issued 3 (kB 0x32 0 0 64) (3 + 1) (fun im c => c.stack.length < 8 ∧ 0 ≤ (c.pc : Int) + 64 ∧ (c.pc : Int) + 64 < im.code.length) ∧
    Issued 3 (kR 0x33 0 0 0 0 0) (3 + 1) (fun im c => c.stack.head? = some 4 ∧ 4 < im.code.length) ∧
    Issued 3 (kR 0x34 0 0 0 0 0) (1 + 1) (fun im c => c.passB = false → ((im.entry? c.entry).map (fun e => e.2.1)).getD 0 < im.code.length) :=
  ⟨issued (rodAt (kB 0x32 0 0 64) false) _ _ _ _ (by decide +kernel) (by decide +kernel),
    issued (rodAt (kR 0x33 0 0 0 0 0) false) _ _ _ _ (by decide +kernel) (by decide +kernel),
    issued (rodAt (kR 0x34 0 0 0 0 0) false) _ _ _ _ (by decide +kernel) (by decide +kernel)⟩
theorem witness_KernelFaultsEndThePass_conditions :
    Issued 3 (kR 0x0E 1 2 3 0 0) (8 + 1) (fun _ c => ∃ i < 16, i < c.n ∧ c.vc 3 i = 0) ∧
    Issued 3 (kR 0x0F 1 2 10 0 0) (1 + 1) (fun _ c => 15 < (c.sx_ 10).toNat) ∧
    Issued 3 (kM 0x20 1 9 64) (1 + 1) (fun _ c => 0x1FFFF < c.addr 9 64 ∨ ¬ 32 ∣ c.addr 9 64) ∧
    Issued 3 (kM 0x21 1 9 64) (1 + 1) (fun _ c => 0x1FFFF < c.addr 9 64 ∨ ¬ 32 ∣ c.addr 9 64) ∧
    Issued 3 (kM 0x36 10 9 64) (1 + 1) (fun im c => im.selfWrite = false ∨ ¬ 4 ∣ c.addr 9 64 ∨ im.code.length * 4 ≤ c.addr 9 64 ∨ (64 ≤ c.overlay.length ∧ tfind? c.overlay (c.addr 9 64 / 4) = none)) ∧
    Issued 3 (kB 0x32 0 0 64) (3 + 1) (fun _ c => 8 ≤ c.stack.length) ∧
    Issued 3 (kR 0x33 0 0 0 0 0) (3 + 1) (fun _ c => c.stack = []) ∧
    Issued 3 (kB 0x30 0 0 100) (1 + 1) (fun im c => (c.pc : Int) + 100 < 0 ∨ (im.code.length : Int) ≤ (c.pc : Int) + 100) :=
  ⟨issued ((rodAt (kR 0x0E 1 2 3 0 0) false).modRod 3 fun r => { r with ctx := (fun c => { c with v := [(2, [1])] }) r.ctx }) _ _ _ _ (by decide +kernel) (by decide +kernel),
    issued ((rodAt (kR 0x0F 1 2 10 0 0) false).modRod 3 fun r => { r with ctx := (fun c => { c with si := [(10, 16)] }) r.ctx }) _ _ _ _ (by decide +kernel) (by decide +kernel),
    issued ((rodAt (kM 0x20 1 9 64) false).modRod 3 fun r => { r with ctx := (fun c => { c with si := [(9, 0x1FFE0)] }) r.ctx }) _ _ _ _ (by decide +kernel) (by decide +kernel),
    issued ((rodAt (kM 0x21 1 9 64) false).modRod 3 fun r => { r with ctx := (fun c => { c with si := [(9, 1)] }) r.ctx }) _ _ _ _ (by decide +kernel) (by decide +kernel),
    issued ((rodAt (kM 0x36 10 9 64) false).onSched fun q => { q with service := q.service.map (fun im => { im with selfWrite := false }) }) _ _ _ _ (by decide +kernel) (by decide +kernel),
    issued ((rodAt (kB 0x32 0 0 64) false).modRod 3 fun r => { r with ctx := (fun c => { c with stack := [1, 2, 3, 4, 5, 6, 7, 8] }) r.ctx }) _ _ _ _ (by decide +kernel) (by decide +kernel),
    issued ((rodAt (kR 0x33 0 0 0 0 0) false).modRod 3 fun r => { r with ctx := (fun c => { c with stack := [] }) r.ctx }) _ _ _ _ (by decide +kernel) (by decide +kernel),
    issued (rodAt (kB 0x30 0 0 100) false) _ _ _ _ (by decide +kernel) (by decide +kernel)⟩
theorem witness_IdleStepIsOneTick :
    ∃ (s : State), s.pending = [] :=
  ⟨up, by decide +kernel⟩
theorem witness_StepKeepsInvariant :
    ∃ (s : State) (t : State), s.Inv ∧ step s = .next t :=
  ⟨{ up with pending := [.heartbeat] }, got (step { up with pending := [.heartbeat] }), by and_intros <;> first | (unfold State.Inv; decide +kernel) | exact next_of _ (by decide +kernel) | decide +kernel⟩
theorem witness_CommandsChangeOnlyTheirParts :
    ∃ (c : Instr) (s : State) (t : State), exec c s = .next t :=
  ⟨.heartbeat, up, got (exec .heartbeat up), next_of _ (by decide +kernel)⟩
theorem witness_RequestsAreJudgedByTenantThenMode :
    (∃ (c : Instr) (k : Column) (s : State), column? c = some k ∧ s.sys.shut = false ∧ s.sys.run = .running ∧ s.sys.holdup = false ∧ s.mayStart k.rq = true ∧ (k.rq.tenant = 0 ∨ k.op / 256 < 3 ∨ ((s.tenant k.rq.tenant).exists_ = true ∧ (s.tenant k.rq.tenant).enabled = true)) ∧ k.who.admits k.rq.tenant = false) ∧
    (∃ (c : Instr) (k : Column) (s : State), column? c = some k ∧ s.sys.shut = false ∧ s.sys.run = .running ∧ s.sys.holdup = false ∧ s.mayStart k.rq = true ∧ (k.rq.tenant = 0 ∨ k.op / 256 < 3 ∨ ((s.tenant k.rq.tenant).exists_ = true ∧ (s.tenant k.rq.tenant).enabled = true)) ∧ k.who.admits k.rq.tenant = true ∧ s.sys.mode ∉ k.modes) :=
  ⟨⟨.connect { rq0 with tenant := 3 }, ⟨{ rq0 with tenant := 3 }, 0x0103, .zero, [.standby]⟩, { up with disp := { up.disp with tenants := [(3, { Tenant.reset with exists_ := true, enabled := true })] } }, by decide +kernel⟩,
    ⟨.connect rq0, ⟨rq0, 0x0103, .zero, [.standby]⟩, upIn .commission, by decide +kernel⟩⟩
theorem witness_RestartingAnswersEveryRequest :
    ∃ (c : Instr) (k : Column) (s : State), column? c = some k ∧ s.sys.shut = false ∧ s.sys.run = .restarting ∧ s.sys.holdup = false ∧ s.mayStart k.rq = true :=
  ⟨.connect rq0, ⟨rq0, 0x0103, .zero, [.standby]⟩, { up with sys := { up.sys with run := .restarting } }, by decide +kernel⟩
theorem witness_RespondingTouchesOnlyThePage :
    (∃ (s : State) (_ : Resp), s.tablesOk = true ∧ s.sys.d3 = false) ∧
    (∃ (s : State) (r : Resp), ∃ k, s.tablesOk = true ∧ s.sys.d3 = false ∧ k ≠ r.rq.tenant) :=
  ⟨⟨up, answer rq0 0x0101 okStatus false, by decide +kernel⟩,
    ⟨up, answer rq0 0x0101 okStatus false, 5, by decide +kernel⟩⟩
theorem witness_LockAndMainsLoss :
    (∃ (s : State), (s.beam.src = 1 ∨ s.beam.src = 2) ∧ s.beam.lock = false ∧ s.beam.qualify ≤ s.beam.validRun) ∧
    (∃ (s : State), s.beam.lost = false ∧ s.beam.standstillMax ≤ s.beam.standstill) ∧
    (∃ (s : State) (a : Nat), s.beam.src = 2 ∧ s.beam.bzxLast = some a ∧ a + 13333334 ≤ s.clock) ∧
    (∃ (s : State), s.beam.slew ≠ 0 ∧ s.beam.dist = 0) :=
  ⟨⟨up.onBeam fun b => { b.putSt 2 true with ctl := b.ctl ||| 1, validRun := 5 }, by decide +kernel⟩,
    ⟨up.onBeam fun b => { b with status := 0, standstill := 3 }, by decide +kernel⟩,
    ⟨{ (up.onBeam fun b => { b with ctl := b.ctl ||| 2, bzxLast := some 0 }) with clock := 13333334 }, 0, by decide +kernel⟩,
    ⟨up.onBeam fun b => { b with slew := 1 }, by decide +kernel⟩⟩
theorem witness_TrackingAndSourceChange :
    (∃ (_ : Nat) (_ : Nat) (_ : Nat) (_ : Nat) (_ : Bool) (s : State), s.beam.src = 1 ∧ s.beam.refGain = 1) ∧
    (∃ (rising : Bool) (held : Nat) (s : State), s.power.vioOk = true ∧ s.beam.src = 2 ∧ wfld s.beam.pulse 23 16 * 1000 ≤ held ∧ s.beam.bzxPin ≠ rising ∧ s.beam.bzxLevel = some (!rising)) ∧
    (∃ (rising : Bool) (held : Nat) (s : State), s.power.vioOk = true ∧ s.beam.src = 2 ∧ wfld s.beam.pulse 23 16 * 1000 ≤ held ∧ s.beam.bzxPin ≠ rising ∧ s.beam.bzxLevel = none ∧ s.clock < s.beam.bzxSince + 200 * wfld s.beam.pulse 23 16) ∧
    (∃ (src : Nat) (s : State), src < 3 ∧ s.beam.src ≠ src) :=
  ⟨⟨8000, 3276800, 5, 5, false, up.onBeam fun b => { b with ctl := b.ctl ||| 1 }, by decide +kernel⟩,
    ⟨true, 2000, up.onBeam fun b => { b with ctl := b.ctl ||| 2, bzxLevel := some false }, by decide +kernel⟩,
    ⟨true, 255000, up.onBeam fun b => { b with ctl := b.ctl ||| 2, pulse := b.pulse ||| 0xFF0000 }, by decide +kernel⟩,
    ⟨2, up, by decide +kernel⟩⟩
theorem witness_CycleTimeAndSettling :
    (∃ (s : State), 2 ^ 48 ≤ s.beam.frac.toNat + s.beam.exposedStep ∧ s.beam.zeroAt ≠ some s.clock) ∧
    (∃ (s : State), (s.beam.frac.toNat + s.beam.exposedStep < 2 ^ 48 ∨ s.beam.zeroAt = some s.clock)) ∧
    (∃ (a : Nat) (s : State), s.beam.settleAt = some a ∧ s.clock < a + 1920) ∧
    (∃ (a : Nat) (s : State), bit s.beam.status 6 = true ∧ s.beam.settleAt = some a ∧ a + 1920 ≤ s.clock) ∧
    (∃ (input : Nat) (value : Int) (s : State), s.converted input = true ∧ s.beyondRange input value = true) ∧
    (∃ (input : Nat) (heldMs : Nat) (s : State), input ∈ s.beam.overRange ∧ 20 ≤ heldMs) :=
  ⟨⟨{ (up.onBeam fun b => { b with frac := BitVec.ofNat 48 (2 ^ 48 - 1), trackFreq := 3276800 }) with clock := 5 }, by decide +kernel⟩,
    ⟨up, by decide +kernel⟩,
    ⟨0, up.onBeam fun b => { b.putSt 6 true with settleAt := some 0 }, by decide +kernel⟩,
    ⟨0, late (up.onBeam fun b => { b.putSt 6 true with settleAt := some 0 }), by decide +kernel⟩,
    ⟨2, 10501, up, by decide +kernel⟩,
    ⟨2, 20, up.onBeam fun b => { b with overRange := [2] }, by decide +kernel⟩⟩
theorem witness_MarkUnitsRunAndNotify :
    (∃ (n : Nat) (s : State), s.tablesOk = true ∧ n < 15 ∧ (s.mark n).step ≠ 0 ∧ (s.mark n).en = false ∧ (n < 4 ∨ (s.mark n).subdiv.toNat * s.beam.nominalFreq ≤ 100 * (s.mark n).step.toNat)) ∧
    (∃ (n : Nat) (s : State), n < 15 ∧ ((s.mark n).step = 0 ∨ (s.mark n).en = true ∨ (4 ≤ n ∧ 100 * (s.mark n).step.toNat < (s.mark n).subdiv.toNat * s.beam.nominalFreq))) ∧
    (∃ (s : State), s.tablesOk = true) ∧
    (∃ (n : Nat) (s : State), s.tablesOk = true ∧ 4 ≤ n ∧ n ≤ 14 ∧ s.markDue n = true ∧ (s.page 0).notes.length < 256) :=
  ⟨⟨14, up.modMark 14 fun m => { m with step := 131072, subdiv := 1 }, by decide +kernel⟩,
    ⟨14, up, by decide +kernel⟩,
    ⟨up, by decide +kernel⟩,
    ⟨4, up.modMark 4 fun _ => dueMark, by decide +kernel⟩⟩
theorem witness_SweepsAreLaunchedSampledOrSkipped :
    (∃ (s : State), s.launchDue = true ∧ s.beam.launchOwed = false ∧ s.tooSoon = true) ∧
    (∃ (s : State), s.tablesOk = true ∧ s.launchDue = true ∧ s.beam.launchOwed = false ∧ s.tooSoon = false) ∧
    (∃ (s : State), s.tablesOk = true ∧ s.markDue 0 = true ∧ s.beam.sweepConf = 0) :=
  ⟨⟨sweeping.onBeam fun b => { b with lastSweep := some 0 }, by decide +kernel⟩,
    ⟨sweeping, by decide +kernel⟩,
    ⟨sweeping, by decide +kernel⟩⟩
theorem witness_LinkLocksBreaksAndRejoins :
    (∃ (_ : Nat) (place : Nat) (_ : Nat) (_ : Nat) (_ : Bool) (s : State), s.tablesOk = true ∧ 1 ≤ place) ∧
    (∃ (_ : Nat) (_ : Bool) (s : State), s.tablesOk = true) ∧
    (∃ (_ : Nat) (place : Nat) (invalid : Nat) (quiet : Nat) (_ : Bool) (s : State), s.tablesOk = true ∧ 1 ≤ place ∧ (4 ≤ invalid ∨ 1000 ≤ quiet)) ∧
    (∃ (_ : Nat) (place : Nat) (_ : Bool) (s : State), s.tablesOk = true ∧ 1 ≤ place) ∧
    (∃ (port : Nat) (_ : Bool) (s : State), s.tablesOk = true ∧ (s.ring port).split = false) ∧
    (∃ (port : Nat) (s : State), s.tablesOk = true ∧ (s.ring port).split = true ∧ (s.ring port).healed = true ∧ (s.ring port).collecting = false ∧ (∀ i ∈ s.places port, (s.node (nodeKey port i)).wrapped = true → (s.node (nodeKey port i)).sound = true)) :=
  ⟨⟨5, 1, 1024, 8, true, nd fun n => n, by decide +kernel⟩,
    ⟨5, true, up, by decide +kernel⟩,
    ⟨5, 1, 4, 0, true, nd fun n => { n with link := 1 }, by decide +kernel⟩,
    ⟨5, 1, true, nd fun n => { n with link := 3 }, by decide +kernel⟩,
    ⟨5, true, up, by decide +kernel⟩,
    ⟨5, (nd fun n => { n with link := 7 }).modRing 5 fun r => { r with split := true, healed := true, nodes := 1 }, by decide +kernel⟩⟩
theorem witness_RingsAreEnumeratedAndSurveyed :
    (∃ (port : Nat) (count : Nat) (s : State), s.tablesOk = true ∧ count < 65535 ∧ (s.ring port).state = .service ∧ (∀ i, 1 ≤ i → i ≤ count → (s.node (nodeKey port i)).pos = 0)) ∧
    (∃ (port : Nat) (_ : Nat) (s : State) (j : Nat), s.tablesOk = true ∧ (s.ring port).state = .service ∧ (s.node j).pos ≠ 0) ∧
    (∃ (port : Nat) (_ : Nat) (s : State), s.tablesOk = true ∧ (s.ring port).state = .service) ∧
    (∃ (port : Nat) (_ : Nat) (pos : Nat) (_ : Bool) (s : State), s.tablesOk = true ∧ (s.ring port).state = .service ∧ pos ≠ 0) ∧
    (∃ (port : Nat) (pos : Nat) (_ : Nat) (endB : Bool) (s : State), s.tablesOk = true ∧ (pos, endB) ∈ (s.ring port).echoOut ∧ s.analogue = true) ∧
    (∃ (port : Nat) (count : Nat) (s : State), s.tablesOk = true ∧ (s.ring port).state ≠ .isolated ∧ 1 ≤ count ∧ (∀ i, 1 ≤ i → i ≤ count → (s.node (nodeKey port i)).pos < 0xFFFF)) :=
  ⟨⟨5, 1, rg fun r => { r with state := .service }, by and_intros <;> first | exact fun i h1 h2 => by cases Nat.le_antisymm h2 h1; decide +kernel | decide +kernel⟩,
    ⟨5, 2, (nd fun n => { n with pos := 9 }).modRing 5 fun r => { r with state := .service }, nodeKey 5 1, by decide +kernel⟩,
    ⟨5, 1, (nd fun n => { n with pos := 9 }).modRing 5 fun r => { r with state := .service }, by decide +kernel⟩,
    ⟨5, 1, 9, true, (nd fun n => { n with pos := 9 }).modRing 5 fun r => { r with state := .service }, by decide +kernel⟩,
    ⟨5, 9, 400, false, rg fun r => { r with state := .service, echoOut := [(9, false)] }, by decide +kernel⟩,
    ⟨5, 1, (nd fun n => { n with pos := 9 }).modRing 5 fun r => { r with state := .service }, by and_intros <;> first | exact fun i h1 h2 => by cases Nat.le_antisymm h2 h1; decide +kernel | decide +kernel⟩⟩
theorem witness_NodesSampleCollectAndLease :
    (∃ (port : Nat) (t0 : Nat) (s : State), s.tablesOk = true ∧ port ∈ s.sweptPorts ∧ s.beam.lastSweep = some t0 ∧ t0 + 30000 ≤ s.clock ∧ (s.ring port).gen ≠ s.beam.sweepGen) ∧
    (∃ (port : Nat) (place : Nat) (b : Block) (s : State), s.tablesOk = true ∧ (s.ring port).state = .active ∧ (s.ring port).block = some b ∧ (s.node (nodeKey port place)).lastGen ≠ some b.gen) ∧
    (∃ (port : Nat) (place : Nat) (s : State), s.tablesOk = true ∧ (s.node (nodeKey port place)).lease = 0 ∧ (s.node (nodeKey port place)).leaseLen ≠ 0) ∧
    (∃ (port : Nat) (place : Nat) (s : State), s.tablesOk = true ∧ (s.node (nodeKey port place)).lease ≠ 0 ∧ (s.node (nodeKey port place)).lastCollect + (s.node (nodeKey port place)).leaseLen * (s.node (nodeKey port place)).sweepIvl * 300 ≤ s.clock) ∧
    (∃ (port : Nat) (_ : Nat) (_ : Nat) (_ : Bool) (s : State), s.tablesOk = true ∧ (s.ring port).state = .active) ∧
    (∃ (port : Nat) (place : Nat) (_ : Nat) (_ : Nat) (_ : Nat) (_ : Nat) (a : Nat) (_ : List Nat) (_ : List Nat) (fwd : Bool) (_ : Bool) (_ : Bool) (s : State), s.tablesOk = true ∧ (s.node (nodeKey port place)).sampleDue = some (fwd, a) ∧ (s.clock - a) * 5 < (if fwd then (s.node (nodeKey port place)).compA else (s.node (nodeKey port place)).compB)) ∧
    (∃ (port : Nat) (place : Nat) (_ : Nat) (_ : Nat) (_ : Nat) (_ : Nat) (a : Nat) (_ : List Nat) (_ : List Nat) (fwd : Bool) (_ : Bool) (_ : Bool) (s : State), s.tablesOk = true ∧ (s.node (nodeKey port place)).sampleDue = some (fwd, a) ∧ a * 5 + (if fwd then (s.node (nodeKey port place)).compA else (s.node (nodeKey port place)).compB) ≤ s.clock * 5) ∧
    (∃ (port : Nat) (place : Nat) (tag : Nat) (_ : Nat) (_ : Nat) (_ : Nat) (_ : Nat) (_ : List Nat) (_ : List Nat) (_ : Bool) (_ : Bool) (s : State), s.tablesOk = true ∧ (s.node (nodeKey port place)).tag ≠ some tag ∧ (∀ a, (s.node (nodeKey port place)).lastSample = some a → a + 200 * (s.node (nodeKey port place)).sweepIvl ≤ s.clock)) :=
  ⟨⟨5, 0, { (sweeping.onBeam fun b => { b with lastSweep := some 0, sweepGen := 1 }) with clock := 30000 }, by decide +kernel⟩,
    ⟨5, 1, blk, (nd fun n => { n with lease := 1, leaseLen := 8, ready := true }).modRing 5 fun r => { r with state := .active, block := some blk }, by decide +kernel⟩,
    ⟨5, 1, nd fun n => { n with leaseLen := 8 }, by decide +kernel⟩,
    ⟨5, 1, { (nd fun n => { n with lease := 8, leaseLen := 8, sweepIvl := 1 }) with clock := 2400 }, by decide +kernel⟩,
    ⟨5, 1, 77, true, nda fun n => { n with pos := 1 }, by decide +kernel⟩,
    ⟨5, 1, 500, 250, 10, 0, 0, [5, 6], [7], true, true, true, nd fun n => { n with sampleDue := some (true, 0), compA := 1, cellEn := 2 }, by decide +kernel⟩,
    ⟨5, 1, 500, 250, 10, 0, 0, [5, 6], [7], true, true, true, nd fun n => { n with sampleDue := some (true, 0), cellEn := 2, tempEn := 1, nextDuty := some ([1], 1) }, by decide +kernel⟩,
    ⟨5, 1, 77, 500, 250, 10, 0, [5, 6], [7], true, true, late (nd fun n => { n with cellEn := 2, lastSample := some 0, sweepIvl := 100 }), by decide +kernel⟩⟩
theorem witness_RecordsArriveOrGoMissing :
    (∃ (port : Nat) (place : Nat) (bytes : List Byte) (s : State), s.tablesOk = true ∧ s.analogue = true ∧ (s.ring port).collecting = true ∧ recordGood bytes = true ∧ rdle bytes 0 2 = (s.node (nodeKey port place)).pos ∧ rdle bytes 0 2 ∉ (s.ring port).arrived ∧ (s.ring port).config.any (fun n => decide (n.pos = rdle bytes 0 2)) = true) ∧
    (∃ (port : Nat) (place : Nat) (bytes : List Byte) (s : State), (recordGood bytes = false ∨ rdle bytes 0 2 ≠ (s.node (nodeKey port place)).pos)) ∧
    (∃ (port : Nat) (_ : Nat) (s : State), s.tablesOk = true ∧ (s.ring port).ends = [false] ∧ (s.ring port).split = false ∧ (∀ n ∈ (s.ring port).config, n.pos ∈ (s.ring port).arrived)) ∧
    (∃ (port : Nat) (_ : Nat) (n : NodeId) (s : State), s.tablesOk = true ∧ (s.ring port).ends = [false] ∧ (s.ring port).config = [n] ∧ n.pos ∉ (s.ring port).arrived ∧ (s.ring port).tripped = false ∧ s.power.vanaLost = false ∧ port ∉ s.power.recheck) ∧
    (∃ (port : Nat) (_ : Nat) (s : State), s.tablesOk = true ∧ (s.ring port).ends = [false] ∧ (s.ring port).split = false ∧ (∀ n ∈ (s.ring port).config, n.pos ∈ (s.ring port).arrived)) ∧
    (∃ (port : Nat) (s : State), s.tablesOk = true ∧ 10 ≤ (s.ring port).skewRun ∧ (s.ring port).skewLimit = false) :=
  ⟨⟨5, 1, rec1, (nd fun n => { n with pos := 1 }).modRing 5 fun r => { r with state := .active, collecting := true, config := [id1] }, by decide +kernel⟩,
    ⟨5, 1, [1], up, by decide +kernel⟩,
    ⟨5, 300, (col fun r => { r with arrived := [1] }), by decide +kernel⟩,
    ⟨5, 300, ⟨1, 1, 0, 3, 9⟩, (col id), by decide +kernel⟩,
    ⟨5, 300, (col fun r => { r with arrived := [1] }), by decide +kernel⟩,
    ⟨5, rg fun r => { r with skewRun := 10 }, by decide +kernel⟩⟩
theorem witness_NodesGuardTheirOutputs :
    (∃ (s : State), s.tablesOk = true ∧ s.guard.guardOk = true ∧ s.portsUp = true) ∧
    (∃ (port : Nat) (place : Nat) (s : State), s.tablesOk = true ∧ (s.ring port).state ≠ .isolated ∧ (s.node (nodeKey port place)).type = 2) ∧
    (∃ (port : Nat) (place : Nat) (s : State) (raw : List Byte), s.tablesOk = true ∧ (s.ring port).state ≠ .isolated ∧ (s.node (nodeKey port place)).type = 2 ∧ parseFrame raw = none) ∧
    (∃ (port : Nat) (place : Nat) (s : State), s.tablesOk = true ∧ (s.node (nodeKey port place)).type = 2 ∧ (s.node (nodeKey port place)).wdSince + (s.node (nodeKey port place)).switchWd * 200000 ≤ s.clock) ∧
    (∃ (_ : Nat) (_ : Nat) (_ : Bool) (s : State), s.tablesOk = true) ∧
    (∃ (port : Nat) (place : Nat) (id : Nat) (scope : Nat) (target : Nat) (cause : Nat) (s : State), s.tablesOk = true ∧ (s.ring port).tripBody = some (id, scope, target, cause) ∧ id < 65536 ∧ scope < 256 ∧ target < 65536 ∧ cause < 65536 ∧ (∀ i a, (s.node (nodeKey port place)).lastTrip = some (i, a) → i ≠ id ∨ a + 200000 ≤ s.clock)) ∧
    (∃ (port : Nat) (place : Nat) (id : Nat) (scope : Nat) (target : Nat) (cause : Nat) (s : State) (a : Nat), s.tablesOk = true ∧ (s.ring port).tripBody = some (id, scope, target, cause) ∧ id < 65536 ∧ scope < 256 ∧ target < 65536 ∧ cause < 65536 ∧ (s.node (nodeKey port place)).lastTrip = some (id, a) ∧ s.clock < a + 200000) ∧
    (∃ (port : Nat) (place : Nat) (id : Nat) (scope : Nat) (target : Nat) (cause : Nat) (s : State) (raw : List Byte), s.tablesOk = true ∧ (s.ring port).tripBody = some (id, scope, target, cause) ∧ id < 65536 ∧ scope < 256 ∧ target < 65536 ∧ cause < 65536 ∧ crcGood 8 raw = false ∧ (s.node (nodeKey port place)).lastTrip = none) ∧
    (∃ (port : Nat) (place : Nat) (a : Nat) (s : State), s.tablesOk = true ∧ (s.node (nodeKey port place)).tripSeen = some a ∧ a + 2000 ≤ s.clock) ∧
    (∃ (_ : Nat) (_ : Nat) (_ : Bool) (s : State), s.tablesOk = true) :=
  ⟨⟨up.onGuard fun g => { g with guardOk := true }, by decide +kernel⟩,
    ⟨5, 1, nda fun n => { n with type := 2 }, by decide +kernel⟩,
    ⟨5, 1, nda (fun n => { n with type := 2 }), ([1] : List Byte), by decide +kernel⟩,
    ⟨5, 1, { (nd fun n => { n with type := 2, out := 3, switchWd := 1 }) with clock := 200000 }, by decide +kernel⟩,
    ⟨5, 1, true, nd fun n => { n with pos := 1, duty := [1], usync := true }, by decide +kernel⟩,
    ⟨5, 1, 3, 1, 0xFFFF, 0x0601, { (ndt fun n => { n with type := 2, out := 3, lastTrip := some (3, 0) }) with clock := 200000 }, by and_intros <;> first | exact fun i a h => by cases (Eq.trans (by decide +kernel : some (3, 0) = _) h); decide +kernel | decide +kernel⟩,
    ⟨5, 1, 3, 1, 0xFFFF, 0x0601, { (ndt fun n => { n with type := 2, out := 3, lastTrip := some (3, 0) }) with clock := 199999 }, (0 : Nat), by decide +kernel⟩,
    ⟨5, 1, 3, 1, 0xFFFF, 0x0601, ndt (fun n => n), ([1] : List Byte), by decide +kernel⟩,
    ⟨5, 1, 0, { (nd fun n => { n with tripSeen := some 0 }) with clock := 2000 }, by decide +kernel⟩,
    ⟨5, 1, true, nd fun n => { n with duty := [1] }, by decide +kernel⟩⟩
theorem witness_NodesExecuteUnicastCommands :
    (∃ (port : Nat) (place : Nat) (seq : Nat) (addr : Nat) (count : Nat) (resync : Bool) (s : State), s.tablesOk = true ∧ 1 ≤ count ∧ count ≤ 240 ∧ addr + count ≤ 65536 ∧ s.reaches port place 0x20 false = true ∧ (s.node (nodeKey port place)).inSequence seq resync false = true) ∧
    (∃ (port : Nat) (place : Nat) (seq : Nat) (addr : Nat) (data : List Byte) (resync : Bool) (s : State), s.tablesOk = true ∧ 1 ≤ data.length ∧ data.length ≤ 240 ∧ s.reaches port place 0x21 false = true ∧ (s.node (nodeKey port place)).inSequence seq resync false = true ∧ (s.node (nodeKey port place)).writeStatus addr data = 0) ∧
    (∃ (port : Nat) (place : Nat) (seq : Nat) (addr : Nat) (data : List Byte) (resync : Bool) (s : State) (_ : Bool), s.tablesOk = true ∧ 1 ≤ data.length ∧ data.length ≤ 240 ∧ s.reaches port place 0x21 false = true ∧ (s.node (nodeKey port place)).inSequence seq resync false = true ∧ (s.node (nodeKey port place)).writeStatus addr data ≠ 0) ∧
    (∃ (port : Nat) (place : Nat) (seq : Nat) (addr : Nat) (data : List Byte) (resync : Bool) (s : State), s.tablesOk = true ∧ 1 ≤ data.length ∧ data.length ≤ 240 ∧ s.reaches port place 0x21 false = true ∧ (s.node (nodeKey port place)).inSequence seq resync false = true ∧ (s.node (nodeKey port place)).writeStatus addr data = 0) ∧
    (∃ (port : Nat) (place : Nat) (seq : Nat) (lease : Nat) (_ : Nat) (duty : List Nat) (resync : Bool) (s : State), s.tablesOk = true ∧ duty.length = 32 ∧ 1 ≤ lease ∧ lease ≤ 255 ∧ s.reaches port place 0x22 false = true ∧ (s.node (nodeKey port place)).inSequence seq resync false = true ∧ (∀ i, i < 32 → nth 0 duty i ≠ 0 → bit (s.node (nodeKey port place)).cellEn i = true) ∧ bit (s.node (nodeKey port place)).nstat 2 = false) ∧
    (∃ (port : Nat) (place : Nat) (seq : Nat) (lease : Nat) (_ : Nat) (duty : List Nat) (resync : Bool) (s : State), ∃ i, s.tablesOk = true ∧ duty.length = 32 ∧ 1 ≤ lease ∧ lease ≤ 255 ∧ s.reaches port place 0x22 false = true ∧ (s.node (nodeKey port place)).inSequence seq resync false = true ∧ i < 32 ∧ nth 0 duty i ≠ 0 ∧ bit (s.node (nodeKey port place)).cellEn i = false) ∧
    (∃ (port : Nat) (place : Nat) (seq : Nat) (out : Nat) (resync : Bool) (s : State), s.tablesOk = true ∧ fld out 6 3 = 0 ∧ out < 256 ∧ s.reaches port place 0x23 false = true ∧ (s.node (nodeKey port place)).inSequence seq resync false = true ∧ (s.node (nodeKey port place)).type = 2 ∧ (out.testBit 7 = true ∨ (s.node (nodeKey port place)).latched = false)) ∧
    (∃ (port : Nat) (place : Nat) (seq : Nat) (out : Nat) (resync : Bool) (s : State), s.tablesOk = true ∧ fld out 6 3 = 0 ∧ out < 256 ∧ s.reaches port place 0x23 false = true ∧ (s.node (nodeKey port place)).inSequence seq resync false = true ∧ (s.node (nodeKey port place)).type = 2) ∧
    (∃ (port : Nat) (place : Nat) (seq : Nat) (out : Nat) (resync : Bool) (s : State) (_ : Bool), s.tablesOk = true ∧ fld out 6 3 = 0 ∧ out < 256 ∧ s.reaches port place 0x23 false = true ∧ (s.node (nodeKey port place)).inSequence seq resync false = true ∧ (s.node (nodeKey port place)).type ≠ 2) :=
  ⟨⟨5, 1, 3, 65296, 240, true, nda fun n => { n with pos := 1 }, by decide +kernel⟩,
    ⟨5, 1, 3, 0x12, [3, 0], true, nda fun n => { n with pos := 1 }, by decide +kernel⟩,
    ⟨5, 1, 3, 0x00, [3, 0], true, nda fun n => { n with pos := 1 }, (false : Bool), by decide +kernel⟩,
    ⟨5, 1, 3, 0x12, [3, 0], true, nda fun n => { n with pos := 1 }, by decide +kernel⟩,
    ⟨5, 1, 3, 255, 1, 7 :: List.replicate 31 0, true, nda fun n => { n with pos := 1, cellEn := 1 }, by decide +kernel⟩,
    ⟨5, 1, 3, 255, 1, 7 :: List.replicate 31 0, true, nda fun n => { n with pos := 1, cellEn := 2 }, 0, by decide +kernel⟩,
    ⟨5, 1, 3, 0x83, true, nda fun n => { n with pos := 1, type := 2 }, by decide +kernel⟩,
    ⟨5, 1, 3, 0x03, true, nda fun n => { n with pos := 1, type := 2 }, by decide +kernel⟩,
    ⟨5, 1, 3, 0x03, true, nda fun n => { n with type := 1, pos := 1 }, (true : Bool), by decide +kernel⟩⟩
theorem witness_NodesKeepSequenceAndFirmware :
    (∃ (port : Nat) (place : Nat) (seq : Nat) (_ : Nat) (data : List Byte) (_ : Bool) (s : State), s.tablesOk = true ∧ 1 ≤ data.length ∧ data.length ≤ 240 ∧ seq < 65536 ∧ s.reaches port place 0x21 false = true ∧ (s.node (nodeKey port place)).usync = false) ∧
    (∃ (port : Nat) (place : Nat) (seq : Nat) (_ : Nat) (data : List Byte) (_ : Bool) (s : State), ∃ st bs, s.tablesOk = true ∧ 1 ≤ data.length ∧ data.length ≤ 240 ∧ seq < 65536 ∧ s.reaches port place 0x21 false = true ∧ (s.node (nodeKey port place)).usync = true ∧ (s.node (nodeKey port place)).lastSeq = seq ∧ (s.node (nodeKey port place)).stored = some (st, bs)) ∧
    (∃ (port : Nat) (place : Nat) (seq : Nat) (_ : Nat) (data : List Byte) (_ : Bool) (s : State), s.tablesOk = true ∧ 1 ≤ data.length ∧ data.length ≤ 240 ∧ seq < 65536 ∧ s.reaches port place 0x21 false = true ∧ (s.node (nodeKey port place)).usync = true ∧ seq + 0x8000 = (s.node (nodeKey port place)).lastSeq) ∧
    (∃ (port : Nat) (place : Nat) (seq : Nat) (_ : Nat) (data : List Byte) (_ : Bool) (s : State), s.tablesOk = true ∧ 1 ≤ data.length ∧ data.length ≤ 240 ∧ seq < 65536 ∧ s.reaches port place 0x21 true = true ∧ (s.node (nodeKey port place)).bsync = false) ∧
    (∃ (port : Nat) (place : Nat) (seq : Nat) (resync : Bool) (bcast : Bool) (s : State), s.tablesOk = true ∧ s.reaches port place 0x24 bcast = true ∧ (s.node (nodeKey port place)).inSequence seq resync bcast = true) ∧
    (∃ (port : Nat) (place : Nat) (seq : Nat) (_ : Nat) (data : List Byte) (resync : Bool) (bcast : Bool) (s : State), s.tablesOk = true ∧ 1 ≤ data.length ∧ data.length ≤ 240 ∧ s.reaches port place 0x40 bcast = true ∧ (s.node (nodeKey port place)).inSequence seq resync bcast = true) ∧
    (∃ (port : Nat) (place : Nat) (seq : Nat) (crc : Nat) (resync : Bool) (bcast : Bool) (s : State), s.tablesOk = true ∧ crc < 2 ^ 32 ∧ s.reaches port place 0x41 bcast = true ∧ (s.node (nodeKey port place)).inSequence seq resync bcast = true ∧ (s.node (nodeKey port place)).image?.map crc32c = some crc) ∧
    (∃ (port : Nat) (place : Nat) (seq : Nat) (crc : Nat) (resync : Bool) (bcast : Bool) (s : State), s.tablesOk = true ∧ crc < 2 ^ 32 ∧ s.reaches port place 0x41 bcast = true ∧ (s.node (nodeKey port place)).inSequence seq resync bcast = true ∧ (s.node (nodeKey port place)).image?.map crc32c ≠ some crc) ∧
    (∃ (port : Nat) (place : Nat) (_ : Nat) (_ : Bool) (s : State), s.tablesOk = true ∧ (s.node (nodeKey port place)).fwNext ≠ none) ∧
    (∃ (port : Nat) (place : Nat) (seq : Nat) (a : Nat) (b : Nat) (x : Bool) (y : Bool) (z : Bool) (l : List Byte) (raw : List Byte) (duty : List Nat) (s : State), ∃ c, (s.ring port).state ≠ .isolated ∧ parseFrame raw = none ∧ c ∈ [Instr.readNode port place seq x a b (some raw), .writeNode port place seq x y a l z (some raw), .balance port place seq x a b duty (some raw), .switch port place seq x y a (some raw), .unwrap port place seq x y (some raw), .fwBlock port place seq x y a l (some raw), .fwActivate port place seq x y a (some raw), .keepalive port place (some raw)]) :=
  ⟨⟨5, 1, 3, 0x10, [3, 0], false, nda fun n => { n with pos := 1 }, by decide +kernel⟩,
    ⟨5, 1, 3, 0x10, [3, 0], false, nda fun n => { n with pos := 1, usync := true, lastSeq := 3, stored := some (7, [1]) }, 7, [1], by decide +kernel⟩,
    ⟨5, 1, 3, 0x10, [3, 0], false, nda fun n => { n with pos := 1, usync := true, lastSeq := 0x8003 }, by decide +kernel⟩,
    ⟨5, 1, 3, 0x10, [3, 0], false, nds fun n => { n with pos := 1 }, by decide +kernel⟩,
    ⟨5, 1, 3, true, false, nda fun n => { n with pos := 1, link := 0xF }, by decide +kernel⟩,
    ⟨5, 1, 3, 0, [1], true, false, nds fun n => { n with pos := 1 }, by decide +kernel⟩,
    ⟨5, 1, 3, crc32c [1], true, false, nds fun n => { n with pos := 1, fwArea := [(0, 1)] }, by decide +kernel⟩,
    ⟨5, 1, 3, crc32c [1], true, true, nds fun n => { n with pos := 1, fwArea := [(1, 1)] }, by decide +kernel⟩,
    ⟨5, 1, 9, true, nd fun n => { n with fwNext := some 4, pos := 1 }, by decide +kernel⟩,
    ⟨5, 1, 9, 0, 0, true, false, false, [], [1], [], nda (fun n => n), Instr.fwBlock 5 1 9 true false 0 [] (some [1]), by decide +kernel⟩⟩
theorem witness_ModuleCommandsAreAnsweredOrGivenUp :
    (∃ (port : Nat) (c : LinkCmd) (s : State), s.tablesOk = true ∧ s.nextCmd? port = some c) ∧
    (∃ (port : Nat) (pos : Nat) (_ : Nat) (_ : Nat) (_ : List Byte) (c : LinkCmd) (s : State), s.tablesOk = true ∧ s.upd.node = none ∧ (s.ring port).outAt? pos = some c) ∧
    (∃ (port : Nat) (pos : Nat) (c : LinkCmd) (s : State), s.tablesOk = true ∧ s.upd.node = none ∧ (s.ring port).outAt? pos = some c ∧ c.waits = false ∧ c.at_ + (s.ring port).timeout ≤ s.clock) ∧
    (∃ (port : Nat) (pos : Nat) (a : Nat) (c : LinkCmd) (s : State), s.tablesOk = true ∧ s.upd.node = none ∧ (s.ring port).outAt? pos = some c ∧ c.waits = true ∧ c.busySince = some a) :=
  ⟨⟨5, cmd1, rg fun r => { r with state := .active, queue := [cmd1] }, by decide +kernel⟩,
    ⟨5, 1, 9, 0, [1, 2, 3, 4], cmd1, rg fun r => { r with state := .active, out := [cmd1] }, by decide +kernel⟩,
    ⟨5, 1, cmd1, { (rg fun r => { r with state := .active, out := [cmd1] }) with clock := 20000 }, by decide +kernel⟩,
    ⟨5, 1, 0, { cmd1 with busySince := some 0, waits := true }, { (rg fun r => { r with state := .active, out := [{ cmd1 with busySince := some 0, waits := true }] }) with clock := 2000000 }, by decide +kernel⟩⟩
theorem witness_LoadsStoresTablesAndMasksCompute :
    ∃ (rod : Nat) (stall : Nat) (d : Nat) (x : Nat) (off : Nat) (s : State), let c := (s.rod rod).ctx; let a := (c.sx_ x).toNat + off % 262144; s.tablesOk = true ∧ s.fetches rod (kM 0x21 d x off) (1 + stall) = true ∧ a ≤ 0x1FFFF ∧ 32 ∣ a :=
  ⟨3, 1, 2, 9, 64, rodAt (kM 0x21 2 9 64) true, by decide +kernel⟩
theorem witness_JumpsAndPassEnds :
    ∃ (rod : Nat) (stall : Nat) (x : Nat) (off : Int) (s : State), let im := s.rodImage rod; let c := (s.rod rod).ctx; let target := (c.pc : Int) + off; s.tablesOk = true ∧ s.fetches rod (kB 0x31 0 x off) (1 + stall) = true ∧ -32768 ≤ off ∧ off < 32768 ∧ (c.sx_ x ≠ 1 → 0 ≤ target ∧ target < im.code.length ∧ c.passCycles + 3 + stall ≤ c.maxCycles) :=
  ⟨3, 1, 9, 2, rodAt (kB 0x31 0 9 2) false, by decide +kernel⟩
theorem witness_BranchesTestTheirCondition :
    (∃ (rod : Nat) (stall : Nat) (cc : Nat) (off : Int) (holds : Bool) (s : State), let im := s.rodImage rod; let c := (s.rod rod).ctx; let target := (c.pc : Int) + off; let m := c.lm.setWidth 32 &&& c.sx_ 8; s.tablesOk = true ∧ s.fetches rod (kB 0x30 cc 0 off) (1 + stall) = true ∧ -32768 ≤ off ∧ off < 32768 ∧ (cc, holds) ∈ [(0, true), (1, c.eq), (2, !c.eq), (3, c.lt), (4, !c.lt), (5, c.gt), (6, !c.gt), (7, m != 0), (8, m == c.sx_ 8), (9, m == 0)] ∧ (holds = true → 0 ≤ target ∧ target < im.code.length ∧ c.passCycles + 3 + stall ≤ c.maxCycles)) ∧
    (∃ (rod : Nat) (stall : Nat) (a : Nat) (b : Nat) (s : State), s.tablesOk = true ∧ s.fetches rod (kR 0x1E 0 a b 0 0) (1 + stall) = true ∧ a % 16 < 8) ∧
    (∃ (cc : Nat) (_ : Int), 10 ≤ cc ∧ cc < 16) :=
  ⟨⟨3, 1, 2, 5, true, rodAt (kB 0x30 2 0 5) false, by decide +kernel⟩,
    ⟨3, 1, 2, 3, rodAt (kR 0x1E 0 2 3 0 0) true, by decide +kernel⟩,
    ⟨10, 5, by decide +kernel⟩⟩
theorem witness_KernelFaultsEndThePass :
    (∃ (i : Instr) (s : State) (t : State) (r : Nat) (w : BitVec 32), rodOf? i = some r ∧ s.tablesOk = true ∧ (s.rod r).inPass = true ∧ (s.rod r).ctx.word? (s.rodImage r) = some w ∧ kLegal w.toNat = false ∧ exec i s = .next t) ∧
    (∃ (i : Instr) (s : State) (t : State) (r : Nat) (f : Nat) (pc : Nat), rodOf? i = some r ∧ s.tablesOk = true ∧ (s.rod r).ctx.fault = none ∧ exec i s = .next t ∧ (t.rod r).ctx.fault = some (f, pc)) ∧
    (∃ (i : Instr) (s : State) (t : State) (r : Nat) (f : Nat) (pc : Nat), rodOf? i = some r ∧ s.tablesOk = true ∧ (s.rod r).ctx.fault = none ∧ exec i s = .next t ∧ (t.rod r).ctx.fault = some (f, pc) ∧ (s.rod r).ctx.passB = false) ∧
    (∃ (i : Instr) (s : State) (t : State) (r : Nat) (f : Nat) (pc : Nat), rodOf? i = some r ∧ s.tablesOk = true ∧ (s.rod r).ctx.fault = none ∧ exec i s = .next t ∧ (t.rod r).ctx.fault = some (f, pc) ∧ (s.rod r).ctx.passB = true) :=
  ⟨⟨.nop 3 1, rodAt 0xFFFFFFFF false, got (exec (.nop 3 1) (rodAt 0xFFFFFFFF false)), 3, 0xFFFFFFFF, by and_intros <;> first | exact next_of _ (by decide +kernel) | decide +kernel⟩,
    ⟨.nop 3 1, rodAt 0xFFFFFFFF false, got (exec (.nop 3 1) (rodAt 0xFFFFFFFF false)), 3, 1, 0, by and_intros <;> first | exact next_of _ (by decide +kernel) | decide +kernel⟩,
    ⟨.nop 3 1, rodAt 0xFFFFFFFF false, got (exec (.nop 3 1) (rodAt 0xFFFFFFFF false)), 3, 1, 0, by and_intros <;> first | exact next_of _ (by decide +kernel) | decide +kernel⟩,
    ⟨.nop 3 1, rodAt 0xFFFFFFFF true, got (exec (.nop 3 1) (rodAt 0xFFFFFFFF true)), 3, 1, 0, by and_intros <;> first | exact next_of _ (by decide +kernel) | decide +kernel⟩⟩
theorem witness_PassBMirrorsPassA :
    ∃ (i : Instr) (s : State) (t : State) (r : Nat), rodOf? i = some r ∧ s.tablesOk = true ∧ exec i s = .next t ∧ (t.rod r).ctx.ended = false :=
  ⟨.vadd 3 1 1 2 3, rodAt (kR 1 1 2 3 0 0) false, got (exec (.vadd 3 1 1 2 3) (rodAt (kR 1 1 2 3 0 0) false)), 3, by and_intros <;> first | exact next_of _ (by decide +kernel) | decide +kernel⟩
theorem witness_InvocationsJoinWindows :
    (∃ (rod : Nat) (s : State), s.tablesOk = true ∧ (s.rod rod).ctx.entry ≠ 0 ∧ (s.rod rod).ctx.ended = true ∧ (s.rod rod).redo = []) ∧
    (∃ (rod : Nat) (_ : Option (Nat × Nat × Nat × Nat)) (i : Item) (rest : List Item) (s : State), s.tablesOk = true ∧ s.sys.holdup = false ∧ (s.rod rod).ctx.entry = 0 ∧ (s.rod rod).redo = i :: rest ∧ i.entry ≠ 0) ∧
    (∃ (rod : Nat) (port : Nat) (sid : Nat) (base : Nat) (entry : Nat) (s : State), s.tablesOk = true ∧ (s.rod rod).ctx.entry = 0 ∧ (s.rod rod).redo = [] ∧ s.sys.holdup = false ∧ (s.rod rod).state = .healthy ∧ s.sched.suspended = false ∧ s.windowDue rod = false ∧ s.imageFits rod (strKey port sid) entry = true ∧ s.itemWaits (strKey port sid) base entry = true ∧ s.mayServe entry (strKey port sid) base = true ∧ entry ≠ 0) :=
  ⟨⟨3, (rodAt 0 false).modRod 3 fun r => { r with ctx := { r.ctx with ended := true, passB := true } }, by decide +kernel⟩,
    ⟨3, none, itm, [], withStr.modRod 3 fun r => { r with state := .retrying, redo := [itm] }, by decide +kernel⟩,
    ⟨3, 5, 3, 0, 1, withStr.modRing 5 fun r => { r with closedAt := some 1 }, by decide +kernel⟩⟩
theorem witness_WindowsAreJudgedBySignature :
    (∃ (rod : Nat) (s : State), s.tablesOk = true ∧ s.windowDue rod = true ∧ (s.rod rod).tainted = true) ∧
    (∃ (rod : Nat) (s : State), s.tablesOk = true ∧ s.windowDue rod = true ∧ (s.rod rod).tainted = false ∧ (s.rod rod).sigA = (s.rod rod).sigB ∧ (s.rod rod).forced = false) ∧
    (∃ (rod : Nat) (s : State), s.tablesOk = true ∧ s.windowDue rod = true ∧ (s.rod rod).tainted = false ∧ ((s.rod rod).sigA ≠ (s.rod rod).sigB ∨ (s.rod rod).forced = true) ∧ (s.rod rod).state = .healthy) ∧
    (∃ (rod : Nat) (s : State), s.tablesOk = true ∧ s.windowDue rod = true ∧ (s.rod rod).tainted = false ∧ ((s.rod rod).sigA ≠ (s.rod rod).sigB ∨ (s.rod rod).forced = true) ∧ (s.rod rod).state = .retrying ∧ (∃ j < 128, j ≠ rod ∧ (s.rod j).state = .healthy)) :=
  ⟨⟨3, up.modRod 3 fun r => { r with items := [itm], invs := 256, tainted := true }, by decide +kernel⟩,
    ⟨3, up.modRod 3 fun r => { r with items := [itm], invs := 256 }, by decide +kernel⟩,
    ⟨3, up.modRod 3 fun r => { r with items := [itm], invs := 256, sigB := 1 }, by decide +kernel⟩,
    ⟨3, up.modRod 3 fun r => { r with state := .retrying, items := [itm], sigB := 1 }, by decide +kernel⟩⟩
theorem witness_RodsAreTestedWalkedAndReloaded :
    (∃ (rod : Nat) (_ : Nat) (_ : Bool) (_ : Bool) (s : State), rod ≠ s.sched.walkTurn) ∧
    (∃ (rod : Nat) (_ : Nat) (_ : Bool) (s : State), s.tablesOk = true ∧ rod < 128 ∧ s.sched.walkTurn = rod) ∧
    (∃ (rod : Nat) (_ : Nat) (s : State), s.tablesOk = true ∧ rod < 128 ∧ s.sched.walkTurn = rod) ∧
    (∃ (rod : Nat) (_ : Nat) (s : State), s.tablesOk = true ∧ rod < 128 ∧ s.sched.walkTurn = rod ∧ (s.rod rod).state ≠ .quarantined) ∧
    (∃ (rod : Nat) (s : State), s.tablesOk = true ∧ (s.rod rod).state = .testing ∧ rod ∉ s.sched.recorded ∧ s.est.stale = false ∧ s.sys.held = []) ∧
    (∃ (rod : Nat) (sig : Nat) (s : State), s.tablesOk = true ∧ (s.rod rod).state = .testing ∧ rod ∉ s.sched.recorded ∧ sig ≠ Config.rodTestGood) ∧
    (∃ (rod : Nat) (_ : Nat) (s : State), s.tablesOk = true ∧ (s.rod rod).reload = true ∧ (s.rod rod).ctx.entry = 0 ∧ (s.rod rod).items = [] ∧ (s.rod rod).redo = [] ∧ s.guard.owed = none ∧ s.oldWaits = false) ∧
    (∃ (cls : Nat) (a : Nat) (s : State), s.classWaits cls = true ∧ cls ∉ s.sched.starved ∧ tget (0 : Nat) s.sched.classAt cls = a ∧ a + 2000000000 ≤ s.clock) ∧
    (∃ (port : Nat) (sid : Nat) (a : Nat) (s : State), s.tablesOk = true ∧ (strKey port sid, a, 0) ∈ s.sched.bursts ∧ a + 2000000000 ≤ s.clock) ∧
    (∃ (s : State), 16 ≤ (s.sched.faults.filter (fun f => decide (s.clock < f + 2000000000))).length ∧ 0x10000 ≤ s.image.id ∧ s.tablesOk = true ∧ (s.mark 0).step ≠ 0) :=
  ⟨⟨127, 63, true, true, up, by decide +kernel⟩,
    ⟨127, 63, false, up.onSched fun q => { q with walkTurn := 127 }, by decide +kernel⟩,
    ⟨127, 63, up.onSched fun q => { q with walkTurn := 127 }, by decide +kernel⟩,
    ⟨127, 63, up.onSched fun q => { q with walkTurn := 127 }, by decide +kernel⟩,
    ⟨3, up.modRod 3 fun r => { r with state := .testing }, by decide +kernel⟩,
    ⟨3, Config.rodTestGood + 1, up.modRod 3 fun r => { r with state := .testing }, by and_intros <;> first | exact Nat.succ_ne_self _ | decide +kernel⟩,
    ⟨3, 3, up.modRod 3 fun r => { r with reload := true }, by decide +kernel⟩,
    ⟨5, 0, { up with clock := 2000000000 }, by decide +kernel⟩,
    ⟨5, 3, 0, { (up.onSched fun q => { q with bursts := [(k3, 0, 0)] }) with clock := 2000000000 }, by decide +kernel⟩,
    ⟨(up.onSched fun q => { q with faults := List.replicate 16 0, service := some (imageOf1 0) }).modMark 0 fun m => { m with step := 131072 }, by decide +kernel⟩⟩
theorem witness_DieTemperatureAndEnergyBudget :
    (∃ (temps : List Int) (_ : State), temps.length = 8 ∧ (∀ x ∈ temps, x ≠ -32768 ∧ ∀ y ∈ temps, x - y ≤ 1000) ∧ (∀ x ∈ temps, -32767 ≤ x)) ∧
    (∃ (a : Nat) (s : State), s.tablesOk = true ∧ s.sched.lowered = true ∧ s.sched.suspended = false ∧ s.sched.calmSince = some a ∧ a + 12000000000 ≤ s.clock) :=
  ⟨⟨[2500, 2500, 2500, 3500, 2500, 2500, 2500, 2500], up, by decide +kernel⟩,
    ⟨0, { (up.onSched fun q => { q with lowered := true, calmSince := some 0 }) with clock := 12000000000 }, by decide +kernel⟩⟩
theorem witness_EstimatesArePublishedAndObserved :
    (∃ (s : State), (s.sys.run ≠ .running ∨ s.sys.holdup = true)) ∧
    (∃ (s : State), s.sys.run = .running ∧ s.sys.holdup = false) ∧
    (∃ (i : Item) (s : State), s.tablesOk = true ∧ s.sys.run = .running ∧ s.sys.holdup = false ∧ s.sched.released = [i] ∧ i.entry = 1 ∧ (s.str i.string).cells.Nodup) ∧
    (∃ (port : Nat) (sid : Nat) (o : Nat) (s : State), let k := strKey port sid; let q := s.str k; s.tablesOk = true ∧ q.doneGen ≠ none ∧ q.doneGen ≠ q.runGen ∧ q.obsAt = some o ∧ q.unavailable = false) ∧
    (∃ (group : Nat) (x : Rat) (g : List Nat) (ks : List Nat) (s : State), s.tablesOk = true ∧ tget [] s.est.groups group = g ∧ g.drop 3 = ks ∧ s.groupAmps? g = some x ∧ ks ≠ [] ∧ ks.Nodup ∧ (∀ k ∈ ks, (s.str k).stepped = true ∧ (s.source k).1 = 3)) ∧
    (∃ (port : Nat) (sid : Nat) (a : Nat) (s : State), s.tablesOk = true ∧ (s.str (strKey port sid)).unavailable = false ∧ (s.str (strKey port sid)).heldSince = some a ∧ a + 200000 * (s.par 0x3103).toNat ≤ s.clock) :=
  ⟨⟨State.reset, by decide +kernel⟩,
    ⟨up, by decide +kernel⟩,
    ⟨{ itm with entry := 1, gen := 9, results := [some 3, some 4], at_ := 77 }, withStr.onSched fun q => { q with released := [{ itm with entry := 1, gen := 9, results := [some 3, some 4], at_ := 77 }] }, by decide +kernel⟩,
    ⟨5, 3, 100, { (sx3 fun q => { q with doneGen := some 5, obsAt := some 100, results := [4000, 3, 100] }) with clock := 5000 }, by decide +kernel⟩,
    ⟨2, 5, [1, 0, 0, k3], [k3], (sx3 fun q => { q with stepped := true, pVar := 4 }).onEst fun e => { e with groups := [(2, [1, 0, 0, k3])], live := [(pkStr 0x3101 k3, 3)], fpiAt := [(0, 5000)] }, by decide +kernel⟩,
    ⟨5, 3, 100, late (sx3 fun q => { q with heldSince := some 100 }), by decide +kernel⟩⟩
theorem witness_RestsHealthAndBursts :
    (∃ (port : Nat) (sid : Nat) (a : Nat) (s : State), let k := strKey port sid; s.tablesOk = true ∧ (s.str k).restSince = some a ∧ a + 200000 * (s.par 0x310B).toNat * ((s.str k).restPoints + 1) ≤ s.clock) ∧
    (∃ (_ : Nat) (s : State), s.tablesOk = true) ∧
    (∃ (s : State), s.sys.run = .running ∧ s.sys.holdup = false ∧ s.est.socAt + 12000000000 ≤ s.clock) ∧
    (∃ (s : State), s.tablesOk = true ∧ s.sys.run = .running ∧ s.sys.holdup = false ∧ (s.sys.ckDue = true ∨ s.est.ckAt + 200000 * (s.par 0x311A).toNat ≤ s.clock)) ∧
    (∃ (_ : List (Nat × Nat)) (_ : List (Nat × Int)) (k : Nat) (n : Nat) (s : State), s.tablesOk = true ∧ s.markDue 1 = true ∧ s.est.configured = [k] ∧ (s.str k).burst = some n ∧ (s.str k).cells.Nodup ∧ s.burstHolds k = true ∧ s.beam.sweptAt ≠ some s.clock) ∧
    (∃ (_ : List (Nat × Nat)) (_ : List (Nat × Int)) (k : Nat) (n : Nat) (s : State), s.tablesOk = true ∧ s.markDue 1 = true ∧ s.est.configured = [k] ∧ (s.str k).burst = some n ∧ n < 383 ∧ s.burstHolds k = true ∧ s.beam.sweptAt = some s.clock ∧ (s.str k).cells.Nodup) ∧
    (∃ (_ : List (Nat × Nat)) (_ : List (Nat × Int)) (k : Nat) (n : Nat) (s : State), s.tablesOk = true ∧ s.markDue 1 = true ∧ s.est.configured = [k] ∧ (s.str k).burst = some n ∧ s.burstHolds k = false) ∧
    (∃ (port : Nat) (sid : Nat) (s : State), let k := strKey port sid; s.tablesOk = true ∧ k ∈ s.est.configured ∧ (s.str k).closed = true ∧ s.sys.mode = .online ∧ s.sys.run = .running ∧ 4 ∉ s.sched.starved ∧ (s.str k).lastBurst = none ∧ (∀ j ∈ s.stringsOf port, (s.str j).burst = none) ∧ s.burstMay = true ∧ s.disp.tickAt = some s.clock ∧ (s.mark 1).en = false ∧ (s.mark 0).en = true) :=
  ⟨⟨5, 3, 100, late (sx3 fun q => { q with restSince := some 100 }), by decide +kernel⟩,
    ⟨cellPoint 5 1 0, withStr.modCell (cellPoint 5 1 0) fun c => { c with learned := { c.learned with cap := 100 } }, by decide +kernel⟩,
    ⟨late withStr, by decide +kernel⟩,
    ⟨late withStr, by decide +kernel⟩,
    ⟨[(cellPoint 5 1 0, 3300)], [(2, 100)], k3, 3, bursting, by decide +kernel⟩,
    ⟨[(cellPoint 5 1 0, 3300)], [(2, 100)], k3, 3, bursting.onBeam fun b => { b with sweptAt := some 0 }, by decide +kernel⟩,
    ⟨[(cellPoint 5 1 0, 3300)], [(2, 100)], k3, 3, bursting.onSys fun y => { y with mode := .standby }, by decide +kernel⟩,
    ⟨5, 3, (((sx3 fun q => { q with closed := true }).onSys fun y => { y with mode := .online }).modMark 0 fun _ => { dueMark with cmp := 5 }).onDisp fun d => { d with tickAt := some 0, lDis := 1 }, by decide +kernel⟩⟩
theorem witness_PlansStayWithinHeatAllowance :
    (∃ (s : State) (t : State), s.tablesOk = true ∧ s.sys.run = .running ∧ s.replanDue = true ∧ s.est.configured.Nodup ∧ exec .balancingReplan s = .next t) ∧
    (∃ (s : State) (t : State), ∃ k, s.tablesOk = true ∧ s.sys.run = .running ∧ s.replanDue = true ∧ s.est.configured.Nodup ∧ exec .balancingReplan s = .next t ∧ k ∈ s.est.configured) ∧
    (∃ (s : State) (t : State), ∃ k, s.tablesOk = true ∧ s.sys.run = .running ∧ s.replanDue = true ∧ s.est.configured.Nodup ∧ exec .balancingReplan s = .next t ∧ k ∈ s.est.configured) ∧
    (∃ (s : State) (t : State), ∃ k x, s.tablesOk = true ∧ s.sys.run = .running ∧ s.replanDue = true ∧ s.est.configured.Nodup ∧ exec .balancingReplan s = .next t ∧ k ∈ s.est.configured ∧ x ∈ (t.str k).plan) ∧
    (∃ (s : State) (t : State), ∃ k, s.tablesOk = true ∧ s.sys.run = .running ∧ s.replanDue = true ∧ s.est.configured.Nodup ∧ exec .balancingReplan s = .next t ∧ k ∈ s.est.configured ∧ s.bankMayBalance = false) :=
  ⟨⟨balSt, got (exec .balancingReplan balSt), by and_intros <;> first | exact next_of _ (by decide +kernel) | decide +kernel⟩,
    ⟨balSt, got (exec .balancingReplan balSt), k3, by and_intros <;> first | exact next_of _ (by decide +kernel) | decide +kernel⟩,
    ⟨balSt, got (exec .balancingReplan balSt), k3, by and_intros <;> first | exact next_of _ (by decide +kernel) | decide +kernel⟩,
    ⟨balSt, got (exec .balancingReplan balSt), k3, (((got (exec .balancingReplan balSt)).str k3).plan).headD (0, 0, false), by and_intros <;> first | exact next_of _ (by decide +kernel) | decide +kernel⟩,
    ⟨withStr, got (exec .balancingReplan withStr), k3, by and_intros <;> first | exact next_of _ (by decide +kernel) | decide +kernel⟩⟩
theorem witness_BalancingStopsAndTemperatureInputs :
    (∃ (s : State), s.sys.run = .running ∧ s.replanDue = true) ∧
    (∃ (s : State), s.sys.run = .running ∧ s.replanDue = false) ∧
    (∃ (port : Nat) (sid : Nat) (a : Nat) (s : State), let k := strKey port sid; s.tablesOk = true ∧ (s.str k).restSince = some a ∧ a + 200000 * ((s.par 0x310B).toNat - (s.par 0x330D).toNat) ≤ s.clock ∧ (s.str k).restPoints = 0 ∧ (s.str k).quiet = false) ∧
    (∃ (port : Nat) (pos : Nat) (k : Nat) (s : State), s.tablesOk = true ∧ (s.balNode (nodeKey port pos)).excl = none ∧ 3 ≤ (s.balNode (nodeKey port pos)).mism ∧ s.stringAt? port pos = some k ∧ keyPort k = port) ∧
    (∃ (port : Nat) (pos : Nat) (a : Nat) (s : State), s.tablesOk = true ∧ (s.balNode (nodeKey port pos)).excl = some a ∧ a + 720000000000 ≤ s.clock) ∧
    (∃ (port : Nat) (pos : Nat) (input : Nat) (g : Nat) (s : State), let p := cellPoint port pos input; s.tablesOk = true ∧ (s.tempIn p).subst = true ∧ (s.tempIn p).goodSince = some g ∧ g + 12000000000 ≤ s.sampleAt) ∧
    (∃ (input : Nat) (a : Nat) (b : Nat) (s : State), s.tablesOk = true ∧ ((s.tin input).type = 1 ∨ (s.tin input).type = 2) ∧ (s.tin input).bad? (s.referred a).toNat (s.referred b).toNat ≠ 0) ∧
    (∃ (input : Nat) (a : Nat) (b : Nat) (s : State), s.tablesOk = true ∧ ((s.tin input).type = 1 ∨ (s.tin input).type = 2) ∧ (s.tin input).bad? (s.referred a).toNat (s.referred b).toNat = 0) ∧
    (∃ (input : Nat) (s : State), s.tablesOk = true ∧ 3 ≤ (s.tin input).bad ∧ (s.tin input).faulty = false) ∧
    (∃ (input : Nat) (s : State), s.tablesOk = true ∧ (s.tin input).faulty = true ∧ 10 ≤ (s.tin input).good) :=
  ⟨⟨withStr, by decide +kernel⟩,
    ⟨withStr.onEst fun e => { e with replanAt := some 0 }, by decide +kernel⟩,
    ⟨5, 3, 100, late (sx3 fun q => { q with restSince := some 100 }), by decide +kernel⟩,
    ⟨5, 1, k3, withStr.modBal (nodeKey 5 1) fun b => { b with mism := 3 }, by decide +kernel⟩,
    ⟨5, 1, 100, late (withStr.modBal (nodeKey 5 1) fun b => { b with excl := some 100 }), by decide +kernel⟩,
    ⟨5, 1, 0, 100, (withStr.modTemp (cellPoint 5 1 0) fun q => { q with subst := true, goodSince := some 100 }).onBeam fun b => { b with sampledAt := some 13000000000 }, by decide +kernel⟩,
    ⟨2, 1000000, 500000, up.modTin 2 fun q => { q with cfg := 1 }, by decide +kernel⟩,
    ⟨2, 600000, 500000, up.modTin 2 fun q => { q with cfg := 1 }, by decide +kernel⟩,
    ⟨2, up.modTin 2 fun q => { q with bad := 3 }, by decide +kernel⟩,
    ⟨2, up.modTin 2 fun q => { q with faulty := true, good := 10 }, by decide +kernel⟩⟩
theorem witness_SetPointStaysWithinLimits :
    (∃ (c : Instr) (s : State) (t : State), s.tablesOk = true ∧ exec c s = .next t ∧ ((c = .dispatchTick ∧ s.sys.run = .running ∧ s.markDue 2 = true) ∨ (c = .stopRecompute ∧ s.sys.run = .running ∧ s.disp.held = none ∧ s.stopFresh = true))) ∧
    (∃ (c : Instr) (s : State) (t : State), ∃ n, s.tablesOk = true ∧ exec c s = .next t ∧ ((c = .dispatchTick ∧ s.sys.run = .running ∧ s.markDue 2 = true) ∨ (c = .stopRecompute ∧ s.sys.run = .running ∧ s.disp.held = none ∧ s.stopFresh = true)) ∧ n ∈ t.tickTenants ∧ 0 ≤ (t.tenant n).req) ∧
    (∃ (c : Instr) (s : State) (t : State), ∃ n, s.tablesOk = true ∧ exec c s = .next t ∧ ((c = .dispatchTick ∧ s.sys.run = .running ∧ s.markDue 2 = true) ∨ (c = .stopRecompute ∧ s.sys.run = .running ∧ s.disp.held = none ∧ s.stopFresh = true)) ∧ n ∈ t.tickTenants ∧ (t.tenant n).req ≤ 0) ∧
    (∃ (c : Instr) (s : State) (t : State), ∃ n, s.tablesOk = true ∧ exec c s = .next t ∧ ((c = .dispatchTick ∧ s.sys.run = .running ∧ s.markDue 2 = true) ∨ (c = .stopRecompute ∧ s.sys.run = .running ∧ s.disp.held = none ∧ s.stopFresh = true)) ∧ n ∈ t.tickTenants ∧ (n ∈ t.guard.stops ∨ t.zeroHeld = true ∨ t.mayDispatch = false)) :=
  ⟨⟨.dispatchTick, up.modMark 2 fun _ => dueMark, got (exec .dispatchTick (up.modMark 2 fun _ => dueMark)), by and_intros <;> first | exact next_of _ (by decide +kernel) | exact Or.inl ⟨rfl, by decide +kernel⟩ | decide +kernel⟩,
    ⟨.dispatchTick, up.modMark 2 fun _ => dueMark, got (exec .dispatchTick (up.modMark 2 fun _ => dueMark)), 0, by and_intros <;> first | exact next_of _ (by decide +kernel) | exact Or.inl ⟨rfl, by decide +kernel⟩ | decide +kernel⟩,
    ⟨.dispatchTick, up.modMark 2 fun _ => dueMark, got (exec .dispatchTick (up.modMark 2 fun _ => dueMark)), 0, by and_intros <;> first | exact next_of _ (by decide +kernel) | exact Or.inl ⟨rfl, by decide +kernel⟩ | decide +kernel⟩,
    ⟨.dispatchTick, up.modMark 2 fun _ => dueMark, got (exec .dispatchTick (up.modMark 2 fun _ => dueMark)), 0, by and_intros <;> first | exact next_of _ (by decide +kernel) | exact Or.inl ⟨rfl, by decide +kernel⟩ | decide +kernel⟩⟩
theorem witness_TicksCurtailmentAndPcsMessages :
    (∃ (s : State), s.tablesOk = true ∧ s.markDue 2 = true ∧ s.sys.run = .running ∧ s.disp.slotNext = none) ∧
    (∃ (s : State), s.tablesOk = true ∧ s.markDue 2 = true ∧ s.sys.run ≠ .running) ∧
    (∃ (s : State), s.sys.run = .running ∧ s.disp.held = none ∧ s.stopFresh = true) ∧
    (∃ (s : State), 10 ≤ s.disp.needRun.1 ∧ s.disp.curtDis = none ∧ (s.disp.needRun.2 < 10 ∨ s.disp.curtChg ≠ none)) ∧
    (∃ (s : State), 10 ≤ s.disp.needRun.2 ∧ s.disp.curtChg = none ∧ (s.disp.needRun.1 < 10 ∨ s.disp.curtDis ≠ none)) ∧
    (∃ (a : Nat) (s : State), 10 ≤ s.disp.freeRun.1 ∧ s.disp.curtDis = some a ∧ (s.disp.freeRun.2 < 10 ∨ s.disp.curtChg = none)) ∧
    (∃ (a : Nat) (s : State), 10 ≤ s.disp.freeRun.2 ∧ s.disp.curtChg = some a ∧ (s.disp.freeRun.1 < 10 ∨ s.disp.curtDis = none)) ∧
    (∃ (s : State), s.disp.binding.src ≠ 0 ∧ s.extInput = none ∧ s.disp.extFault = false) ∧
    (∃ (u : Nat) (s : State), s.disp.holdUntil = some u ∧ u ≤ s.clock) ∧
    (∃ (a : Nat) (s : State), (s.guard.pcsCmd = 1 ∨ s.guard.pcsCmd = 2) ∧ s.guard.pcsAt = some a ∧ a + 10000000 ≤ s.clock ∧ s.guard.failed = false) ∧
    (∃ (a : Nat) (s : State), s.guard.pcsCmd = 3 ∧ 0 < s.guard.releases ∧ s.guard.pcsAt = some a ∧ a + 2000000 ≤ s.clock ∧ s.guard.failed = false) ∧
    (∃ (a : Nat) (s : State), s.guard.pcsCmd = 3 ∧ s.guard.releases = 0 ∧ s.guard.pcsAt = some a ∧ a + 10000000 ≤ s.clock) :=
  ⟨⟨up.modMark 2 fun _ => dueMark, by decide +kernel⟩,
    ⟨State.reset.modMark 2 fun _ => dueMark, by decide +kernel⟩,
    ⟨up.onGuard fun g => { g with stops := [3], stopAt := [(3, 5)] }, by decide +kernel⟩,
    ⟨up.onDisp fun d => { d with needRun := (10, 0) }, by decide +kernel⟩,
    ⟨up.onDisp fun d => { d with needRun := (0, 10) }, by decide +kernel⟩,
    ⟨100, late (up.onDisp fun d => { d with freeRun := (10, 0), curtDis := some 100 }), by decide +kernel⟩,
    ⟨100, late (up.onDisp fun d => { d with freeRun := (0, 10), curtChg := some 100 }), by decide +kernel⟩,
    ⟨(up.onDisp fun d => { d with binding := { d.binding with src := 1, ch := 2, failsafe := 1 } }).onLoops fun l => { l with ainStat := [(2, 1)] }, by decide +kernel⟩,
    ⟨100, late (up.onDisp fun d => { d with holdUntil := some 100 }), by decide +kernel⟩,
    ⟨100, late (up.onGuard fun g => { g with pcsCmd := 1, pcsAt := some 100 }), by decide +kernel⟩,
    ⟨100, late (up.onGuard fun g => { g with pcsCmd := 3, releases := 2, pcsAt := some 100 }), by decide +kernel⟩,
    ⟨100, late (up.onGuard fun g => { g with pcsCmd := 3, pcsAt := some 100 }), by decide +kernel⟩⟩
theorem witness_HardwareActionsReleaseAtOnce :
    (∃ (us_ : Nat) (s : State), s.tablesOk = true ∧ s.power.pwrgd = true ∧ s.guard.stopOk = true ∧ 50 ≤ us_) ∧
    (∃ (us_ : Nat) (s : State), s.power.pwrgd = true ∧ s.guard.stopOk = true ∧ 50 ≤ us_) ∧
    (∃ (s : State), s.tablesOk = true ∧ s.power.pwrgd = true) ∧
    (∃ (us_ : Nat) (s : State), s.power.pwrgd = true ∧ 50 ≤ us_) ∧
    (∃ (n : Nat) (s : State), s.power.pwrgd = true ∧ n ≠ 0) ∧
    (∃ (f : Nat) (hi : Bool) (ns : Nat) (s : State), s.tablesOk = true ∧ s.power.pwrgd = true ∧ s.analogue = true ∧ bit (s.fpi f).cfg (if hi then 0 else 1) = true ∧ wfld (s.fpi f).cfg 31 28 * 20 ≤ ns ∧ (s.fpi f).eventOnly = true ∧ (s.fpi f).fired = false) ∧
    (∃ (f : Nat) (hi : Bool) (ns : Nat) (s : State), s.tablesOk = true ∧ s.power.pwrgd = true ∧ s.analogue = true ∧ bit (s.fpi f).cfg (if hi then 0 else 1) = true ∧ wfld (s.fpi f).cfg 31 28 * 20 ≤ ns ∧ (s.fpi f).eventOnly = false ∧ (s.fpi f).latched ≠ 0) ∧
    (∃ (f : Nat) (hi : Bool) (ns : Nat) (s : State), s.tablesOk = true ∧ s.power.pwrgd = true ∧ s.analogue = true ∧ bit (s.fpi f).cfg (if hi then 0 else 1) = true ∧ wfld (s.fpi f).cfg 31 28 * 20 ≤ ns ∧ (s.fpi f).eventOnly = false ∧ (s.fpi f).latched = 0 ∧ (s.fpi f).scope = 1) ∧
    (∃ (f : Nat) (hi : Bool) (ns : Nat) (s : State), s.tablesOk = true ∧ s.power.pwrgd = true ∧ s.analogue = true ∧ bit (s.fpi f).cfg (if hi then 0 else 1) = true ∧ wfld (s.fpi f).cfg 31 28 * 20 ≤ ns ∧ (s.fpi f).latched = 0 ∧ (s.fpi f).scope = 2) ∧
    (∃ (f : Nat) (hi : Bool) (ns : Nat) (s : State), s.tablesOk = true ∧ s.power.pwrgd = true ∧ s.analogue = true ∧ bit (s.fpi f).cfg (if hi then 0 else 1) = true ∧ wfld (s.fpi f).cfg 31 28 * 20 ≤ ns ∧ (s.fpi f).eventOnly = false ∧ (s.fpi f).latched = 0 ∧ (s.fpi f).scope = 0) ∧
    (∃ (_ : Nat) (s : State), s.tablesOk = true) :=
  ⟨⟨50, withStr.onGuard fun g => { g with stopOk := true }, by decide +kernel⟩,
    ⟨50, up.onGuard fun g => { g with stopOk := true }, by decide +kernel⟩,
    ⟨withStr, by decide +kernel⟩,
    ⟨50, up, by decide +kernel⟩,
    ⟨3, up, by decide +kernel⟩,
    ⟨2, true, 200, up.modFpi 2 fun f => { f with cfg := 0xA0000001 }, by decide +kernel⟩,
    ⟨2, false, 200, up.modFpi 2 fun f => { f with cfg := 0xA0000002, act := 0x10001, latched := 1 }, by decide +kernel⟩,
    ⟨2, true, 200, withStr.modFpi 2 fun f => { f with cfg := 0xA0000001, act := 0x10001 }, by decide +kernel⟩,
    ⟨2, true, 200, withStr.modFpi 2 fun f => { f with cfg := 0xA0000001, act := 0x20001, tgt := 0x30005 }, by decide +kernel⟩,
    ⟨2, true, 200, withStr.modFpi 2 fun f => { f with cfg := 0xA0000001, act := 0x00001 }, by decide +kernel⟩,
    ⟨2, withStr.modFpi 2 fun f => { f with fired := true, beyond := true }, by decide +kernel⟩⟩
theorem witness_EmergencyRequestsTripInOneCycle :
    (∃ (_ : List Int) (_ : Bool) (_ : Nat) (s : State), s.power.pwrgd = true ∧ s.guard.failed = false ∧ s.sys.shut = false ∧ s.cycleDue = true) ∧
    (∃ (convs : List Int) (m : Bool) (x : Nat) (r : Req) (s : State) (t : State), s.tablesOk = true ∧ s.power.pwrgd = true ∧ s.guard.failed = false ∧ s.sys.shut = false ∧ r ∈ s.guard.reqs ∧ r.kind = 1 ∧ r.string = none ∧ s.cycleDue = true ∧ s.guard.clears = [] ∧ exec (.guardCycle convs m false x) s = .next t) ∧
    (∃ (convs : List Int) (m : Bool) (x : Nat) (r : Req) (s : State) (t : State) (_ : Nat), s.tablesOk = true ∧ s.power.pwrgd = true ∧ s.guard.failed = false ∧ s.sys.shut = false ∧ r ∈ s.guard.reqs ∧ r.kind = 1 ∧ r.string = none ∧ s.cycleDue = true ∧ s.guard.clears = [] ∧ exec (.guardCycle convs m false x) s = .next t) ∧
    (∃ (convs : List Int) (x : Nat) (a : Nat) (c : Instr) (s : State), s.tablesOk = true ∧ s.power.pwrgd = true ∧ s.guard.failed = false ∧ s.sys.shut = false ∧ ((c = .guardCycle convs true true x ∧ s.cycleDue = true) ∨ (c = .guardWatchdog ∧ s.guard.lastCycle = some a ∧ a + 200000 ≤ s.clock))) :=
  ⟨⟨[100, 200], false, 0, withStr, by decide +kernel⟩,
    ⟨[100, 200], false, 0, bankReq, withStr.onGuard fun g => { g with reqs := [bankReq] }, got (exec (.guardCycle [100, 200] false false 0) (withStr.onGuard fun g => { g with reqs := [bankReq] })), by and_intros <;> first | exact next_of _ (by decide +kernel) | decide +kernel⟩,
    ⟨[100, 200], false, 0, bankReq, withStr.onGuard fun g => { g with reqs := [bankReq] }, got (exec (.guardCycle [100, 200] false false 0) (withStr.onGuard fun g => { g with reqs := [bankReq] })), (3 : Nat), by and_intros <;> first | exact next_of _ (by decide +kernel) | decide +kernel⟩,
    ⟨[], 0, 0, .guardCycle [] true true 0, withStr, by decide +kernel⟩⟩
theorem witness_CausesAskTheGuard :
    (∃ (s : State), s.sys.run = .running) ∧
    (∃ (a : Nat) (s : State), s.power.pwrgd = true ∧ s.guard.failed = false ∧ s.guard.silent = false ∧ s.guard.beatAt = some a ∧ a + 200000 * s.guard.beatMs ≤ s.clock) ∧
    (∃ (port : Nat) (sid : Nat) (level : Nat) (s : State), let k := strKey port sid; s.tablesOk = true ∧ level < 10 ∧ k ∈ s.est.configured ∧ level ∉ (s.str k).crossed ∧ s.levelDue k level = true) ∧
    (∃ (port : Nat) (pos : Nat) (n : NodeId) (s : State), (s.ring port).config.find? (fun n => decide (n.pos = pos)) = some n ∧ (s.ring port).state = .active ∧ 4 ≤ tget (0 : Nat) (s.ring port).missRun pos ∧ strKey port n.string ∈ s.est.configured ∧ (s.ring port).rejoinPending = false ∧ s.guard.seq = none) ∧
    (∃ (_ : Nat) (a : Nat) (v : Nat) (s : State), s.guard.openedAt = some (a, v) ∧ a + 200000 * (max 0 (s.par 0x6106)).toNat ≤ s.clock) ∧
    (∃ (port : Nat) (sid : Nat) (a : Nat) (x : Bool) (y : Bool) (s : State), let k := strKey port sid; s.tablesOk = true ∧ port < 128 ∧ tfind? s.guard.strOpened k = some (a, x, y) ∧ ((a + 40000000 ≤ s.clock ∧ x = false ∧ (s.auxOpen k = false ∨ a + 40000000 < s.clock)) ∨ (a + 100000000 ≤ s.clock ∧ y = false ∧ (s.currentFell k = false ∨ a + 100000000 < s.clock)))) ∧
    (∃ (port : Nat) (sid : Nat) (a : Nat) (s : State), port < 128 ∧ tfind? s.guard.strOpened (strKey port sid) = some (a, true, true) ∧ a + 100000000 ≤ s.clock) ∧
    (∃ (port : Nat) (s : State), s.tablesOk = true ∧ (s.ring port).rejoinPending = true ∧ (s.ring port).state = .active ∧ 3 ≤ (s.ring port).unflagged ∧ s.guard.connected = true ∧ s.guard.seq = none ∧ s.sys.run = .running) :=
  ⟨⟨up, by decide +kernel⟩,
    ⟨100, late (up.onGuard fun g => { g with beatAt := some 100, beatMs := 1000 }), by decide +kernel⟩,
    ⟨5, 3, 6, measuredStr.modStr k3 fun q => { q with timers := [(6, 100)] }, by decide +kernel⟩,
    ⟨5, 1, id1, withStr.modRing 5 fun r => { r with missRun := [(1, 4)] }, by decide +kernel⟩,
    ⟨3, 100, 5000, late (up.onGuard fun g => { g with openedAt := some (100, 5000) }), by decide +kernel⟩,
    ⟨5, 3, 100, false, false, measuredStr.onGuard fun g => { g with strOpened := [(k3, 100, false, false)] }, by decide +kernel⟩,
    ⟨5, 3, 100, measuredStr.onGuard fun g => { g with strOpened := [(k3, 100, true, true)] }, by decide +kernel⟩,
    ⟨5, (withStr.modRing 5 fun r => { r with rejoinPending := true, unflagged := 3 }).onGuard fun g => { g with connected := true }, by decide +kernel⟩⟩
theorem witness_SequenceStepsEnd :
    (∃ (q : SeqRun) (s : State), s.guard.seq = some q ∧ q.acted = true ∧ (q.section_ = 1 ∨ q.section_ = 3) ∧ q.runs = [] ∧ q.since + 200000 * q.now.timeout ≤ s.clock ∧ (q.now.cond = 0 ∨ s.condHolds q.now 0 0 = true ∨ q.now.onFail = 1)) ∧
    (∃ (q : SeqRun) (s : State), s.guard.seq = some q ∧ q.acted = true ∧ (q.section_ = 1 ∨ q.section_ = 3) ∧ q.runs = [] ∧ q.since + 200000 * q.now.timeout ≤ s.clock ∧ q.now.cond ≠ 0 ∧ s.condHolds q.now 0 0 = false ∧ q.now.onFail = 2) ∧
    (∃ (q : SeqRun) (s : State), s.guard.seq = some q ∧ q.acted = true ∧ (q.section_ = 1 ∨ q.section_ = 3) ∧ q.runs = [] ∧ q.since + 200000 * q.now.timeout ≤ s.clock ∧ q.now.cond ≠ 0 ∧ s.condHolds q.now 0 0 = false ∧ q.now.onFail = 0 ∧ q.section_ = 3) ∧
    (∃ (q : SeqRun) (s : State), s.guard.seq = some q ∧ q.acted = true ∧ (q.section_ = 1 ∨ q.section_ = 3) ∧ q.runs = [] ∧ q.since + 200000 * q.now.timeout ≤ s.clock ∧ q.now.cond ≠ 0 ∧ s.condHolds q.now 0 0 = false ∧ q.now.onFail = 0 ∧ q.section_ = 1) ∧
    (∃ (q : SeqRun) (r : StrRun) (p : Nat) (s : State), s.tablesOk = true ∧ s.guard.seq = some q ∧ q.runs.find? (fun r => decide (keyPort r.string = p)) = some r ∧ r.acted = true ∧ r.since + 200000 * (q.nowOf r).timeout ≤ s.clock ∧ ((q.nowOf r).cond = 0 ∨ s.condHolds (q.nowOf r) r.string r.gen = true ∨ (q.nowOf r).onFail = 1)) ∧
    (∃ (q : SeqRun) (r : StrRun) (p : Nat) (s : State), s.tablesOk = true ∧ s.guard.seq = some q ∧ q.runs.find? (fun r => decide (keyPort r.string = p)) = some r ∧ r.acted = true ∧ r.since + 200000 * (q.nowOf r).timeout ≤ s.clock ∧ (q.nowOf r).cond ≠ 0 ∧ s.condHolds (q.nowOf r) r.string r.gen = false ∧ (q.nowOf r).onFail = 0) ∧
    (∃ (q : SeqRun) (s : State), s.guard.seq = some q ∧ q.acted = true ∧ q.section_ = 1 ∧ q.now.op = 1 ∧ q.now.role = 3 ∧ q.now.cond = 1 ∧ q.half = false ∧ q.since + 100000 * q.now.timeout ≤ s.clock ∧ s.guard.vlink * 2000 < (q.now.val : Int) * s.guard.vbank) ∧
    (∃ (q : SeqRun) (a : Nat) (s : State), s.tablesOk = true ∧ s.guard.seq = some q ∧ q.section_ = 3 ∧ q.zeroAt = some a ∧ a + 40000000 ≤ s.clock ∧ (s.roleOn q.table 1 = true ∨ s.roleOn q.table 2 = true)) :=
  ⟨⟨seq0 1 1, inSeq (seq0 1 1), by decide +kernel⟩,
    ⟨{ seq0 1 0 with table := { SeqTable.reset with connect := [⟨1, 1, 0, 1, 950, 5, 2⟩] } }, inSeq { seq0 1 0 with table := { SeqTable.reset with connect := [⟨1, 1, 0, 1, 950, 5, 2⟩] } }, by decide +kernel⟩,
    ⟨{ seq0 3 0 with table := { SeqTable.reset with disconnect := [⟨4, 0, 1, 1, 50, 150, 0⟩] } }, inSeq { seq0 3 0 with table := { SeqTable.reset with disconnect := [⟨4, 0, 1, 1, 50, 150, 0⟩] } }, by decide +kernel⟩,
    ⟨seq0 1 3, inSeq (seq0 1 3), by decide +kernel⟩,
    ⟨seqS 1, ⟨k3, [], 1, true, 0, 0⟩, 5, inSeq (seqS 1), by decide +kernel⟩,
    ⟨seqS 0, ⟨k3, [], 0, true, 0, 0⟩, 5, inSeq (seqS 0), by decide +kernel⟩,
    ⟨seq0 1 3, (inSeq (seq0 1 3)).onGuard fun g => { g with vbank := 1000 }, by decide +kernel⟩,
    ⟨{ seq0 3 0 with zeroAt := some 100, table := { SeqTable.reset with roles := [0, 1, 2, 3] } }, 100, (inSeq { seq0 3 0 with zeroAt := some 100, table := { SeqTable.reset with roles := [0, 1, 2, 3] } }).onGuard fun g => { g with cmd := 3 }, by decide +kernel⟩⟩
theorem witness_RingsAreFetchedAndPosted_1 :
    (∃ (_ : Nat) (_ : Nat) (s : State), s.tablesOk = true ∧ s.hostWrites = true) ∧
    (∃ (_ : Nat) (_ : Nat) (s : State), s.tablesOk = true ∧ s.hostWrites = true) ∧
    (∃ (n : Nat) (v : Nat) (s : State), s.tablesOk = true ∧ s.hostWrites = true ∧ (s.page n).epoch ≠ v % 256) ∧
    (∃ (n : Nat) (s : State), s.tablesOk = true ∧ s.hostWrites = true ∧ (s.page n).rqEn = false) ∧
    (∃ (n : Nat) (s : State), s.tablesOk = true ∧ s.hostWrites = true ∧ (s.page n).rsEn = false) ∧
    (∃ (n : Nat) (s : State), s.hostWrites = true ∧ s.power.pwrgd = true ∧ n ≠ 0) ∧
    (∃ (s : State), s.hostWrites = true ∧ s.power.pwrgd = true) ∧
    (∃ (_ : Nat) (v : Nat) (s : State), s.tablesOk = true ∧ s.hostWrites = true ∧ v ≠ 0x53544F50) ∧
    (∃ (n : Nat) (s : State), s.tablesOk = true ∧ s.hostWrites = true ∧ (s.page n).cntAOld.1 ≠ s.clock) ∧
    (∃ (n : Nat) (_ : List Byte) (s : State), s.tablesOk = true ∧ s.fetchable n = true ∧ s.inTurn n = true) ∧
    (∃ (n : Nat) (_ : List Byte) (s : State), (s.fetchable n = false ∨ s.inTurn n = false)) ∧
    (∃ (n : Nat) (slot : List Byte) (s : State), let h := Hdr.of slot; s.tablesOk = true ∧ s.fetchable n = true ∧ s.inTurn n = true ∧ (h.epoch ≠ (s.page n).epoch ∨ (s.page n).busyTag h.tag = true)) :=
  ⟨⟨3, 70, pg 3 fun p => { p with rqEn := true }, by decide +kernel⟩,
    ⟨3, 70, pg 3 fun p => { p with rsEn := true }, by decide +kernel⟩,
    ⟨3, 1, pg 3 fun p => { p with outstanding := [(7, false, 5)] }, by decide +kernel⟩,
    ⟨3, pg 3 fun p => { p with rqHead := 5 }, by decide +kernel⟩,
    ⟨3, pg 3 fun p => { p with rsHead := 5 }, by decide +kernel⟩,
    ⟨3, pg 3 fun p => p, by decide +kernel⟩,
    ⟨pg 0 fun p => p, by decide +kernel⟩,
    ⟨3, 5, pg 3 fun p => p, by decide +kernel⟩,
    ⟨3, (pg 3 fun p => { p with cntStale := 5, cntLate := 2, cntAOld := (9, 0) }), by decide +kernel⟩,
    ⟨3, hdr 0x0E01 7 0 0 0 3 0, pg 3 fun p => { p with rqEn := true, rqTail := 1 }, by decide +kernel⟩,
    ⟨3, hdr 0x0E01 7 0 0 0 3 0, pg 3 fun p => p, by decide +kernel⟩,
    ⟨3, hdr 0x0E01 7 1 0 0 3 0, pg 3 fun p => { p with rqEn := true, rqTail := 1 }, by decide +kernel⟩⟩
theorem witness_RingsAreFetchedAndPosted_2 :
    (∃ (n : Nat) (slot : List Byte) (s : State), let h := Hdr.of slot; s.tablesOk = true ∧ s.fetchable n = true ∧ s.inTurn n = true ∧ h.epoch = (s.page n).epoch ∧ (s.page n).busyTag h.tag = false ∧ s.sys.run ≠ .restarting ∧ h.check false n ((slot.drop 16).take (min h.len 240)) = none) ∧
    (∃ (n : Nat) (r : Resp) (s : State), s.tablesOk = true ∧ s.sys.d3 = false ∧ (s.page n).rsEn = true ∧ (s.page n).rsFull = false ∧ (n ≠ 0 ∨ s.sys.wakeDue = none) ∧ (s.page n).waitingFor? false = some r ∧ r.rq.epoch = (s.page n).epoch) ∧
    (∃ (n : Nat) (r : Resp) (s : State), s.tablesOk = true ∧ s.sys.d3 = false ∧ (s.page n).rsEn = true ∧ (s.page n).rsFull = false ∧ (n ≠ 0 ∨ s.sys.wakeDue = none) ∧ (s.page n).waitingFor? false = some r ∧ r.rq.epoch ≠ (s.page n).epoch) ∧
    (∃ (n : Nat) (r : Resp) (s : State), s.tablesOk = true ∧ (s.sys.eth0 = true ∨ s.sys.eth1 = true) ∧ (s.page n).waitingFor? true = some r ∧ r.rq.epoch = (s.page n).epoch) ∧
    (∃ (n : Nat) (a : Nat) (s : State), s.tablesOk = true ∧ bit (s.page n).irqMod 31 = true ∧ wfld (s.page n).irqMod 15 0 ≠ 0 ∧ (s.page n).irqSince = some a ∧ a + 200 * wfld (s.page n).irqMod 15 0 ≤ s.clock) :=
  ⟨⟨3, hdr 0x0E01 7 0 0 0 3 0, pg 3 fun p => { p with rqEn := true, rqTail := 1 }, by decide +kernel⟩,
    ⟨3, resp3 false 0, pg 3 fun p => { p with rsEn := true, waiting := [resp3 false 0] }, by decide +kernel⟩,
    ⟨3, resp3 false 1, pg 3 fun p => { p with rsEn := true, waiting := [resp3 false 1] }, by decide +kernel⟩,
    ⟨3, resp3 true 0, eth fun p => { p with waiting := [resp3 true 0] }, by decide +kernel⟩,
    ⟨3, 100, late (pg 3 fun p => { p with irqMod := 0x80000005, irqSince := some 100, irqPend := 2 }), by decide +kernel⟩⟩
theorem witness_DatagramsAreAuthenticatedAndFresh :
    (∃ (port : Nat) (b : List Byte) (net : Bool) (s : State), let h := Hdr.of b; let body := b.take (16 + h.len); let i := fld h.flags 4 4; let n := h.tenant; s.tablesOk = true ∧ s.ethOpen port = true ∧ s.sys.holdup = false ∧ s.serving = true ∧ (b.length ≠ 48 + h.len ∨ (s.firstKey port h (body.drop 16) net = false ∧ s.macOk n i body (b.drop (16 + h.len)) = false))) ∧
    (∃ (port : Nat) (b : List Byte) (net : Bool) (s : State), let h := Hdr.of b; let body := b.take (16 + h.len); let i := fld h.flags 4 4; let n := h.tenant; s.tablesOk = true ∧ s.ethOpen port = true ∧ s.sys.holdup = false ∧ s.serving = true ∧ b.length = 48 + h.len ∧ s.firstKey port h (body.drop 16) net = false ∧ s.macOk n i body (b.drop (16 + h.len)) = true ∧ (s.page n).fresh i h.seq = false) ∧
    (∃ (port : Nat) (b : List Byte) (net : Bool) (s : State), let h := Hdr.of b; let body := b.take (16 + h.len); let i := fld h.flags 4 4; let n := h.tenant; s.tablesOk = true ∧ s.ethOpen port = true ∧ s.sys.holdup = false ∧ s.serving = true ∧ b.length = 48 + h.len ∧ s.firstKey port h (body.drop 16) net = false ∧ s.macOk n i body (b.drop (16 + h.len)) = true ∧ (s.page n).fresh i h.seq = true ∧ h.flags.testBit 2 = false ∧ h.flags.testBit 1 = false ∧ h.epoch = (s.page n).epoch ∧ (s.page n).busyTag h.tag = false ∧ ((s.page n).outstanding.filter (fun o => o.2.1)).length < 64 ∧ s.sys.run ≠ .restarting ∧ h.check true n (body.drop 16) = none ∧ (∀ m, (s.page m).arrived = [])) ∧
    (∃ (port : Nat) (b : List Byte) (s : State), let h := Hdr.of b; let i := fld h.flags 4 4; s.tablesOk = true ∧ s.ethOpen port = true ∧ s.power.pwrgd = true ∧ h.op = 0 ∧ h.tag = 0 ∧ h.len = 0 ∧ h.flags = i * 16 ∧ b.length = 48 ∧ s.macOk h.tenant i (b.take 16) (b.drop 16) = false) ∧
    (∃ (port : Nat) (b : List Byte) (s : State), let h := Hdr.of b; let i := fld h.flags 4 4; s.tablesOk = true ∧ s.ethOpen port = true ∧ s.power.pwrgd = true ∧ h.op = 0 ∧ h.tag = 0 ∧ h.len = 0 ∧ h.flags = i * 16 ∧ b.length = 48 ∧ s.macOk h.tenant i (b.take 16) (b.drop 16) = true ∧ (s.page h.tenant).fresh (2 + i) h.seq = false) ∧
    (∃ (port : Nat) (b : List Byte) (s : State), let h := Hdr.of b; let i := fld h.flags 4 4; s.tablesOk = true ∧ s.ethOpen port = true ∧ s.power.pwrgd = true ∧ h.op = 0 ∧ h.tag = 0 ∧ h.len = 0 ∧ h.flags = i * 16 ∧ b.length = 48 ∧ s.macOk h.tenant i (b.take 16) (b.drop 16) = true ∧ (s.page h.tenant).fresh (2 + i) h.seq = true ∧ h.tenant ≠ 0) ∧
    (∃ (c : Cursor) (s : State), s.sys.cursors.find? (fun d => decide (d.id = c.id)) = some c ∧ c.since + 2000000000 ≤ s.clock) ∧
    (∃ (port : Nat) (domain : Nat) (m : BitVec 64) (s : State), let off : Int := (s.sys.wall.toNat : Int) - m.toNat; port = s.sys.ptpPort ∧ (domain : Int) = s.parC 0x110B ∧ 1000000 < off.natAbs) ∧
    (∃ (port : Nat) (domain : Nat) (m : BitVec 64) (s : State), let off : Int := (s.sys.wall.toNat : Int) - m.toNat; port = s.sys.ptpPort ∧ (domain : Int) = s.parC 0x110B ∧ off.natAbs ≤ 1000000) ∧
    (∃ (up : Bool) (s : State), s.sys.eth0 ≠ up) :=
  ⟨⟨0, hdr 0x0E01 7 0 0 0 3 9, false, eth fun p => p, by decide +kernel⟩,
    ⟨0, dgram 0x0E01 7 0 0, false, eth fun p => p, by decide +kernel⟩,
    ⟨0, dgram 0x0E01 7 0 9, false, eth fun p => p, by dsimp only; and_intros <;> first | exact quiet_eth | decide +kernel⟩,
    ⟨0, hdr 0 0 0 0 0 3 9 ++ List.replicate 32 0, eth fun p => p, by decide +kernel⟩,
    ⟨0, dgram 0 0 0 0, eth fun p => p, by decide +kernel⟩,
    ⟨0, dgram 0 0 0 9, eth fun p => p, by decide +kernel⟩,
    ⟨cur1, late (up.onSys fun y => { y with cursors := [cur1] }), by decide +kernel⟩,
    ⟨0, 0, 5000000, up, by decide +kernel⟩,
    ⟨0, 0, 500, up.onSys fun y => { y with ptpGood := 15, wall := 700 }, by decide +kernel⟩,
    ⟨true, withStr, by decide +kernel⟩⟩
theorem witness_EthernetQueueHolds64 :
    (∃ (c : Instr) (s : State) (t : State) (n : Nat), s.tablesOk = true ∧ ((∃ port b net, c = .mailboxDatagram port b net) ∨ (∃ m slot ok, c = .requestFetch m slot ok)) ∧ exec c s = .next t ∧ ((s.page n).outstanding.filter (fun o => o.2.1)).length + (s.page n).arrived.length ≤ 64) ∧
    (∃ (port : Nat) (b : List Byte) (net : Bool) (s : State), let h := Hdr.of b; let body := b.take (16 + h.len); let i := fld h.flags 4 4; let n := h.tenant; s.tablesOk = true ∧ s.ethOpen port = true ∧ s.sys.holdup = false ∧ s.serving = true ∧ s.sys.d3 = false ∧ b.length = 48 + h.len ∧ s.firstKey port h (body.drop 16) net = false ∧ s.macOk n i body (b.drop (16 + h.len)) = true ∧ (s.page n).fresh i h.seq = true ∧ h.flags.testBit 2 = false ∧ h.flags.testBit 1 = false ∧ h.epoch = (s.page n).epoch ∧ (s.page n).busyTag h.tag = false ∧ 64 ≤ ((s.page n).outstanding.filter (fun o => o.2.1)).length + (s.page n).arrived.length) :=
  ⟨⟨.requestFetch 3 (hdr 0x0E01 7 0 0 0 3 0) true, pg 3 fun p => { p with rqEn := true, rqTail := 1 }, got (exec (.requestFetch 3 (hdr 0x0E01 7 0 0 0 3 0) true) (pg 3 fun p => { p with rqEn := true, rqTail := 1 })), 3, by and_intros <;> first | exact Or.inr ⟨_, _, _, rfl⟩ | exact next_of _ (by decide +kernel) | decide +kernel⟩,
    ⟨0, dgram 0x0E01 99 0 9, false, eth fun p => { p with outstanding := (List.range 64).map fun i => (i, true, 0) }, by decide +kernel⟩⟩
theorem witness_EndpointResetsAndWakes :
    (∃ (_ : Bool) (s : State), s.tablesOk = true) ∧
    (∃ (_ : Nat) (_ : Nat) (s : State), s.sys.pcieUp = false ∧ s.power.pwrgd = true) ∧
    (∃ (s : State), s.sys.pcieUp = true) ∧
    (∃ (s : State), s.sys.d3 = true ∧ s.sys.pme = false) ∧
    (∃ (s : State), s.sys.d3 = true ∧ s.sys.pme = true) ∧
    (∃ (n : Nat) (_ : State), n < 7) :=
  ⟨⟨true, pg 3 fun p => { p with rqEn := true }, by decide +kernel⟩,
    ⟨4, 2, up, by decide +kernel⟩,
    ⟨up.onSys fun y => { y with pcieUp := true }, by decide +kernel⟩,
    ⟨up.onSys fun y => { y with d3 := true }, by decide +kernel⟩,
    ⟨up.onSys fun y => { y with d3 := true, pme := true }, by decide +kernel⟩,
    ⟨3, up, by decide +kernel⟩⟩
theorem witness_SystemAndSettingsRequestsComplete_1 :
    (∃ (rq : Rq) (s : State), s.takes (.identity rq) = true) ∧
    (∃ (rq : Rq) (s : State), s.takes (.status rq) = true) ∧
    (∃ (rq : Rq) (s : State), s.takes (.linkStatus rq) = true) ∧
    (∃ (rq : Rq) (s : State), s.takes (.whoami rq) = true) ∧
    (∃ (rq : Rq) (t : Nat) (a : Nat × Nat × Nat) (s : State), s.takes (.getAlloc rq t) = true ∧ s.accepted? t = some a) ∧
    (∃ (rq : Rq) (t : Nat) (s : State), s.takes (.getAlloc rq t) = true ∧ s.accepted? t = none) ∧
    (∃ (rq : Rq) (p : List Byte) (s : State), s.takes (.echo rq p) = true) ∧
    (∃ (rq : Rq) (target : Nat) (s : State), let m : Mode := if target = 2 then .commission else .standby; s.takes (.setMode rq target) = true ∧ (target = 2 ∨ target = 3) ∧ s.sys.mode = m) ∧
    (∃ (rq : Rq) (target : Nat) (s : State), let m : Mode := if target = 2 then .commission else .standby; s.takes (.setMode rq target) = true ∧ (target = 2 ∨ target = 3) ∧ s.sys.mode ≠ m ∧ s.modeMask target ≠ 0) ∧
    (∃ (rq : Rq) (target : Nat) (s : State), let m : Mode := if target = 2 then .commission else .standby; s.takes (.setMode rq target) = true ∧ (target = 2 ∨ target = 3) ∧ s.sys.mode ≠ m ∧ s.modeMask target = 0 ∧ s.nvOk = true) ∧
    (∃ (rq : Rq) (s : State), s.takes (.connect rq) = true ∧ s.disconnecting = false ∧ s.bankSet = true ∧ s.guard.weld = none ∧ s.connectMask ≠ 0) ∧
    (∃ (rq : Rq) (s : State), s.takes (.connect rq) = true ∧ s.disconnecting = false ∧ s.bankSet = true ∧ s.guard.weld = none ∧ s.connectMask = 0) :=
  ⟨⟨rq0, up, by decide +kernel⟩,
    ⟨rq0, up, by decide +kernel⟩,
    ⟨rq0, up, by decide +kernel⟩,
    ⟨rq0, up, by decide +kernel⟩,
    ⟨rq0, 3, (10, 10, 5), tenSt id, by decide +kernel⟩,
    ⟨rq0, 3, up, by decide +kernel⟩,
    ⟨rq0, [1, 2, 3], up, by decide +kernel⟩,
    ⟨rq0, 3, up, by decide +kernel⟩,
    ⟨rq0, 3, upIn .commission, by decide +kernel⟩,
    ⟨rq0, 2, up, by decide +kernel⟩,
    ⟨rq0, bankSt, by decide +kernel⟩,
    ⟨rq0, fitSt, by decide +kernel⟩⟩
theorem witness_SystemAndSettingsRequestsComplete_2 :
    (∃ (rq : Rq) (s : State), s.takes (.disconnect rq) = true ∧ s.disconnecting = false ∧ s.bankUp = true) ∧
    (∃ (rq : Rq) (s : State), s.tablesOk = true ∧ s.takes (.shutdown rq) = true ∧ s.sys.exchange = none ∧ s.nvOk = true ∧ s.sys.d3 = false) ∧
    (∃ (rq : Rq) (i : Nat) (dis : Nat) (chg : Nat) (e : Nat) (init : Nat) (s : State), s.tablesOk = true ∧ s.takes (.setAlloc rq i true dis chg e init) = true ∧ i ≠ 0 ∧ 1 ≤ e ∧ e ≤ 2 ^ 62 ∧ ((s.accepted? i).isSome = true ∨ init ≤ e) ∧ s.bankSet = true ∧ s.allocExceeds i dis chg e = none ∧ s.nvOk = true ∧ ((s.mark 3).en = true ∨ (s.mark 0).step ≠ 0)) ∧
    (∃ (rq : Rq) (i : Nat) (dis : Nat) (chg : Nat) (e : Nat) (init : Nat) (s : State), s.tablesOk = true ∧ s.takes (.setAlloc rq i false dis chg e init) = true ∧ i ≠ 0 ∧ 1 ≤ e ∧ e ≤ 2 ^ 62 ∧ (s.accepted? i).isSome = true ∧ (s.tenant i).deliv ≠ 0) ∧
    (∃ (rq : Rq) (i : Nat) (dis : Nat) (chg : Nat) (e : Nat) (init : Nat) (s : State), s.tablesOk = true ∧ s.takes (.setAlloc rq i false dis chg e init) = true ∧ i ≠ 0 ∧ 1 ≤ e ∧ e ≤ 2 ^ 62 ∧ (s.accepted? i).isSome = true ∧ (s.tenant i).deliv = 0 ∧ s.nvOk = true ∧ ((s.mark 3).en = true ∨ (s.mark 0).step ≠ 0)) ∧
    (∃ (rq : Rq) (n : Nat) (slot : Nat) (key : Nat) (s : State), s.tablesOk = true ∧ s.takes (.installKey rq n slot key) = true ∧ slot < 2 ∧ (rq.tenant = 0 ∨ rq.eth = false ∨ rq.slot ≠ slot) ∧ s.nvOk = true) ∧
    (∃ (rq : Rq) (param : Nat) (port : Nat) (string : Nat) (v : Int) (s : State), s.takes (.setParam rq param port string v) = true ∧ rowFor? 0x0110 param = none) ∧
    (∃ (rq : Rq) (param : Nat) (port : Nat) (string : Nat) (v : Int) (s : State) (r : ParamRow), s.takes (.setParam rq param port string v) = true ∧ rowFor? 0x0110 param = some r ∧ s.scopeOk r port string false = false) ∧
    (∃ (rq : Rq) (param : Nat) (port : Nat) (string : Nat) (v : Int) (s : State) (r : ParamRow), s.takes (.setParam rq param port string v) = true ∧ rowFor? 0x0110 param = some r ∧ s.scopeOk r port string false = true ∧ s.valueOk r v = false) ∧
    (∃ (rq : Rq) (param : Nat) (port : Nat) (string : Nat) (v : Int) (s : State) (r : ParamRow), s.takes (.setParam rq param port string v) = true ∧ rowFor? 0x0110 param = some r ∧ s.scopeOk r port string false = true ∧ s.valueOk r v = true ∧ (param ≠ 0x3101 ∨ s.csrcFailure v (s.scopeStrings port string) = none) ∧ s.nvOk = true) ∧
    (∃ (rq : Rq) (param : Nat) (port : Nat) (string : Nat) (r : ParamRow) (s : State), s.takes (.getParam rq param port string) = true ∧ rowFor? 0x0111 param = some r ∧ s.scopeOk r port string true = true) :=
  ⟨⟨rq0, (upIn .online).onGuard fun g => { g with cmd := 3 }, by decide +kernel⟩,
    ⟨rq0, up, by decide +kernel⟩,
    ⟨rq0, 3, 10, 10, 5, 1, m0 bankSt, by decide +kernel⟩,
    ⟨rq0, 3, 10, 10, 5, 1, tenSt fun q => { q with deliv := 5 }, by decide +kernel⟩,
    ⟨rq0, 3, 10, 10, 5, 1, m0 (tenSt id), by decide +kernel⟩,
    ⟨rq0, 3, 0, 77, up, by decide +kernel⟩,
    ⟨rq0, 0x3101, 255, 65535, 5, up, by decide +kernel⟩,
    ⟨rq0, 0x1101, 5, 0, 5, up, (⟨0x1101, .bank, some 49928, 1024, 65535⟩ : ParamRow), by decide +kernel⟩,
    ⟨rq0, 0x1101, 255, 65535, 5, up, (⟨0x1101, .bank, some 49928, 1024, 65535⟩ : ParamRow), by decide +kernel⟩,
    ⟨rq0, 0x1101, 255, 65535, 5000, up, (⟨0x1101, .bank, some 49928, 1024, 65535⟩ : ParamRow), by decide +kernel⟩,
    ⟨rq0, 0x1101, 255, 65535, (⟨0x1101, .bank, some 49928, 1024, 65535⟩ : ParamRow), up, by decide +kernel⟩⟩
theorem witness_PointAddressesNameTheirFields :
    (∃ (port : Nat) (pos : Nat) (input : Nat) (temp : Bool), port < 128 ∧ 1 ≤ pos ∧ pos ≤ 65534 ∧ input < (if temp then 8 else 32)) ∧
    (∃ (_ : Rq) (p : Nat) (_ : State), (∀ (port pos input : Nat) (temp : Bool), port < 128 → 1 ≤ pos → pos ≤ 65534 → input < (if temp then 8 else 32) → p ≠ (if temp then 2 ^ 31 else 0) + port * 2 ^ 21 + pos * 2 ^ 5 + input)) :=
  ⟨⟨127, 65534, 31, false, by decide +kernel⟩,
    ⟨rq0, 2 ^ 28 + 32, up, fun _ _ _ temp _ _ _ h => by cases temp <;> simp only [if_true, Bool.false_eq_true, if_false] at h ⊢ <;> omega⟩⟩
theorem witness_CellDataRequestsComplete_1 :
    (∃ (rq : Rq) (p : Nat) (s : State), s.takes (.readCell rq p) = true ∧ p / 2 ^ 28 % 8 = 0 ∧ s.cellKnown p = false) ∧
    (∃ (rq : Rq) (p : Nat) (s : State), s.takes (.readCell rq p) = true ∧ p / 2 ^ 28 % 8 = 0 ∧ s.cellKnown p = true ∧ s.est.pubGen = none) ∧
    (∃ (rq : Rq) (p : Nat) (s : State), s.takes (.readCell rq p) = true ∧ p / 2 ^ 28 % 8 = 0 ∧ s.cellKnown p = true ∧ s.est.pubGen ≠ none) ∧
    (∃ (rq : Rq) (p : Nat) (s : State), s.takes (.readTemp rq p) = true ∧ p / 2 ^ 28 % 8 = 0 ∧ s.tempKnown p = true) ∧
    (∃ (rq : Rq) (port : Nat) (string : Nat) (s : State), s.takes (.readString rq port string) = true ∧ s.oneString port string = true ∧ s.est.pubGen ≠ none) ∧
    (∃ (rq : Rq) (port : Nat) (string : Nat) (s : State), s.takes (.readStringThermal rq port string) = true ∧ s.oneString port string = true ∧ s.est.pubGen ≠ none) ∧
    (∃ (rq : Rq) (s : State), s.takes (.readBankThermal rq) = true ∧ s.est.pubGen ≠ none) ∧
    (∃ (rq : Rq) (p : Nat) (s : State), s.takes (.readLearned rq p) = true ∧ p / 2 ^ 28 % 8 = 0 ∧ s.cellKnown p = true) ∧
    (∃ (rq : Rq) (p : Nat) (s : State), s.takes (.readImpedance rq p) = true ∧ p / 2 ^ 28 % 8 = 0 ∧ s.cellKnown p = true) ∧
    (∃ (rq : Rq) (b : Bulk) (g : Nat) (s : State), s.bulkStarts (.bulkCells rq b none) rq b (some g) ∧ s.est.pubGen = some g ∧ (∀ k ∈ s.bulkSelChecks b, k.1 = true) ∧ s.sys.snaps = [] ∧ (∀ p ∈ s.bulkPoints b, p < 2 ^ 32 ∧ seqOlder g (s.cell p).pub.gen = false)) ∧
    (∃ (rq : Rq) (b : Bulk) (g : Nat) (s : State), s.bulkStarts (.bulkStrings rq b none) rq b (some g) ∧ s.est.pubGen = some g ∧ (∀ k ∈ s.bulkSelChecks b, k.1 = true)) ∧
    (∃ (rq : Rq) (b : Bulk) (g : Nat) (s : State), s.bulkStarts (.bulkStringThermal rq b none) rq b (some g) ∧ s.est.pubGen = some g ∧ (∀ k ∈ s.bulkSelChecks b, k.1 = true)) :=
  ⟨⟨rq0, 99, pubStr, by decide +kernel⟩,
    ⟨rq0, cellPoint 5 1 0, withStr, by decide +kernel⟩,
    ⟨rq0, cellPoint 5 1 0, pubStr, by decide +kernel⟩,
    ⟨rq0, 2 ^ 31 + cellPoint 5 1 0, pubStr, by decide +kernel⟩,
    ⟨rq0, 5, 3, pubStr, by decide +kernel⟩,
    ⟨rq0, 5, 3, pubStr, by decide +kernel⟩,
    ⟨rq0, pubStr, by decide +kernel⟩,
    ⟨rq0, cellPoint 5 1 0, pubStr, by decide +kernel⟩,
    ⟨rq0, cellPoint 5 1 0, pubStr, by decide +kernel⟩,
    ⟨rq0, ball, 7, pubStr, by and_intros <;> first | (unfold State.bulkStarts; decide +kernel) | decide +kernel⟩,
    ⟨rq0, ball, 7, pubStr, by and_intros <;> first | (unfold State.bulkStarts; decide +kernel) | decide +kernel⟩,
    ⟨rq0, ball, 7, pubStr, by and_intros <;> first | (unfold State.bulkStarts; decide +kernel) | decide +kernel⟩⟩
theorem witness_CellDataRequestsComplete_2 :
    (∃ (rq : Rq) (b : Bulk) (s : State), s.bulkStarts (.bulkLearned rq b none) rq b none ∧ (∀ k ∈ s.bulkSelChecks b, k.1 = true)) ∧
    (∃ (rq : Rq) (b : Bulk) (s : State), s.bulkStarts (.bulkImpedance rq b none) rq b none ∧ (∀ k ∈ s.bulkSelChecks b, k.1 = true)) ∧
    (∃ (rq : Rq) (b : Bulk) (dma : Option Nat) (s : State), s.takes (.bulkLearned rq b dma) = true ∧ s.sys.holdup = false ∧ (∀ k ∈ bufferChecks rq b, k.1 = true) ∧ s.cursorOld rq b.cursor = false ∧ b.cursor ≠ 0 ∧ s.openCursor? rq b.cursor = none) ∧
    (∃ (rq : Rq) (b : Bulk) (dma : Option Nat) (s : State), s.takes (.bulkImpedance rq b dma) = true ∧ s.sys.holdup = false ∧ (∀ k ∈ bufferChecks rq b, k.1 = true) ∧ s.cursorOld rq b.cursor = false ∧ b.cursor = 0 ∧ s.openCursor? rq 0 = none ∧ (∀ k ∈ s.bulkSelChecks b, k.1 = true) ∧ s.cursorFits rq.tenant none = false) ∧
    (∃ (rq : Rq) (b : Bulk) (c : Cursor) (s : State), s.takes (.bulkStrings rq b none) = true ∧ s.tablesOk = true ∧ s.sys.holdup = false ∧ s.sys.d3 = false ∧ (∀ k ∈ bufferChecks rq b, k.1 = true) ∧ s.cursorOld rq b.cursor = false ∧ s.openCursor? rq b.cursor = some c ∧ c.opcode = 0x0321 ∧ c.sel = (b.port, b.string, b.arg) ∧ closes rq = true) ∧
    (∃ (rq : Rq) (b : Bulk) (c : Cursor) (s : State), s.takes (.bulkStrings rq b none) = true ∧ s.tablesOk = true ∧ s.sys.holdup = false ∧ s.sys.d3 = false ∧ (∀ k ∈ bufferChecks rq b, k.1 = true) ∧ s.cursorOld rq b.cursor = false ∧ s.openCursor? rq b.cursor = some c ∧ c.opcode = 0x0321 ∧ c.sel = (b.port, b.string, b.arg) ∧ closes rq = false) ∧
    (∃ (rq : Rq) (port : Nat) (pos : Nat) (map : List Nat) (s : State) (r : Refuse), s.takes (.setTempMap rq port pos map) = true ∧ (∀ k ∈ s.nodeChecks port pos, k.1 = true) ∧ s.mapRefuse port pos map = some r) ∧
    (∃ (rq : Rq) (port : Nat) (pos : Nat) (map : List Nat) (s : State), s.takes (.setTempMap rq port pos map) = true ∧ (∀ k ∈ s.nodeChecks port pos, k.1 = true) ∧ s.mapRefuse port pos map = none ∧ s.nvOk = true) ∧
    (∃ (rq : Rq) (port : Nat) (pos : Nat) (s : State), ∃ m, s.takes (.getTempMap rq port pos) = true ∧ (∀ k ∈ s.nodeChecks port pos, k.1 = true) ∧ tfind? s.sys.conf.maps (nodeKey port pos) = some m) ∧
    (∃ (rq : Rq) (port : Nat) (pos : Nat) (s : State), s.takes (.getTempMap rq port pos) = true ∧ (∀ k ∈ s.nodeChecks port pos, k.1 = true)) ∧
    (∃ (rq : Rq) (port : Nat) (string : Nat) (levels : List Int) (s : State), ∃ i, s.takes (.writeThermal rq port string levels) = true ∧ s.someString port string = true ∧ i < 7 ∧ (∀ j < i, (nth (0, 0) thermalRanges j).1 ≤ nth 0 levels j ∧ nth 0 levels j ≤ (nth (0, 0) thermalRanges j).2) ∧ ¬((nth (0, 0) thermalRanges i).1 ≤ nth 0 levels i ∧ nth 0 levels i ≤ (nth (0, 0) thermalRanges i).2)) ∧
    (∃ (rq : Rq) (port : Nat) (string : Nat) (levels : List Int) (s : State), s.takes (.writeThermal rq port string levels) = true ∧ s.someString port string = true ∧ (∀ i < 7, (nth (0, 0) thermalRanges i).1 ≤ nth 0 levels i ∧ nth 0 levels i ≤ (nth (0, 0) thermalRanges i).2) ∧ s.sys.exchange = none) :=
  ⟨⟨rq0, ball, pubStr, by and_intros <;> first | (unfold State.bulkStarts; decide +kernel) | decide +kernel⟩,
    ⟨rq0, ball, pubStr, by and_intros <;> first | (unfold State.bulkStarts; decide +kernel) | decide +kernel⟩,
    ⟨rq0, { ball with cursor := 9 }, none, pubStr, by decide +kernel⟩,
    ⟨rq0, ball, none, pubStr.onSys fun y => { y with cursors := (List.range 4).map fun i => { cur1 with id := i + 20, tenant := 0 } }, by decide +kernel⟩,
    ⟨{ rq0 with flags := 8 }, { ball with cursor := 4 }, ({ cur1 with tenant := 0, opcode := 0x0321, sel := (255, 65535, 0) }), pubStr.onSys fun y => { y with cursors := [{ cur1 with tenant := 0, opcode := 0x0321, sel := (255, 65535, 0) }] }, by decide +kernel⟩,
    ⟨rq0, { ball with cursor := 4 }, ({ cur1 with tenant := 0, opcode := 0x0321, sel := (255, 65535, 0) }), pubStr.onSys fun y => { y with cursors := [{ cur1 with tenant := 0, opcode := 0x0321, sel := (255, 65535, 0) }] }, by decide +kernel⟩,
    ⟨rq0, 5, 1, [9], pubStr, (⟨0x0302, 0, 9⟩ : Refuse), by decide +kernel⟩,
    ⟨rq0, 5, 1, [15], pubStr, by decide +kernel⟩,
    ⟨rq0, 5, 1, pubStr.onConf fun c => { c with maps := [(nodeKey 5 1, [1, 2])] }, [1, 2], by decide +kernel⟩,
    ⟨rq0, 5, 1, pubStr, by decide +kernel⟩,
    ⟨rq0, 255, 65535, [2000, 100], pubStr, 1, by decide +kernel⟩,
    ⟨rq0, 5, 3, [3000, 3100, 3500, 0, 0, 0, 100], pubStr, by decide +kernel⟩⟩
theorem witness_CellDataRequestsComplete_3 :
    (∃ (rq : Rq) (port : Nat) (string : Nat) (buf : Nat) (s : State), s.takes (.readThermal rq port string buf) = true ∧ s.oneString port string = true ∧ buf < 2) ∧
    (∃ (rq : Rq) (off : Nat) (count : Nat) (s : State), s.takes (.tinRead rq off count) = true ∧ off % 4 = 0 ∧ 1 ≤ count ∧ count ≤ 56 ∧ off + 4 * count ≤ 0x100) ∧
    (∃ (rq : Rq) (off : Nat) (data : List Nat) (s : State), ∃ e, let l := (wordOffsets off data.length).zip data; let t := l.foldl (fun t e => t.tinPut e.1 e.2) s; s.takes (.tinWrite rq off data) = true ∧ off % 4 = 0 ∧ 1 ≤ data.length ∧ data.length ≤ 56 ∧ off + 4 * data.length ≤ 0x100 ∧ reservedData? 0x0335 off data = none ∧ l.findSome? (fun x => t.tinJudge x.1 x.2) = some e) ∧
    (∃ (rq : Rq) (off : Nat) (data : List Nat) (s : State), let l := (wordOffsets off data.length).zip data; let t := l.foldl (fun t e => t.tinPut e.1 e.2) s; s.takes (.tinWrite rq off data) = true ∧ off % 4 = 0 ∧ 1 ≤ data.length ∧ data.length ≤ 56 ∧ off + 4 * data.length ≤ 0x100 ∧ reservedData? 0x0335 off data = none ∧ l.findSome? (fun x => t.tinJudge x.1 x.2) = none ∧ s.nvOk = true) ∧
    (∃ (rq : Rq) (g : Nat) (src : Nat) (ch : Nat) (unit : Nat) (l : List (Nat × Nat)) (s : State), s.takes (.setGroup rq g src ch unit l) = true ∧ g < 64 ∧ src < 3 ∧ (∀ k ∈ s.groupSource src ch unit, k.1 = true) ∧ s.nvOk = true ∧ src ≠ 0 ∧ 1 ≤ l.length ∧ l.length ≤ 58 ∧ s.groupUnknown l = none ∧ s.groupRefuse g (l.map (fun x => strKey x.1 x.2)).eraseDups = none) ∧
    (∃ (rq : Rq) (g : Nat) (src : Nat) (ch : Nat) (unit : Nat) (l : List (Nat × Nat)) (s : State), s.takes (.setGroup rq g src ch unit l) = true ∧ g < 64 ∧ src < 3 ∧ (∀ k ∈ s.groupSource src ch unit, k.1 = true) ∧ s.nvOk = true ∧ src = 0 ∧ l.length ≤ 58 ∧ (tfind? s.sys.conf.groups g).isSome = true ∧ s.groupRefuse g [] = none) ∧
    (∃ (rq : Rq) (g : Nat) (src : Nat) (ch : Nat) (unit : Nat) (ks : List Nat) (s : State), s.takes (.getGroup rq g) = true ∧ g < 64 ∧ tfind? s.sys.conf.groups g = some (src :: ch :: unit :: ks)) ∧
    (∃ (rq : Rq) (scope : Nat) (port : Nat) (id : Nat) (input : Nat) (s : State), let ps := s.resetCells scope port id input; s.tablesOk = true ∧ s.takes (.resetLearned rq scope port id input) = true ∧ scope ≤ 4 ∧ (port < 128 ∨ scope = 4) ∧ (scope = 0 → input < 32 ∧ s.cellKnown (cellPoint port id input) = true) ∧ (scope = 1 → s.stored port id = true) ∧ (scope = 2 → s.oneString port id = true) ∧ s.nvOk = true ∧ (∀ p ∈ ps, ∀ k, s.stringOf? p = some k → (s.str k).first = none)) ∧
    (∃ (rq : Rq) (port : Nat) (string : Nat) (s : State), s.tablesOk = true ∧ s.takes (.clearShort rq port string) = true ∧ s.someString port string = true ∧ s.nvOk = true) :=
  ⟨⟨rq0, 5, 3, 1, pubStr, by decide +kernel⟩,
    ⟨rq0, 0, 2, pubStr, by decide +kernel⟩,
    ⟨rq0, 0, [3], pubStr, outOfRange 0, by decide +kernel⟩,
    ⟨rq0, 0, [1], pubStr, by decide +kernel⟩,
    ⟨rq0, 2, 2, 0, 1, [(5, 3)], pubStr, by decide +kernel⟩,
    ⟨rq0, 2, 0, 0, 0, [], pubStr.onConf fun c => { c with groups := [(2, [2, 0, 1, k3])] }, by decide +kernel⟩,
    ⟨rq0, 2, 2, 0, 1, [k3], pubStr.onConf fun c => { c with groups := [(2, [2, 0, 1, k3])] }, by decide +kernel⟩,
    ⟨rq0, 0, 5, 1, 0, pubStr, by decide +kernel⟩,
    ⟨rq0, 5, 3, pubStr, by decide +kernel⟩⟩
theorem witness_StagedTablesAreExchanged_1 :
    (∃ (rq : Rq) (s : State), s.takes (.kernelInfo rq) = true) ∧
    (∃ (rq : Rq) (b : Bulk) (data : List Byte) (s : State), let l := (s.hostStores rq b data).bulkSource rq b data b.arg; s.bulkStarts (.loadImage rq b data none) rq b none ∧ (b.port < 128 ∨ b.port = 255) ∧ s.sys.exchange = none ∧ l.length < b.arg) ∧
    (∃ (rq : Rq) (b : Bulk) (data : List Byte) (s : State), let l := (s.hostStores rq b data).bulkSource rq b data b.arg; s.bulkStarts (.loadImage rq b data none) rq b none ∧ (b.port < 128 ∨ b.port = 255) ∧ s.sys.exchange = none ∧ l.length = b.arg ∧ imageFault l = none) ∧
    (∃ (rq : Rq) (b : Bulk) (data : List Byte) (s : State), ∃ c p, let l := (s.hostStores rq b data).bulkSource rq b data b.arg; s.bulkStarts (.loadImage rq b data none) rq b none ∧ (b.port < 128 ∨ b.port = 255) ∧ s.sys.exchange = none ∧ l.length = b.arg ∧ imageFault l = some (c, p)) ∧
    (∃ (rq : Rq) (b : Bulk) (s : State), s.bulkStarts (.readImage rq b none) rq b none ∧ b.port = 255 ∧ b.string = 65535 ∧ (b.arg = 0 ∨ (b.arg = 1 ∧ s.sched.inactive.isSome = true))) ∧
    (∃ (rq : Rq) (port : Nat) (string : Nat) (f : List Nat) (s : State), ∃ i, let good (i : Nat) : Prop := (nth (0, 0) limitRanges i).1 ≤ nth 0 f i ∧ nth 0 f i ≤ (nth (0, 0) limitRanges i).2; s.takes (.writeLimits rq port string f) = true ∧ s.someString port string = true ∧ i < 20 ∧ (∀ j < i, good j) ∧ ¬good i) ∧
    (∃ (rq : Rq) (port : Nat) (string : Nat) (f : List Nat) (s : State), let good (i : Nat) : Prop := (nth (0, 0) limitRanges i).1 ≤ nth 0 f i ∧ nth 0 f i ≤ (nth (0, 0) limitRanges i).2; s.takes (.writeLimits rq port string f) = true ∧ s.someString port string = true ∧ (∀ i < 20, good i) ∧ s.sys.exchange = none) ∧
    (∃ (rq : Rq) (port : Nat) (string : Nat) (buf : Nat) (f : List Nat) (s : State), s.takes (.readLimits rq port string buf) = true ∧ s.oneString port string = true ∧ buf < 2 ∧ f.length = 20 ∧ s.limitsOf (strKey port string) buf = Limits.ofFields f) ∧
    (∃ (rq : Rq) (sect : Nat) (first : Nat) (roles : List Nat) (words : List (List Nat)) (s : State), s.takes (.writeSeq rq sect first roles words) = true ∧ sect = 0 ∧ first = 0 ∧ badRole roles = none ∧ s.sys.exchange = none) ∧
    (∃ (rq : Rq) (sect : Nat) (first : Nat) (roles : List Nat) (words : List (List Nat)) (s : State), let steps := words.map SeqStep.ofFields; s.takes (.writeSeq rq sect first roles words) = true ∧ 1 ≤ sect ∧ sect ≤ 3 ∧ first < sectionMax sect ∧ 1 ≤ steps.length ∧ steps.length ≤ 14 ∧ first + steps.length ≤ sectionMax sect ∧ badStep sect steps = none ∧ s.sys.exchange = none) ∧
    (∃ (rq : Rq) (sect : Nat) (first : Nat) (roles : List Nat) (words : List (List Nat)) (s : State), ∃ r, let steps := words.map SeqStep.ofFields; s.takes (.writeSeq rq sect first roles words) = true ∧ 1 ≤ sect ∧ sect ≤ 3 ∧ first < sectionMax sect ∧ 1 ≤ steps.length ∧ steps.length ≤ 14 ∧ first + steps.length ≤ sectionMax sect ∧ badStep sect steps = some r) ∧
    (∃ (rq : Rq) (sect : Nat) (first : Nat) (count : Nat) (buf : Nat) (s : State), s.takes (.readSeq rq sect first count buf) = true ∧ buf < 2 ∧ sect = 0 ∧ first = 0 ∧ count = 1) :=
  ⟨⟨rq0, imgSt, by decide +kernel⟩,
    ⟨rq0, bhost 5000, img88, up, by dsimp only; and_intros <;> first | (unfold State.bulkStarts; decide +kernel) | decide +kernel⟩,
    ⟨rq0, bhost 88, img88, up, by dsimp only; and_intros <;> first | (unfold State.bulkStarts; decide +kernel) | decide +kernel⟩,
    ⟨rq0, bhost 4, [1, 2, 3, 4], up, 1, none, by dsimp only; and_intros <;> first | (unfold State.bulkStarts; decide +kernel) | decide +kernel⟩,
    ⟨rq0, ball, imgSt, by and_intros <;> first | (unfold State.bulkStarts; decide +kernel) | decide +kernel⟩,
    ⟨rq0, 255, 65535, [20000, 100], up, 1, by decide +kernel⟩,
    ⟨rq0, 255, 65535, limitRanges.map Prod.fst, up, by decide +kernel⟩,
    ⟨rq0, 5, 3, 0, limitRanges.map Prod.fst, sx3 fun q => { q with limits := Limits.ofFields (limitRanges.map Prod.fst) }, by decide +kernel⟩,
    ⟨rq0, 0, 0, [0, 1, 255, 3], [], up, by decide +kernel⟩,
    ⟨rq0, 1, 2, [], [[1, 1, 0, 0, 0, 50, 1]], up, by decide +kernel⟩,
    ⟨rq0, 1, 2, [], [[9]], up, outOfRange 4, by decide +kernel⟩,
    ⟨rq0, 0, 0, 1, 1, up, by decide +kernel⟩⟩
theorem witness_StagedTablesAreExchanged_2 :
    (∃ (rq : Rq) (sect : Nat) (first : Nat) (count : Nat) (buf : Nat) (s : State), s.takes (.readSeq rq sect first count buf) = true ∧ buf < 2 ∧ 1 ≤ sect ∧ sect ≤ 3 ∧ first < sectionMax sect ∧ 1 ≤ count ∧ count ≤ 14 ∧ first + count ≤ sectionMax sect) ∧
    (∃ (rq : Rq) (mask : Nat) (s : State), ∃ i, s.tablesOk = true ∧ s.takes (.exchange rq mask) = true ∧ mask < 16 ∧ s.sys.exchange = none ∧ i < 4 ∧ (∀ j < i, mask.testBit j = true → s.stagedMask.testBit j = true) ∧ mask.testBit i = true ∧ s.stagedMask.testBit i = false) ∧
    (∃ (rq : Rq) (mask : Nat) (s : State) (d : Nat) (row : Nat) (hi : Nat) (lo : Nat), s.tablesOk = true ∧ s.takes (.exchange rq mask) = true ∧ mask < 16 ∧ s.sys.exchange = none ∧ (∀ i < 4, mask.testBit i = true → s.stagedMask.testBit i = true) ∧ s.stagedFault mask = some (d, some row, hi, lo)) ∧
    (∃ (rq : Rq) (mask : Nat) (s : State), s.tablesOk = true ∧ s.takes (.exchange rq mask) = true ∧ mask < 16 ∧ s.sys.exchange = none ∧ (∀ i < 4, mask.testBit i = true → s.stagedMask.testBit i = true) ∧ s.stagedFault mask = none ∧ s.nvOk = true ∧ ((s.mark 3).en = true ∨ (s.mark 0).step ≠ 0)) ∧
    (∃ (s : State), s.markDue 3 = false) ∧
    (∃ (s : State), s.tablesOk = true ∧ s.markDue 3 = true) ∧
    (∃ (rq : Rq) (mask : Nat) (s : State), s.tablesOk = true ∧ s.markDue 3 = true ∧ s.sys.exchange = some (rq, mask) ∧ s.sys.d3 = false ∧ s.guard.owed = none) ∧
    (∃ (o : Tables) (s : State), s.tablesOk = true ∧ s.markDue 3 = true ∧ s.sys.exchange = none ∧ s.guard.owed = some o) ∧
    (∃ (rq : Rq) (mask : Nat) (s : State), s.takes (.discard rq mask) = true ∧ mask < 16 ∧ s.sys.exchange ≠ none) ∧
    (∃ (rq : Rq) (mask : Nat) (s : State), s.takes (.discard rq mask) = true ∧ mask < 16 ∧ s.sys.exchange = none) :=
  ⟨⟨rq0, 1, 0, 3, 0, up, by decide +kernel⟩,
    ⟨rq0, 2, up, 1, by decide +kernel⟩,
    ⟨rq0, 2, withStr.onGuard fun g => { g with limitsStaged := some [(k3, Limits.ofFields [50000, 20000])] }, (1 : Nat), (2 : Nat), (5 : Nat), (0 : Nat), by decide +kernel⟩,
    ⟨rq0, 1, (m0 up).onSched fun q => { q with inactive := some (imageOf1 0), inactiveKind := 1 }, by decide +kernel⟩,
    ⟨up, by decide +kernel⟩,
    ⟨up.modMark 3 fun _ => dueMark, by decide +kernel⟩,
    ⟨rq0, 1, (up.modMark 3 fun _ => dueMark).onSys fun y => { y with exchange := some (rq0, 1) }, by decide +kernel⟩,
    ⟨(⟨[], [], SeqTable.reset⟩ : Tables), (up.modMark 3 fun _ => dueMark).onGuard fun g => { g with owed := some ⟨[], [], SeqTable.reset⟩ }, by decide +kernel⟩,
    ⟨rq0, 1, up.onSys fun y => { y with exchange := some (rq0, 1) }, by decide +kernel⟩,
    ⟨rq0, 1, imgSt.onSched fun q => { q with inactive := some (imageOf1 1) }, by decide +kernel⟩⟩
theorem witness_RingRequestsComplete_1 :
    (∃ (rq : Rq) (port : Nat) (s : State), s.takes (.ringStatus rq port) = true ∧ port < 128) ∧
    (∃ (rq : Rq) (port : Nat) (s : State), s.takes (.ringStatus rq port) = true ∧ 128 ≤ port) ∧
    (∃ (rq : Rq) (port : Nat) (state : Nat) (count : Nat) (mute : List Nat) (s : State), s.tablesOk = true ∧ s.takes (.setRingState rq port state count mute) = true ∧ port < 128 ∧ state < 3 ∧ (s.ring port).busy ≠ 0) ∧
    (∃ (rq : Rq) (port : Nat) (state : Nat) (count : Nat) (mute : List Nat) (s : State), let st := ringStateOf state; let old := (s.ring port).state; s.tablesOk = true ∧ s.takes (.setRingState rq port state count mute) = true ∧ port < 128 ∧ state < 3 ∧ (s.ring port).busy = 0 ∧ old = st) ∧
    (∃ (rq : Rq) (port : Nat) (state : Nat) (count : Nat) (mute : List Nat) (s : State), let st := ringStateOf state; let old := (s.ring port).state; s.tablesOk = true ∧ s.takes (.setRingState rq port state count mute) = true ∧ port < 128 ∧ state < 3 ∧ (s.ring port).busy = 0 ∧ st = .active ∧ old ≠ .active ∧ s.ringMisfit ⟨port, count, mute⟩ = none) ∧
    (∃ (rq : Rq) (port : Nat) (state : Nat) (count : Nat) (mute : List Nat) (s : State) (m : Misfit), let st := ringStateOf state; let old := (s.ring port).state; s.tablesOk = true ∧ s.takes (.setRingState rq port state count mute) = true ∧ port < 128 ∧ state < 3 ∧ (s.ring port).busy = 0 ∧ st = .active ∧ old ≠ .active ∧ s.ringMisfit ⟨port, count, mute⟩ = some m) ∧
    (∃ (rq : Rq) (port : Nat) (state : Nat) (count : Nat) (mute : List Nat) (s : State), let st := ringStateOf state; let old := (s.ring port).state; s.tablesOk = true ∧ s.takes (.setRingState rq port state count mute) = true ∧ port < 128 ∧ state < 3 ∧ (s.ring port).busy = 0 ∧ st ≠ .active ∧ old = .active ∧ (∀ k ∈ s.closedStrings, keyPort k ≠ port)) ∧
    (∃ (rq : Rq) (port : Nat) (state : Nat) (count : Nat) (mute : List Nat) (s : State), ∃ k, let st := ringStateOf state; let old := (s.ring port).state; s.tablesOk = true ∧ s.takes (.setRingState rq port state count mute) = true ∧ port < 128 ∧ state < 3 ∧ (s.ring port).busy = 0 ∧ k ∈ s.closedStrings ∧ st ≠ .active ∧ old = .active ∧ keyPort k = port) ∧
    (∃ (rq : Rq) (port : Nat) (state : Nat) (count : Nat) (mute : List Nat) (s : State), let st := ringStateOf state; let old := (s.ring port).state; s.tablesOk = true ∧ s.takes (.setRingState rq port state count mute) = true ∧ port < 128 ∧ state < 3 ∧ (s.ring port).busy = 0 ∧ st ≠ .active ∧ old ≠ .active ∧ old ≠ st) ∧
    (∃ (rq : Rq) (port : Nat) (count : Nat) (s : State), s.tablesOk = true ∧ s.takes (.enumerate rq port count) = true ∧ port < 128 ∧ (s.ring port).busy = 0 ∧ (s.ring port).state ≠ .service) ∧
    (∃ (rq : Rq) (port : Nat) (count : Nat) (s : State), s.tablesOk = true ∧ s.takes (.enumerate rq port count) = true ∧ port < 128 ∧ (s.ring port).busy = 0 ∧ (s.ring port).state = .service ∧ (enumPass port count 1 1 s).2.2 = true) ∧
    (∃ (rq : Rq) (port : Nat) (count : Nat) (s : State), s.tablesOk = true ∧ s.takes (.enumerate rq port count) = true ∧ port < 128 ∧ (s.ring port).busy = 0 ∧ (s.ring port).state = .service ∧ (enumPass port count 1 1 s).2.2 = false) :=
  ⟨⟨rq0, 5, withStr, by decide +kernel⟩,
    ⟨rq0, 128, up, by decide +kernel⟩,
    ⟨rq0, 5, 1, 0, [], rg fun r => { r with busy := 0x0802 }, by decide +kernel⟩,
    ⟨rq0, 5, 1, 0, [], up.modRing 5 fun r => { r with state := .service }, by decide +kernel⟩,
    ⟨rq0, 5, 0, 0, [], (up.modRing 5 fun r => { r with state := .service, calib := [(1, 0, 0)] }).modMark 0 fun _ => dueMark, by decide +kernel⟩,
    ⟨rq0, 5, 0, 0, [], up.modRing 5 fun r => { r with state := .service }, (⟨0x0808, 0, 6, 0⟩ : Misfit), by decide +kernel⟩,
    ⟨rq0, 5, 1, 0, [], withStr, by decide +kernel⟩,
    ⟨rq0, 5, 1, 0, [], sx3 fun q => { q with closed := true }, k3, by decide +kernel⟩,
    ⟨rq0, 5, 2, 0, [], svc 1 id, by decide +kernel⟩,
    ⟨rq0, 5, 1, withStr, by decide +kernel⟩,
    ⟨rq0, 5, 2, svc 65534 id, by decide +kernel⟩,
    ⟨rq0, 5, 2, svc 3 id, by decide +kernel⟩⟩
theorem witness_RingRequestsComplete_2 :
    (∃ (rq : Rq) (port : Nat) (count : Nat) (s : State), s.tablesOk = true ∧ s.takes (.enumerate rq port count) = true ∧ port < 128 ∧ (s.ring port).busy = 0 ∧ (s.ring port).state = .service ∧ count ≤ 65534 ∧ (∀ i, 1 ≤ i → i ≤ count → (s.node (nodeKey port i)).pos = 0)) ∧
    (∃ (rq : Rq) (port : Nat) (f : Nat) (r : Nat) (s : State) (p : Nat) (l : List Nat), s.tablesOk = true ∧ s.takes (.calibrate rq port f r) = true ∧ port < 128 ∧ (s.ring port).busy = 0 ∧ (s.ring port).state = .service ∧ s.wrappedPos port ++ s.unheard port = p :: l) ∧
    (∃ (rq : Rq) (port : Nat) (f : Nat) (r : Nat) (s : State), let a := s.portNs f; let b := s.portNs r; s.tablesOk = true ∧ s.takes (.calibrate rq port f r) = true ∧ port < 128 ∧ (s.ring port).busy = 0 ∧ (s.ring port).state = .service ∧ s.wrappedPos port ++ s.unheard port = [] ∧ (a + b = 0 ∨ 2000000 < a + b)) ∧
    (∃ (rq : Rq) (port : Nat) (f : Nat) (r : Nat) (s : State), let a := s.portNs f; let b := s.portNs r; s.tablesOk = true ∧ s.takes (.calibrate rq port f r) = true ∧ port < 128 ∧ (s.ring port).busy = 0 ∧ (s.ring port).state = .service ∧ s.wrappedPos port ++ s.unheard port = [] ∧ 0 < a + b ∧ a + b ≤ 2000000) ∧
    (∃ (rq : Rq) (port : Nat) (pos : Nat) (addr : Nat) (count : Nat) (s : State), s.tablesOk = true ∧ s.takes (.nodeRead rq port pos addr count) = true ∧ port < 128 ∧ 1 ≤ pos ∧ pos ≤ 65534 ∧ 1 ≤ count ∧ count ≤ 240 ∧ (s.ring port).state = .isolated) ∧
    (∃ (rq : Rq) (port : Nat) (pos : Nat) (addr : Nat) (count : Nat) (s : State), s.tablesOk = true ∧ s.takes (.nodeRead rq port pos addr count) = true ∧ port < 128 ∧ 1 ≤ pos ∧ pos ≤ 65534 ∧ 1 ≤ count ∧ count ≤ 240 ∧ (s.ring port).state ≠ .isolated) ∧
    (∃ (rq : Rq) (port : Nat) (pos : Nat) (addr : Nat) (data : List Byte) (s : State), let st := (s.ring port).state; s.tablesOk = true ∧ s.takes (.nodeWrite rq port pos addr data) = true ∧ port < 128 ∧ 1 ≤ pos ∧ pos ≤ 65535 ∧ 1 ≤ data.length ∧ data.length ≤ 232 ∧ (st = .isolated ∨ (st = .active ∧ addr ≤ 0x23 ∧ 0x12 < addr + data.length))) ∧
    (∃ (rq : Rq) (port : Nat) (pos : Nat) (addr : Nat) (data : List Byte) (s : State), let st := (s.ring port).state; s.tablesOk = true ∧ s.takes (.nodeWrite rq port pos addr data) = true ∧ port < 128 ∧ 1 ≤ pos ∧ pos ≤ 65535 ∧ 1 ≤ data.length ∧ data.length ≤ 232 ∧ st ≠ .isolated ∧ (st = .active → 0x23 < addr ∨ addr + data.length ≤ 0x12)) ∧
    (∃ (rq : Rq) (port : Nat) (mute : List Nat) (s : State), ∃ i, ∃ (l : List Nat), s.tablesOk = true ∧ s.takes (.storeConfig rq port mute) = true ∧ port < 128 ∧ (s.ring port).busy = 0 ∧ (s.ring port).state = .service ∧ s.sys.d3 = false ∧ (s.addressed port).filter mute.contains = i :: l) ∧
    (∃ (rq : Rq) (port : Nat) (mute : List Nat) (s : State), s.tablesOk = true ∧ s.takes (.storeConfig rq port mute) = true ∧ port < 128 ∧ (s.ring port).busy = 0 ∧ (s.ring port).state = .service ∧ s.sys.d3 = false ∧ (s.addressed port).filter mute.contains = [] ∧ s.nvOk = true) ∧
    (∃ (rq : Rq) (b : Bulk) (s : State), s.bulkStarts (.readConfig rq b none) rq b none ∧ (b.port < 128 ∨ b.port = 255) ∧ b.arg = 0 ∧ (b.string = 65535 ∨ s.configItems b ≠ [])) :=
  ⟨⟨rq0, 5, 1, svc 0 id, by and_intros <;> first | exact fun i h1 h2 => by cases Nat.le_antisymm h2 h1; decide +kernel | decide +kernel⟩,
    ⟨rq0, 5, 100, 100, svc 9 fun r => { r with nodes := 1 }, (9 : Nat), ([] : List Nat), by decide +kernel⟩,
    ⟨rq0, 5, 0, 0, svc 9 fun r => { r with nodes := 1, echoes := List.replicate 16 (9, 0, 5000) ++ List.replicate 16 (9, 1, 5000) }, by decide +kernel⟩,
    ⟨rq0, 5, 100, 100, svc 9 fun r => { r with nodes := 1, echoes := List.replicate 16 (9, 0, 5000) ++ List.replicate 16 (9, 1, 5000) }, by decide +kernel⟩,
    ⟨rq0, 5, 1, 0, 4, rg fun r => { r with state := .isolated }, by decide +kernel⟩,
    ⟨rq0, 5, 1, 0, 4, withStr, by decide +kernel⟩,
    ⟨rq0, 5, 1, 0x12, [1], withStr, by decide +kernel⟩,
    ⟨rq0, 5, 1, 0x24, [1], withStr, by decide +kernel⟩,
    ⟨rq0, 5, [1], svc 9 fun r => { r with nodes := 1 }, 1, ([] : List Nat), by decide +kernel⟩,
    ⟨rq0, 5, [], svc 9 fun r => { r with nodes := 1 }, by decide +kernel⟩,
    ⟨rq0, ball, withStr, by and_intros <;> first | (unfold State.bulkStarts; decide +kernel) | decide +kernel⟩⟩
theorem witness_DispatchProtectionBeamAndRodRequestsComplete_1 :
    (∃ (rq : Rq) (l : List (Nat × Int × Nat × Bool)) (s : State), s.tablesOk = true ∧ s.takes (.submit rq l) = true ∧ s.disp.slotNext.isSome = true) ∧
    (∃ (rq : Rq) (l : List (Nat × Int × Nat × Bool)) (s : State), ∃ e, ∃ (r : List (Nat × Int × Nat × Bool)), s.tablesOk = true ∧ s.takes (.submit rq l) = true ∧ l = e :: r ∧ s.disp.slotNext = none ∧ (∀ i, i + 1 < l.length → (nth (0, 0, 0, false) l i).1 < (nth (0, 0, 0, false) l (i + 1)).1) ∧ e.1 * s.slotLen < s.leadTime) ∧
    (∃ (rq : Rq) (l : List (Nat × Int × Nat × Bool)) (s : State), s.tablesOk = true ∧ s.takes (.submit rq l) = true ∧ s.disp.slotNext = none ∧ (∀ i, i + 1 < l.length → (nth (0, 0, 0, false) l i).1 < (nth (0, 0, 0, false) l (i + 1)).1) ∧ (∀ e ∈ l, s.leadTime ≤ e.1 * s.slotLen ∧ e.2.1 ≤ (s.alloc rq.tenant true : Int) ∧ -e.2.1 ≤ (s.alloc rq.tenant false : Int) ∧ (e.2.2.2 = true → ∃ x ∈ (s.tenant rq.tenant).pending, x.slot = e.1)) ∧ (l.foldl applyEntry (s.tenant rq.tenant).pending).length ≤ 1024) ∧
    (∃ (rq : Rq) (i : Nat) (slot : Nat) (s : State), s.takes (.readSchedule rq i slot) = true ∧ s.tenEnabled i = false) ∧
    (∃ (rq : Rq) (i : Nat) (slot : Nat) (s : State), s.takes (.readSchedule rq i slot) = true ∧ s.tenEnabled i = true) ∧
    (∃ (rq : Rq) (i : Nat) (s : State), s.takes (.tenantRecord rq i) = true ∧ s.tenEnabled i = true) ∧
    (∃ (rq : Rq) (s : State), s.takes (.bankRecord rq) = true) ∧
    (∃ (rq : Rq) (i : Nat) (s : State), s.takes (.resume rq i) = true ∧ s.tenEnabled i = false) ∧
    (∃ (rq : Rq) (i : Nat) (s : State), s.takes (.resume rq i) = true ∧ s.tenEnabled i = true ∧ tget 0 s.guard.stopAt i ≤ s.ringsAtFetch rq) ∧
    (∃ (rq : Rq) (i : Nat) (s : State), s.takes (.resume rq i) = true ∧ s.tenEnabled i = true ∧ s.ringsAtFetch rq < tget 0 s.guard.stopAt i) ∧
    (∃ (rq : Rq) (i : Nat) (e : Nat) (a : Nat × Nat × Nat) (s : State), s.tablesOk = true ∧ s.takes (.ledgerAdjust rq i e) = true ∧ 1 ≤ i ∧ s.accepted? i = some a ∧ e ≤ a.2.2 ∧ (s.tenant i).deliv ≠ 0) ∧
    (∃ (rq : Rq) (i : Nat) (e : Nat) (a : Nat × Nat × Nat) (s : State), s.tablesOk = true ∧ s.takes (.ledgerAdjust rq i e) = true ∧ 1 ≤ i ∧ s.accepted? i = some a ∧ e ≤ a.2.2 ∧ (s.tenant i).deliv = 0) :=
  ⟨⟨rq0, [(100, 0, 0, false)], up.onDisp fun d => { d with slotNext := some (50, 3) }, by decide +kernel⟩,
    ⟨rq0, [(0, 0, 0, false)], up, (0, 0, 0, false), ([] : List (Nat × Int × Nat × Bool)), by and_intros <;> first | exact fun i h => absurd h (Nat.not_lt.2 (Nat.le_add_left 1 i)) | decide +kernel⟩,
    ⟨rq0, [(100, 0, 0, false)], up, by and_intros <;> first | exact fun i h => absurd h (Nat.not_lt.2 (Nat.le_add_left 1 i)) | decide +kernel⟩,
    ⟨rq0, 3, 0, up, by decide +kernel⟩,
    ⟨rq0, 3, 0, tenSt id, by decide +kernel⟩,
    ⟨rq0, 3, tenSt id, by decide +kernel⟩,
    ⟨rq0, up, by decide +kernel⟩,
    ⟨rq0, 3, up, by decide +kernel⟩,
    ⟨rq0, 3, tenSt id, by decide +kernel⟩,
    ⟨rq0, 3, (tenSt id).onGuard fun g => { g with stops := [3], stopAt := [(3, 5)] }, by decide +kernel⟩,
    ⟨rq0, 3, 2, (10, 10, 5), tenSt fun q => { q with deliv := 5 }, by decide +kernel⟩,
    ⟨rq0, 3, 2, (10, 10, 5), tenSt id, by decide +kernel⟩⟩
theorem witness_DispatchProtectionBeamAndRodRequestsComplete_2 :
    (∃ (rq : Rq) (src : Nat) (ch : Nat) (mode : Nat) (fs : Nat) (x0 : Int) (db : Nat) (gain : Int) (pmax : Nat) (s : State), s.takes (.setBinding rq src ch mode fs x0 db gain pmax) = true ∧ src ≤ 3 ∧ (ch ≤ bindingCh src ∨ src = 0) ∧ 1 < mode) ∧
    (∃ (rq : Rq) (src : Nat) (ch : Nat) (mode : Nat) (fs : Nat) (x0 : Int) (db : Nat) (gain : Int) (pmax : Nat) (s : State), s.takes (.setBinding rq src ch mode fs x0 db gain pmax) = true ∧ src ≤ 3 ∧ (ch ≤ bindingCh src ∨ src = 0) ∧ mode ≤ 1 ∧ fs ≤ 1 ∧ s.nvOk = true) ∧
    (∃ (rq : Rq) (s : State), s.takes (.getBinding rq) = true) ∧
    (∃ (rq : Rq) (off : Nat) (count : Nat) (s : State), s.takes (.protRead rq off count) = true ∧ off % 4 = 0 ∧ 1 ≤ count ∧ count ≤ 56 ∧ (wordOffsets off count).all protKnown = true) ∧
    (∃ (rq : Rq) (off : Nat) (data : List Nat) (s : State), ∃ b, s.takes (.protWrite rq off data) = true ∧ off % 4 = 0 ∧ 1 ≤ data.length ∧ data.length ≤ 56 ∧ (wordOffsets off data.length).all protKnown = true ∧ reservedData? 0x0601 off data = some b) ∧
    (∃ (rq : Rq) (off : Nat) (data : List Nat) (s : State), ∃ e, let l := (wordOffsets off data.length).zip data; let t := l.foldl (fun t e => t.protPut e.1 e.2) s; s.takes (.protWrite rq off data) = true ∧ off % 4 = 0 ∧ 1 ≤ data.length ∧ data.length ≤ 56 ∧ (wordOffsets off data.length).all protKnown = true ∧ reservedData? 0x0601 off data = none ∧ l.findSome? (fun x => t.protJudge x.1 x.2) = some e) ∧
    (∃ (rq : Rq) (off : Nat) (data : List Nat) (s : State), let l := (wordOffsets off data.length).zip data; let t := l.foldl (fun t e => t.protPut e.1 e.2) s; s.takes (.protWrite rq off data) = true ∧ off % 4 = 0 ∧ 1 ≤ data.length ∧ data.length ≤ 56 ∧ (wordOffsets off data.length).all protKnown = true ∧ reservedData? 0x0601 off data = none ∧ l.findSome? (fun x => t.protJudge x.1 x.2) = none ∧ s.nvOk = true) ∧
    (∃ (rq : Rq) (port : Nat) (string : Nat) (s : State), s.takes (.stringProt rq port string) = true ∧ s.oneString port string = true) ∧
    (∃ (rq : Rq) (id : Nat) (s : State), s.takes (.clearTrip rq id) = true ∧ s.guard.failed = false) ∧
    (∃ (rq : Rq) (id : Nat) (s : State), s.takes (.clearTrip rq id) = true ∧ s.guard.failed = true ∧ id ≠ s.guard.tripId) ∧
    (∃ (rq : Rq) (id : Nat) (s : State), s.takes (.clearTrip rq id) = true ∧ s.guard.failed = true ∧ id = s.guard.tripId ∧ s.clearMask ≠ 0) ∧
    (∃ (rq : Rq) (port : Nat) (string : Nat) (s : State), s.takes (.clearString rq port string) = true ∧ s.oneString port string = true ∧ s.guard.failed = false) :=
  ⟨⟨rq0, 1, 7, 2, 0, 0, 0, 0, 0, up, by decide +kernel⟩,
    ⟨rq0, 2, 15, 1, 1, 5, 6, 7, 8, up, by decide +kernel⟩,
    ⟨rq0, up, by decide +kernel⟩,
    ⟨rq0, 0x100, 6, up, by decide +kernel⟩,
    ⟨rq0, 0x004, [0x80000000], up, 11, by decide +kernel⟩,
    ⟨rq0, 0x10C, [0x00010001], up, outOfRange 0x10C, by decide +kernel⟩,
    ⟨rq0, 0x10C, [0x00020001], up, by decide +kernel⟩,
    ⟨rq0, 5, 3, withStr, by decide +kernel⟩,
    ⟨rq0, 5, upIn .tripped, by decide +kernel⟩,
    ⟨rq0, 5, (upIn .tripped).onGuard fun g => { g with failed := true }, by decide +kernel⟩,
    ⟨rq0, 0, (upIn .tripped).onGuard fun g => { g with failed := true }, by decide +kernel⟩,
    ⟨rq0, 5, 3, withStr, by decide +kernel⟩⟩
theorem witness_DispatchProtectionBeamAndRodRequestsComplete_3 :
    (∃ (rq : Rq) (port : Nat) (string : Nat) (s : State), ∃ e, let k := strKey port string; s.takes (.clearString rq port string) = true ∧ s.oneString port string = true ∧ s.guard.failed = true ∧ s.stillCaused k = some e) ∧
    (∃ (rq : Rq) (port : Nat) (string : Nat) (s : State), let k := strKey port string; s.takes (.clearString rq port string) = true ∧ s.oneString port string = true ∧ s.guard.failed = true ∧ s.stillCaused k = none ∧ s.isLocked k = false) ∧
    (∃ (rq : Rq) (id : Nat) (s : State), s.tablesOk = true ∧ s.takes (.weldAck rq id) = true ∧ s.guard.weld ≠ some id) ∧
    (∃ (rq : Rq) (id : Nat) (s : State), s.tablesOk = true ∧ s.takes (.weldAck rq id) = true ∧ s.guard.weld = some id ∧ s.nvOk = true) ∧
    (∃ (rq : Rq) (ch : Nat) (source : Nat) (kind : Nat) (port : Nat) (string : Nat) (s : State), let l := if kind = 0 then tdel s.sys.conf.alarms (ch * 64 + source) else tput s.sys.conf.alarms (ch * 64 + source) [kind, port, string]; s.takes (.mapAlarm rq ch source kind port string) = true ∧ ch < 8 ∧ source < 64 ∧ kind ≤ 5 ∧ alarmScopeOk kind port string = true ∧ s.someString port string = true ∧ s.nvOk = true ∧ s.planOk l = false) ∧
    (∃ (rq : Rq) (ch : Nat) (source : Nat) (kind : Nat) (port : Nat) (string : Nat) (s : State), let l := if kind = 0 then tdel s.sys.conf.alarms (ch * 64 + source) else tput s.sys.conf.alarms (ch * 64 + source) [kind, port, string]; s.takes (.mapAlarm rq ch source kind port string) = true ∧ ch < 8 ∧ source < 64 ∧ kind ≤ 5 ∧ alarmScopeOk kind port string = true ∧ s.someString port string = true ∧ s.nvOk = true ∧ s.planOk l = true) ∧
    (∃ (rq : Rq) (off : Nat) (count : Nat) (s : State), s.takes (.beamRead rq off count) = true ∧ off % 4 = 0 ∧ 1 ≤ count ∧ count ≤ 56 ∧ (wordOffsets off count).all beamOffset = true) ∧
    (∃ (rq : Rq) (off : Nat) (count : Nat) (s : State), s.takes (.beamRead rq off count) = true ∧ off % 4 = 0 ∧ 1 ≤ count ∧ count ≤ 56 ∧ (wordOffsets off count).all beamOffset = true ∧ count = 1) ∧
    (∃ (rq : Rq) (off : Nat) (count : Nat) (s : State), s.takes (.beamRead rq off count) = true ∧ off % 4 = 0 ∧ 1 ≤ count ∧ count ≤ 56 ∧ (wordOffsets off count).all beamOffset = true ∧ count = 1 ∧ off = 0x028) ∧
    (∃ (rq : Rq) (off : Nat) (data : List Nat) (s : State), ∃ b, s.takes (.beamWrite rq off data) = true ∧ off % 4 = 0 ∧ 1 ≤ data.length ∧ data.length ≤ 56 ∧ (wordOffsets off data.length).all beamOffset = true ∧ reservedData? 0x0701 off data = some b) ∧
    (∃ (rq : Rq) (off : Nat) (data : List Nat) (s : State) (e : Refuse), let r := writeWords State.beamJudge State.beamPut ((wordOffsets off data.length).zip data) s; s.takes (.beamWrite rq off data) = true ∧ off % 4 = 0 ∧ 1 ≤ data.length ∧ data.length ≤ 56 ∧ (wordOffsets off data.length).all beamOffset = true ∧ reservedData? 0x0701 off data = none ∧ r.1 = some e) ∧
    (∃ (rq : Rq) (off : Nat) (data : List Nat) (s : State), let r := writeWords State.beamJudge State.beamPut ((wordOffsets off data.length).zip data) s; s.takes (.beamWrite rq off data) = true ∧ off % 4 = 0 ∧ 1 ≤ data.length ∧ data.length ≤ 56 ∧ (wordOffsets off data.length).all beamOffset = true ∧ reservedData? 0x0701 off data = none ∧ r.1 = none) :=
  ⟨⟨rq0, 5, 3, failStr fun q => { q with causes := [0x0609], sflags := 0x10 }, 0x0609, by decide +kernel⟩,
    ⟨rq0, 5, 3, failStr id, by decide +kernel⟩,
    ⟨rq0, 5, up, by decide +kernel⟩,
    ⟨rq0, 5, up.onGuard fun g => { g with weld := some 5 }, by decide +kernel⟩,
    ⟨rq0, 0, 1, 1, 255, 65535, up.onCan fun c => { c with regs := [(0, 0x81000001), (4, 0x0100000A)] }, by decide +kernel⟩,
    ⟨rq0, 0, 1, 1, 255, 65535, up, by decide +kernel⟩,
    ⟨rq0, 0x028, 1, up, by decide +kernel⟩,
    ⟨rq0, 0x028, 1, up, by decide +kernel⟩,
    ⟨rq0, 0x028, 1, up, by decide +kernel⟩,
    ⟨rq0, 0x044, [0x80000000], up, 11, by decide +kernel⟩,
    ⟨rq0, 0x100, [7], up, (⟨0x0701, 0x100, 0⟩ : Refuse), by decide +kernel⟩,
    ⟨rq0, 0x150, [7], up, by decide +kernel⟩⟩
theorem witness_DispatchProtectionBeamAndRodRequestsComplete_4 :
    (∃ (rq : Rq) (off : Nat) (data : List Nat) (s : State), ∃ w, s.takes (.beamWrite rq off data) = true ∧ off % 4 = 0 ∧ 1 ≤ data.length ∧ data.length ≤ 56 ∧ (wordOffsets off data.length).all beamOffset = true ∧ data = [w] ∧ 0x100 ≤ off ∧ off < 0x200 ∧ s.markLocked off w = true) ∧
    (∃ (rq : Rq) (step : Nat) (s : State), ∃ p, s.tablesOk = true ∧ s.takes (.setSweep rq step) = true ∧ s.sweepUnfit step = some p) ∧
    (∃ (rq : Rq) (step : Nat) (s : State), s.tablesOk = true ∧ s.takes (.setSweep rq step) = true ∧ s.sweepUnfit step = none ∧ s.beam.sweepOk step = false) ∧
    (∃ (rq : Rq) (step : Nat) (s : State), s.tablesOk = true ∧ s.takes (.setSweep rq step) = true ∧ s.sweepUnfit step = none ∧ s.beam.sweepOk step = true ∧ s.nvOk = true) ∧
    (∃ (rq : Rq) (s : State), s.takes (.beamTime rq) = true) ∧
    (∃ (rq : Rq) (first : Nat) (count : Nat) (s : State), s.takes (.rodStatus rq first count) = true ∧ first < 128 ∧ 1 ≤ count ∧ count ≤ 15 ∧ first + count ≤ 128) ∧
    (∃ (rq : Rq) (s : State), s.takes (.schedStatus rq) = true) ∧
    (∃ (rq : Rq) (n : Nat) (s : State), s.tablesOk = true ∧ s.takes (.rodRelease rq n) = true ∧ n < 128 ∧ (s.rod n).state ≠ .quarantined) ∧
    (∃ (rq : Rq) (n : Nat) (s : State), s.tablesOk = true ∧ s.takes (.rodRelease rq n) = true ∧ n < 128 ∧ (s.rod n).state = .quarantined ∧ s.nvOk = true) :=
  ⟨⟨rq0, 0x150, [7], up.modMark 5 fun m => { m with en := true }, 7, by decide +kernel⟩,
    ⟨rq0, 1, withStr, 5, by decide +kernel⟩,
    ⟨rq0, 1, up, by decide +kernel⟩,
    ⟨rq0, 65536, up, by decide +kernel⟩,
    ⟨rq0, up, by decide +kernel⟩,
    ⟨rq0, 113, 15, up, by decide +kernel⟩,
    ⟨rq0, up, by decide +kernel⟩,
    ⟨rq0, 5, up, by decide +kernel⟩,
    ⟨rq0, 5, up.modRod 5 fun r => { r with state := .quarantined }, by decide +kernel⟩⟩
theorem witness_LoopLoadAndCanRequestsComplete_1 :
    (∃ (rq : Rq) (off : Nat) (count : Nat) (s : State), s.takes (.loopRead rq off count) = true ∧ off % 4 = 0 ∧ 1 ≤ count ∧ count ≤ 56 ∧ (wordOffsets off count).all loopKnown = true) ∧
    (∃ (rq : Rq) (off : Nat) (count : Nat) (s : State), s.takes (.loopRead rq off count) = true ∧ off % 4 = 0 ∧ 1 ≤ count ∧ count ≤ 56 ∧ (wordOffsets off count).all loopKnown = true ∧ count = 1) ∧
    (∃ (rq : Rq) (off : Nat) (data : List Nat) (s : State), ∃ b, s.takes (.loopWrite rq off data) = true ∧ off % 4 = 0 ∧ 1 ≤ data.length ∧ data.length ≤ 56 ∧ (wordOffsets off data.length).all loopKnown = true ∧ reservedData? 0x0901 off data = some b) ∧
    (∃ (rq : Rq) (off : Nat) (data : List Nat) (s : State), ∃ e, let l := (wordOffsets off data.length).zip data; s.takes (.loopWrite rq off data) = true ∧ off % 4 = 0 ∧ 1 ≤ data.length ∧ data.length ≤ 56 ∧ (wordOffsets off data.length).all loopKnown = true ∧ reservedData? 0x0901 off data = none ∧ l.find? (fun e => !(s.loopProposed l).engWordOk s e.1) = some e) ∧
    (∃ (rq : Rq) (off : Nat) (data : List Nat) (s : State), let l := (wordOffsets off data.length).zip data; s.takes (.loopWrite rq off data) = true ∧ off % 4 = 0 ∧ 1 ≤ data.length ∧ data.length ≤ 56 ∧ (wordOffsets off data.length).all loopKnown = true ∧ reservedData? 0x0901 off data = none ∧ l.find? (fun e => !(s.loopProposed l).engWordOk s e.1) = none) ∧
    (∃ (rq : Rq) (ax : Nat) (v : Int) (s : State), s.tablesOk = true ∧ s.takes (.axisTarget rq ax v) = true ∧ ax < 16 ∧ s.axLim ax = true ∧ v < (s.axLimits ax).1) ∧
    (∃ (rq : Rq) (ax : Nat) (v : Int) (s : State), s.tablesOk = true ∧ s.takes (.axisTarget rq ax v) = true ∧ ax < 16 ∧ s.axLim ax = true ∧ (s.axLimits ax).1 ≤ v ∧ (s.axLimits ax).2 < v) ∧
    (∃ (rq : Rq) (ax : Nat) (v : Int) (s : State), s.tablesOk = true ∧ s.takes (.axisTarget rq ax v) = true ∧ ax < 16 ∧ (s.axLim ax = true → (s.axLimits ax).1 ≤ v ∧ v ≤ (s.axLimits ax).2)) ∧
    (∃ (rq : Rq) (b : Bulk) (s : State), s.bulkStarts (.capture rq b none) rq b none ∧ b.port = 255 ∧ b.string = 65535 ∧ b.arg < 32 ∧ (s.loop b.arg).capBusy = false) ∧
    (∃ (rq : Rq) (off : Nat) (count : Nat) (meas : List (Nat × Int)) (vload : Int) (mean : Nat) (s : State), s.takes (.loadRead rq off count meas vload mean) = true ∧ off % 4 = 0 ∧ 1 ≤ count ∧ count ≤ 56 ∧ (wordOffsets off count).all loadKnown = true) ∧
    (∃ (rq : Rq) (off : Nat) (count : Nat) (meas : List (Nat × Int)) (vload : Int) (mean : Nat) (s : State), s.takes (.loadRead rq off count meas vload mean) = true ∧ off % 4 = 0 ∧ 1 ≤ count ∧ count ≤ 56 ∧ (wordOffsets off count).all loadKnown = true ∧ count = 1) ∧
    (∃ (rq : Rq) (meas : List (Nat × Int)) (vload : Int) (mean : Nat) (s : State), s.takes (.chStatus rq meas vload mean) = true) :=
  ⟨⟨rq0, 0x1000, 2, up, by decide +kernel⟩,
    ⟨rq0, 0x1000, 1, up, by decide +kernel⟩,
    ⟨rq0, 0x2018, [0x80000000], up, 11, by decide +kernel⟩,
    ⟨rq0, 0x101C, [0], up, (0x101C, 0), by decide +kernel⟩,
    ⟨rq0, 0x1008, [5], up, by decide +kernel⟩,
    ⟨rq0, 2, 9, axSt, by decide +kernel⟩,
    ⟨rq0, 2, 101, axSt, by decide +kernel⟩,
    ⟨rq0, 2, 100, axSt, by decide +kernel⟩,
    ⟨rq0, ball, up, by and_intros <;> first | (unfold State.bulkStarts; decide +kernel) | decide +kernel⟩,
    ⟨rq0, 0, 2, [(3, 100)], 12000, 5, up, by decide +kernel⟩,
    ⟨rq0, 0, 1, [(3, 100)], 12000, 5, up, by decide +kernel⟩,
    ⟨rq0, [(3, 100)], 12000, 5, up, by decide +kernel⟩⟩
theorem witness_LoopLoadAndCanRequestsComplete_2 :
    (∃ (rq : Rq) (off : Nat) (data : List Nat) (s : State), ∃ b, s.takes (.loadWrite rq off data) = true ∧ off % 4 = 0 ∧ 1 ≤ data.length ∧ data.length ≤ 56 ∧ (wordOffsets off data.length).all loadKnown = true ∧ reservedData? 0x0A01 off data = some b) ∧
    (∃ (rq : Rq) (off : Nat) (data : List Nat) (s : State), let l := (wordOffsets off data.length).zip data; let touched := l.foldl (fun m e => m ||| s.ownedTouched e.1 e.2) 0; s.takes (.loadWrite rq off data) = true ∧ off % 4 = 0 ∧ 1 ≤ data.length ∧ data.length ≤ 56 ∧ (wordOffsets off data.length).all loadKnown = true ∧ reservedData? 0x0A01 off data = none ∧ touched ≠ 0) ∧
    (∃ (rq : Rq) (off : Nat) (data : List Nat) (s : State), ∃ e, let l := (wordOffsets off data.length).zip data; let touched := l.foldl (fun m e => m ||| s.ownedTouched e.1 e.2) 0; s.takes (.loadWrite rq off data) = true ∧ off % 4 = 0 ∧ 1 ≤ data.length ∧ data.length ≤ 56 ∧ (wordOffsets off data.length).all loadKnown = true ∧ reservedData? 0x0A01 off data = none ∧ touched = 0 ∧ l.find? (fun e => !s.loadWordOk l e.1 e.2) = some e) ∧
    (∃ (rq : Rq) (off : Nat) (data : List Nat) (s : State), let l := (wordOffsets off data.length).zip data; let touched := l.foldl (fun m e => m ||| s.ownedTouched e.1 e.2) 0; s.takes (.loadWrite rq off data) = true ∧ off % 4 = 0 ∧ 1 ≤ data.length ∧ data.length ≤ 56 ∧ (wordOffsets off data.length).all loadKnown = true ∧ reservedData? 0x0A01 off data = none ∧ touched = 0 ∧ l.find? (fun e => !s.loadWordOk l e.1 e.2) = none) ∧
    (∃ (rq : Rq) (mask : Nat) (value : Nat) (s : State), ∃ n, s.tablesOk = true ∧ s.takes (.setOutputs rq mask value) = true ∧ mask < 2 ^ 24 ∧ value < 2 ^ 24 ∧ n < 24 ∧ s.owned n = true ∧ mask.testBit n = true) ∧
    (∃ (rq : Rq) (mask : Nat) (value : Nat) (s : State), ∃ n, s.tablesOk = true ∧ s.takes (.setOutputs rq mask value) = true ∧ mask < 2 ^ 24 ∧ value < 2 ^ 24 ∧ (∀ n < 24, mask.testBit n = true → s.owned n = false) ∧ n < 24 ∧ mask.testBit n = true ∧ value.testBit n = true ∧ s.profile n = 0) ∧
    (∃ (rq : Rq) (mask : Nat) (value : Nat) (s : State), s.tablesOk = true ∧ s.takes (.setOutputs rq mask value) = true ∧ mask < 2 ^ 24 ∧ value < 2 ^ 24 ∧ (∀ n < 24, mask.testBit n = true → s.owned n = false) ∧ (∀ n < 24, mask.testBit n = true → value.testBit n = true → s.profile n ≠ 0)) ∧
    (∃ (rq : Rq) (mask : Nat) (s : State), ∃ n, s.tablesOk = true ∧ s.takes (.restart rq mask) = true ∧ mask < 2 ^ 24 ∧ n < 24 ∧ s.owned n = true ∧ mask.testBit n = true) ∧
    (∃ (rq : Rq) (mask : Nat) (s : State), s.tablesOk = true ∧ s.takes (.restart rq mask) = true ∧ mask < 2 ^ 24 ∧ (∀ n < 24, mask.testBit n = true → s.owned n = false)) ∧
    (∃ (rq : Rq) (off : Nat) (count : Nat) (s : State), s.takes (.canRead rq off count) = true ∧ off % 4 = 0 ∧ 1 ≤ count ∧ count ≤ 56 ∧ (wordOffsets off count).all canKnown = true) ∧
    (∃ (rq : Rq) (off : Nat) (count : Nat) (s : State), s.takes (.canRead rq off count) = true ∧ off % 4 = 0 ∧ 1 ≤ count ∧ count ≤ 56 ∧ (wordOffsets off count).all canKnown = true ∧ count = 1) ∧
    (∃ (rq : Rq) (off : Nat) (data : List Nat) (s : State), ∃ b, s.takes (.canWrite rq off data) = true ∧ off % 4 = 0 ∧ 1 ≤ data.length ∧ data.length ≤ 56 ∧ (wordOffsets off data.length).all canKnown = true ∧ reservedData? 0x0B01 off data = some b) :=
  ⟨⟨rq0, 0x18, [0x80000000], up, 11, by decide +kernel⟩,
    ⟨rq0, 0, [8], ownSt, by decide +kernel⟩,
    ⟨rq0, 0, [1], ownSt, (0, 1), by decide +kernel⟩,
    ⟨rq0, 0x18, [5], ownSt, by decide +kernel⟩,
    ⟨rq0, 8, 8, ownSt, 3, by decide +kernel⟩,
    ⟨rq0, 4, 4, ownSt, 2, by decide +kernel⟩,
    ⟨rq0, 4, 0, ownSt, by decide +kernel⟩,
    ⟨rq0, 8, ownSt, 3, by decide +kernel⟩,
    ⟨rq0, 4, ownSt, by decide +kernel⟩,
    ⟨rq0, 0, 2, up, by decide +kernel⟩,
    ⟨rq0, 0, 1, up, by decide +kernel⟩,
    ⟨rq0, 4, [0x80000000], up, 11, by decide +kernel⟩⟩
theorem witness_LoopLoadAndCanRequestsComplete_3 :
    (∃ (rq : Rq) (off : Nat) (data : List Nat) (s : State), ∃ e, let l := (wordOffsets off data.length).zip data; s.takes (.canWrite rq off data) = true ∧ off % 4 = 0 ∧ 1 ≤ data.length ∧ data.length ≤ 56 ∧ (wordOffsets off data.length).all canKnown = true ∧ reservedData? 0x0B01 off data = none ∧ l.find? (fun e => !(s.canProposed l).canWordOk e.1) = some e) ∧
    (∃ (rq : Rq) (off : Nat) (data : List Nat) (s : State), let l := (wordOffsets off data.length).zip data; s.takes (.canWrite rq off data) = true ∧ off % 4 = 0 ∧ 1 ≤ data.length ∧ data.length ≤ 56 ∧ (wordOffsets off data.length).all canKnown = true ∧ reservedData? 0x0B01 off data = none ∧ l.find? (fun e => !(s.canProposed l).canWordOk e.1) = none) ∧
    (∃ (rq : Rq) (ch : Nat) (flags : Nat) (id : Nat) (data : List Byte) (s : State), s.tablesOk = true ∧ s.takes (.canSend rq ch flags id data) = true ∧ ch < 8 ∧ (flags.testBit 1 = true → s.canFd ch = true) ∧ (flags.testBit 2 = true → flags.testBit 1 = true) ∧ dlenOk (flags.testBit 1) data.length = true ∧ (flags.testBit 0 = true → id < 2 ^ 29) ∧ (flags.testBit 0 = false → id < 0x800) ∧ flags.testBit 0 = false ∧ (id = 0 ∨ s.idReserved ch id = true)) ∧
    (∃ (rq : Rq) (ch : Nat) (flags : Nat) (id : Nat) (data : List Byte) (s : State), s.tablesOk = true ∧ s.takes (.canSend rq ch flags id data) = true ∧ ch < 8 ∧ (flags.testBit 1 = true → s.canFd ch = true) ∧ (flags.testBit 2 = true → flags.testBit 1 = true) ∧ dlenOk (flags.testBit 1) data.length = true ∧ (flags.testBit 0 = true → id < 2 ^ 29) ∧ (flags.testBit 0 = false → id < 0x800) ∧ (flags.testBit 0 = false → id ≠ 0 ∧ s.idReserved ch id = false) ∧ 64 ≤ (s.ctrl ch).queue.length) ∧
    (∃ (rq : Rq) (ch : Nat) (flags : Nat) (id : Nat) (data : List Byte) (s : State), s.tablesOk = true ∧ s.takes (.canSend rq ch flags id data) = true ∧ ch < 8 ∧ (flags.testBit 1 = true → s.canFd ch = true) ∧ (flags.testBit 2 = true → flags.testBit 1 = true) ∧ dlenOk (flags.testBit 1) data.length = true ∧ (flags.testBit 0 = true → id < 2 ^ 29) ∧ (flags.testBit 0 = false → id < 0x800) ∧ (flags.testBit 0 = false → id ≠ 0 ∧ s.idReserved ch id = false) ∧ (s.ctrl ch).queue.length < 64) ∧
    (∃ (rq : Rq) (s : State), s.takes (.canStatus rq) = true) :=
  ⟨⟨rq0, 0, [0], up, (0, 0), by decide +kernel⟩,
    ⟨rq0, 0x1000, [5], up, by decide +kernel⟩,
    ⟨rq0, 1, 0, 0, [1], up, by decide +kernel⟩,
    ⟨rq0, 1, 0, 5, [1], up.modCtrl 1 fun c => { c with queue := List.replicate 64 ⟨frm, 0, 0⟩ }, by decide +kernel⟩,
    ⟨rq0, 1, 0, 5, [1], up, by decide +kernel⟩,
    ⟨rq0, up, by decide +kernel⟩⟩
theorem witness_LoopEngineAndAxesFollowTheirRules_1 :
    (∃ (_ : List Int) (s : State), s.tickDue = false) ∧
    (∃ (_ : List Int) (s : State), s.tablesOk = true ∧ s.engineOn = true ∧ (∀ a, s.loops.tickAt = some a → a + 10000 ≤ s.clock)) ∧
    (∃ (n : Nat) (_ : Int) (_ : Int) (s : State), s.tablesOk = true ∧ (s.loop n).takeOver = false ∧ wfld (s.lreg n 0x14) 31 16 = 0 ∧ bit (s.lreg n 0) 2 = false ∧ bit (s.lreg n 0) 3 = false ∧ bit (s.lreg n 0) 4 = false) ∧
    (∃ (n : Nat) (s : State), let w := (s.lreg n 0).toNat ||| 1; s.tablesOk = true ∧ n < 32 ∧ s.loopEn n = false ∧ (s.loopProposed [(0x1000 + 0x80 * n, w)]).lctlOk s n = true) ∧
    (∃ (n : Nat) (s : State), s.tablesOk = true ∧ n < 32 ∧ s.loopEn n = false) ∧
    (∃ (n : Nat) (s : State), s.tablesOk = true ∧ n < 32 ∧ s.loopEn n = true) ∧
    (∃ (n : Nat) (s : State), s.tablesOk = true ∧ (s.loop n).restart = true) ∧
    (∃ (n : Nat) (s : State), s.tablesOk = true ∧ s.engineOn = true ∧ s.loopEn n = true ∧ s.residualLong n = true ∧ (s.loop n).supFault = false ∧ (s.loop n).capBusy = false) ∧
    (∃ (n : Nat) (s : State), s.tablesOk = true ∧ n < 32) ∧
    (∃ (n : Nat) (s : State), s.tablesOk = true ∧ (s.loop n).capBusy = true ∧ (s.loop n).capFull = true) ∧
    (∃ (s : State), 9 ∈ s.recs.cfgPending ∧ s.nvOk = true) ∧
    (∃ (ax : Nat) (_ : Bool) (_ : Bool) (_ : Int) (_ : Int) (s : State), s.tablesOk = true ∧ ax < 16 ∧ s.axMode ax = 1 ∧ (s.axis ax).quad = 4) :=
  ⟨⟨[], upIn .off, by decide +kernel⟩,
    ⟨[100, 200], lp [(0x1100, 0x10110021)] id, by decide +kernel⟩,
    ⟨2, 100, 300, lp [(0x1108, 0x00100010)] id, by decide +kernel⟩,
    ⟨2, lp [(0x1100, 0x10000020)] id, by decide +kernel⟩,
    ⟨2, up, by decide +kernel⟩,
    ⟨2, lp [(0x1100, 0x10000021)] id, by decide +kernel⟩,
    ⟨2, lp [(0x1100, 0x10000021)] fun l => { l with restart := true, supFault := true }, by decide +kernel⟩,
    ⟨2, (lp [(0x1100, 0x10000021), (0x112C, 0x0CCD0001)] fun l => { l with resSince := some 0 }).onLoops fun l => { l with ticks := 100 }, by decide +kernel⟩,
    ⟨2, up, by decide +kernel⟩,
    ⟨2, lp [] fun l => { l with capBusy := true, capBuf := List.replicate 4096 (0, 0, 0, 0) }, by decide +kernel⟩,
    ⟨up.onRecs fun r => { r with cfgPending := [9] }, by decide +kernel⟩,
    ⟨2, true, false, 0, 0, axn [(0x2080, 1)] fun x => { x with quad := 4 }, by decide +kernel⟩⟩
theorem witness_LoopEngineAndAxesFollowTheirRules_2 :
    (∃ (ax : Nat) (a : Bool) (b : Bool) (_ : Int) (_ : Int) (s : State), let ca := decide (a ≠ (s.axis ax).quad.testBit 1); let cb := decide (b ≠ (s.axis ax).quad.testBit 0); s.tablesOk = true ∧ ax < 16 ∧ s.axMode ax = 1 ∧ (s.axis ax).quad ≠ 4 ∧ ca = true ∧ cb = true ∧ bit (s.axreg ax 0) 5 = false) ∧
    (∃ (ax : Nat) (a : Bool) (b : Bool) (_ : Int) (_ : Int) (s : State), let ca := decide (a ≠ (s.axis ax).quad.testBit 1); let cb := decide (b ≠ (s.axis ax).quad.testBit 0); s.tablesOk = true ∧ ax < 16 ∧ s.axMode ax = 1 ∧ (s.axis ax).quad ≠ 4 ∧ ca = true ∧ cb = false ∧ s.edgeAccepted ax 0 = true) ∧
    (∃ (ax : Nat) (a : Bool) (b : Bool) (_ : Int) (_ : Int) (s : State), let ca := decide (a ≠ (s.axis ax).quad.testBit 1); let cb := decide (b ≠ (s.axis ax).quad.testBit 0); s.tablesOk = true ∧ ax < 16 ∧ s.axMode ax = 1 ∧ (s.axis ax).quad ≠ 4 ∧ ca = false ∧ cb = true ∧ s.edgeAccepted ax 1 = true) ∧
    (∃ (ax : Nat) (s : State), s.tablesOk = true ∧ ax < 16 ∧ s.axMode ax = 1 ∧ bit (s.axreg ax 0) 4 = true) ∧
    (∃ (ax : Nat) (pair : Nat) (ns : Nat) (s : State), s.tablesOk = true ∧ s.pairWatched ax pair = true ∧ ns < 1000) ∧
    (∃ (ax : Nat) (pair : Nat) (ns : Nat) (s : State), s.tablesOk = true ∧ s.pairWatched ax pair = true ∧ 1000 ≤ ns ∧ (s.axis ax).fault = false) ∧
    (∃ (ax : Nat) (high : Bool) (s : State), let since := if high then (s.axis ax).highSince else (s.axis ax).lowSince; s.tablesOk = true ∧ ax < 16 ∧ s.axMode ax = 2 ∧ (∀ a, since = some a → s.clock < a + 20000)) ∧
    (∃ (ax : Nat) (high : Bool) (s : State), ∃ a, let since := if high then (s.axis ax).highSince else (s.axis ax).lowSince; s.tablesOk = true ∧ ax < 16 ∧ s.axMode ax = 2 ∧ since = some a ∧ a + 20000 ≤ s.clock) ∧
    (∃ (ax : Nat) (s : State), s.tablesOk = true ∧ ax < 16 ∧ s.axMode ax ≠ 0 ∧ (((s.axis ax).edges.head?.map Prod.fst).getD 0) + 200000 * wfld (s.axreg ax 4) 15 0 ≤ s.clock) ∧
    (∃ (ax : Nat) (s : State), s.tablesOk = true ∧ ax < 16 ∧ (s.axis ax).evNew.1 ≠ s.clock) ∧
    (∃ (n : Nat) (us_ : Nat) (s : State), n < 8 ∧ bit (s.loopReg (0x2500 + 0x10 * n)) 0 = true ∧ bit (s.loopReg (0x2500 + 0x10 * n)) 1 = true ∧ 1000 ≤ us_) ∧
    (∃ (n : Nat) (us_ : Nat) (s : State), n < 8 ∧ bit (s.loopReg (0x2500 + 0x10 * n)) 0 = true ∧ bit (s.loopReg (0x2500 + 0x10 * n)) 1 = true ∧ us_ < 1000) :=
  ⟨⟨2, true, true, 0, 0, axn [(0x2080, 1)] fun x => { x with quad := 0 }, by decide +kernel⟩,
    ⟨2, true, false, 0, 0, axn [(0x2080, 1)] fun x => { x with quad := 0 }, by decide +kernel⟩,
    ⟨2, false, true, 0, 0, axn [(0x2080, 1)] fun x => { x with quad := 0 }, by decide +kernel⟩,
    ⟨2, axn [(0x2080, 0x11)] id, by decide +kernel⟩,
    ⟨2, 1, 999, axn [(0x2080, 1)] id, by decide +kernel⟩,
    ⟨2, 1, 1000, axn [(0x2080, 1)] id, by decide +kernel⟩,
    ⟨2, true, axn [(0x2080, 2)] id, by decide +kernel⟩,
    ⟨2, true, axn [(0x2080, 2)] fun x => { x with highSince := some 0 }, 0, by decide +kernel⟩,
    ⟨2, axn [(0x2080, 1)] id, by decide +kernel⟩,
    ⟨2, late up, by decide +kernel⟩,
    ⟨3, 1000, lp [(0x2530, 3)] id, by decide +kernel⟩,
    ⟨3, 999, lp [(0x2530, 3)] id, by decide +kernel⟩⟩
theorem witness_LoopEngineAndAxesFollowTheirRules_3 :
    (∃ (n : Nat) (_ : Int) (s : State), n < 8 ∧ bit (s.ainCfg n) 0 = true ∧ bit (s.ainCfg n) 1 = true ∧ bit (tget (0 : BitVec 3) s.loops.ainStat n) 2 = false) ∧
    (∃ (s : State), s.tablesOk = true ∧ s.engineOn = true ∧ s.drvEn = true ∧ s.canEn s.drvCh = true ∧ (∀ a, s.loops.drvAt = some a → a + 200000 * wfld (s.canReg 8) 15 0 ≤ s.clock)) :=
  ⟨⟨3, 70, lp [(0x2430, 3)] id, by decide +kernel⟩,
    ⟨up.onCan fun c => { c with regs := [(8, 0x93800064), (0x140, 0x10000005)] }, by decide +kernel⟩⟩
theorem witness_LoadChannelsFollowTheirRules_1 :
    (∃ (n : Nat) (a : Nat) (s : State), s.tablesOk = true ∧ n < 24 ∧ (s.chan n).recmd = some a ∧ a + 200000 ≤ s.clock) ∧
    (∃ (n : Nat) (_ : Bool) (s : State), s.tablesOk = true ∧ n < 24 ∧ s.power.vioOk = false) ∧
    (∃ (n : Nat) (_ : Bool) (s : State), s.tablesOk = true ∧ n < 24 ∧ s.power.vioOk = true ∧ (s.minDone n = false ∨ s.inEn n = false)) ∧
    (∃ (n : Nat) (_ : Bool) (s : State), s.tablesOk = true ∧ n < 24 ∧ s.power.vioOk = true ∧ s.inEn n = true ∧ s.minDone n = true ∧ s.owned n = false ∧ s.load.reverseOn = false ∧ s.load.stagger = [] ∧ s.mayConduct n = true ∧ bit s.load.cmd n = false) ∧
    (∃ (n : Nat) (s : State), s.tablesOk = true ∧ n < 24 ∧ s.inEn n = true ∧ s.minDone n = true ∧ s.owned n = false ∧ s.load.reverseOn = false ∧ s.load.stagger = [] ∧ s.mayConduct n = true) ∧
    (∃ (n : Nat) (a : Nat) (s : State), s.tablesOk = true ∧ n < 22 ∧ (s.chan n).on = true ∧ (s.chan n).inrush = true ∧ (s.chan n).onAt = some a ∧ a + 200000 * inrushMs (s.profile n) ≤ s.clock) ∧
    (∃ (n : Nat) (vout : Int) (vload : Int) (s : State), s.tablesOk = true ∧ 22 ≤ n ∧ n < 24 ∧ (s.chan n).on = true ∧ (s.chan n).inrush = true ∧ 200 < vload - vout) ∧
    (∃ (n : Nat) (vout : Int) (vload : Int) (s : State), s.tablesOk = true ∧ 22 ≤ n ∧ n < 24 ∧ (s.chan n).on = true ∧ (s.chan n).inrush = true ∧ vload - vout ≤ 200) ∧
    (∃ (n : Nat) (a : Nat) (_ : Nat) (s : State), s.tablesOk = true ∧ 22 ≤ n ∧ n < 24 ∧ (s.chan n).on = true ∧ (s.chan n).inrush = true ∧ (s.chan n).onAt = some a ∧ a + 200 * 200000 ≤ s.clock ∧ s.load.reverseOn = false) ∧
    (∃ (n : Nat) (ma : Nat) (us_ : Nat) (s : State), s.tablesOk = true ∧ n < 24 ∧ (s.chan n).on = true ∧ (us_ < 20 ∨ ma * 1000 ≤ s.threshold n)) ∧
    (∃ (n : Nat) (ma : Nat) (us_ : Nat) (s : State), s.tablesOk = true ∧ n < 24 ∧ (s.chan n).on = true ∧ 20 ≤ us_ ∧ s.threshold n < ma * 1000 ∧ s.load.reverseOn = false) ∧
    (∃ (n : Nat) (dt : Int) (s : State), s.tablesOk = true ∧ n < 24 ∧ (s.chan n).on = true ∧ dt < 6000) :=
  ⟨⟨7, 100, chn 7 0x00640010 fun c => { c with recmd := some 100 }, by decide +kernel⟩,
    ⟨7, true, up.onPower fun p => { p with vioOk := false }, by decide +kernel⟩,
    ⟨7, true, chn 7 0x00640010 id, by decide +kernel⟩,
    ⟨7, true, chn 7 0x00640018 id, by decide +kernel⟩,
    ⟨7, chn 7 0x00640018 id, by decide +kernel⟩,
    ⟨7, 100, chn 7 0x00640010 fun c => { c with on := true, inrush := true, onAt := some 100 }, by decide +kernel⟩,
    ⟨22, 1000, 1201, chn 22 0x02640060 fun c => { c with on := true, inrush := true }, by decide +kernel⟩,
    ⟨22, 1000, 1200, chn 22 0x02640060 fun c => { c with on := true, inrush := true }, by decide +kernel⟩,
    ⟨22, 100, 5000, chn 22 0x02640060 fun c => { c with on := true, inrush := true, onAt := some 100 }, by decide +kernel⟩,
    ⟨7, 3000, 30, chn 7 0x00640010 fun c => { c with on := true }, by decide +kernel⟩,
    ⟨7, 3001, 20, chn 7 0x00640010 fun c => { c with on := true }, by decide +kernel⟩,
    ⟨7, 5999, chn 7 0x00640010 fun c => { c with on := true }, by decide +kernel⟩⟩
theorem witness_LoadChannelsFollowTheirRules_2 :
    (∃ (n : Nat) (dt : Int) (s : State), s.tablesOk = true ∧ n < 24 ∧ (s.chan n).on = true ∧ 6000 ≤ dt ∧ s.load.reverseOn = false) ∧
    (∃ (n : Nat) (dt : Int) (s : State), s.tablesOk = true ∧ n < 24 ∧ (s.chan n).dtOff = true ∧ 4500 ≤ dt) ∧
    (∃ (n : Nat) (dt : Int) (s : State), s.tablesOk = true ∧ n < 24 ∧ (s.chan n).dtOff = true ∧ dt < 4500) ∧
    (∃ (n : Nat) (l : List Nat) (s : State), s.tablesOk = true ∧ n < 24 ∧ l ≠ [] ∧ (s.chan n).on = true ∧ (s.chan n).onTime s.clock < 20000000) ∧
    (∃ (n : Nat) (l : List Nat) (s : State), let thr := if bit (s.chanCfg n) 1 then 2 else 20; s.tablesOk = true ∧ n < 24 ∧ l ≠ [] ∧ (s.chan n).on = true ∧ 20000000 ≤ (s.chan n).onTime s.clock ∧ (∀ v ∈ l, v < thr) ∧ (s.chan n).openLoad = false) ∧
    (∃ (n : Nat) (l : List Nat) (s : State), let thr := if bit (s.chanCfg n) 1 then 2 else 20; s.tablesOk = true ∧ n < 24 ∧ l ≠ [] ∧ (s.chan n).on = true ∧ 20000000 ≤ (s.chan n).onTime s.clock ∧ (s.chan n).openLoad = true ∧ 3 * thr * l.length < 2 * l.sum) ∧
    (∃ (n : Nat) (a : Nat) (rest : List Nat) (s : State), s.tablesOk = true ∧ s.load.stagger = n :: rest ∧ s.load.staggerAt = some a ∧ a + 200000 ≤ s.clock ∧ (s.chan n).on = false ∧ s.conducts n = true) ∧
    (∃ (v : Int) (us_ : Nat) (s : State), s.tablesOk = true ∧ v < 3000 ∧ 100 ≤ us_ ∧ s.supFlag 0 = false ∧ s.load.reverseOn = false) ∧
    (∃ (v : Int) (ms_ : Nat) (s : State), 3300 < v ∧ 10 ≤ ms_ ∧ (s.supFlag 0 = true ∨ s.supFlag 2 = true)) ∧
    (∃ (v : Int) (s : State), s.supFlag 1 = false ∧ v ≤ 8000) ∧
    (∃ (v : Int) (s : State), s.supFlag 1 = false ∧ 8000 < v) ∧
    (∃ (v : Int) (s : State), s.supFlag 1 = true ∧ 7600 ≤ v) :=
  ⟨⟨7, 6000, chn 7 0x00640010 fun c => { c with on := true }, by decide +kernel⟩,
    ⟨7, 4500, chn 7 0x00640010 fun c => { c with dtOff := true }, by decide +kernel⟩,
    ⟨7, 4499, chn 7 0x00640010 fun c => { c with dtOff := true }, by decide +kernel⟩,
    ⟨7, [19, 3], chn 7 0x00640010 fun c => { c with on := true, onFrom := 10000000000000 }, by decide +kernel⟩,
    ⟨7, [19, 3], chn 7 0x00640010 fun c => { c with on := true }, by decide +kernel⟩,
    ⟨7, [31], chn 7 0x00640010 fun c => { c with on := true, openLoad := true }, by decide +kernel⟩,
    ⟨7, 100, [9], (chn 7 0x00640010 id).onLoad fun l => { l with cmd := 0x80, stagger := [7, 9], staggerAt := some 100 }, by decide +kernel⟩,
    ⟨2999, 100, chn 7 0x00640010 fun c => { c with on := true }, by decide +kernel⟩,
    ⟨3301, 10, up.onLoad fun l => { l with sup := 5 }, by decide +kernel⟩,
    ⟨8000, up, by decide +kernel⟩,
    ⟨8001, up, by decide +kernel⟩,
    ⟨7600, up.onLoad fun l => { l with sup := 2 }, by decide +kernel⟩⟩
theorem witness_LoadChannelsFollowTheirRules_3 :
    (∃ (v : Int) (s : State), s.supFlag 1 = true ∧ v < 7600) ∧
    (∃ (v : Int) (us_ : Nat) (s : State), s.tablesOk = true ∧ v < -500 ∧ 100 ≤ us_ ∧ s.supFlag 2 = false) ∧
    (∃ (o : Int) (us_ : Nat) (s : State), s.tablesOk = true ∧ 3000 < o.natAbs ∧ 1000 ≤ us_ ∧ s.supFlag 3 = false ∧ s.load.reverseOn = false) ∧
    (∃ (o : Int) (ms_ : Nat) (s : State), o.natAbs ≤ 1000 ∧ 10 ≤ ms_ ∧ s.supFlag 3 = true) ∧
    (∃ (m : Nat) (s : State), 4000 < m ∧ s.supFlag 4 = false) ∧
    (∃ (m : Nat) (s : State), 4000 < m ∧ s.supFlag 4 = true) ∧
    (∃ (m : Nat) (s : State) (a : Nat), m ≤ 4000 ∧ s.supFlag 4 = true ∧ s.load.calmSince = some a) ∧
    (∃ (m : Nat) (n : Nat) (a : Nat) (s : State), s.tablesOk = true ∧ 4000 < m ∧ s.load.overSince = some a ∧ a + 1000000000 ≤ s.clock ∧ s.supFlag 0 = false ∧ (∀ b, s.load.shedAt = some b → b + 100 * 200000 ≤ s.clock) ∧ s.load.reverseOn = false ∧ n < 24 ∧ (s.chan n).on = true ∧ s.owned n = false ∧ (∀ k, n < k → k < 24 → (s.chan k).on = false ∨ s.owned k = true)) ∧
    (∃ (s : State), 10 ∈ s.recs.cfgPending ∧ s.nvOk = true) :=
  ⟨⟨7599, up.onLoad fun l => { l with sup := 2 }, by decide +kernel⟩,
    ⟨-501, 100, up, by decide +kernel⟩,
    ⟨3001, 1000, up, by decide +kernel⟩,
    ⟨1000, 10, up.onLoad fun l => { l with sup := 8 }, by decide +kernel⟩,
    ⟨4001, up, by decide +kernel⟩,
    ⟨4001, up.onLoad fun l => { l with sup := 16 }, by decide +kernel⟩,
    ⟨4000, up.onLoad fun l => { l with sup := 16, calmSince := some 0 }, (0 : Nat), by decide +kernel⟩,
    ⟨4001, 23, 100, (chn 23 0x00640010 fun c => { c with on := true }).onLoad fun l => { l with overSince := some 100 }, by and_intros <;> first | exact fun k h1 h2 => by omega | decide +kernel⟩,
    ⟨up.onRecs fun r => { r with cfgPending := [10] }, by decide +kernel⟩⟩
theorem witness_CanControllersFollowTheirRules_1 :
    (∃ (ch : Nat) (_ : Nat) (_ : Nat) (_ : Nat) (_ : Bool) (_ : Bool) (_ : Bool) (_ : Bool) (_ : Bool) (_ : Bool) (_ : List Byte) (s : State), s.canLive ch = false) ∧
    (∃ (ch : Nat) (_ : Nat) (_ : Bool) (_ : Bool) (_ : Bool) (_ : List Byte) (s : State), s.tablesOk = true ∧ s.canLive ch = true ∧ s.canFd ch = false ∧ s.guardWins ch = false) ∧
    (∃ (ch : Nat) (_ : Nat) (_ : Bool) (fdf : Bool) (_ : Bool) (_ : List Byte) (s : State), s.tablesOk = true ∧ s.canLive ch = true ∧ (fdf = true → s.canFd ch = true) ∧ (s.ctrl ch).rec_ ≤ 127 ∧ (s.ctrl ch).estate = (s.ctrl ch).ofCounters ∧ (s.ctrl ch).tec ≤ 127 ∧ s.sys.run ≠ .running ∧ s.guardWins ch = false) ∧
    (∃ (u : Nat) (vDc : Nat) (state : Nat) (count : Nat) (iDc : Int) (s : State), s.tablesOk = true ∧ s.pcsEn = true ∧ u < s.pcsUnits ∧ s.canLive s.pcsCh = true ∧ s.guardWins s.pcsCh = false ∧ s.sys.run = .running ∧ -(2 ^ 31) ≤ iDc ∧ iDc < 2 ^ 31 ∧ vDc < 65536 ∧ state < 256 ∧ count < 256) ∧
    (∃ (u : Nat) (s : State), s.tablesOk = true ∧ s.pcsEn = true ∧ u < s.pcsUnits ∧ s.sys.run = .running ∧ ((∃ a, (s.unit u).at_ = some a ∧ (s.unit u).stale = false ∧ a + (s.canStale u + 1) ≤ s.clock) ∨ ((s.unit u).at_ = none ∧ (s.unit u).told = false ∧ s.can.pcsAt + s.canStale u ≤ s.clock))) ∧
    (∃ (ch : Nat) (src : Nat) (state : Nat) (count : Nat) (m : List Nat) (s : State), s.tablesOk = true ∧ s.canLive ch = true ∧ tfind? s.guard.alarms (ch * 64 + src) = some m ∧ src < 64 ∧ state < 256 ∧ count < 256 ∧ s.sys.run = .running ∧ s.guardWins ch = false) ∧
    (∃ (ch : Nat) (src : Nat) (a : Nat) (m : List Nat) (s : State), s.tablesOk = true ∧ tfind? s.guard.alarms (ch * 64 + src) = some m ∧ s.sys.run = .running ∧ (s.alarm (ch * 64 + src)).silent = false ∧ (s.alarm (ch * 64 + src)).at_ = some a ∧ a + s.almLost ≤ s.clock) ∧
    (∃ (ch : Nat) (_ : Nat) (s : State), s.guardWins ch = true) ∧
    (∃ (ch : Nat) (_ : Nat) (s : State), s.guardWins ch = true ∧ (s.ctrl ch).onBus = none) ∧
    (∃ (ch : Nat) (p : Nat) (m : TxMsg) (s : State), s.tablesOk = true ∧ s.sends ch = true ∧ (s.ctrl ch).estate = (s.ctrl ch).ofCounters ∧ (s.ctrl ch).tec ≤ 119 ∧ (s.ctrl ch).rec_ ≤ 127 ∧ ((s.ctrl ch).onBus.isSome = true ∨ s.guardWaits ch = false) ∧ (s.ctrl ch).onBus.or (s.ctrl ch).next = some (.message p) ∧ (s.ctrl ch).queue[p]? = some m ∧ s.guardWins ch = false) ∧
    (∃ (ch : Nat) (p : Nat) (m : TxMsg) (s : State), ∃ code, s.tablesOk = true ∧ s.sends ch = true ∧ (s.ctrl ch).estate = (s.ctrl ch).ofCounters ∧ (s.ctrl ch).tec ≤ 119 ∧ (s.ctrl ch).rec_ ≤ 127 ∧ ((s.ctrl ch).onBus.isSome = true ∨ s.guardWaits ch = false) ∧ (s.ctrl ch).onBus.or (s.ctrl ch).next = some (.message p) ∧ (s.ctrl ch).queue[p]? = some m ∧ 1 ≤ code ∧ m.tries + 1 ≤ m.limit) ∧
    (∃ (ch : Nat) (p : Nat) (m : TxMsg) (s : State), ∃ code, s.tablesOk = true ∧ s.sends ch = true ∧ (s.ctrl ch).estate = (s.ctrl ch).ofCounters ∧ (s.ctrl ch).tec ≤ 119 ∧ (s.ctrl ch).rec_ ≤ 127 ∧ ((s.ctrl ch).onBus.isSome = true ∨ s.guardWaits ch = false) ∧ (s.ctrl ch).onBus.or (s.ctrl ch).next = some (.message p) ∧ (s.ctrl ch).queue[p]? = some m ∧ 1 ≤ code ∧ code ≠ 3 ∧ m.limit < m.tries + 1) :=
  ⟨⟨1, 5, 0, 1, false, false, false, false, false, false, [1], up, by decide +kernel⟩,
    ⟨1, 5, false, false, false, [1], ctl fun c => c, by decide +kernel⟩,
    ⟨1, 5, false, false, false, [1], (ctl fun c => c).onSys fun y => { y with run := .restarting }, by decide +kernel⟩,
    ⟨2, 700, 1, 9, -5, pcs id, by decide +kernel⟩,
    ⟨2, pcs fun u => { u with at_ := some 0, stale := false }, by decide +kernel⟩,
    ⟨1, 3, 1, 9, [1, 255, 65535], (ctl fun c => c).onGuard (fun g => { g with alarms := [(67, [1, 255, 65535])] }) |>.onCan fun c => { c with regs := [(0, 0x05000001), (0x140, 0x10000005)] }, by decide +kernel⟩,
    ⟨1, 3, 100, [1, 255, 65535], ((ctl fun c => c).onGuard fun g => { g with alarms := [(67, [1, 255, 65535])] }).modAlarm 67 fun a => { a with at_ := some 100 }, by decide +kernel⟩,
    ⟨1, 0, (pcs id).onCan fun c => { c with guardTx := some [1, 2] }, by decide +kernel⟩,
    ⟨1, 5, (pcs id).onCan fun c => { c with guardTx := some [1, 2] }, by decide +kernel⟩,
    ⟨1, 0, ⟨frm, 2, 0⟩, ctl fun c => { c with queue := [⟨frm, 2, 0⟩] }, by decide +kernel⟩,
    ⟨1, 0, ⟨frm, 2, 0⟩, ctl fun c => { c with queue := [⟨frm, 2, 0⟩] }, 5, by decide +kernel⟩,
    ⟨1, 0, ⟨frm, 2, 2⟩, ctl fun c => { c with queue := [⟨frm, 2, 2⟩] }, 5, by decide +kernel⟩⟩
theorem witness_CanControllersFollowTheirRules_2 :
    (∃ (ch : Nat) (p : Nat) (m : TxMsg) (s : State), s.tablesOk = true ∧ s.sends ch = true ∧ (s.ctrl ch).estate = (s.ctrl ch).ofCounters ∧ (s.ctrl ch).tec ≤ 119 ∧ (s.ctrl ch).rec_ ≤ 127 ∧ ((s.ctrl ch).onBus.isSome = true ∨ s.guardWaits ch = false) ∧ (s.ctrl ch).onBus.or (s.ctrl ch).next = some (.message p) ∧ (s.ctrl ch).queue[p]? = some m ∧ m.limit < m.tries + 1) ∧
    (∃ (ch : Nat) (i : Nat) (code : Nat) (renewed : Bool) (s : State), s.tablesOk = true ∧ s.sends ch = true ∧ (s.ctrl ch).estate = 1 ∧ 248 ≤ (s.ctrl ch).tec ∧ (s.ctrl ch).tec ≤ 255 ∧ (s.ctrl ch).onBus = some (.buffer i renewed) ∧ 1 ≤ code ∧ code ≠ 3) ∧
    (∃ (ch : Nat) (s : State), s.tablesOk = true ∧ s.guardOn ch = true ∧ s.analogue = true ∧ s.can.guardTx.isSome = true) ∧
    (∃ (ch : Nat) (a : Nat) (s : State), s.tablesOk = true ∧ s.canLive ch = true ∧ (s.ctrl ch).estate = 3 ∧ (s.ctrl ch).queue ≠ [] ∧ s.canListen ch = false ∧ (s.ctrl ch).probeAt = some a ∧ a + 100 * 200000 ≤ s.clock) ∧
    (∃ (ch : Nat) (a : Nat) (s : State), ∃ code, s.tablesOk = true ∧ s.canLive ch = true ∧ (s.ctrl ch).estate = 3 ∧ (s.ctrl ch).queue ≠ [] ∧ s.canListen ch = false ∧ (s.ctrl ch).probeAt = some a ∧ a + 100 * 200000 ≤ s.clock ∧ 1 ≤ code ∧ (s.ctrl ch).tec ≤ 119) ∧
    (∃ (ch : Nat) (s : State), s.tablesOk = true ∧ s.canLive ch = true ∧ (s.ctrl ch).estate = 3) ∧
    (∃ (ch : Nat) (q : Nat) (a : Nat) (s : State), s.tablesOk = true ∧ ch < 8 ∧ s.canEn ch = true ∧ (s.ctrl ch).estate = 2 ∧ bit (s.canCfg ch) 2 = true ∧ (s.ctrl ch).offAt = some a ∧ a + 200000000 ≤ s.clock ∧ q < 128) ∧
    (∃ (ch : Nat) (q : Nat) (a : Nat) (s : State), s.tablesOk = true ∧ ch < 8 ∧ s.canEn ch = true ∧ (s.ctrl ch).estate = 2 ∧ bit (s.canCfg ch) 2 = true ∧ (s.ctrl ch).offAt = some a ∧ a + 200000000 ≤ s.clock ∧ 128 ≤ q) ∧
    (∃ (ch : Nat) (s : State), s.tablesOk = true ∧ ch < 8) ∧
    (∃ (ch : Nat) (s : State), ∃ r, s.tablesOk = true ∧ ch < 8 ∧ s.canEn ch = true ∧ (s.ctrl ch).estate < 2 ∧ (s.ctrl ch).retime = some r ∧ (s.ctrl ch).onBus.isSome = true ∧ (s.ctrl ch).busAt < r) ∧
    (∃ (ch : Nat) (s : State), ∃ r, s.tablesOk = true ∧ ch < 8 ∧ s.canEn ch = true ∧ (s.ctrl ch).estate < 2 ∧ (s.ctrl ch).retime = some r ∧ ((s.ctrl ch).onBus = none ∨ r ≤ (s.ctrl ch).busAt)) ∧
    (∃ (ch : Nat) (s : State), s.tablesOk = true ∧ ch < 8 ∧ s.canEn ch = true) :=
  ⟨⟨1, 0, ⟨frm, 2, 2⟩, ctl fun c => { c with queue := [⟨frm, 2, 2⟩] }, by decide +kernel⟩,
    ⟨1, 4, 5, true, ctl fun c => { c with estate := 1, tec := 248, ded := [(4, [1])], onBus := some (.buffer 4 true) }, by decide +kernel⟩,
    ⟨1, (pcs id).onCan fun c => { c with guardTx := some [1, 2] }, by decide +kernel⟩,
    ⟨1, 100, ctl fun c => { c with estate := 3, queue := [⟨frm, 2, 2⟩], probeAt := some 100 }, by decide +kernel⟩,
    ⟨1, 100, ctl fun c => { c with estate := 3, queue := [⟨frm, 2, 2⟩], probeAt := some 100 }, 3, by decide +kernel⟩,
    ⟨1, ctl fun c => { c with estate := 3 }, by decide +kernel⟩,
    ⟨1, 127, 100, ctl fun c => { c with estate := 2, offAt := some 100 }, by decide +kernel⟩,
    ⟨1, 128, 100, ctl fun c => { c with estate := 2, offAt := some 100 }, by decide +kernel⟩,
    ⟨1, ctl fun c => { c with fifo := [⟨frm, 0, 0⟩, ⟨frm, 1, 0⟩] }, by decide +kernel⟩,
    ⟨1, ctl (fun c => { c with retime := some 100, onBus := some (.message 0), busAt := 50, queue := [⟨frm, 2, 0⟩] }), 100, by decide +kernel⟩,
    ⟨1, ctl (fun c => { c with retime := some 100 }), 100, by decide +kernel⟩,
    ⟨1, ctl fun c => c, by decide +kernel⟩⟩
theorem witness_CanControllersFollowTheirRules_3 :
    ∃ (ch : Nat) (_ : Nat) (primary : Bool) (s : State), s.tablesOk = true ∧ s.canLive ch = true ∧ (s.ctrl ch).estate = 0 ∧ (s.ctrl ch).tec ≤ 127 ∧ (s.ctrl ch).rec_ + (if primary then 8 else 1) ≤ 127 :=
  ⟨1, 5, true, ctl fun c => c, by decide +kernel⟩
theorem witness_LogAndUpdateRequestsComplete_1 :
    (∃ (rq : Rq) (s : State), s.takes (.logState rq) = true) ∧
    (∃ (rq : Rq) (b : Bulk) (s : State), s.bulkStarts (.readLog rq b [] none) rq b none ∧ b.port = 255 ∧ b.string = 65535 ∧ seqOlder b.arg s.recs.oldest = false) ∧
    (∃ (rq : Rq) (first : Nat) (count : Nat) (s : State), s.takes (.readRecent rq first count []) = true ∧ 1 ≤ count ∧ count ≤ 7 ∧ seqOlder first s.recs.oldest = false) ∧
    (∃ (rq : Rq) (first : Nat) (count : Nat) (s : State), s.takes (.readRecent rq first count []) = true ∧ 1 ≤ count ∧ count ≤ 7 ∧ seqOlder first s.recs.oldest = true) ∧
    (∃ (rq : Rq) (first : Nat) (count : Nat) (e : Rec) (l : List Byte) (s : State), s.takes (.readRecent rq first count [(e.seq, l)]) = true ∧ 1 ≤ count ∧ count ≤ 7 ∧ seqOlder first s.recs.oldest = false ∧ (s.recs.fromSeq first).take count = [e] ∧ (∀ x ∈ s.recs.tail, x.seq ≠ e.seq)) ∧
    (∃ (rq : Rq) (wake : Nat) (note : Nat) (s : State), s.takes (.setSeverity rq wake note) = true ∧ s.nvOk = true ∧ wake < 8 ∧ note < 8) ∧
    (∃ (rq : Rq) (wake : Nat) (note : Nat) (s : State), s.takes (.setSeverity rq wake note) = true ∧ s.nvOk = true ∧ 8 ≤ wake) ∧
    (∃ (rq : Rq) (wake : Nat) (note : Nat) (s : State), s.takes (.setSeverity rq wake note) = true ∧ s.nvOk = true ∧ wake < 8 ∧ 8 ≤ note) ∧
    (∃ (rq : Rq) (port : Nat) (string : Nat) (s : State), s.takes (.readCounters rq port string) = true ∧ s.someString port string = true) ∧
    (∃ (rq : Rq) (s : State), s.takes (.updateState rq) = true) ∧
    (∃ (rq : Rq) (target : Nat) (id : Nat) (len : Nat) (s : State), let u := s.upd; s.takes (.begin rq target id len) = true ∧ target < 2 ∧ s.nvOk = true ∧ u.ustate = .scheduled) ∧
    (∃ (rq : Rq) (target : Nat) (id : Nat) (len : Nat) (s : State), let u := s.upd; s.takes (.begin rq target id len) = true ∧ target < 2 ∧ s.nvOk = true ∧ u.ustate = .uncommitted ∧ target = 0) :=
  ⟨⟨rq0, up, by decide +kernel⟩,
    ⟨rq0, ⟨4096, 4096, 0, 255, 65535, 1⟩, lg fun r => { r with flash := [rcd 1 true], tail := [rcd 2 false], nextSeq := 3 }, by and_intros <;> first | (unfold State.bulkStarts; decide +kernel) | decide +kernel⟩,
    ⟨rq0, 1, 7, lg fun r => { r with flash := [rcd 1 true], nextSeq := 2 }, by decide +kernel⟩,
    ⟨rq0, 0, 7, lg fun r => { r with flash := [rcd 1 true], nextSeq := 2 }, by decide +kernel⟩,
    ⟨rq0, 1, 7, rcd 1 true, [1, 2], lg fun r => { r with flash := [rcd 1 true], nextSeq := 2 }, by decide +kernel⟩,
    ⟨rq0, 7, 7, up, by decide +kernel⟩,
    ⟨rq0, 8, 7, up, by decide +kernel⟩,
    ⟨rq0, 7, 8, up, by decide +kernel⟩,
    ⟨rq0, 255, 65535, up, by decide +kernel⟩,
    ⟨rq0, up, by decide +kernel⟩,
    ⟨rq0, 0, 5, 8192, ud fun u => { u with ustate := .scheduled }, by decide +kernel⟩,
    ⟨rq0, 0, 5, 8192, ud fun u => { u with ustate := .uncommitted }, by decide +kernel⟩⟩
theorem witness_LogAndUpdateRequestsComplete_2 :
    (∃ (rq : Rq) (target : Nat) (id : Nat) (len : Nat) (s : State), let u := s.upd; s.takes (.begin rq target id len) = true ∧ target < 2 ∧ s.nvOk = true ∧ u.ustate ≠ .scheduled ∧ target = 1 ∧ u.node.isSome = true) ∧
    (∃ (rq : Rq) (target : Nat) (id : Nat) (len : Nat) (s : State), let u := s.upd; s.takes (.begin rq target id len) = true ∧ target < 2 ∧ s.nvOk = true ∧ u.ustate ≠ .scheduled ∧ (u.ustate ≠ .uncommitted ∨ target = 1) ∧ (target = 0 ∨ u.node = none) ∧ lengthOk target len = false) ∧
    (∃ (rq : Rq) (target : Nat) (id : Nat) (len : Nat) (s : State), let u := s.upd; s.takes (.begin rq target id len) = true ∧ target < 2 ∧ s.nvOk = true ∧ u.ustate ≠ .scheduled ∧ (u.ustate ≠ .uncommitted ∨ target = 1) ∧ (target = 0 ∨ u.node = none) ∧ lengthOk target len = true) ∧
    (∃ (_ : Nat) (_ : List Byte) (s : State), s.upd.begun = none) ∧
    (∃ (off : Nat) (_ : List Byte) (s : State), ∃ target id len, s.upd.begun = some (target, id, len) ∧ (off % 4096 ≠ 0 ∨ len ≤ off)) ∧
    (∃ (off : Nat) (_ : List Byte) (s : State), ∃ target id len old, s.upd.begun = some (target, id, len) ∧ off % 4096 = 0 ∧ off < len ∧ tfind? s.upd.blocks off = some old) ∧
    (∃ (off : Nat) (_ : List Byte) (s : State), ∃ target id len, s.upd.begun = some (target, id, len) ∧ off % 4096 = 0 ∧ off < len ∧ tfind? s.upd.blocks off = none ∧ tfind? s.upd.blocks 0 = none ∧ off ≠ 0) ∧
    (∃ (off : Nat) (_ : List Byte) (s : State), ∃ target id len, s.upd.begun = some (target, id, len) ∧ off % 4096 = 0 ∧ off < len ∧ tfind? s.upd.blocks off = none ∧ off = 0) ∧
    (∃ (off : Nat) (_ : List Byte) (s : State), ∃ target id len h, s.upd.begun = some (target, id, len) ∧ off % 4096 = 0 ∧ off < len ∧ tfind? s.upd.blocks off = none ∧ tfind? s.upd.blocks 0 = some h) ∧
    (∃ (rq : Rq) (b : Bulk) (data : List Byte) (s : State), ∃ target id len, let l := (s.hostStores rq b data).bulkSource rq b data 4096; s.bulkStarts (.writeBlock rq b data none) rq b none ∧ b.len = 4096 ∧ b.port = 255 ∧ b.string = 65535 ∧ (rq.eth = true → 4096 ≤ data.length) ∧ s.upd.begun = some (target, id, len) ∧ s.blockFault b.arg l = 0) ∧
    (∃ (rq : Rq) (b : Bulk) (data : List Byte) (s : State), ∃ d, let l := (s.hostStores rq b data).bulkSource rq b data 4096; s.bulkStarts (.writeBlock rq b data none) rq b none ∧ b.len = 4096 ∧ b.port = 255 ∧ b.string = 65535 ∧ (rq.eth = true → 4096 ≤ data.length) ∧ d ≠ 0 ∧ s.blockFault b.arg l = d) ∧
    (∃ (rq : Rq) (s : State), let u := s.upd; s.takes (.verify rq) = true ∧ s.nvOk = true ∧ u.begun = none) :=
  ⟨⟨rq0, 1, 5, 8192, ud fun u => { u with node := some ⟨5, [1], 0, false, none, false⟩ }, by decide +kernel⟩,
    ⟨rq0, 0, 5, 8191, up, by decide +kernel⟩,
    ⟨rq0, 1, 5, 8192, up, by decide +kernel⟩,
    ⟨0, [], up, by decide +kernel⟩,
    ⟨8192, [], ud (fun u => { u with begun := some (0, 5, 8192) }), 0, 5, 8192, by decide +kernel⟩,
    ⟨4096, [], ud (fun u => { u with begun := some (0, 5, 8192), blocks := [(4096, [1])] }), 0, 5, 8192, [1], by decide +kernel⟩,
    ⟨4096, [], ud (fun u => { u with begun := some (0, 5, 8192) }), 0, 5, 8192, by decide +kernel⟩,
    ⟨0, [], ud (fun u => { u with begun := some (0, 5, 8192) }), 0, 5, 8192, by decide +kernel⟩,
    ⟨4096, [], ud (fun u => { u with begun := some (0, 5, 8192), blocks := [(0, [1])] }), 0, 5, 8192, [1], by decide +kernel⟩,
    ⟨rq0, ⟨4096, 4096, 0, 255, 65535, 4096⟩, [], resent (up.bulkSource rq0 ⟨4096, 4096, 0, 255, 65535, 4096⟩ [] 4096), 0, 5, 8192, by dsimp only; and_intros <;> first | (unfold State.bulkStarts; decide +kernel) | exact resent_ok _ | decide +kernel⟩,
    ⟨rq0, ⟨4096, 4096, 0, 255, 65535, 4096⟩, [1], ud (fun u => { u with begun := some (0, 5, 8192) }), 4, by dsimp only; and_intros <;> first | (unfold State.bulkStarts; decide +kernel) | decide +kernel⟩,
    ⟨rq0, up, by decide +kernel⟩⟩
theorem witness_LogAndUpdateRequestsComplete_3 :
    (∃ (rq : Rq) (s : State), ∃ target i len, let u := s.upd; s.takes (.verify rq) = true ∧ s.nvOk = true ∧ u.begun = some (target, i, len) ∧ u.blocks.length * 4096 < len) ∧
    (∃ (rq : Rq) (s : State), ∃ target i len, let u := s.upd; s.takes (.verify rq) = true ∧ s.nvOk = true ∧ u.begun = some (target, i, len) ∧ len ≤ u.blocks.length * 4096) ∧
    (∃ (rq : Rq) (s : State), s.sys.run = .recovery ∧ s.sys.shut = false ∧ rq.tenant = 0 ∧ s.mayStart rq = true ∧ s.nvOk = true) ∧
    (∃ (rq : Rq) (w : Nat) (back : Bool) (s : State), let c : Instr := if back then .rollback rq w else .schedule rq w; let may := if back then decide (s.upd.ustate = .uncommitted) else decide (s.upd.ustate = .verified ∨ s.upd.ustate = .scheduled); s.tablesOk = true ∧ s.takes c = true ∧ s.nvOk = true ∧ may = false) ∧
    (∃ (rq : Rq) (w : Nat) (back : Bool) (s : State), let c : Instr := if back then .rollback rq w else .schedule rq w; let may := if back then decide (s.upd.ustate = .uncommitted) else decide (s.upd.ustate = .verified ∨ s.upd.ustate = .scheduled); s.tablesOk = true ∧ s.takes c = true ∧ s.nvOk = true ∧ may = true ∧ s.sys.ptpLock = false) ∧
    (∃ (rq : Rq) (w : Nat) (back : Bool) (s : State), let c : Instr := if back then .rollback rq w else .schedule rq w; let may := if back then decide (s.upd.ustate = .uncommitted) else decide (s.upd.ustate = .verified ∨ s.upd.ustate = .scheduled); let now := s.wall.toNat; s.tablesOk = true ∧ s.takes c = true ∧ s.nvOk = true ∧ may = true ∧ s.sys.ptpLock = true ∧ (w < now + 10 * 1000000000 ∨ now + 30 * 86400 * 1000000000 < w)) ∧
    (∃ (rq : Rq) (w : Nat) (back : Bool) (s : State), let c : Instr := if back then .rollback rq w else .schedule rq w; let may := if back then decide (s.upd.ustate = .uncommitted) else decide (s.upd.ustate = .verified ∨ s.upd.ustate = .scheduled); let now := s.wall.toNat; s.tablesOk = true ∧ s.takes c = true ∧ s.nvOk = true ∧ may = true ∧ s.sys.ptpLock = true ∧ now + 10 * 1000000000 ≤ w ∧ w ≤ now + 30 * 86400 * 1000000000) ∧
    (∃ (rq : Rq) (s : State), s.tablesOk = true ∧ s.takes (.cancel rq) = true ∧ s.upd.ustate ≠ .scheduled) ∧
    (∃ (rq : Rq) (s : State), s.tablesOk = true ∧ s.takes (.cancel rq) = true ∧ s.upd.ustate = .scheduled) ∧
    (∃ (rq : Rq) (s : State), s.takes (.commit rq) = true ∧ s.nvOk = true ∧ s.upd.ustate = .scheduled) ∧
    (∃ (rq : Rq) (s : State), s.takes (.commit rq) = true ∧ s.nvOk = true ∧ s.upd.ustate ≠ .scheduled ∧ s.upd.ustate ≠ .uncommitted) ∧
    (∃ (rq : Rq) (s : State), s.takes (.commit rq) = true ∧ s.nvOk = true ∧ s.upd.ustate = .uncommitted) :=
  ⟨⟨rq0, ud (fun u => { u with begun := some (0, 5, 8192), blocks := [(0, [1])] }), 0, 5, 8192, by decide +kernel⟩,
    ⟨rq0, ud (fun u => { u with begun := some (1, 5, 8192), blocks := [(0, [1]), (4096, [2])] }), 1, 5, 8192, by decide +kernel⟩,
    ⟨rq0, up.onSys fun y => { y with run := .recovery }, by decide +kernel⟩,
    ⟨rq0, 5, true, up, by decide +kernel⟩,
    ⟨rq0, 5, false, ud fun u => { u with ustate := .verified }, by decide +kernel⟩,
    ⟨rq0, 1009999999999, true, ptp fun u => { u with ustate := .uncommitted }, by decide +kernel⟩,
    ⟨rq0, 1010000000000, false, ptp fun u => { u with ustate := .scheduled }, by decide +kernel⟩,
    ⟨rq0, up, by decide +kernel⟩,
    ⟨rq0, ud fun u => { u with ustate := .scheduled, rollback := true }, by decide +kernel⟩,
    ⟨rq0, ud fun u => { u with ustate := .scheduled }, by decide +kernel⟩,
    ⟨rq0, up, by decide +kernel⟩,
    ⟨rq0, ud fun u => { u with ustate := .uncommitted, uncommitted := true }, by decide +kernel⟩⟩
theorem witness_LogAndUpdateRequestsComplete_4 :
    (∃ (rq : Rq) (port : Nat) (s : State), s.tablesOk = true ∧ s.takes (.nodeUpdate rq port) = true ∧ port < 128 ∧ (s.ring port).state ≠ .service) ∧
    (∃ (rq : Rq) (port : Nat) (s : State), s.tablesOk = true ∧ s.takes (.nodeUpdate rq port) = true ∧ port < 128 ∧ (s.ring port).state = .service ∧ s.upd.nodeId = 0) ∧
    (∃ (rq : Rq) (port : Nat) (s : State), s.tablesOk = true ∧ s.takes (.nodeUpdate rq port) = true ∧ port < 128 ∧ (s.ring port).state = .service ∧ s.upd.nodeId ≠ 0 ∧ s.upd.ustate = .scheduled) ∧
    (∃ (rq : Rq) (port : Nat) (s : State), s.tablesOk = true ∧ s.takes (.nodeUpdate rq port) = true ∧ port < 128 ∧ (s.ring port).state = .service ∧ s.upd.nodeId ≠ 0 ∧ s.upd.ustate ≠ .scheduled ∧ s.upd.node.isSome = true) ∧
    (∃ (rq : Rq) (port : Nat) (s : State), ∃ pos, ∃ (rest : List Nat), s.tablesOk = true ∧ s.takes (.nodeUpdate rq port) = true ∧ port < 128 ∧ (s.ring port).state = .service ∧ s.upd.nodeId ≠ 0 ∧ s.upd.ustate ≠ .scheduled ∧ s.upd.node = none ∧ s.nodeTargets port = pos :: rest) :=
  ⟨⟨rq0, 5, upIn .service, by decide +kernel⟩,
    ⟨rq0, 5, (svc 3 id).onSys fun y => { y with mode := .service }, by decide +kernel⟩,
    ⟨rq0, 5, ((svc 3 id).onSys fun y => { y with mode := .service }).onUpd fun u => { u with nodeId := 9, ustate := .scheduled }, by decide +kernel⟩,
    ⟨rq0, 5, ((svc 3 id).onSys fun y => { y with mode := .service }).onUpd fun u => { u with nodeId := 9, node := some ⟨5, [1], 0, false, none, false⟩ }, by decide +kernel⟩,
    ⟨rq0, 5, ((svc 3 fun r => { r with nodes := 1 }).onSys fun y => { y with mode := .service }).onUpd (fun u => { u with nodeId := 9, nodeVer := (1, 1), nodeBytes := [1, 2, 3] }), 3, ([] : List Nat), by decide +kernel⟩⟩
theorem witness_RecordsAndSwapsFollowTheirRules_1 :
    (∃ (e : Rec) (v : Ev) (rest : List Ev) (s : State), s.recs.queue = v :: rest ∧ s.tailRoom = true ∧ (s.sys.run = .running ∨ s.sys.run = .recovery) ∧ s.recs.tail.getLast? = some e ∧ e.closed = false ∧ e.ev = v ∧ e.rep < 65534) ∧
    (∃ (v : Ev) (rest : List Ev) (s : State), s.tablesOk = true ∧ s.recs.queue = v :: rest ∧ s.tailRoom = true ∧ s.sys.run = .running ∧ (∀ e, s.recs.tail.getLast? = some e → e.closed = true) ∧ (s.page 0).notes.length < 256) ∧
    (∃ (s : State), 128 ≤ (s.recs.unprogrammed.filter Rec.closed).length ∧ s.sys.holdup = false) ∧
    (∃ (_ : Nat) (_ : Nat) (s : State), 0 < s.recs.spare) ∧
    (∃ (region : Nat) (_ : Nat) (s : State), s.recs.spare = 0 ∧ region ∈ s.recs.nvFailed) ∧
    (∃ (region : Nat) (_ : Nat) (s : State), s.recs.spare = 0 ∧ region ∉ s.recs.nvFailed) ∧
    (∃ (s : State), s.tablesOk = true ∧ s.power.vmain = true ∧ s.sys.holdup = false ∧ (tget cnt0 s.recs.counters (cntKey 0 0 0)).length = 5) ∧
    (∃ (v : Nat) (us_ : Nat) (s : State), s.power.pwrgd = true ∧ s.power.vmain = true ∧ s.sys.holdup = false ∧ v < 300 ∧ 200 ≤ us_ ∧ s.power.armed = true) ∧
    (∃ (v : Nat) (us_ : Nat) (s : State), s.power.pwrgd = true ∧ s.power.vmain = true ∧ s.sys.holdup = false ∧ v < 300 ∧ 200 ≤ us_ ∧ s.power.armed = false) ∧
    (∃ (_ : List (Nat × Nat)) (s : State), s.sys.holdup = true) ∧
    (∃ (s : State), s.tablesOk = true ∧ (s.mark 15).en = true ∧ s.beam.cycWall ≠ BitVec.allOnes 64 ∧ s.beam.actGate.toNat ≤ s.beam.cycWall.toNat ∧ s.beam.atZero = true ∧ (∀ i < 15, (s.mark i).due s.clock s.beam.angleWord = false) ∧ s.upd.ustate = .scheduled ∧ s.sys.run = .running) ∧
    (∃ (s : State), (s.beam.cycWall = BitVec.allOnes 64 ∨ s.beam.cycWall.toNat < s.beam.actGate.toNat ∨ s.beam.atZero = false ∨ (∃ i < 15, (s.mark i).due s.clock s.beam.angleWord = true))) :=
  ⟨⟨rcd 1 false, mkEv 0x0601 [1, 2], [], lg fun r => { r with queue := [mkEv 0x0601 [1, 2]], tail := [rcd 1 false], nextSeq := 2 }, by decide +kernel⟩,
    ⟨mkEv 0x0601 [1, 2], [], lg fun r => { r with queue := [mkEv 0x0601 [1, 2]], tail := [rcd 1 true], nextSeq := 0xFFFFFFFF }, by decide +kernel⟩,
    ⟨lg fun r => { r with tail := (List.range 128).map fun n => rcd (n + 1) true }, by decide +kernel⟩,
    ⟨3, 70000, up, by decide +kernel⟩,
    ⟨3, 70000, lg fun r => { r with spare := 0, nvFailed := [3] }, by decide +kernel⟩,
    ⟨3, 70000, lg fun r => { r with spare := 0 }, by decide +kernel⟩,
    ⟨up, by decide +kernel⟩,
    ⟨299, 200, sup fun p => p, by decide +kernel⟩,
    ⟨299, 200, sup fun p => { p with armed := false }, by decide +kernel⟩,
    ⟨[(4, 1)], up.onSys fun y => { y with holdup := true }, by decide +kernel⟩,
    ⟨(((ptp fun u => { u with ustate := .scheduled }).modMark 15 fun m => { m with en := true }).onBeam fun b => { b with cycWall := 9#64, actGate := 9#64 }), by decide +kernel⟩,
    ⟨((ptp fun u => { u with ustate := .scheduled }).modMark 15 fun m => { m with en := true }).onBeam fun b => { b with cycWall := 8#64, actGate := 9#64 }, by decide +kernel⟩⟩
theorem witness_RecordsAndSwapsFollowTheirRules_2 :
    (∃ (s : State), s.tablesOk = true ∧ s.upd.ustate = .scheduled ∧ s.upd.actAt + 86400 * 200000000 ≤ s.clock) ∧
    (∃ (s : State), s.clock < s.upd.actAt + 86400 * 200000000) ∧
    (∃ (_ : Nat) (_ : Nat) (_ : List Nat) (s : State), s.tablesOk = true ∧ s.sys.run = .restarting ∧ 6 ≤ s.power.stage ∧ s.upd.handAt.isSome = true) ∧
    (∃ (_ : Nat) (_ : Nat) (_ : List Nat) (s : State), s.sys.run = .restarting ∧ s.power.stage = 5 ∧ s.upd.handAt.isSome = true ∧ s.upd.uncommitted = false) ∧
    (∃ (u : NodeUpd) (a : Nat) (s : State), s.upd.node = some u ∧ u.since = some a ∧ a + 10 * 200000000 ≤ s.clock) :=
  ⟨⟨{ (ptp fun u => { u with ustate := .scheduled, actAt := 5 }) with clock := 20000000000000 }, by decide +kernel⟩,
    ⟨(ptp fun u => { u with ustate := .scheduled, actAt := 5 }), by decide +kernel⟩,
    ⟨1, 2, [0x5101], (startAt 6).onUpd fun u => { u with uncommitted := true, ustate := .uncommitted, oldVer := 258, swap := 1 }, by decide +kernel⟩,
    ⟨1, 2, [0x5101], startAt 5, by decide +kernel⟩,
    ⟨⟨5, [3, 1], 0, true, some 100, true⟩, 100, (late up).onUpd fun u => { u with node := some ⟨5, [3, 1], 0, true, some 100, true⟩ }, by decide +kernel⟩⟩
theorem witness_SuppliesAndStartUpFollowTheirRules_1 :
    (∃ (vmain : Nat) (vana : Nat) (_ : Bool) (_ : Bool) (s : State), s.tablesOk = true ∧ s.power.pwrgd = false ∧ 360 < vmain ∧ 360 < vana) ∧
    (∃ (_ : Bool) (s : State), s.romRuns = true ∧ s.sys.run = .rom ∧ s.power.test = true) ∧
    (∃ (_ : Bool) (s : State), s.romRuns = true ∧ s.sys.run = .rom ∧ s.power.test = false ∧ s.sys.bootFails < 3 ∧ s.sys.recovPin = true) ∧
    (∃ (_ : Bool) (s : State), s.romRuns = true ∧ s.sys.run = .rom ∧ s.power.test = false ∧ 3 ≤ s.sys.bootFails) ∧
    (∃ (_ : Bool) (s : State), s.romRuns = true ∧ (s.sys.run = .rom → s.power.test = false ∧ s.sys.recovPin = false) ∧ s.sys.bootFails < 3) ∧
    (∃ (kind : Nat) (s : State), ((kind = 1 ∧ s.romRuns = true) ∨ (kind = 2 ∧ s.sys.run ≠ .rom ∧ s.sys.run ≠ .recovery ∧ ∃ a, s.upd.handAt = some a ∧ a + 5 * 200000000 ≤ s.clock)) ∧ s.sys.bootFails < 2) ∧
    (∃ (kind : Nat) (s : State), ((kind = 1 ∧ s.romRuns = true) ∨ (kind = 2 ∧ s.sys.run ≠ .rom ∧ s.sys.run ≠ .recovery ∧ ∃ a, s.upd.handAt = some a ∧ a + 5 * 200000000 ≤ s.clock)) ∧ 2 ≤ s.sys.bootFails) ∧
    (∃ (cause : Nat) (s : State), s.tablesOk = true ∧ s.romRuns = true ∧ ((cause = 1 ∧ 3 ≤ s.sys.bootFails) ∨ (cause = 2 ∧ s.sys.run = .rom ∧ s.sys.recovPin = true) ∨ cause = 3)) ∧
    (∃ (s : State), s.sys.run = .recovery ∧ s.upd.ready = true) ∧
    (∃ (s : State), (s.sys.run ≠ .recovery ∨ s.upd.ready = false)) ∧
    (∃ (_ : List Nat) (_ : List Nat) (_ : List Nat) (_ : Bool) (s : State), s.tablesOk = true ∧ s.sys.run = .restarting ∧ s.power.stage = 3 ∧ s.upd.handAt.isSome = true) ∧
    (∃ (_ : List (Nat × Nat × List Nat)) (s : State), s.tablesOk = true ∧ s.sys.run = .restarting ∧ s.power.stage = 5) :=
  ⟨⟨361, 361, true, false, (withStr.onPower fun p => { p with pwrgd := false, vmain := false, vana := false }).modStr k3 fun q => { q with causes := [5], welded := true }, by decide +kernel⟩,
    ⟨true, (romSt id).onPower fun p => { p with test := true }, by decide +kernel⟩,
    ⟨true, (romSt id).onSys fun y => { y with recovPin := true }, by decide +kernel⟩,
    ⟨true, (romSt id).onSys fun y => { y with bootFails := 3 }, by decide +kernel⟩,
    ⟨true, romSt id, by decide +kernel⟩,
    ⟨2, (late up).onUpd fun u => { u with handAt := some 0, uncommitted := true, ustate := .uncommitted }, by decide +kernel⟩,
    ⟨1, (romSt id).onSys fun y => { y with bootFails := 2 }, by decide +kernel⟩,
    ⟨3, romSt id, by decide +kernel⟩,
    ⟨(up.onSys fun y => { y with run := .recovery }).onUpd fun u => { u with ready := true }, by decide +kernel⟩,
    ⟨up.onSys fun y => { y with recovPin := true }, by decide +kernel⟩,
    ⟨[3], [], [], true, ((startAt 3).onRecs fun r => { r with cfgValid := true }).onUpd fun u => { u with store := some Store.reset, ustate := .scheduled, actWall := 7#64 }, by decide +kernel⟩,
    ⟨[], (startAt 5).onRecs fun r => { r with cfgValid := true }, by decide +kernel⟩⟩
theorem witness_SuppliesAndStartUpFollowTheirRules_2 :
    (∃ (v : Nat) (_ : Nat) (_ : State), 360 < v) ∧
    (∃ (v : Nat) (ms_ : Nat) (s : State), v < 340 ∧ 10 ≤ ms_ ∧ s.power.pwrgd = true ∧ s.power.vmainLow = false) ∧
    (∃ (v : Nat) (us_ : Nat) (s : State), s.power.pwrgd = true ∧ s.power.vmain = true ∧ s.power.vanaLost = false ∧ s.sys.holdup = false ∧ v < 300 ∧ 200 ≤ us_) ∧
    (∃ (v : Nat) (ms_ : Nat) (_ : List (Nat × Nat × List Nat)) (s : State), s.tablesOk = true ∧ s.power.pwrgd = true ∧ s.power.vanaLost = true ∧ s.sys.holdup = false ∧ 360 < v ∧ 100 ≤ ms_) ∧
    (∃ (top : Nat) (ms_ : Nat) (s : State), s.power.pwrgd = true ∧ s.sys.holdup = false ∧ (1000 < top ∨ (750 < top ∧ 500 < ms_)) ∧ s.power.vana = true ∧ s.sys.shut = false ∧ s.sys.run ≠ .recovery) ∧
    (∃ (top : Nat) (ms_ : Nat) (s : State), s.power.pwrgd = true ∧ s.sys.holdup = false ∧ (1000 < top ∨ (750 < top ∧ 500 < ms_)) ∧ s.power.vmain = true ∧ s.power.armed = true) ∧
    (∃ (top : Nat) (ms_ : Nat) (s : State), s.power.pwrgd = true ∧ s.sys.holdup = false ∧ (1000 < top ∨ (750 < top ∧ 500 < ms_)) ∧ s.power.vmain = true ∧ s.power.armed = false) ∧
    (∃ (vio : Nat) (ms_ : Nat) (s : State), s.tablesOk = true ∧ s.power.pwrgd = true ∧ s.power.vioOk = true ∧ s.vioIn vio = false ∧ 10 ≤ ms_) ∧
    (∃ (vio : Nat) (s : State), s.power.vioOk = false ∧ s.vioIn vio = true) ∧
    (∃ (bank : Nat) (s : State), s.power.pwrgd = true ∧ s.power.armed = false ∧ 650 ≤ bank) ∧
    (∃ (bank : Nat) (s : State), s.power.pwrgd = true ∧ s.power.armed = false ∧ bank < 650 ∧ s.power.goodAt + 2 * 200000000 ≤ s.clock ∧ s.power.holdupFault = false) :=
  ⟨⟨361, 0, sup fun p => { p with vmainLow := true }, by decide +kernel⟩,
    ⟨339, 10, sup fun p => p, by decide +kernel⟩,
    ⟨299, 200, (sweeping), by decide +kernel⟩,
    ⟨361, 100, [], (late sweeping).onPower fun p => { p with vanaLost := true, vana := false, recheck := [5] }, by decide +kernel⟩,
    ⟨1001, 0, up, by decide +kernel⟩,
    ⟨751, 501, up, by decide +kernel⟩,
    ⟨751, 501, sup fun p => { p with armed := false }, by decide +kernel⟩,
    ⟨100, 10, chn 3 0 fun c => { c with on := true }, by decide +kernel⟩,
    ⟨330, sup fun p => { p with vioOk := false }, by decide +kernel⟩,
    ⟨650, sup fun p => { p with armed := false }, by decide +kernel⟩,
    ⟨649, sup fun p => { p with armed := false }, by decide +kernel⟩⟩

end Sys2Proof.Tests
end

section
/-! Which point addresses there are, and what a request answers to any other (R15, R325). -/
namespace Sys2Proof.Machine
open Sys2Proof

/-! ### The fields of a point address (R15) -/

/-- The point address of R15's table: KIND, PORT, POS and INPUT at their bits, the reserved bits zero. -/
def pointAddr (temp : Bool) (port pos input : Nat) : Nat := (if temp then 2 ^ 31 else 0) + port * 2 ^ 21 + pos * 2 ^ 5 + input

/-- The ranges of R15's table. -/
def PointFields (temp : Bool) (port pos input : Nat) : Prop :=
  port < 128 ∧ 1 ≤ pos ∧ pos ≤ 65534 ∧ input < if temp then 8 else 32

/-- The address names no port, position and input. -/
def PointUnnamed (p : Nat) : Prop := ∀ port pos input temp, PointFields temp port pos input → p ≠ pointAddr temp port pos input

theorem pointPort_eq (p : Nat) : pointPort p = p / 2 ^ 21 % 128 := rfl
theorem pointPos_eq (p : Nat) : pointPos p = p / 2 ^ 5 % 65536 := rfl
theorem pointInput_eq (p : Nat) : pointInput p = p % 32 := by simp [pointInput, fld]
theorem pointTemp_iff (p : Nat) : pointTemp p = true ↔ p / 2 ^ 31 % 2 = 1 := by simp [pointTemp, Nat.testBit_eq_decide_div_mod_eq]
theorem pointClear_iff (p : Nat) : pointClear p = true ↔ p / 2 ^ 28 % 8 = 0 := decide_eq_true_iff
theorem pointOk_iff (p : Nat) : pointOk p = true ↔
    1 ≤ pointPos p ∧ pointPos p ≤ 65534 ∧ (pointTemp p = true → pointInput p < 8) ∧ p < 2 ^ 32 := decide_eq_true_iff

section
variable {temp : Bool} {port pos input : Nat} (h : PointFields temp port pos input)
include h

/-- Every field in its range fits into its bits, so that none runs into the next. -/
theorem PointFields.fit : port < 2 ^ 7 ∧ pos < 2 ^ 16 ∧ input < 2 ^ 5 := by
  obtain ⟨hp, -, hq, hi⟩ := h
  refine ⟨hp, by omega, ?_⟩
  split at hi <;> omega

theorem pointPort_pointAddr : pointPort (pointAddr temp port pos input) = port := by
  obtain ⟨hp, hq, hi⟩ := h.fit
  rw [pointPort_eq, pointAddr]
  split <;> omega

theorem pointPos_pointAddr : pointPos (pointAddr temp port pos input) = pos := by
  obtain ⟨hp, hq, hi⟩ := h.fit
  rw [pointPos_eq, pointAddr]
  split <;> omega

theorem pointInput_pointAddr : pointInput (pointAddr temp port pos input) = input := by
  obtain ⟨-, -, hi⟩ := h.fit
  rw [pointInput_eq, pointAddr]
  split <;> omega

theorem pointTemp_pointAddr : pointTemp (pointAddr temp port pos input) = temp := by
  obtain ⟨hp, hq, hi⟩ := h.fit
  rw [Bool.eq_iff_iff, pointTemp_iff, pointAddr]
  cases temp <;> simp <;> omega

theorem pointAddr_lt : pointAddr temp port pos input < 2 ^ 32 := by
  obtain ⟨hp, hq, hi⟩ := h.fit
  rw [pointAddr]
  split <;> omega

theorem pointOk_pointAddr : pointOk (pointAddr temp port pos input) = true := by
  rw [pointOk_iff, pointPos_pointAddr h, pointTemp_pointAddr h, pointInput_pointAddr h]
  have hlt := pointAddr_lt h
  obtain ⟨-, h1, hq, hi⟩ := h
  exact ⟨h1, hq, fun ht => by simpa [ht] using hi, hlt⟩

end

/-- The fields read from an address that the model takes lie in R15's ranges. -/
theorem pointFields_of_pointOk {p : Nat} (h : pointOk p = true) : PointFields (pointTemp p) (pointPort p) (pointPos p) (pointInput p) := by
  obtain ⟨h1, hq, hi, -⟩ := (pointOk_iff p).1 h
  refine ⟨Nat.mod_lt _ (by decide), h1, hq, ?_⟩
  split
  · exact hi ‹_›
  · exact Nat.mod_lt _ (by decide)

/-- A 32-bit word whose reserved bits are zero is the address of its own fields. -/
theorem eq_pointAddr_fields {p : Nat} (hlt : p < 2 ^ 32) (hc : pointClear p = true) :
    p = pointAddr (pointTemp p) (pointPort p) (pointPos p) (pointInput p) := by
  rw [pointClear_iff] at hc
  rw [pointAddr, pointPort_eq, pointPos_eq, pointInput_eq]
  have ht := pointTemp_iff p
  split
  case isTrue h => have := ht.1 h; omega
  case isFalse h => have := mt ht.2 h; omega

/-- An address that names no port, position and input is not taken, unless its reserved bits are set. -/
theorem pointOk_of_unnamed {p : Nat} (h : PointUnnamed p) (hc : pointClear p = true) : pointOk p = false := by
  refine Bool.eq_false_iff.2 fun hok => ?_
  obtain ⟨-, -, -, hlt⟩ := (pointOk_iff p).1 hok
  exact h _ _ _ _ (pointFields_of_pointOk hok) (eq_pointAddr_fields hlt hc)

/-! ### The requests that take a point address (R325, R334) -/

theorem State.pointOk_of_cellKnown {s : State} {p : Nat} (h : s.cellKnown p = true) : pointOk p = true := by
  simp only [State.cellKnown, Bool.and_eq_true] at h
  obtain ⟨⟨⟨hok, -⟩, -⟩, -⟩ := h
  exact hok

theorem State.pointOk_of_tempKnown {s : State} {p : Nat} (h : s.tempKnown p = true) : pointOk p = true := by
  simp only [State.tempKnown, Bool.and_eq_true] at h
  obtain ⟨⟨hok, -⟩, -⟩ := h
  exact hok

/-- What `takes` says of a request whose row of the catalogue is known. -/
theorem State.takes_iff {s : State} {c : Instr} {k : Column} (hk : column? c = some k) :
    s.takes c = true ↔ served s k.rq k.op k.modes = true ∧ k.who.admits k.rq.tenant = true := by
  simp [State.takes, hk]

/-- A served read answers its first failing check. -/
theorem readCmd_fail {s : State} {rq : Rq} {op : Nat} {w : Who} {checks : State → List (Bool × Refuse)} {rec : State → List Byte}
    {pre post : List (Bool × Refuse)} {r : Refuse} (h : served s rq op allModes = true) (hw : w.admits rq.tenant = true)
    (hc : checks s = pre ++ (false, r) :: post) (hpre : ∀ c ∈ pre, c.1 = true) :
    readCmd rq op w checks rec s = .next (s.refuse rq op r) := by
  simp only [readCmd, mailbox_served h hw, hc, checked_fail hpre]

/-- What a read answers to an address that names no point: MALFORMED where reserved bits are set (R10), else UNKNOWN_POINT. -/
def pointRefusal (p : Nat) : Refuse := if pointClear p then unknownPoint p else malformed 3

theorem pointRefusal_status_ne_zero (p : Nat) : (pointRefusal p).status ≠ 0 := by
  unfold pointRefusal
  split
  · simp [unknownPoint]
  · simp [malformed]

theorem pointRefusal_of_clear {p : Nat} (h : p / 2 ^ 28 % 8 = 0) : pointRefusal p = ⟨0x0011, 0, p⟩ := by
  rw [pointRefusal, if_pos ((pointClear_iff p).2 h), unknownPoint]

/-- A read that checks its point address first refuses every address that names no point. -/
theorem readCmd_unnamed {s : State} {rq : Rq} {op p : Nat} {w : Who} {known : State → Bool} {rest : State → List (Bool × Refuse)}
    {rec : State → List Byte} (hs : served s rq op allModes = true) (hw : w.admits rq.tenant = true)
    (hk : known s = true → pointOk p = true) (h : PointUnnamed p) :
    readCmd rq op w (fun s => (pointClear p, malformed 3) :: (known s, unknownPoint p) :: rest s) rec s =
      .next (s.refuse rq op (pointRefusal p)) := by
  cases hc : pointClear p with
  | false =>
    rw [pointRefusal, hc]
    exact readCmd_fail (pre := []) hs hw rfl (by simp)
  | true =>
    have hun : known s = false := Bool.eq_false_iff.2 (mt hk (Bool.eq_false_iff.1 (pointOk_of_unnamed h hc)))
    rw [pointRefusal, hc]
    exact readCmd_fail (pre := [(true, malformed 3)]) hs hw (by rw [hun]; rfl) (by simp)

/-- A request of tenant 0 in every mode that is such a read refuses, where it is taken, every address that names no point. -/
theorem exec_unnamed {c : Instr} {s : State} {rq : Rq} {op p : Nat} {known : State → Bool} {rest : State → List (Bool × Refuse)}
    {rec : State → List Byte} (hcol : column? c = some ⟨rq, op, .zero, allModes⟩)
    (hexec : exec c s =
      readCmd rq op .zero (fun s => (pointClear p, malformed 3) :: (known s, unknownPoint p) :: rest s) rec s)
    (hk : known s = true → pointOk p = true) (h : PointUnnamed p) (ht : s.takes c = true) :
    ∃ r : Refuse, exec c s = .next (s.refuse rq op r) ∧ r.status ≠ 0 ∧ (p / 2 ^ 28 % 8 = 0 → r = ⟨0x0011, 0, p⟩) := by
  obtain ⟨hs, hw⟩ := (State.takes_iff hcol).1 ht
  exact ⟨pointRefusal p, hexec.trans (readCmd_unnamed hs hw hk h), pointRefusal_status_ne_zero p, pointRefusal_of_clear⟩

theorem exec_readCell (rq : Rq) (p : Nat) (s : State) : exec (.readCell rq p) s = execReadCell rq p s := by rfl
theorem exec_readTemp (rq : Rq) (p : Nat) (s : State) : exec (.readTemp rq p) s = execReadTemp rq p s := by rfl
theorem exec_readLearned (rq : Rq) (p : Nat) (s : State) : exec (.readLearned rq p) s = execReadLearned rq p s := by rfl
theorem exec_readImpedance (rq : Rq) (p : Nat) (s : State) : exec (.readImpedance rq p) s = execReadImpedance rq p s := by rfl

/-- Settles O49: an address in range is read back field by field, the only word with a point's fields is that point's address, and the
four reads refuse at their first two checks whatever fails this. -/
theorem pointAddressesNameTheirFields : Obligations.PointAddressesNameTheirFields := by
  unfold Obligations.PointAddressesNameTheirFields
  constructor
  · intro port pos input temp hport h1 hpos hinput
    have h : PointFields temp port pos input := ⟨hport, h1, hpos, hinput⟩
    exact ⟨pointPort_pointAddr h, pointPos_pointAddr h, pointInput_pointAddr h, pointTemp_pointAddr h, pointOk_pointAddr h⟩
  · intro rq p s hno
    have h : PointUnnamed p := fun port pos input temp ⟨hport, h1, hpos, hinput⟩ => hno port pos input temp hport h1 hpos hinput
    exact ⟨exec_unnamed rfl (exec_readCell rq p s) State.pointOk_of_cellKnown h,
      exec_unnamed rfl (exec_readTemp rq p s) State.pointOk_of_tempKnown h,
      exec_unnamed rfl (exec_readLearned rq p s) State.pointOk_of_cellKnown h,
      exec_unnamed rfl (exec_readImpedance rq p s) State.pointOk_of_cellKnown h⟩

end Sys2Proof.Machine
end

section
/-! What an instruction of a pass leaves where the pass goes on, and the conditions of BR (R131 to R133, R145, R147). -/
namespace Sys2Proof.Machine
open Sys2Proof

/-! ### Issuing an instruction (R131, R145, R147) -/

/-- The registers an instruction leaves let the pass go on: no fault, within the cycle limit, PC in the code section (R145, R149). -/
def RodCtx.GoesOn (c : RodCtx) (im : Image) : Prop := c.fault = none ∧ c.passCycles ≤ c.maxCycles ∧ c.pc < im.code.length

/-- Registers that let the pass go on are put into the rod as they are. -/
theorem State.afterIssue_of_goesOn {im : Image} {c : RodCtx} (h : c.GoesOn im) (s : State) (n pc : Nat) :
    s.afterIssue n pc im c = s.modRod n fun r => { r with ctx := c } := by
  obtain ⟨hfault, hcycles, hpc⟩ := h
  simp [State.afterIssue, hfault, Nat.not_lt.2 hcycles, Nat.not_le.2 hpc]

/-- What `fetches` says, part by part. -/
theorem State.fetches_iff {s : State} {n w cyc : Nat} : s.fetches n w cyc = true ↔
    (s.rod n).inPass = true ∧ (s.rod n).ctx.fault = none ∧
      ((s.rod n).ctx.word? (s.rodImage n)).map BitVec.toNat = some w ∧ kLegal w = true ∧
      (s.rod n).ctx.pc + 1 < (s.rodImage n).code.length ∧ (s.rod n).ctx.passCycles + cyc ≤ (s.rod n).ctx.maxCycles := by
  simp [State.fetches, and_assoc]

/-- A fetched instruction leaves the pass going on, apart from what it does itself. -/
theorem State.goesOn_fetched {s : State} {n w cyc : Nat} (h : s.fetches n w cyc = true) :
    ((s.rod n).ctx.fetched (s.rodImage n) cyc).GoesOn (s.rodImage n) := by
  obtain ⟨-, hfault, -, -, hpc, hcycles⟩ := State.fetches_iff.1 h
  exact ⟨hfault, hcycles, hpc⟩

section
variable {s : State} {n w cyc stall : Nat} (h : s.fetches n w (cyc + stall) = true)
include h

/-- An instruction that its rod fetches runs on the registers as fetched. -/
theorem State.issueFold_of_fetches (run : Image → RodCtx → RodCtx) (sigs : RodCtx → Rod → Rod) :
    s.issueFold n w cyc stall run sigs =
      (s.modRod n (sigs (s.rod n).ctx)).afterIssue n (s.rod n).ctx.pc (s.rodImage n)
        (run (s.rodImage n) ((s.rod n).ctx.fetched (s.rodImage n) (cyc + stall))) := by
  obtain ⟨hpass, -, hword, hlegal, -, -⟩ := State.fetches_iff.1 h
  obtain ⟨v, hv, rfl⟩ := Option.map_eq_some_iff.1 hword
  simp [State.issueFold, hpass, hv, hlegal, RodCtx.fetched, Nat.add_assoc]

/-- An instruction that its rod fetches and that lets the pass go on puts its result into that rod and changes nothing else. -/
theorem rodRun_goesOn (ht : s.tablesOk = true) {run : Image → RodCtx → RodCtx} {c : RodCtx}
    (hc : run (s.rodImage n) ((s.rod n).ctx.fetched (s.rodImage n) (cyc + stall)) = c) (hgo : c.GoesOn (s.rodImage n)) :
    ∃ t, rodRun n w cyc stall run s = .next t ∧ t.rod n = { s.rod n with ctx := c } ∧ (∀ j, j ≠ n → t.rod j = s.rod j) ∧
      t.recs = s.recs := by
  have htok : tok Rod.reset (s.modRod n fun r => r).sched.rods = true := tok_tset _ _ (State.tablesOk_rod ht)
  refine ⟨(s.modRod n fun r => r).modRod n fun r => { r with ctx := c }, ?_, ?_, ?_, rfl⟩
  · rw [rodRun, State.issue, State.issueFold_of_fetches h, hc, State.afterIssue_of_goesOn hgo]
  · calc ((s.modRod n fun r => r).modRod n fun r => { r with ctx := c }).rod n
      _ = { (s.modRod n fun r => r).rod n with ctx := c } := tget_tmod_same n (fun r : Rod => { r with ctx := c }) htok
      _ = { s.rod n with ctx := c } := by rw [State.rod_modRod_same ht]
  · intro j hj
    rw [State.rod_modRod_ne _ _ hj, State.rod_modRod_ne _ _ hj]

end

/-! ### Transfers -/

theorem ux16_lt (v : Int) : ux 16 v < 65536 := by
  unfold ux
  omega

/-- A 16-bit offset is read back from its field. -/
theorem sx16_ux16 {v : Int} (h1 : -32768 ≤ v) (h2 : v < 32768) : sx 16 (ux 16 v) = v := by
  unfold sx ux
  dsimp only
  split <;> omega

/-- A transfer into the code section moves PC and refills the window there. -/
theorem RodCtx.jump_of_inside (c : RodCtx) {im : Image} {target : Int} (h0 : 0 ≤ target) (h1 : target < im.code.length) :
    c.jump im target = ({ c with pc := target.toNat }).fill im target.toNat false := by
  rw [RodCtx.jump, if_neg (by omega)]

/-- A relative transfer of a fetched instruction counts from that instruction's own address. -/
theorem RodCtx.relJump_of_inside {c : RodCtx} {im : Image} {pc : Nat} {off : Int} (hpc : c.pc = pc + 1) (hlo : -32768 ≤ off)
    (hhi : off < 32768) (h0 : 0 ≤ (pc : Int) + off) (h1 : (pc : Int) + off < im.code.length) :
    c.relJump im off = ({ c with pc := ((pc : Int) + off).toNat }).fill im ((pc : Int) + off).toNat false := by
  have htarget : (c.pc : Int) - 1 + sx 16 (ux 16 off) = (pc : Int) + off := by rw [sx16_ux16 hlo hhi, hpc]; omega
  rw [RodCtx.relJump, htarget, RodCtx.jump_of_inside _ h0 h1]

/-! ### The conditions of BR (R133) -/

/-- R133's table, from the code of a condition to whether it holds. -/
def RodCtx.conditions (c : RodCtx) : List (Nat × Bool) :=
  let m := c.lm.setWidth 32 &&& c.sx_ 8
  [(0, true), (1, c.eq), (2, !c.eq), (3, c.lt), (4, !c.lt), (5, c.gt), (6, !c.gt), (7, m != 0), (8, m == c.sx_ 8), (9, m == 0)]

/-- LM and S8 lies in LM's 16 bits, so that the low half of S8 gives it. -/
theorem setWidth_and_eq (lm : BitVec 16) (x : BitVec 32) : lm.setWidth 32 &&& x = (lm &&& x.setWidth 16).setWidth 32 := by
  ext i hi
  by_cases h : i < 16
  · simp [h, BitVec.getLsbD_eq_getElem hi]
  · simp [h, BitVec.getLsbD_of_ge lm i (by omega)]

theorem setWidth_and_eq_zero_iff (lm : BitVec 16) (x : BitVec 32) : lm.setWidth 32 &&& x = 0 ↔ lm &&& x.setWidth 16 = 0 := by
  rw [setWidth_and_eq]
  generalize lm &&& x.setWidth 16 = y
  bv_omega

theorem setWidth_and_eq_self_iff (lm : BitVec 16) (x : BitVec 32) :
    lm.setWidth 32 &&& x = x ↔ lm &&& x.setWidth 16 = x.setWidth 16 ∧ x.toNat < 65536 := by
  rw [setWidth_and_eq]
  generalize lm &&& x.setWidth 16 = y
  bv_omega

/-- The model's 16-bit form of S8. -/
theorem RodCtx.ofNat_s8 (c : RodCtx) : BitVec.ofNat 16 (c.sx_ 8).toNat = (c.sx_ 8).setWidth 16 := BitVec.ofNat_toNat ..

theorem RodCtx.cond_any (c : RodCtx) : c.cond 7 = (c.lm.setWidth 32 &&& c.sx_ 8 != 0) := by
  rw [Bool.eq_iff_iff, bne_iff_ne, ne_eq, setWidth_and_eq_zero_iff, ← c.ofNat_s8]
  exact decide_eq_true_iff

theorem RodCtx.cond_all (c : RodCtx) : c.cond 8 = (c.lm.setWidth 32 &&& c.sx_ 8 == c.sx_ 8) := by
  rw [Bool.eq_iff_iff, beq_iff_eq, setWidth_and_eq_self_iff, ← c.ofNat_s8]
  exact decide_eq_true_iff

theorem RodCtx.cond_none (c : RodCtx) : c.cond 9 = (c.lm.setWidth 32 &&& c.sx_ 8 == 0) := by
  rw [Bool.eq_iff_iff, beq_iff_eq, setWidth_and_eq_zero_iff, ← c.ofNat_s8]
  exact decide_eq_true_iff

/-- R133's table lists the codes 0 to 9 with the outcome of the model's test. -/
theorem RodCtx.conditions_eq (c : RodCtx) : c.conditions = (List.range 10).map fun cc => (cc, c.cond cc) := by
  simp only [RodCtx.conditions, ← RodCtx.cond_any, ← RodCtx.cond_all, ← RodCtx.cond_none]
  rfl

/-- Every code of R133's table is tested as the table says. -/
theorem RodCtx.cond_of_mem_conditions {c : RodCtx} {cc : Nat} {holds : Bool} (h : (cc, holds) ∈ c.conditions) :
    c.cond (cc % 16) = holds := by
  rw [RodCtx.conditions_eq, List.mem_map] at h
  obtain ⟨code, hcode, heq⟩ := h
  obtain ⟨rfl, rfl⟩ := Prod.mk.inj heq
  have hlt : code < 10 := List.mem_range.1 hcode
  rw [Nat.mod_eq_of_lt (by omega)]

/-- A BR word of a condition that R133 lacks is illegal. -/
theorem kLegal_br_of_le {cc : Nat} (off : Int) (h1 : 10 ≤ cc) (h2 : cc < 16) : kLegal (kB 0x30 cc 0 off) = false := by
  have hoff := ux16_lt off
  have hop : fld (kB 0x30 cc 0 off) 31 26 = 0x30 := by simp only [fld, kB]; omega
  have hd : fld (kB 0x30 cc 0 off) 25 22 = cc := by simp only [fld, kB]; omega
  simp [kLegal, hop, hd, Nat.not_le.2 h1]

/-! ### BR and SCMP of data (R132, R133) -/

theorem exec_br (rod stall cc : Nat) (off : Int) (s : State) : exec (.br rod stall cc off) s = execBr rod stall cc off s := by rfl
theorem exec_scmp (rod stall a b : Nat) (s : State) : exec (.scmp rod stall a b) s = execScmp rod stall a b s := by rfl

section
variable {rod stall cc : Nat} {off : Int} {s : State} (ht : s.tablesOk = true)
  (hf : s.fetches rod (kB 0x30 cc 0 off) (1 + stall) = true)
include ht hf

/-- A BR whose condition does not hold leaves the registers as fetched. -/
theorem exec_br_not_taken (hc : (s.rod rod).ctx.cond (cc % 16) = false) :
    ∃ t, exec (.br rod stall cc off) s = .next t ∧
      t.rod rod = { s.rod rod with ctx := (s.rod rod).ctx.fetched (s.rodImage rod) (1 + stall) } ∧
      (∀ j, j ≠ rod → t.rod j = s.rod j) ∧ t.recs = s.recs :=
  rodRun_goesOn hf ht (if_neg (Bool.eq_false_iff.1 hc)) (State.goesOn_fetched hf)

/-- A BR whose condition holds moves PC by its offset, at 2 further cycles. -/
theorem exec_br_taken (hc : (s.rod rod).ctx.cond (cc % 16) = true) (hlo : -32768 ≤ off) (hhi : off < 32768)
    (h0 : 0 ≤ ((s.rod rod).ctx.pc : Int) + off) (h1 : ((s.rod rod).ctx.pc : Int) + off < (s.rodImage rod).code.length)
    (hcyc : (s.rod rod).ctx.passCycles + 3 + stall ≤ (s.rod rod).ctx.maxCycles) :
    let target := (((s.rod rod).ctx.pc : Int) + off).toNat
    let f := (s.rod rod).ctx.fetched (s.rodImage rod) (1 + stall)
    ∃ t, exec (.br rod stall cc off) s = .next t ∧
      t.rod rod = { s.rod rod with
        ctx := ({ f with pc := target, passCycles := f.passCycles + 2 }).fill (s.rodImage rod) target false } ∧
      (∀ j, j ≠ rod → t.rod j = s.rod j) ∧ t.recs = s.recs := by
  intro target f
  obtain ⟨hfault, -, -⟩ := State.goesOn_fetched hf
  have hrun := RodCtx.relJump_of_inside (c := { f with passCycles := f.passCycles + 2 }) rfl hlo hhi h0 h1
  refine rodRun_goesOn hf ht ((if_pos hc).trans hrun) ⟨hfault, ?_, ?_⟩
  · change (s.rod rod).ctx.passCycles + (1 + stall) + 2 ≤ (s.rod rod).ctx.maxCycles
    omega
  · change (((s.rod rod).ctx.pc : Int) + off).toNat < (s.rodImage rod).code.length
    omega

end

/-- An SCMP of data sets the flags by the values as pass A holds them, in either pass. -/
theorem exec_scmp_data {rod stall a b : Nat} {s : State} (ht : s.tablesOk = true)
    (hf : s.fetches rod (kR 0x1E 0 a b 0 0) (1 + stall) = true) (ha : a % 16 < 8) :
    let c := (s.rod rod).ctx
    ∃ t, exec (.scmp rod stall a b) s = .next t ∧
      t.rod rod = { s.rod rod with
        ctx := { c.fetched (s.rodImage rod) (1 + stall) with
          lt := decide (c.data (c.sd_ a) < c.data (c.sd_ b)), eq := decide (c.sd_ a = c.sd_ b),
          gt := decide (c.data (c.sd_ b) < c.data (c.sd_ a)) } } ∧
      (∀ j, j ≠ rod → t.rod j = s.rod j) ∧ t.recs = s.recs :=
  rodRun_goesOn hf ht (if_pos ha) (State.goesOn_fetched hf)

/-- Values are equal in pass A where they are in the other pass. -/
theorem RodCtx.data_inj {c : RodCtx} {x y : Int} : c.data x = c.data y ↔ x = y := by
  unfold RodCtx.data
  split
  · exact Int.neg_inj
  · exact Iff.rfl

/-- Settles O27: the test reads flags, LM and S8 alone, which a fetch leaves as they stand, a taken BR lands in the code section, and
a data SCMP compares what pass A holds. -/
theorem branchesTestTheirCondition : Obligations.BranchesTestTheirCondition := by
  unfold Obligations.BranchesTestTheirCondition
  refine ⟨?_, ?_, fun cc off => kLegal_br_of_le off⟩
  · intro rod stall cc off holds s ht hf hlo hhi im c target f m hmem hin
    have hc : c.cond (cc % 16) = holds := RodCtx.cond_of_mem_conditions hmem
    cases holds with
    | false => exact exec_br_not_taken ht hf hc
    | true =>
      obtain ⟨h0, h1, hcyc⟩ := hin rfl
      exact exec_br_taken ht hf hc hlo hhi h0 h1 hcyc
  · intro rod stall a b s ht hf ha
    obtain ⟨t, hexec, hrod, -, -⟩ := exec_scmp_data ht hf ha
    refine ⟨t, hexec, ?_⟩
    intro c x y
    rw [hrod]
    exact ⟨rfl, decide_eq_decide.2 RodCtx.data_inj.symm, rfl⟩

end Sys2Proof.Machine
end

section
/-! How many requests of a tenant are outstanding over Ethernet, and what the commands that take requests in do to that number (R292). -/
namespace Sys2Proof.Machine
open Sys2Proof

/-! ### Requests outstanding over Ethernet (R292) -/

/-- Requests of a page outstanding over Ethernet: begun, or waiting for the tenant's turn. -/
def Page.ethLoad (p : Page) : Nat := (p.outstanding.filter (fun o => o.2.1)).length + p.arrived.length

/-- A request that begins counts if it came over Ethernet. -/
theorem Page.ethLoad_begin (p : Page) (tag ringings : Nat) (eth : Bool) :
    { p with outstanding := p.outstanding ++ [(tag, eth, ringings)] }.ethLoad = p.ethLoad + eth.toNat := by
  cases eth
  · simp [Page.ethLoad]
  · simp [Page.ethLoad, Nat.add_right_comm]

/-- A datagram that waits counts. -/
theorem Page.ethLoad_wait (p : Page) (b : List Byte) : { p with arrived := p.arrived ++ [b] }.ethLoad = p.ethLoad + 1 := by
  simp [Page.ethLoad, Nat.add_assoc]

/-- A datagram that waits no longer counts no longer. -/
theorem Page.ethLoad_leave {p : Page} {b : List Byte} {rest : List (List Byte)} (h : p.arrived = b :: rest) :
    { p with arrived := rest }.ethLoad < p.ethLoad := by
  simp [Page.ethLoad, h]

/-- Without what had begun, no more is outstanding. -/
theorem Page.ethLoad_drop_le (p : Page) (e : Nat) : { p with epoch := e, outstanding := [], stored := [] }.ethLoad ≤ p.ethLoad := by
  simp [Page.ethLoad]

/-- Canonical tables with at most m requests of tenant n outstanding over Ethernet. -/
structure EthWithin (n m : Nat) (s : State) : Prop where
  tables : s.tablesOk = true
  load : (s.page n).ethLoad ≤ m

section
variable {n m : Nat} {s : State} (h : EthWithin n m s)
include h

/-! ### The mailbox's operations -/

/-- An operation that leaves the page alone. -/
theorem EthWithin.of_page {pp : List Part} {t : State} (hk : Kept pp s t) (hp : t.page n = s.page n) : EthWithin n m t :=
  ⟨hk.tables h.tables, hp ▸ h.load⟩

/-- A change of a page stays within m where its own tenant does. -/
theorem EthWithin.modPage {k : Nat} {f : Page → Page} (hf : n = k → (f (s.page n)).ethLoad ≤ m) : EthWithin n m (s.modPage k f) := by
  refine ⟨(State.modPage_kept (Kept.refl s) (Sub.refl _)).tables h.tables, ?_⟩
  by_cases hn : n = k
  · subst hn
    rw [State.page_modPage_same h.tables]
    exact hf rfl
  · rw [State.page_modPage_ne s f hn]
    exact h.load

theorem EthWithin.when {c : Bool} {f : State → State} (hf : EthWithin n m (f s)) : EthWithin n m (s.when c f) := by
  cases c
  · exact h
  · exact hf

theorem EthWithin.respond (r : Resp) : EthWithin n m (s.respond r) := by
  refine ⟨(State.respond_kept (Kept.refl s) (Sub.refl _)).tables h.tables, ?_⟩
  unfold State.respond
  dsimp only
  split
  · exact (h.modPage (f := (·.late s.clock)) fun _ => h.load).load
  · exact (h.modPage (f := fun p => { p with waiting := p.waiting ++ [r] }) fun _ => h.load).load

theorem EthWithin.refuse (rq : Rq) (op : Nat) (r : Refuse) : EthWithin n m (s.refuse rq op r) := h.respond _

theorem EthWithin.staleRequest (k : Nat) : EthWithin n m (s.staleRequest k) :=
  ⟨(State.staleRequest_kept (Kept.refl s) (Sub.refl _)).tables h.tables,
    (h.modPage (f := fun p => { p with cntStale := sat16 (p.cntStale + 1), cntAOld := noteOld s.clock p.cntAOld p.cntA }) fun _ => h.load).load⟩

theorem EthWithin.ringFault (k : Nat) : EthWithin n m (s.ringFault k) := by
  refine ⟨(State.ringFault_kept (Kept.refl s) (Sub.refl _)).tables h.tables, ?_⟩
  unfold State.ringFault
  dsimp only
  split
  · exact h.load
  · exact (h.modPage (f := fun p => { p.markB s.clock with rqFault := true, cntFault := sat16 (p.cntFault + 1) }) fun _ => h.load).load

/-- A new epoch ends what had begun; what waits goes on waiting (R273). -/
theorem EthWithin.setEpoch (k v : Nat) : EthWithin n m (s.setEpoch k v) := by
  refine h.modPage fun _ => ?_
  split
  · exact h.load
  · exact Nat.le_trans (Page.ethLoad_drop_le ..) h.load

/-- A request is taken in where there is room for one over Ethernet. -/
theorem EthWithin.takeIn {k : Nat} {d : Hdr} {eth : Bool} {p : List Byte} (hroom : n = k → (s.page n).ethLoad + eth.toNat ≤ m) :
    EthWithin n m (s.takeIn k d eth p) := by
  unfold State.takeIn
  dsimp only
  split
  · exact h.refuse _ _ _
  · split
    · exact h.refuse _ _ _
    · exact h.modPage fun hn => Nat.le_trans (Nat.le_of_eq (Page.ethLoad_begin ..)) (hroom hn)

theorem EthWithin.startTurn (k : Nat) : EthWithin n m (s.startTurn k) :=
  h.of_page (State.startTurn_kept (Kept.refl s) (Sub.refl _)) rfl

/-- A datagram that starts leaves its place to the request it begins. -/
theorem EthWithin.startArrived (k : Nat) : EthWithin n m (s.startArrived k) := by
  unfold State.startArrived
  split
  · exact h
  · next b rest harr =>
    have hleave (hn : n = k) : { s.page n with arrived := rest }.ethLoad < (s.page n).ethLoad := Page.ethLoad_leave (hn ▸ harr)
    have h1 : EthWithin n m ((s.startTurn k).modPage k fun p => { p with arrived := rest }) :=
      (h.startTurn k).modPage fun hn => Nat.le_trans (Nat.le_of_lt (hleave hn)) h.load
    dsimp only
    split
    · exact h1.staleRequest k
    · split
      · exact h1.refuse _ _ _
      · refine h1.takeIn fun hn => ?_
        subst hn
        rw [State.page_modPage_same (h.startTurn n).tables]
        exact Nat.lt_of_lt_of_le (hleave rfl) h.load

theorem EthWithin.serveArrived (fuel : Nat) : EthWithin n m (State.serveArrived fuel s) := by
  induction fuel generalizing s with
  | zero => exact h
  | succ fuel ih =>
    unfold State.serveArrived
    split
    · exact ih (h.startArrived _)
    · exact h

theorem EthWithin.serveRounds : EthWithin n m s.serveRounds := h.serveArrived _

end

/-! ### The two commands -/

theorem State.authFail_page (s : State) (port n : Nat) : (s.authFail port).page n = s.page n := by
  unfold State.authFail
  dsimp only
  split
  · split <;> rfl
  · rfl

theorem State.replayFail_page (s : State) (k n : Nat) : (s.replayFail k).page n = s.page n := by
  unfold State.replayFail
  dsimp only
  split
  · split <;> rfl
  · rfl

theorem exec_mailboxDatagram (port : Nat) (b : List Byte) (net : Bool) (s : State) :
    exec (.mailboxDatagram port b net) s = execMailboxDatagram port b net s := by rfl
theorem exec_requestFetch (k : Nat) (slot : List Byte) (ok : Bool) (s : State) :
    exec (.requestFetch k slot ok) s = execRequestFetch k slot ok s := by rfl

section
variable {n : Nat} {s t : State}

/-- A request over Ethernet is taken in where less than 64 are outstanding. -/
theorem EthWithin.ethRequest (h : EthWithin n 64 s) (d : Hdr) (body : List Byte) : EthWithin n 64 (s.ethRequest d body) := by
  unfold State.ethRequest
  extract_lets k i set s1 q
  have h1 : EthWithin n 64 s1 := h.when ((h.setEpoch k d.epoch).modPage fun _ => (h.setEpoch k d.epoch).load)
  split
  · exact h1.staleRequest k
  · split
    · exact h1
    · split
      · exact h1.staleRequest k
      · split
        · exact h1.respond _
        · split
          · exact h1.refuse _ _ _
          · next hfew =>
            have hroom (hn : n = k) : (s1.page n).ethLoad < 64 := Nat.not_le.1 (hn ▸ hfew)
            split
            · exact h1.takeIn hroom
            · exact (h1.modPage fun hn => Nat.le_trans (Nat.le_of_eq (Page.ethLoad_wait ..)) (hroom hn)).serveRounds

theorem EthWithin.of_onlyIf {m : Nat} {c : Bool} {f : State → State} (h : EthWithin n m s) (hf : EthWithin n m (f s))
    (he : onlyIf c f s = .next t) : EthWithin n m t := by
  cases c
  · cases he
    exact h
  · cases he
    exact hf

theorem EthWithin.of_mailboxDatagram {port : Nat} {b : List Byte} {net : Bool} (h : EthWithin n 64 s)
    (he : exec (.mailboxDatagram port b net) s = .next t) : EthWithin n 64 t := by
  rw [exec_mailboxDatagram, execMailboxDatagram] at he
  refine h.of_onlyIf ?_ he
  have hauth : EthWithin n 64 (s.authFail port) := h.of_page (State.authFail_kept (Kept.refl s) (Sub.refl _)) (s.authFail_page ..)
  split
  · exact hauth
  · split
    · exact (h.modPage fun _ => h.load).ethRequest _ _
    · split
      · exact hauth
      · split
        · exact h.of_page (State.replayFail_kept (Kept.refl s) (Sub.refl _)) (s.replayFail_page ..)
        · exact (h.modPage fun _ => h.load).ethRequest _ _

/-- A fetched request begins over PCI Express, and what waits over Ethernet then may start. -/
theorem EthWithin.of_requestFetch {m k : Nat} {slot : List Byte} {ok : Bool} (h : EthWithin n m s)
    (he : exec (.requestFetch k slot ok) s = .next t) : EthWithin n m t := by
  rw [exec_requestFetch, execRequestFetch] at he
  refine h.of_onlyIf ?_ he
  have h1 : EthWithin n m (s.modPage k fun p => { p with rqHead := (p.rqHead + 1) % 65536 }) := h.modPage fun _ => h.load
  split
  · exact h.ringFault k
  · dsimp only
    split
    · exact h1.staleRequest k
    · exact ((h1.startTurn k).takeIn (eth := false) fun _ => (h1.startTurn k).load).serveRounds

/-- In D0 a response joins the responses that wait on its page. -/
theorem page_respond_d0 {r : Resp} {p : Page} (ht : s.tablesOk = true) (hd : s.sys.d3 = false) (hp : s.page r.rq.tenant = p) :
    (s.respond r).page r.rq.tenant = { p with waiting := p.waiting ++ [r] } := by
  rw [respond_d0 hd, State.wake_page, State.page_modPage_same ht, hp]

/-- The answer QUEUE_FULL to a request over Ethernet (R292). -/
def Hdr.queueFull (d : Hdr) : Resp := ⟨d.op, d.rq true, 0x0007, 0, 64, [], [], false, false, false⟩

/-- A request of the present epoch with a free tag, without EPOCH_SET and RETRY, that finds 64 outstanding is answered
QUEUE_FULL and nothing else happens (R292). -/
theorem State.ethRequest_full {d : Hdr} {body : List Byte} (hset : d.flags.testBit 2 = false) (hretry : d.flags.testBit 1 = false)
    (hepoch : d.epoch = (s.page d.tenant).epoch) (hfree : (s.page d.tenant).busyTag d.tag = false)
    (hfull : 64 ≤ (s.page d.tenant).ethLoad) :
    s.ethRequest d body = s.respond d.queueFull := by
  unfold State.ethRequest
  simp only [hset, Bool.false_and, State.when_false, hretry, hfree, hepoch, ne_eq, not_true_eq_false, if_false,
    Bool.false_eq_true, false_and]
  exact if_pos hfull

/-- What a fresh authentic datagram leaves on its page: its SEQ in the replay window, and the key slot that answers use (R288, R290). -/
def Page.noteAuthentic (i seq : Nat) (p : Page) : Page := { p.accept i seq with lastSlot := i, ethPeer := true }

/-- A datagram that is fresh and authentic, and no first key-install, is taken for a request. -/
theorem exec_mailboxDatagram_authentic {port : Nat} {b : List Byte} {net : Bool} (hopen : s.ethOpen port = true)
    (hhold : s.sys.holdup = false) (hserv : s.serving = true) :
    let d := Hdr.of b
    let body := b.take (16 + d.len)
    let i := fld d.flags 4 4
    b.length = 48 + d.len → s.firstKey port d (body.drop 16) net = false → s.macOk d.tenant i body (b.drop (16 + d.len)) = true →
      (s.page d.tenant).fresh i d.seq = true →
      exec (.mailboxDatagram port b net) s = .next ((s.modPage d.tenant (Page.noteAuthentic i d.seq)).ethRequest d body) := by
  intro d body i hlen hkey hmac hfresh
  simp only [exec_mailboxDatagram, execMailboxDatagram, onlyIf, hopen, hhold, hserv, Bool.not_false, Bool.and_self, if_true]
  rw [if_neg (fun hne => hne hlen), if_neg (by rw [hkey]; decide), if_neg (by rw [hmac]; decide), if_neg (by rw [hfresh]; decide)]
  rfl

end

/-- Settles O46: only the datagram adds to what is outstanding over Ethernet, where less than 64 are; a datagram that starts moves from
what waits to what has begun, and a fetched request is outstanding over PCI Express. -/
theorem ethernetQueueHolds64 : Obligations.EthernetQueueHolds64 := by
  unfold Obligations.EthernetQueueHolds64
  refine ⟨?_, ?_⟩
  · rintro c s t n ht (⟨port, b, net, rfl⟩ | ⟨m, slot, ok, rfl⟩) he hle
    · exact (EthWithin.of_mailboxDatagram ⟨ht, hle⟩ he).load
    · exact (EthWithin.of_requestFetch ⟨ht, hle⟩ he).load
  · intro port b net s ht hopen hhold hserv hd3 h body i n hlen hkey hmac hfresh hset hretry hepoch hfree hfull
    have hu : (s.modPage n (Page.noteAuthentic i h.seq)).tablesOk = true :=
      (State.modPage_kept (Kept.refl s) (Sub.refl _)).tables ht
    have hp : (s.modPage n (Page.noteAuthentic i h.seq)).page n = (s.page n).noteAuthentic i h.seq :=
      State.page_modPage_same ht ..
    have hanswer : (s.modPage n (Page.noteAuthentic i h.seq)).ethRequest h body =
        (s.modPage n (Page.noteAuthentic i h.seq)).respond h.queueFull :=
      State.ethRequest_full hset hretry (hp ▸ hepoch) (hp ▸ hfree) (hp ▸ hfull)
    have hpage : ((s.modPage n (Page.noteAuthentic i h.seq)).respond h.queueFull).page n = _ := page_respond_d0 hu hd3 hp
    refine ⟨_, h.queueFull, (exec_mailboxDatagram_authentic hopen hhold hserv hlen hkey hmac hfresh).trans
      (congrArg _ hanswer), ?_, ?_, ?_, rfl, rfl, rfl, State.respond_pending ..⟩ <;>
    · rw [hpage]
      rfl

end Sys2Proof.Machine
end
